-- ==== Sys2Proof/Word.lean ====
section
/-! DEFINITION. The word types of the DTN9256 model. Registers are 32 bits wide (R7), an engine
accumulator 72 bits (ch. 03), table entries 64 bits (R60, R64, R131), the tick count 48 bits (R50). -/

namespace Sys2Proof

/-- One byte of the address space. -/
abbrev Byte := BitVec 8

/-- One register or memory word (R7: 32 bits, little-endian). -/
abbrev Word := BitVec 32

/-- A 64-bit table entry, time or counter. -/
abbrev DWord := BitVec 64

end Sys2Proof
end

