-- ==== Sys2Proof/Machine/Bits.lean ====
section
/-! DEFINITION. Bit fields, sign extension, saturation and byte order: the plain helpers of every
meaning. A register field is a bit range [hi:lo] of a 32-bit word, read as a number. -/

namespace Sys2Proof.Machine

/-- A register field: its highest and lowest bit. -/
structure Fld where
  hi : Nat
  lo : Nat
  deriving DecidableEq, Repr

/-- The number of values a field takes. -/
def fldCard (f : Fld) : Nat := 2 ^ (f.hi + 1 - f.lo)

/-- The field's bits as ones. -/
def fldMask (f : Fld) : Word := BitVec.ofNat 32 ((fldCard f - 1) * 2 ^ f.lo)

/-- Read a field as a number. -/
def fget (w : Word) (f : Fld) : Nat := w.toNat / 2 ^ f.lo % fldCard f

/-- Write a field; the value is cut to the field's width. -/
def fset (w : Word) (f : Fld) (v : Nat) : Word :=
  (w &&& ~~~ (fldMask f)) ||| BitVec.ofNat 32 (v % fldCard f * 2 ^ f.lo)

/-- Bit `i` of a number. -/
def nbit (n i : Nat) : Bool := n / 2 ^ i % 2 == 1

/-- Bits [hi:lo] of a number. -/
def nbits (n hi lo : Nat) : Nat := n / 2 ^ lo % 2 ^ (hi + 1 - lo)

/-- A truth value as a bit. -/
def bit (b : Bool) : Nat := if b then 1 else 0

/-- Set or clear bit `i` of a number. -/
def nbitSet (n i : Nat) (b : Bool) : Nat :=
  if nbit n i = b then n else if b then n + 2 ^ i else n - 2 ^ i

/-- A counter that stops at its highest value. -/
def satInc (top n k : Nat) : Nat := min top (n + k)

/-- The number `n`, read as a signed number of `w` bits. -/
def signed (w n : Nat) : Int :=
  let m := n % 2 ^ w
  if m < 2 ^ (w - 1) then (m : Int) else (m : Int) - 2 ^ w

/-- The `w`-bit two's complement code of an integer. -/
def unsigned (w : Nat) (i : Int) : Nat := (i % (2 ^ w : Int)).toNat

/-- An integer limited to `w` signed bits. -/
def satS (w : Nat) (i : Int) : Int :=
  max (-(2 ^ (w - 1) : Int)) (min (2 ^ (w - 1) - 1 : Int) i)

/-- Whether `w` signed bits hold the integer. -/
def fitsS (w : Nat) (i : Int) : Bool := decide (satS w i = i)

/-- An integer limited to a band. -/
def clampI (lo hi i : Int) : Int := max lo (min hi i)

/-- The word of an integer, wrapping. -/
def wordOfInt (i : Int) : Word := BitVec.ofInt 32 i

/-- Byte `i` of a word, byte 0 the least significant (R7: little-endian). -/
def wordByte (w : Word) (i : Nat) : Byte := BitVec.ofNat 8 (w.toNat / 256 ^ i)

/-- The word of four bytes, the first the least significant. -/
def wordOfBytes (a b c d : Byte) : Word :=
  BitVec.ofNat 32 (a.toNat + 256 * b.toNat + 65536 * c.toNat + 16777216 * d.toNat)

/-- The numbers 0 to n − 1. -/
def upto : Nat → List Nat
  | 0 => []
  | n + 1 => upto n ++ [n]

/-- The lowest element that a test names, with the list's own order. -/
def firstWith {α : Type} (p : α → Bool) : List α → Option α
  | [] => none
  | x :: t => if p x then some x else firstWith p t

/-- The signed comparison of two tick counts or marks as serial numbers modulo 2^32: `a` is newer. -/
def newerMark (a b : Word) : Bool := decide (0 < (a - b).toInt)

/-- One bit of a reflected CRC with polynomial `poly`. -/
def crcStep (poly c : Nat) : Nat := if c % 2 = 1 then (c / 2) ^^^ poly else c / 2

/-- One byte of a reflected CRC. -/
def crcFold (poly c b : Nat) : Nat := (upto 8).foldl (fun c _ => crcStep poly c) (c ^^^ (b % 256))

/-- The register of a reflected CRC after bytes. The two last cases are one: the match has the register worked out at every byte. -/
def crcRun (poly : Nat) : Nat → List Nat → Nat
  | c, [] => c
  | 0, b :: t => crcRun poly (crcFold poly 0 b) t
  | c + 1, b :: t => crcRun poly (crcFold poly (c + 1) b) t

/-- The CRC-32 of IEEE 802.3 over bytes, the register started at `init` (R490, R501, R566). -/
def crc32From (init : Nat) (l : List Nat) : Nat := 0xFFFFFFFF ^^^ crcRun 0xEDB88320 init l

/-- The CRC-32 of IEEE 802.3. -/
def crc32 (l : List Nat) : Nat := crc32From 0xFFFFFFFF l

/-- The CRC-32C of R518. -/
def crc32c (l : List Nat) : Nat := 0xFFFFFFFF ^^^ crcRun 0x82F63B78 0xFFFFFFFF l

/-- One bit of the CRC-16 of R306, from the most significant side. -/
def crc16Step (c : Nat) : Nat := if 32768 ≤ c then (2 * c % 65536) ^^^ 0x1021 else 2 * c

/-- The CRC-16 of the cell link (R306): polynomial 0x1021, initial value 0xFFFF, most significant bit first, no final inversion. -/
def crc16 (l : List Nat) : Nat := l.foldl (fun c b => (upto 8).foldl (fun c _ => crc16Step c) (c ^^^ (b % 256 * 256))) 0xFFFF

/-- The bytes of a word, least significant first. -/
def wordBytes (w : Word) : List Nat := (upto 4).map fun i => (wordByte w i).toNat

/-- A number as bytes, the most significant first. -/
def beBytes (n v : Nat) : List Nat := (upto n).map fun i => v / 256 ^ (n - 1 - i) % 256

/-- The number of bytes, the most significant first. -/
def beNat (l : List Nat) : Nat := l.foldl (fun n b => 256 * n + b % 256) 0

/-- The number of bytes, the least significant first. -/
def leNat : List Nat → Nat
  | [] => 0
  | b :: t => b % 256 + 256 * leNat t

/-- The number that `n` bytes from place `i` on spell, the least significant first. -/
def leAt (l : List (BitVec 8)) (i n : Nat) : Nat := leNat (((l.drop i).take n).map fun b => b.toNat)

end Sys2Proof.Machine
end

