-- ==== Sys2Proof/Config.lean ====
section
/-! DEFINITION. What a device is configured with, and what the spec leaves open.
First the Klotecy image as the loader has read it (ch. 14): its header and the headers of its sections as they are in the image, and what the
sections hold as decoded values, because the spec gives their byte layout only in outline (assumption log 7, DESIGN CHOICE).
Then the free values: constants without a body, so that no proof can see what they are. -/

namespace Sys2Proof

/-! ## The Klotecy image (R444–R446) -/

/-- A section: TYPE, FLAGS, LEN, the bytes of its value and the padding after them (R446). -/
structure Sect where
  type : BitVec 16
  flags : BitVec 16
  len : BitVec 32
  value : List (BitVec 8)
  pad : List (BitVec 8)
  deriving DecidableEq, Repr

/-- A delivery area of an engine's data memory, in words (R88). -/
structure Area where
  eng : Nat
  lo : Nat
  hi : Nat
  deriving DecidableEq, Repr

/-- A placement group of the PLACE section (R114): its members in order, its spare, its state area. -/
structure Group where
  id : Nat
  polder : Nat
  triple : Bool
  members : List Nat
  spare : Option Nat
  base : Nat
  len : Nat
  deriving DecidableEq, Repr

/-- A placed ROM segment of the INST section (R143–R145): its copy starts at table word `seg` on
every engine that runs it, `live` is the byte address of its live block in data memory, `fixed` the byte offset of its fixed
block in the table bank. -/
structure Placed where
  polder : Nat
  engine : Nat
  group : Nat
  segId : Nat
  seg : Nat
  live : Nat
  fixed : Nat
  isol : Bool
  deriving DecidableEq, Repr

/-- A polder sub-image (R444–R446): its 64-byte header, its sections, SIG among them, and what the sections hold. `latches` holds runs of
entries, each after 64 × cluster + first entry. -/
structure SubImage where
  header : List (BitVec 8)
  sects : List Sect
  tables : List (Nat × List (BitVec 128))
  dmem : List (Nat × List (Nat × Word))
  areas : List Area
  steps : List (Nat × List DWord)
  rules : List DWord
  roles : Word
  csrc : List Word
  latches : List (Nat × List DWord)
  groups : List Group
  insts : List Placed
  cycles : List (Nat × Nat × Nat)
  regs : List (Nat × Word)
  taps : List (Nat × Nat × Word)
  cmpDest : List (Nat × Nat)
  encDest : List (Nat × Nat × Nat)
  portDest : List (Nat × Nat × Nat)
  migrate : Option (List (Nat × Nat))
  deriving DecidableEq, Repr

/-- A full image (R444–R446): its header, its sections, and what they hold. `resmap` gives the polder of a resource by its place in
POLD.RMAP (R421); `keys` the public keys of polders 1–7, as x · 2^384 + y, where KEYS marks one present. -/
structure FullImage where
  header : List (BitVec 8)
  sects : List Sect
  resmap : List (Nat × Nat)
  binds : List Word
  sysregs : List (Nat × Word)
  tempos : List Nat
  keys : List (Option Nat)
  routes : List (Nat × Word)
  pinned : Option Nat
  credits : List (Nat × Nat × Nat)
  subs : List SubImage
  deriving DecidableEq, Repr, Inhabited

/-- A parameter block of a slot (R573): its 16-byte header, its entries as pairs of words, the SIG section after them. -/
structure ParamBlock where
  header : List (BitVec 8)
  entries : List (Word × Word)
  sig : Sect
  deriving DecidableEq, Repr

/-- One flash slot as the boot reads it (R572): the bytes of its header before HCRC (those after the end of the list are 0), HCRC, ACTMARK, its
image and parameter blocks. -/
structure Slot where
  header : List (BitVec 8)
  hcrc : Word
  actMark : Word
  image : FullImage
  params : List ParamBlock
  deriving DecidableEq, Repr, Inhabited

/-- What the SFDP header of the boot flash says (R577): valid, mode (0 1-1-1, 1 1-1-4, 2 1-4-4, 3 8-8-8), clock in MHz,
4-byte addressing, erase block in 4 KiB, density in 64 KiB. -/
structure Sfdp where
  ok : Bool
  mode : Nat
  clock : Nat
  addr4 : Bool
  erase : Nat
  density : Nat
  deriving DecidableEq, Repr

/-- How a memory access of the machine fares under SECDED (R112): no error, or one in the access's word number `i`, corrected
or not. -/
inductive Ecc | clean | single (i : Nat) | double (i : Nat)
  deriving DecidableEq, Repr

/-- Who makes a request for one register or for memory (R399, R652): a Ralma node, an SQ slave port, the housekeeping processor. -/
inductive Source
  | ralma (node : Fin 4096)
  | sq (port : Fin 4)
  | housekeeping
  deriving DecidableEq, Repr

/-- A status slot as it reaches the port in a tick (R316, R320): nothing, or its 160 bits with the CRC that came with them. -/
inductive SlotRx | missing | slot (bits : BitVec 160) (crc : BitVec 16)
  deriving DecidableEq, Repr

/-- What a slice converts while it is calibrated (R346, R349): raw codes of ZERO, REFP and REFN, and pairs of its result and that of the
slice it will replace, taken at the same instants. -/
structure SliceCal where
  zero : List (BitVec 14)
  refp : List (BitVec 14)
  refn : List (BitVec 14)
  shadow : List (BitVec 14 × BitVec 14)
  deriving DecidableEq, Repr

/-- The initial calibration of a group: its number, what each slice converts (R349). -/
structure GroupCal where
  group : Fin 8
  slices : List SliceCal
  deriving DecidableEq, Repr

/-! ## Free values -/

/-- A fresh value that the spec leaves open, one for each number of the State's counter. -/
opaque Config.freeWord : Nat → Word

/-- The instant of an event inside its tick, in ns after the edge: the spec gives no cycle for it. -/
opaque Config.freeOffset : Nat → Nat

/-- The slot header and image that bytes of the culvert spell (address and byte, rising; R580): the spec gives the layout of some
sections in outline only, so a RECOVER that a plain register write starts reads them through this. -/
opaque Config.readSlot : List (Nat × Byte) → Slot

/-- Parameter words whose code the spec does not state, such as the cause of a polder reset (R36): a
function of the event code and of what happened. -/
opaque Config.causeWord : Nat → Nat → Word

/-- The bytes of the boot ROM window (R23), whose contents the spec does not give. -/
opaque Config.romByte : Nat → Byte

/-- Whether the technology word of a channel loss names the Warden; the spec gives no codes (R488; assumption log 82). -/
opaque Config.wardenLost : BitVec 32 → Bool

/-- The bytes that open a start-up frame of the cell link, between SOFD and its contents, by kind: 0 ENUM, 1 CONFIG, 2 RATE, 3 ECHO,
4 TIMING. R307 gives the contents only (assumption log 71). -/
opaque Config.linkHead : Nat → List Nat

/-- What a certified function set computes where its chapter gives bounds and no realisation (trackers, filters,
trigonometry, current loops): a function of the ROM segment, of a number that says which value, and of the words it
depends on, so that equal members of a placement group compute equal values. -/
opaque Config.fsValue : Nat → Nat → List Word → Word

/-- The boot ROM's segments, by ID (R143, R144): the words of the segment, and the CRC-32C that its header holds for a copy whose
binding fields are 0. -/
opaque Config.romWords : Nat → Nat
opaque Config.romCrc : Nat → Nat

/-- Whether a quotient or a root that is not exact is rounded up: the spec gives no rounding for the function sets'
formulas. -/
opaque Config.roundUp : Int → Int → Bool

/-- What the metrology die's sample processing gives where R374, R377 and R378 leave it open (0 the interpolator between samples, 3 the
placement of zero crossings, 4 words of unmeasured points, 6 samples from before the power-up), and retained state of which no copy is valid
(5; R384). Arguments: which value, the parameters it depends on, the count of free values, the samples. -/
opaque Config.metSample : Nat → List Word → Nat → List Int → Int

/-- What a calibration estimates where R346 gives no formula: the skew (2), an offset (0) or a gain error (1) without conversions. -/
opaque Config.calValue : Nat → SliceCal → Int

/-- How far the steering of R532 moves fabric time in a tick, in ns: a function of the free counter and the offset. -/
opaque Config.steerStep : Nat → Int → Int

/-- The unique ID of a duplex partner, by its address: R542 compares it, and no frame carries it. -/
opaque Config.partnerUid : Nat → Nat

end Sys2Proof
end

