-- ==== Sys2Proof/Syntax.lean ====
section
/-! DEFINITION. The commands of the DTN9256, one constructor for each row of spec/opcode_table.json, in its order. Operands
are the values that come with the command from outside: who sends it, numbers of resources, words, what a frame or a pin shows. -/

namespace Sys2Proof

/-- The commands. -/
inductive Instr
  /-- POWER_ON_RESET (R29). -/
  | powerOnReset (switches : BitVec 16) (loop : Bool)
  /-- MAIN_SUPPLIES_LOST (R561). -/
  | mainSuppliesLost (mon : BitVec 32) (vst : BitVec 16)
  /-- MAIN_SUPPLIES_RETURN (R29). -/
  | mainSuppliesReturn (switches : BitVec 16) (loop : Bool)
  /-- HRSTN_ASSERT (R29). -/
  | hrstnAssert
  /-- HRSTN_RELEASE (R39). -/
  | hrstnRelease (straps : BitVec 2)
  /-- BOOT_START (R577). -/
  | bootStart (dir : List (BitVec 8)) (a : Slot) (b : Slot) (sfdp : Sfdp)
  /-- TICK_LOSS (R33). -/
  | tickLoss
  /-- TICK_RESTART (R33). -/
  | tickRestart
  /-- TICK_EDGE (R53). -/
  | tickEdge
  /-- COMMIT_CUTOFF (R54). -/
  | commitCutoff
  /-- SAMPLING_POINT (R64). -/
  | samplingPoint
  /-- STALE_STAGE_NOTICE (R71). -/
  | staleStageNotice (blk : Fin 23) (p : Fin 8)
  /-- COMMIT_GO (R68). -/
  | commitGo (src : Source) (blk : Fin 23)
  /-- COMMIT_DISCARD (R72). -/
  | commitDiscard (src : Source) (blk : Fin 23)
  /-- GCOMMIT_GO (R73). -/
  | gcommitGo (src : Source) (blocks : BitVec 24)
  /-- REGISTER_WRITE (R10). -/
  | registerWrite (src : Source) (addr : BitVec 40) (val : BitVec 32)
  /-- HOST_MEMORY_ACCESS (R402). -/
  | hostMemoryAccess (src : Source) (write : Bool) (addr : BitVec 40) (len : BitVec 16) (data : List (BitVec 32)) (ecc : Ecc)
  /-- HOST_WRITE_QUEUE_DRAIN (R89). -/
  | hostWriteQueueDrain (e : Fin 256)
  /-- SYS_PRST (R41). -/
  | sysPrst (src : Source) (mask : BitVec 8)
  /-- SYS_PRSELF (R42). -/
  | sysPrself (src : Source) (key : BitVec 8)
  /-- POLDER_RELOAD_COMPLETE (R36). -/
  | polderReloadComplete (p : Fin 8) (ok : Bool) (sect : BitVec 16)
  /-- STEP_START (R59). -/
  | stepStart (e : Fin 256) (loc : Fin 36864) (ecc : Ecc)
  /-- STATE_TRANSFER_DONE (R116). -/
  | stateTransferDone (p : Fin 8) (id : Fin 256)
  /-- SEGMENT_END (R95). -/
  | segmentEnd (e : Fin 256) (late : Bool)
  /-- L_STALL_END (R85). -/
  | lStallEnd (e : Fin 256) (n : Nat)
  /-- NOP (R101). -/
  | nop (e : Fin 256) (eow : Bool)
  /-- MUL (R101). -/
  | mul (e : Fin 256) (m1 : Bool) (ad : Fin 4) (ga : Fin 32) (gb : Fin 32) (q : Fin 32) (rnd : Bool) (eow : Bool)
  /-- MAC (R101). -/
  | mac (e : Fin 256) (m1 : Bool) (ad : Fin 4) (ga : Fin 32) (gb : Fin 32) (q : Fin 32) (rnd : Bool) (eow : Bool)
  /-- MSU (R101). -/
  | msu (e : Fin 256) (m1 : Bool) (ad : Fin 4) (ga : Fin 32) (gb : Fin 32) (q : Fin 32) (rnd : Bool) (eow : Bool)
  /-- MULD (R101). -/
  | muld (e : Fin 256) (m1 : Bool) (ad : Fin 4) (ga : Fin 32) (gb : Fin 32) (q : Fin 32) (rnd : Bool) (eow : Bool)
  /-- MACD (R101). -/
  | macd (e : Fin 256) (m1 : Bool) (ad : Fin 4) (ga : Fin 32) (gb : Fin 32) (q : Fin 32) (rnd : Bool) (eow : Bool)
  /-- MSUD (R101). -/
  | msud (e : Fin 256) (m1 : Bool) (ad : Fin 4) (ga : Fin 32) (gb : Fin 32) (q : Fin 32) (rnd : Bool) (eow : Bool)
  /-- ACLR (R101). -/
  | aclr (e : Fin 256) (m1 : Bool) (ad : Fin 4) (eow : Bool)
  /-- ALD (R101). -/
  | ald (e : Fin 256) (m1 : Bool) (ad : Fin 4) (ga : Fin 32) (q : Fin 32) (eow : Bool)
  /-- AADD (R101). -/
  | aadd (e : Fin 256) (m1 : Bool) (ad : Fin 4) (ga : Fin 32) (q : Fin 32) (eow : Bool)
  /-- AADDA (R101). -/
  | aadda (e : Fin 256) (m1 : Bool) (ad : Fin 4) (as : Fin 4) (eow : Bool)
  /-- ASUBA (R101). -/
  | asuba (e : Fin 256) (m1 : Bool) (ad : Fin 4) (as : Fin 4) (eow : Bool)
  /-- ASAT (R101). -/
  | asat (e : Fin 256) (m1 : Bool) (ad : Fin 4) (gb : Fin 32) (q : Fin 32) (rnd : Bool) (eow : Bool)
  /-- ASHL (R101). -/
  | ashl (e : Fin 256) (m1 : Bool) (ad : Fin 4) (q : Fin 32) (eow : Bool)
  /-- ASHR (R101). -/
  | ashr (e : Fin 256) (m1 : Bool) (ad : Fin 4) (q : Fin 32) (rnd : Bool) (eow : Bool)
  /-- ANEG (R101). -/
  | aneg (e : Fin 256) (m1 : Bool) (ad : Fin 4) (eow : Bool)
  /-- LDW (R102). -/
  | ldw (e : Fin 256) (gr : Fin 32) (gb : Fin 32) (am : Fin 4) (off : BitVec 11) (ecc : Ecc) (eow : Bool)
  /-- STW (R102). -/
  | stw (e : Fin 256) (gr : Fin 32) (gb : Fin 32) (am : Fin 4) (off : BitVec 11) (eow : Bool)
  /-- LDD (R102). -/
  | ldd (e : Fin 256) (gr : Fin 32) (gb : Fin 32) (am : Fin 4) (off : BitVec 11) (ecc : Ecc) (eow : Bool)
  /-- STD (R102). -/
  | std (e : Fin 256) (gr : Fin 32) (gb : Fin 32) (am : Fin 4) (off : BitVec 11) (eow : Bool)
  /-- LDH (R102). -/
  | ldh (e : Fin 256) (gr : Fin 32) (gb : Fin 32) (am : Fin 4) (off : BitVec 11) (ecc : Ecc) (eow : Bool)
  /-- LDHU (R102). -/
  | ldhu (e : Fin 256) (gr : Fin 32) (gb : Fin 32) (am : Fin 4) (off : BitVec 11) (ecc : Ecc) (eow : Bool)
  /-- STH (R102). -/
  | sth (e : Fin 256) (gr : Fin 32) (gb : Fin 32) (am : Fin 4) (off : BitVec 11) (eow : Bool)
  /-- MOV (R103). -/
  | mov (e : Fin 256) (gd : Fin 32) (ga : Fin 32) (eow : Bool)
  /-- MOVI (R103). -/
  | movi (e : Fin 256) (gd : Fin 32) (imm : BitVec 16) (eow : Bool)
  /-- MOVH (R103). -/
  | movh (e : Fin 256) (gd : Fin 32) (imm : BitVec 16) (eow : Bool)
  /-- ADD (R103). -/
  | add (e : Fin 256) (gd : Fin 32) (ga : Fin 32) (gb : Fin 32) (eow : Bool)
  /-- SUB (R103). -/
  | sub (e : Fin 256) (gd : Fin 32) (ga : Fin 32) (gb : Fin 32) (eow : Bool)
  /-- ADDI (R103). -/
  | addi (e : Fin 256) (gd : Fin 32) (ga : Fin 32) (imm : BitVec 13) (eow : Bool)
  /-- MIN (R103). -/
  | min (e : Fin 256) (gd : Fin 32) (ga : Fin 32) (gb : Fin 32) (eow : Bool)
  /-- MAX (R103). -/
  | max (e : Fin 256) (gd : Fin 32) (ga : Fin 32) (gb : Fin 32) (eow : Bool)
  /-- ABS (R103). -/
  | abs (e : Fin 256) (gd : Fin 32) (ga : Fin 32) (eow : Bool)
  /-- NEG (R103). -/
  | neg (e : Fin 256) (gd : Fin 32) (ga : Fin 32) (eow : Bool)
  /-- SATS (R103). -/
  | sats (e : Fin 256) (gd : Fin 32) (ga : Fin 32) (gb : Fin 32) (eow : Bool)
  /-- SHL (R103). -/
  | shl (e : Fin 256) (gd : Fin 32) (ga : Fin 32) (n : Fin 32) (eow : Bool)
  /-- SHR (R103). -/
  | shr (e : Fin 256) (gd : Fin 32) (ga : Fin 32) (n : Fin 32) (eow : Bool)
  /-- SHRU (R103). -/
  | shru (e : Fin 256) (gd : Fin 32) (ga : Fin 32) (n : Fin 32) (eow : Bool)
  /-- AND (R103). -/
  | and (e : Fin 256) (gd : Fin 32) (ga : Fin 32) (gb : Fin 32) (eow : Bool)
  /-- OR (R103). -/
  | or (e : Fin 256) (gd : Fin 32) (ga : Fin 32) (gb : Fin 32) (eow : Bool)
  /-- XOR (R103). -/
  | xor (e : Fin 256) (gd : Fin 32) (ga : Fin 32) (gb : Fin 32) (eow : Bool)
  /-- CMP (R103). -/
  | cmp (e : Fin 256) (ga : Fin 32) (gb : Fin 32) (cond : Fin 8) (n : Fin 4) (eow : Bool)
  /-- SEL (R103). -/
  | sel (e : Fin 256) (gd : Fin 32) (ga : Fin 32) (gb : Fin 32) (n : Fin 4) (eow : Bool)
  /-- REQ (R103). -/
  | req (e : Fin 256) (ga : Fin 32) (n : Fin 4) (eow : Bool)
  /-- TRIG (R103). -/
  | trig (e : Fin 256) (n : Fin 4) (eow : Bool)
  /-- RDSF (R103). -/
  | rdsf (e : Fin 256) (gd : Fin 32) (eow : Bool)
  /-- ADDW (R103). -/
  | addw (e : Fin 256) (gd : Fin 32) (ga : Fin 32) (gb : Fin 32) (eow : Bool)
  /-- SUBW (R103). -/
  | subw (e : Fin 256) (gd : Fin 32) (ga : Fin 32) (gb : Fin 32) (eow : Bool)
  /-- READMIT (R127). -/
  | readmit (src : Source) (e : Fin 256)
  /-- TRACE_ARM (R160). -/
  | traceArm (src : Source) (e : Fin 256)
  /-- TRACE_DISARM (R160). -/
  | traceDisarm (src : Source) (e : Fin 256)
  /-- TRACE_FORCE (R160). -/
  | traceForce (src : Source) (e : Fin 256)
  /-- TRACE_DONE (R160). -/
  | traceDone (e : Fin 256)
  /-- GFS_LOW_DETECTION (R181). -/
  | gfsLowDetection (i : Fin 256)
  /-- GFS_ZERO_DETECTION (R181). -/
  | gfsZeroDetection (i : Fin 256)
  /-- GFS_HIGH_DETECTION (R181). -/
  | gfsHighDetection (i : Fin 256)
  /-- GFS_PROFILE_TRIP (R183). -/
  | gfsProfileTrip (i : Fin 256)
  /-- GFS_ZERO_EXIT (R183). -/
  | gfsZeroExit (i : Fin 256)
  /-- GFS_RECOVERY_CONFIRMED (R183). -/
  | gfsRecoveryConfirmed (i : Fin 256)
  /-- GFS_RECOVER_COMPLETE (R187). -/
  | gfsRecoverComplete (i : Fin 256)
  /-- GFS_TRACKER_LOCK (R170). -/
  | gfsTrackerLock (i : Fin 256)
  /-- GFS_TRACKER_UNLOCK (R170). -/
  | gfsTrackerUnlock (i : Fin 256)
  /-- GFS_FREQ_LIMIT_HELD (R197). -/
  | gfsFreqLimitHeld (i : Fin 256)
  /-- GFS_VILIM_LONG (R197). -/
  | gfsVilimLong (i : Fin 256)
  /-- IFS_EVALUATION_POINT (R207). -/
  | ifsEvaluationPoint (i : Fin 256)
  /-- IFS_EVALUATION_PUBLISH (R207). -/
  | ifsEvaluationPublish (i : Fin 256)
  /-- IFS_FAST_CLEAR (R216). -/
  | ifsFastClear (i : Fin 256)
  /-- IFS_FREQ_WINDOW_VIOLATION (R219). -/
  | ifsFreqWindowViolation (i : Fin 256)
  /-- IFS_VOLTAGE_WINDOW_VIOLATION (R219). -/
  | ifsVoltageWindowViolation (i : Fin 256)
  /-- TFS_UPDATE_TICK (R234). -/
  | tfsUpdateTick (i : Fin 256)
  /-- TFS_SWEEP_REQUEST (R239). -/
  | tfsSweepRequest (i : Fin 256) (k : Fin 32)
  /-- TFS_SWEEP_END (R238). -/
  | tfsSweepEnd (i : Fin 256) (k : Fin 32)
  /-- TFS_OBSERVER_LOST (R245). -/
  | tfsObserverLost (i : Fin 256)
  /-- TFS_OBSERVER_REGAINED (R245). -/
  | tfsObserverRegained (i : Fin 256)
  /-- TFS_ADAPT_CYCLE_END (R247). -/
  | tfsAdaptCycleEnd (i : Fin 256)
  /-- ENC_COUNT (R250). -/
  | encCount (n : Fin 4) (lineB : Bool) (level : Bool) (samples : BitVec 8)
  /-- ENC_DOUBLE_EVENT (R251). -/
  | encDoubleEvent (n : Fin 4) (samples : BitVec 8)
  /-- ENC_INDEX_EDGE (R253). -/
  | encIndexEdge (n : Fin 4) (withDouble : Bool) (samples : BitVec 8)
  /-- ENC_OBSERVER_LOCK (R254). -/
  | encObserverLock (n : Fin 4)
  /-- MFS_SENSORLESS_VALID (R261). -/
  | mfsSensorlessValid (i : Fin 256)
  /-- MFS_SENSORLESS_INVALID (R261). -/
  | mfsSensorlessInvalid (i : Fin 256)
  /-- MFS_ANGLE_MISMATCH (R261). -/
  | mfsAngleMismatch (i : Fin 256)
  /-- MFS_NO_ANGLE_TIMEOUT (R266). -/
  | mfsNoAngleTimeout (i : Fin 256)
  /-- MFS_MODULATION_HIGH (R271). -/
  | mfsModulationHigh (i : Fin 256)
  /-- MFS_ILIM_LONG (R271). -/
  | mfsIlimLong (i : Fin 256)
  /-- CARRIER_PERIOD_START (R280). -/
  | carrierPeriodStart (k : Fin 32)
  /-- CARRIER_PEAK (R277). -/
  | carrierPeak (k : Fin 32)
  /-- COMPARE_EDGE (R284). -/
  | compareEdge (p : Fin 48) (e : Nat)
  /-- DEAD_TIME_END (R286). -/
  | deadTimeEnd (p : Fin 48)
  /-- TRIP_INPUT_ACTIVE (R288). -/
  | tripInputActive (k : Fin 16) (level : Bool) (samples : BitVec 13)
  /-- TRIP_INPUT_INACTIVE (R289). -/
  | tripInputInactive (k : Fin 16) (level : Bool) (samples : BitVec 13)
  /-- PWM_TRIP_CLEAR (R292). -/
  | pwmTripClear (src : Source) (p : Fin 48)
  /-- PWM_FORCE (R293). -/
  | pwmForce (src : Source) (p : Fin 48) (mode : BitVec 2)
  /-- PULSE_ENABLE_INACTIVE (R486). -/
  | pulseEnableInactive (sp : Bool)
  /-- CL_TRAIN_END (R307). -/
  | clTrainEnd (n : Fin 48)
  /-- CL_DISC_RECEIVED (R310). -/
  | clDiscReceived (n : Fin 48) (recs : List (BitVec 128))
  /-- CL_ACK_RECEIVED (R307). -/
  | clAckReceived (n : Fin 48) (acks : Fin 32)
  /-- CL_RATE_RELOCK (R307). -/
  | clRateRelock (n : Fin 48) (recs : List (BitVec 128))
  /-- CL_ECHO_ANSWER (R311). -/
  | clEchoAnswer (n : Fin 48) (p : Fin 24) (rt : Nat)
  /-- CL_STEP_TIMEOUT (R308). -/
  | clStepTimeout (n : Fin 48)
  /-- CL_FAULT_RESTART (R308). -/
  | clFaultRestart (n : Fin 48)
  /-- STS_FRAME (R316). -/
  | stsFrame (n : Fin 48) (head : BitVec 40) (hcrc : BitVec 16) (slots : List SlotRx)
  /-- CELL_LOST (R320). -/
  | cellLost (i : Fin 1152)
  /-- CELL_RETURN (R320). -/
  | cellReturn (i : Fin 1152)
  /-- INH_REPEAT (R323). -/
  | inhRepeat (n : Fin 48)
  /-- SELFTEST_STEP (R332). -/
  | selftestStep (n : Fin 48)
  /-- SELFTEST_PASS_TIMEOUT (R332). -/
  | selftestPassTimeout (i : Fin 1152) (k : Fin 8)
  /-- CL_TRIP_CLEAR (R324). -/
  | clTripClear (src : Source) (n : Fin 48)
  /-- FCLR (R328). -/
  | fclr (src : Source) (i : Fin 1152)
  /-- BYPREQ (R333). -/
  | bypreq (src : Source) (i : Fin 1152)
  /-- BYPREL (R334). -/
  | byprel (src : Source) (i : Fin 1152)
  /-- SLOT_RESULT_READY (R352). -/
  | slotResultReady (g : Fin 8) (j : Fin 32) (volts : List (BitVec 40 × Bool))
  /-- CALIBRATION_SWAP (R345). -/
  | calibrationSwap (g : Fin 8) (est : SliceCal)
  /-- SLICE_MONITOR_FAIL (R348). -/
  | sliceMonitorFail (g : Fin 8) (slice : Fin 5) (est : BitVec 32)
  /-- ACQ_CALIBRATION_DONE (R349). -/
  | acqCalibrationDone (g : GroupCal)
  /-- COMPARATOR_RAW_CHANGE (R355). -/
  | comparatorRawChange (c : Fin 32) (v : BitVec 40)
  /-- COMPARATOR_SUSPECT (R360). -/
  | comparatorSuspect (c : Fin 32)
  /-- MET_POWER_UP (R369). -/
  | metPowerUp (newOk : Bool) (oldOk : Bool) (broken : Bool)
  /-- MET_POWER_DOWN (R369). -/
  | metPowerDown
  /-- MET_WINDOW_END (R370). -/
  | metWindowEnd (volts : List (List (BitVec 40)))
  /-- MET_FRAME_RECEIVED (R370). -/
  | metFrameReceived (crcOk : Bool)
  /-- MET_LINK_TIMEOUT (R370). -/
  | metLinkTimeout
  /-- MET_PULSE (R382). -/
  | metPulse (j : Fin 4)
  /-- XTAL_FAULT (R385). -/
  | xtalFault
  /-- XTAL_RECOVERED (R385). -/
  | xtalRecovered
  /-- SEAL_BROKEN (R386). -/
  | sealBroken
  /-- SEAL_INTACT (R389). -/
  | sealIntact
  /-- READ (R388). -/
  | read (pid : BitVec 16) (idx : BitVec 8) (value : BitVec 32) (crc : BitVec 16)
  /-- WRITE (R388). -/
  | write (pid : BitVec 16) (idx : BitVec 8) (value : BitVec 32) (crc : BitVec 16)
  /-- COMMIT (R389). -/
  | commit (pid : BitVec 16) (idx : BitVec 8) (value : BitVec 32) (crc : BitVec 16)
  /-- DISCARD (R388). -/
  | discard (pid : BitVec 16) (idx : BitVec 8) (value : BitVec 32) (crc : BitVec 16)
  /-- IDENT (R388). -/
  | ident (pid : BitVec 16) (idx : BitVec 8) (value : BitVec 32) (crc : BitVec 16)
  /-- READLOG (R388). -/
  | readlog (pid : BitVec 16) (idx : BitVec 8) (value : BitVec 32) (crc : BitVec 16)
  /-- CAL_REQUEST_GAP (R387). -/
  | calRequestGap
  /-- SIGN_ON (R392). -/
  | signOn (addr : Option Nat)
  /-- OPTION_SELECT (R392). -/
  | optionSelect (proto : BitVec 7) (baud : BitVec 7) (mode : BitVec 7)
  /-- OPTION_SELECT_TIMEOUT (R392). -/
  | optionSelectTimeout
  /-- OPTICAL_OVERLOAD (R394). -/
  | opticalOverload
  /-- OPTICAL_QUIET_END (R394). -/
  | opticalQuietEnd
  /-- TAKE (R409). -/
  | take (src : Source) (page : Fin 4096) (gen : BitVec 16)
  /-- RENEW (R409). -/
  | renew (src : Source) (page : Fin 4096) (gen : BitVec 16)
  /-- RELEASE (R409). -/
  | release (src : Source) (page : Fin 4096) (gen : BitVec 16)
  /-- HANDOFF (R409). -/
  | handoff (src : Source) (page : Fin 4096) (gen : BitVec 16)
  /-- ACCEPT (R409). -/
  | accept (src : Source) (page : Fin 4096) (gen : BitVec 16)
  /-- CANCEL (R409). -/
  | cancel (src : Source) (page : Fin 4096) (gen : BitVec 16)
  /-- SEAL (R409). -/
  | seal (src : Source) (page : Fin 4096) (gen : BitVec 16)
  /-- UNSEAL (R409). -/
  | unseal (src : Source) (page : Fin 4096) (gen : BitVec 16)
  /-- LEASE_EXPIRY (R411). -/
  | leaseExpiry
  /-- PAGE_ZEROED (R412). -/
  | pageZeroed
  /-- RECORD_WRITE (R417). -/
  | recordWrite (vst : BitVec 16)
  /-- GO (R435). -/
  | go (src : Source) (c : Fin 32)
  /-- STOP (R435). -/
  | stop (src : Source) (c : Fin 32)
  /-- RESUME (R435). -/
  | resume (src : Source) (c : Fin 32)
  /-- ABORT (R435). -/
  | abort (src : Source) (c : Fin 32)
  /-- SLU_DPTR_WRITE (R437). -/
  | sluDptrWrite (src : Source) (c : Fin 32) (val : BitVec 32)
  /-- DESCRIPTOR_FETCHED (R426). -/
  | descriptorFetched (c : Fin 32)
  /-- SLUICE_ACCESS_ISSUE (R432). -/
  | sluiceAccessIssue (write : Bool) (beats : Fin 9) (ecc : Ecc)
  /-- SLUICE_READ_RESPONSE (R429). -/
  | sluiceReadResponse (c : Fin 32) (k : Nat)
  /-- SLUICE_WRITE_RESPONSE (R431). -/
  | sluiceWriteResponse (c : Fin 32) (k : Nat)
  /-- SLUICE_RETRY (R438). -/
  | sluiceRetry (c : Fin 32) (k : Nat) (ecc : Ecc)
  /-- LOAD (R452). -/
  | load (src : Source)
  /-- IMG_LOAD_DONE (R449). -/
  | imgLoadDone (p : Fin 8) (u : SubImage)
  /-- FLT_ACK (R479). -/
  | fltAck (src : Source) (p : Fin 8) (classes : BitVec 4)
  /-- FLT_CAPTURE_REARM (R474). -/
  | fltCaptureRearm (src : Source) (p : Fin 8)
  /-- HKSTAT_CLEAR (R476). -/
  | hkstatClear (src : Source) (mask : BitVec 32)
  /-- TEMPERATURE_SAMPLE (R475). -/
  | temperatureSample (t0 : BitVec 8) (t1 : BitVec 8) (t2 : BitVec 8) (t3 : BitVec 8) (io : BitVec 8) (warden : BitVec 8)
  /-- SUPPLY_OUT_OF_RANGE (R475). -/
  | supplyOutOfRange (rail : Fin 9) (mv : BitVec 16)
  /-- FAULT_COLLECTOR_MISMATCH (R478). -/
  | faultCollectorMismatch
  /-- SP_CYCLE (R485). -/
  | spCycle
  /-- CHANNEL_LOSS (R488). -/
  | channelLoss (tech : BitVec 32) (cause : BitVec 32)
  /-- SEAL_SWITCH_CHANGE (R490). -/
  | sealSwitchChange (switches : BitVec 16) (loop : Bool)
  /-- TPO_DROPOUT_START (R492). -/
  | tpoDropoutStart (outB : Bool)
  /-- TPO_LOW_CHECK (R492). -/
  | tpoLowCheck (outB : Bool) (high : BitVec 8) (self : Bool)
  /-- TPO_DROPOUT_END (R492). -/
  | tpoDropoutEnd (outB : Bool)
  /-- TPO_HIGH_CHECK (R492). -/
  | tpoHighCheck (outB : Bool) (high : Bool)
  /-- SAFETY_CHANNEL_OPEN (R493). -/
  | safetyChannelOpen (j : Fin 8) (chB : Bool)
  /-- DISCREPANCY (R493). -/
  | discrepancy (j : Fin 8)
  /-- BREAKER_DELAY_END (R496). -/
  | breakerDelayEnd
  /-- RESTART (R498). -/
  | restart (src : Source)
  /-- DGACK (R506). -/
  | dgack (src : Source)
  /-- SAFE_OUTREQ_WRITE (R499). -/
  | safeOutreqWrite (src : Source) (val : BitVec 8)
  /-- CONTACTOR_FEEDBACK_TIMEOUT (R500). -/
  | contactorFeedbackTimeout (k : Fin 8) (level : Bool)
  /-- CONTACTOR_DIFFERENCE (R500). -/
  | contactorDifference (k : Fin 8) (level : Bool)
  /-- SAFE_MESSAGE_SEND (R501). -/
  | safeMessageSend
  /-- SAFE_MESSAGE_RECEIVE (R502). -/
  | safeMessageReceive (n : Fin 8) (k : Fin 8) (hdr : BitVec 64) (m : List (BitVec 8)) (crc : BitVec 32)
  /-- SAFE_ONE_PATH (R503). -/
  | safeOnePath (k : Fin 8) (missing1 : Bool)
  /-- SAFE_CONNECTION_LOST (R503). -/
  | safeConnectionLost (k : Fin 8)
  /-- DEGRADED_SECOND (R505). -/
  | degradedSecond
  /-- DEGRADED_EXPIRED (R505). -/
  | degradedExpired
  /-- RLM_MODULE_PRESENT (R514). -/
  | rlmModulePresent (n : Fin 8)
  /-- RLM_MODULE_READ_DONE (R513). -/
  | rlmModuleReadDone (n : Fin 8) (ident : BitVec 8) (rates : BitVec 4) (byte92 : BitVec 8)
  /-- RLM_SYNC_ACQUIRED (R514). -/
  | rlmSyncAcquired (n : Fin 8)
  /-- RLM_RATE_LOCK (R514). -/
  | rlmRateLock (n : Fin 8)
  /-- RLM_BRINGUP_TIMEOUT (R514). -/
  | rlmBringupTimeout (n : Fin 8)
  /-- LINK_DOWN (R516). -/
  | linkDown (n : Fin 8) (cause : BitVec 32)
  /-- LINK (R521). -/
  | link (n : Fin 8) (hdr : BitVec 64) (units : List (BitVec 16)) (crc : BitVec 32)
  /-- LINK_SEND (R516). -/
  | linkSend (n : Fin 8)
  /-- MODULE_DIAG_READ (R513). -/
  | moduleDiagRead (n : Fin 8) (temp : BitVec 8) (rxp : BitVec 16)
  /-- CLAIM (R524). -/
  | claim (n : Fin 8) (hdr : BitVec 64) (prio : BitVec 8) (dist : BitVec 8) (epoch : BitVec 16) (root : BitVec 64) (crc : BitVec 32)
  /-- CLAIM_SEND (R524). -/
  | claimSend
  /-- CLAIM_DISCARD (R524). -/
  | claimDiscard (n : Fin 8)
  /-- JOIN (R526). -/
  | join (n : Fin 8) (hdr : BitVec 64) (uid : BitVec 64) (want : BitVec 16) (group : BitVec 16) (nunits : BitVec 16) (wantph : BitVec 16) (crc : BitVec 32)
  /-- JOIN_SEND (R526). -/
  | joinSend
  /-- ASSIGN (R527). -/
  | assign (n : Fin 8) (hdr : BitVec 64) (uid : BitVec 64) (addr : BitVec 16) (status : BitVec 8) (phase : BitVec 16) (nunits : BitVec 16) (crc : BitVec 32)
  /-- ALLOCATION_FREE (R526). -/
  | allocationFree (addr : Fin 4096)
  /-- ROUTED_FRAME_FORWARD (R529). -/
  | routedFrameForward (n : Fin 8) (hdr : BitVec 64) (data : List (BitVec 8)) (crc : BitVec 32)
  /-- TIME_EXCHANGE_START (R531). -/
  | timeExchangeStart (n : Fin 8)
  /-- SYNC (R531). -/
  | sync (n : Fin 8) (hdr : BitVec 64) (crc : BitVec 32)
  /-- FOLLOW (R531). -/
  | follow (n : Fin 8) (hdr : BitVec 64) (t1 : BitVec 64) (tbase : BitVec 64) (per : BitVec 16) (root : BitVec 64) (valid : BitVec 8) (crc : BitVec 32)
  /-- DREQ (R531). -/
  | dreq (n : Fin 8) (hdr : BitVec 64) (crc : BitVec 32)
  /-- DRESP (R532). -/
  | dresp (n : Fin 8) (hdr : BitVec 64) (t4 : BitVec 64) (crc : BitVec 32)
  /-- HOLDOVER_ENTRY (R532). -/
  | holdoverEntry
  /-- TCTL_SET (R532). -/
  | tctlSet (src : Source)
  /-- ALIGN_LOCKED (R534). -/
  | alignLocked
  /-- ALIGN_LOST (R534). -/
  | alignLost
  /-- RDREQ (R535). -/
  | rdreq (n : Fin 8) (hdr : BitVec 64) (addr : BitVec 40) (len : BitVec 16) (ecc : Ecc) (crc : BitVec 32)
  /-- WRREQ (R535). -/
  | wrreq (n : Fin 8) (hdr : BitVec 64) (addr : BitVec 40) (len : BitVec 16) (data : List (BitVec 32)) (crc : BitVec 32)
  /-- EVENT_FRAME_DROP (R537). -/
  | eventFrameDrop (n : Fin 8)
  /-- HEART_SEND (R540). -/
  | heartSend
  /-- HEART (R540). -/
  | heart (n : Fin 8) (hdr : BitVec 64) (tick : BitVec 32) (ws : List (BitVec 32)) (crc : BitVec 32) (onTime : Bool)
  /-- DUPLEX_PATH_LOST (R540). -/
  | duplexPathLost (portB : Bool)
  /-- MIRROR_SEND (R544). -/
  | mirrorSend (p : Fin 8)
  /-- MIRROR (R544). -/
  | mirror (n : Fin 8) (hdr : BitVec 64) (tick : BitVec 32) (k : BitVec 8) (off : BitVec 16) (data : List (BitVec 32)) (crc : BitVec 32)
  /-- SCHED_ACTIVATE (R589). -/
  | schedActivate (n : Fin 8) (hdr : BitVec 64) (at' : BitVec 64) (ver : BitVec 32) (crc : BitVec 32)
  /-- SCHED_PERIOD_CHANGE (R590). -/
  | schedPeriodChange (n : Fin 8) (hdr : BitVec 64) (at' : BitVec 64) (per : BitVec 32) (crc : BitVec 32)
  /-- SCHED_CANCEL (R591). -/
  | schedCancel (n : Fin 8) (hdr : BitVec 64) (at' : BitVec 64) (kind : BitVec 32) (crc : BitVec 32)
  /-- ETHERNET_RX_FRAME (R546). -/
  | ethernetRxFrame (e : Fin 2) (data : List (BitVec 8)) (fcs : BitVec 32)
  /-- ETHERNET_TX_SLOT (R546). -/
  | ethernetTxSlot (e : Fin 2)
  /-- KEEP_SUPPLY_SAMPLE (R550). -/
  | keepSupplySample (vkeep : BitVec 16) (vst : BitVec 16) (vprim : BitVec 16) (teg : BitVec 16)
  /-- PRIMARY_SWITCH_OUT (R552). -/
  | primarySwitchOut
  /-- COLD_START_DONE (R554). -/
  | coldStartDone (teg : BitVec 16)
  /-- MPP_MEASURE (R555). -/
  | mppMeasure (voc : BitVec 16)
  /-- RTC_FABRIC_SYNC (R556). -/
  | rtcFabricSync
  /-- RTCCMD_SET (R556). -/
  | rtccmdSet (src : Source)
  /-- TAMPER_SAMPLE (R557). -/
  | tamperSample (levels : BitVec 4) (vst : BitVec 16)
  /-- BEACON_TEST (R560). -/
  | beaconTest (src : Source)
  /-- BEACON_PERIODIC (R560). -/
  | beaconPeriodic (vst : BitVec 16)
  /-- BEACON_TRANSMISSION_END (R560). -/
  | beaconTransmissionEnd (vst : BitVec 16)
  /-- KEEP_MEASUREMENT (R561). -/
  | keepMeasurement (vst : BitVec 16) (vkeep : BitVec 16) (vprim : BitVec 16) (teg : BitVec 16) (temp : BitVec 16)
  /-- RECORDER_SCAN_DONE (R564). -/
  | recorderScanDone
  /-- RDSEL_WRITE (R567). -/
  | rdselWrite (src : Source) (seq : BitVec 32)
  /-- LOCK (R568). -/
  | lock (src : Source)
  /-- CLEAR (R569). -/
  | clear (src : Source)
  /-- CLEAR_ZEROING_DONE (R569). -/
  | clearZeroingDone
  /-- PROG (R581). -/
  | prog (src : Source)
  /-- PROG_DONE (R581). -/
  | progDone (match' : Bool)
  /-- SQ0_READ_WAIT_TIMEOUT (R582). -/
  | sq0ReadWaitTimeout
  /-- VERIFY (R583). -/
  | verify (src : Source)
  /-- VERIFY_DONE (R583). -/
  | verifyDone (x : Slot)
  /-- ARM (R584). -/
  | arm (src : Source) (disrupt : Bool)
  /-- ARM_LOAD_DONE (R584). -/
  | armLoadDone
  /-- ACTMARK_WRITTEN (R587). -/
  | actmarkWritten
  /-- UPD_CANCEL (R588). -/
  | updCancel (src : Source)
  /-- SVNLOCK (R575). -/
  | svnlock (src : Source) (key : BitVec 8)
  /-- REVOKE (R576). -/
  | revoke (src : Source) (key : BitVec 8) (k : Fin 4)
  /-- RECOVER (R580). -/
  | recover (src : Source) (x : Slot)
  /-- SQ_TRANSACTION_START (R604). -/
  | sqTransactionStart (n : Fin 4)
  /-- SQ_TRANSACTION_END (R602). -/
  | sqTransactionEnd (n : Fin 4) (rx : List (BitVec 32))
  /-- QPUSH (R601). -/
  | qpush (src : Source) (n : Fin 4) (sel : Fin 4)
  /-- SQ_BUSY_RETRY (R603). -/
  | sqBusyRetry (n : Fin 4) (sel : Fin 4)
  /-- SLAVE_READ (R607). -/
  | slaveRead (n : Fin 4) (op : BitVec 8) (addr : BitVec 40) (len : BitVec 16) (k : BitVec 16) (ecc : Ecc)
  /-- SLAVE_WRITE (R607). -/
  | slaveWrite (n : Fin 4) (addr : BitVec 40) (len : BitVec 16) (data : List (BitVec 8))
  /-- FETCH (R608). -/
  | fetch (n : Fin 4) (k : BitVec 16)
  /-- SLAVE_REQUEST_DONE (R609). -/
  | slaveRequestDone (n : Fin 4)
  /-- BAND_TABLE_DONE (R618). -/
  | bandTableDone (table : List (BitVec 16 × BitVec 16))
  /-- HOP_END (R619). -/
  | hopEnd
  /-- REFCLK_LOST (R615). -/
  | refclkLost (freq : BitVec 32) (phaseC : BitVec 32) (phaseA : BitVec 32)
  /-- PLL_UNLOCK (R623). -/
  | pllUnlock (apll : Bool) (phase : BitVec 32)
  /-- PLL_RELOCK (R624). -/
  | pllRelock (apll : Bool) (us : BitVec 32)
  /-- REGISTER_READ (R10). -/
  | registerRead (src : Source) (addr : BitVec 40)
  /-- NEG_RECEIVED (R514). -/
  | negReceived (n : Fin 8) (rate0 : Bool) (hdr : BitVec 64) (uid : BitVec 64) (offer : BitVec 8) (vcs : BitVec 8) (safe : Bool) (ack : Bool) (units : List (BitVec 16)) (crc : BitVec 32)
  /-- NEG_SEND (R514). -/
  | negSend (n : Fin 8)
  /-- MODULE_ABSENT (R513). -/
  | moduleAbsent (n : Fin 8)
  /-- SAFETY_CHANNEL_CLOSED (R493). -/
  | safetyChannelClosed (j : Fin 8) (chB : Bool)
  /-- SUPPLY_IN_RANGE (R476). -/
  | supplyInRange (rail : Fin 9) (mv : BitVec 16)
  /-- REFCLK_PRESENT (R624). -/
  | refclkPresent
  /-- FLT_ALIVE_TOGGLE (R477). -/
  | fltAliveToggle
  deriving DecidableEq, Repr

end Sys2Proof
end

