-- ==== Sys2Proof/Decode.lean ====
section
/-! DEFINITION. Decoding. spec/opcode_table.json gives none of its rows any bits, so no word spells a command by the table
(assumption log 2, DESIGN CHOICE). The bits that the spec gives are those of the Ulisa engine's instruction word (R95, R99–R103):
`decodeSlot` reads one slot, `wordCommands` the commands of a whole word, `encodeSlot` writes one slot. -/

namespace Sys2Proof

/-- The command that a word spells by the table's bits: the table gives bits to no row. -/
def decodeTableWord (_nbits _w : Nat) : Option Instr := none

/-- A number as an operand of `n` values. -/
def operand (n v : Nat) [NeZero n] : Fin n := Fin.ofNat n v

/-- Bits [hi:lo] of a slot as an operand. -/
def slotField (n b hi lo : Nat) [NeZero n] : Fin n := operand n (Machine.nbits b hi lo)

/-- Slot M0 or M1 (R99, R101): OP [27:23], AD [22:21], GA [20:16], GB [15:11], Q [10:6], RND [5], AS [4:3], reserved [2:0]. -/
def decodeM (e : Fin 256) (m1 : Bool) (b : Nat) (eow : Bool) : Option Instr :=
  let ad := slotField 4 b 22 21
  let ga := slotField 32 b 20 16
  let gb := slotField 32 b 15 11
  let q := slotField 32 b 10 6
  let rnd := Machine.nbit b 5
  let as := slotField 4 b 4 3
  if Machine.nbits b 2 0 ≠ 0 then none
  else match Machine.nbits b 27 23 with
    | 0x00 => some (.nop e eow)
    | 0x01 => some (.mul e m1 ad ga gb q rnd eow)
    | 0x02 => some (.mac e m1 ad ga gb q rnd eow)
    | 0x03 => some (.msu e m1 ad ga gb q rnd eow)
    | 0x04 => some (.muld e m1 ad ga gb q rnd eow)
    | 0x05 => some (.macd e m1 ad ga gb q rnd eow)
    | 0x06 => some (.msud e m1 ad ga gb q rnd eow)
    | 0x07 => some (.aclr e m1 ad eow)
    | 0x08 => some (.ald e m1 ad ga q eow)
    | 0x09 => some (.aadd e m1 ad ga q eow)
    | 0x0A => some (.aadda e m1 ad as eow)
    | 0x0B => some (.asuba e m1 ad as eow)
    | 0x0C => some (.asat e m1 ad gb q rnd eow)
    | 0x0D => some (.ashl e m1 ad q eow)
    | 0x0E => some (.ashr e m1 ad q rnd eow)
    | 0x0F => some (.aneg e m1 ad eow)
    | _ => none

/-- Slot L (R99, R100, R102): OP [27:23], GR [22:18], GB [17:13], AM [12:11], OFF [10:0]. Mode 0b11, an odd pair and the opcodes
above 0x07 are reserved (R98). -/
def decodeL (e : Fin 256) (b : Nat) (ecc : Ecc) (eow : Bool) : Option Instr :=
  let gr := slotField 32 b 22 18
  let gb := slotField 32 b 17 13
  let am := slotField 4 b 12 11
  let off := BitVec.ofNat 11 b
  match Machine.nbits b 27 23, am.val == 3, gr.val % 2 == 1 with
  | 0x00, _, _ => some (.nop e eow)
  | 0x01, false, _ => some (.ldw e gr gb am off ecc eow)
  | 0x02, false, _ => some (.stw e gr gb am off eow)
  | 0x03, false, false => some (.ldd e gr gb am off ecc eow)
  | 0x04, false, false => some (.std e gr gb am off eow)
  | 0x05, false, _ => some (.ldh e gr gb am off ecc eow)
  | 0x06, false, _ => some (.ldhu e gr gb am off ecc eow)
  | 0x07, false, _ => some (.sth e gr gb am off eow)
  | _, _, _ => none

/-- Slot X (R99, R103): OP [27:23], GD [22:18], GA [17:13], GB [12:8], IMM8 [7:0]; IMM16 [15:0] of MOVI and MOVH, whose bits
[17:16] are reserved; IMM13 [12:0] of ADDI. GD of CMP must be 0. -/
def decodeX (e : Fin 256) (b : Nat) (eow : Bool) : Option Instr :=
  let gd := slotField 32 b 22 18
  let ga := slotField 32 b 17 13
  let gb := slotField 32 b 12 8
  let sh := slotField 32 b 4 0
  let n := slotField 4 b 1 0
  let wide := Machine.nbits b 17 16 == 0
  match Machine.nbits b 27 23 with
  | 0x00 => some (.nop e eow)
  | 0x01 => some (.mov e gd ga eow)
  | 0x02 => if wide then some (.movi e gd (BitVec.ofNat 16 b) eow) else none
  | 0x03 => if wide then some (.movh e gd (BitVec.ofNat 16 b) eow) else none
  | 0x04 => some (.add e gd ga gb eow)
  | 0x05 => some (.sub e gd ga gb eow)
  | 0x06 => some (.addi e gd ga (BitVec.ofNat 13 b) eow)
  | 0x07 => some (.min e gd ga gb eow)
  | 0x08 => some (.max e gd ga gb eow)
  | 0x09 => some (.abs e gd ga eow)
  | 0x0A => some (.neg e gd ga eow)
  | 0x0B => some (.sats e gd ga gb eow)
  | 0x0C => some (.shl e gd ga sh eow)
  | 0x0D => some (.shr e gd ga sh eow)
  | 0x0E => some (.shru e gd ga sh eow)
  | 0x0F => some (.and e gd ga gb eow)
  | 0x10 => some (.or e gd ga gb eow)
  | 0x11 => some (.xor e gd ga gb eow)
  | 0x12 => if gd.val = 0 then some (.cmp e ga gb (slotField 8 b 4 2) n eow) else none
  | 0x13 => some (.sel e gd ga gb n eow)
  | 0x14 => some (.req e ga n eow)
  | 0x15 => some (.trig e n eow)
  | 0x16 => some (.rdsf e gd eow)
  | 0x17 => some (.addw e gd ga gb eow)
  | 0x18 => some (.subw e gd ga gb eow)
  | _ => none

/-- The command that slot `i` (0 M0, 1 M1, 2 L, 3 X) with bits `b` is on engine `e`; none for what R98 refuses. `ecc` is what the
access of an L slot meets. -/
def decodeSlot (e : Fin 256) (i b : Nat) (ecc : Ecc) (eow : Bool) : Option Instr :=
  match i with
  | 0 => decodeM e false b eow
  | 1 => decodeM e true b eow
  | 2 => decodeL e b ecc eow
  | _ => decodeX e b eow

/-- The 28 bits of slot `i` of an instruction word (R95). -/
def slotBits (w : BitVec 128) (i : Nat) : Nat := w.toNat / 2 ^ (84 - 28 * i) % 2 ^ 28

/-- The commands of an instruction word, in slot order; the last one ends the word. None where a slot is refused. -/
def wordCommands (e : Fin 256) (w : BitVec 128) (ecc : Ecc) : Option (List Instr) :=
  match decodeSlot e 0 (slotBits w 0) ecc false, decodeSlot e 1 (slotBits w 1) ecc false, decodeSlot e 2 (slotBits w 2) ecc false,
      decodeSlot e 3 (slotBits w 3) ecc true with
  | some a, some b, some c, some d => some [a, b, c, d]
  | _, _, _, _ => none

/-- A slot's bits from its opcode and the rest of its fields. -/
def slotOf (op rest : Nat) : Nat := op * 2 ^ 23 + rest

/-- The fields of an M slot. -/
def mBits (op : Nat) (ad : Fin 4) (ga gb q : Fin 32) (rnd : Bool) (as : Fin 4) : Nat :=
  slotOf op (ad.val * 2 ^ 21 + ga.val * 2 ^ 16 + gb.val * 2 ^ 11 + q.val * 2 ^ 6 + (if rnd then 32 else 0) + as.val * 8)

/-- The fields of an L slot. -/
def lBits (op : Nat) (gr gb : Fin 32) (am : Fin 4) (off : BitVec 11) : Nat :=
  slotOf op (gr.val * 2 ^ 18 + gb.val * 2 ^ 13 + am.val * 2 ^ 11 + off.toNat)

/-- The fields of an X slot in register form. -/
def xBits (op : Nat) (gd ga gb : Fin 32) (imm : Nat) : Nat := slotOf op (gd.val * 2 ^ 18 + ga.val * 2 ^ 13 + gb.val * 2 ^ 8 + imm)

/-- The slot and the bits of a slot command; fields that an operation does not use are 0. None for a command that is no slot. -/
def encodeSlot (c : Instr) : Option (Nat × Nat) :=
  let m (m1 : Bool) (b : Nat) : Option (Nat × Nat) := some (if m1 then 1 else 0, b)
  match c with
  | .nop _ _ => some (3, 0)
  | .mul _ m1 ad ga gb q rnd _ => m m1 (mBits 0x01 ad ga gb q rnd 0)
  | .mac _ m1 ad ga gb q rnd _ => m m1 (mBits 0x02 ad ga gb q rnd 0)
  | .msu _ m1 ad ga gb q rnd _ => m m1 (mBits 0x03 ad ga gb q rnd 0)
  | .muld _ m1 ad ga gb q rnd _ => m m1 (mBits 0x04 ad ga gb q rnd 0)
  | .macd _ m1 ad ga gb q rnd _ => m m1 (mBits 0x05 ad ga gb q rnd 0)
  | .msud _ m1 ad ga gb q rnd _ => m m1 (mBits 0x06 ad ga gb q rnd 0)
  | .aclr _ m1 ad _ => m m1 (mBits 0x07 ad 0 0 0 false 0)
  | .ald _ m1 ad ga q _ => m m1 (mBits 0x08 ad ga 0 q false 0)
  | .aadd _ m1 ad ga q _ => m m1 (mBits 0x09 ad ga 0 q false 0)
  | .aadda _ m1 ad as _ => m m1 (mBits 0x0A ad 0 0 0 false as)
  | .asuba _ m1 ad as _ => m m1 (mBits 0x0B ad 0 0 0 false as)
  | .asat _ m1 ad gb q rnd _ => m m1 (mBits 0x0C ad 0 gb q rnd 0)
  | .ashl _ m1 ad q _ => m m1 (mBits 0x0D ad 0 0 q false 0)
  | .ashr _ m1 ad q rnd _ => m m1 (mBits 0x0E ad 0 0 q rnd 0)
  | .aneg _ m1 ad _ => m m1 (mBits 0x0F ad 0 0 0 false 0)
  | .ldw _ gr gb am off _ _ => some (2, lBits 0x01 gr gb am off)
  | .stw _ gr gb am off _ => some (2, lBits 0x02 gr gb am off)
  | .ldd _ gr gb am off _ _ => some (2, lBits 0x03 gr gb am off)
  | .std _ gr gb am off _ => some (2, lBits 0x04 gr gb am off)
  | .ldh _ gr gb am off _ _ => some (2, lBits 0x05 gr gb am off)
  | .ldhu _ gr gb am off _ _ => some (2, lBits 0x06 gr gb am off)
  | .sth _ gr gb am off _ => some (2, lBits 0x07 gr gb am off)
  | .mov _ gd ga _ => some (3, xBits 0x01 gd ga 0 0)
  | .movi _ gd imm _ => some (3, xBits 0x02 gd 0 0 imm.toNat)
  | .movh _ gd imm _ => some (3, xBits 0x03 gd 0 0 imm.toNat)
  | .add _ gd ga gb _ => some (3, xBits 0x04 gd ga gb 0)
  | .sub _ gd ga gb _ => some (3, xBits 0x05 gd ga gb 0)
  | .addi _ gd ga imm _ => some (3, xBits 0x06 gd ga 0 imm.toNat)
  | .min _ gd ga gb _ => some (3, xBits 0x07 gd ga gb 0)
  | .max _ gd ga gb _ => some (3, xBits 0x08 gd ga gb 0)
  | .abs _ gd ga _ => some (3, xBits 0x09 gd ga 0 0)
  | .neg _ gd ga _ => some (3, xBits 0x0A gd ga 0 0)
  | .sats _ gd ga gb _ => some (3, xBits 0x0B gd ga gb 0)
  | .shl _ gd ga n _ => some (3, xBits 0x0C gd ga 0 n.val)
  | .shr _ gd ga n _ => some (3, xBits 0x0D gd ga 0 n.val)
  | .shru _ gd ga n _ => some (3, xBits 0x0E gd ga 0 n.val)
  | .and _ gd ga gb _ => some (3, xBits 0x0F gd ga gb 0)
  | .or _ gd ga gb _ => some (3, xBits 0x10 gd ga gb 0)
  | .xor _ gd ga gb _ => some (3, xBits 0x11 gd ga gb 0)
  | .cmp _ ga gb cond n _ => some (3, xBits 0x12 0 ga gb (4 * cond.val + n.val))
  | .sel _ gd ga gb n _ => some (3, xBits 0x13 gd ga gb n.val)
  | .req _ ga n _ => some (3, xBits 0x14 0 ga 0 n.val)
  | .trig _ n _ => some (3, xBits 0x15 0 0 0 n.val)
  | .rdsf _ gd _ => some (3, xBits 0x16 gd 0 0 0)
  | .addw _ gd ga gb _ => some (3, xBits 0x17 gd ga gb 0)
  | .subw _ gd ga gb _ => some (3, xBits 0x18 gd ga gb 0)
  | _ => none

end Sys2Proof
end

