-- ==== Sys2Proof/Machine/Sha.lean ====
section
/-! DEFINITION. SHA-256 and HMAC-SHA-256, which the recorder's clear token uses (R569), and SHA-384, by which OTP names the system keys
(R574). The constants are computed from the primes that define them (assumption log 60, PRESUMED). -/

namespace Sys2Proof.Machine

/-- A number of those below 441 that is prime: above 1, and no smaller number from 2 to 20 divides it. -/
def isPrime (n : Nat) : Bool := decide (2 ≤ n) && (upto 21).all fun d => decide (d < 2) || decide (n ≤ d) || n % d != 0

/-- The first 64 primes, by which SHA-256 names its constants. -/
def shaPrimes : List Nat := (upto 312).filter isPrime

/-- The greatest r below 2^k + r₀ whose power `p` is at most `n`, bit by bit. -/
def rootBits (p n : Nat) : Nat → Nat → Nat
  | 0, r => r
  | k + 1, r => rootBits p n k (if (r + 2 ^ k) ^ p ≤ n then r + 2 ^ k else r)

/-- The first 32 bits of the fraction of the root of degree `p` of `n`. -/
def rootFraction (p n : Nat) : Word := BitVec.ofNat 32 (rootBits p (n * 2 ^ (32 * p)) 40 0)

/-- The round constants: cube roots of the 64 primes. -/
def shaK : List Word := shaPrimes.map (rootFraction 3)

/-- The initial hash value: square roots of the first eight. -/
def shaInit : List Word := (shaPrimes.take 8).map (rootFraction 2)

def shaRot (w : Word) (n : Nat) : Word := w.rotateRight n

/-- The message schedule, the newest word first. -/
def shaExtend : Nat → List Word → List Word
  | 0, l => l
  | n + 1, l =>
    let a := l.getD 14 0
    let b := l.getD 1 0
    let s0 := shaRot a 7 ^^^ shaRot a 18 ^^^ (a >>> 3)
    let s1 := shaRot b 17 ^^^ shaRot b 19 ^^^ (b >>> 10)
    shaExtend n ((l.getD 15 0 + s0 + l.getD 6 0 + s1) :: l)

/-- One round, over the working words a to h. -/
def shaRound (v : List Word) (kw : Word × Word) : List Word :=
  let w (i : Nat) : Word := v.getD i 0
  let s1 := shaRot (w 4) 6 ^^^ shaRot (w 4) 11 ^^^ shaRot (w 4) 25
  let ch := (w 4 &&& w 5) ^^^ (~~~ (w 4) &&& w 6)
  let t1 := w 7 + s1 + ch + kw.1 + kw.2
  let s0 := shaRot (w 0) 2 ^^^ shaRot (w 0) 13 ^^^ shaRot (w 0) 22
  let maj := (w 0 &&& w 1) ^^^ (w 0 &&& w 2) ^^^ (w 1 &&& w 2)
  [t1 + (s0 + maj), w 0, w 1, w 2, w 3 + t1, w 4, w 5, w 6]

/-- Big-endian words of bytes. -/
def beWords : Nat → List Nat → List Word
  | 0, _ => []
  | n + 1, l => BitVec.ofNat 32 (l.getD 0 0 * 16777216 + l.getD 1 0 * 65536 + l.getD 2 0 * 256 + l.getD 3 0) :: beWords n (l.drop 4)

/-- One block of 64 bytes. -/
def shaBlock (h : List Word) (l : List Nat) : List Word :=
  let ws := (shaExtend 48 (beWords 16 l).reverse).reverse
  let v := (shaK.zip ws).foldl shaRound h
  (h.zip v).map fun x => x.1 + x.2

/-- The blocks of a padded message. -/
def shaBlocks : Nat → List Word → List Nat → List Word
  | 0, h, _ => h
  | n + 1, h, l => shaBlocks n (shaBlock h l) (l.drop 64)

/-- The bytes of words, the most significant first. -/
def beBytesOf (l : List Word) : List Nat := l.flatMap fun w => (wordBytes w).reverse

/-- SHA-256 of bytes. -/
def sha256 (m : List Nat) : List Nat :=
  let n := m.length
  let p := m ++ [0x80] ++ List.replicate ((119 - n % 64) % 64) 0 ++ (upto 8).map fun i => 8 * n / 256 ^ (7 - i) % 256
  beBytesOf (shaBlocks (p.length / 64) shaInit p)

/-- HMAC-SHA-256 under a key of at most 64 bytes. -/
def hmac256 (key m : List Nat) : List Nat :=
  let k := key ++ List.replicate (64 - key.length) 0
  sha256 ((k.map fun b => b ^^^ 0x5C) ++ sha256 ((k.map fun b => b ^^^ 0x36) ++ m))

/-! ## SHA-384 (R574): the same construction over words of 64 bits -/

/-- The first 80 primes. -/
def widePrimes : List Nat := (upto 410).filter isPrime

/-- The first 64 bits of the fraction of the root of degree `p` of `n`. -/
def wideFraction (p n : Nat) : DWord := BitVec.ofNat 64 (rootBits p (n * 2 ^ (64 * p)) 72 0)

/-- Three rotations or shifts of a word, put together. -/
def wideMix (x y z : DWord) : DWord := x ^^^ y ^^^ z

/-- The schedule's next word from the sixteen before it, the newest first. -/
def wideNext (l : List DWord) : DWord :=
  let old := l.getD 14 0
  let new := l.getD 1 0
  l.getD 15 0 + l.getD 6 0 + wideMix (old.rotateRight 1) (old.rotateRight 8) (old >>> 7) +
    wideMix (new.rotateRight 19) (new.rotateRight 61) (new >>> 6)

/-- The eight working words. -/
structure WideRegs where
  a : DWord
  b : DWord
  c : DWord
  d : DWord
  e : DWord
  f : DWord
  g : DWord
  h : DWord
  deriving DecidableEq, Repr

/-- One round with its constant and schedule word. -/
def wideRound (v : WideRegs) (k w : DWord) : WideRegs :=
  let pick := (v.e &&& v.f) ||| (~~~ v.e &&& v.g)
  let most := (v.a &&& v.b) ||| (v.c &&& (v.a ||| v.b))
  let sum := v.h + k + w + pick + wideMix (v.e.rotateRight 14) (v.e.rotateRight 18) (v.e.rotateRight 41)
  { v with a := sum + most + wideMix (v.a.rotateRight 28) (v.a.rotateRight 34) (v.a.rotateRight 39), b := v.a, c := v.b, d := v.c
           e := v.d + sum, f := v.e, g := v.f, h := v.g }

/-- The rounds of a block: the constants left, and the schedule so far, the newest first, beside the word of this round. -/
def wideRounds : List DWord → List DWord → List DWord → WideRegs → WideRegs
  | [], _, _, v => v
  | k :: ks, w :: ws, l, v => wideRounds ks ws (w :: l) (wideRound v k w)
  | k :: ks, [], l, v => let w := wideNext l; wideRounds ks [] (w :: l) (wideRound v k w)

/-- A block's 16 words join the hash. -/
def wideBlock (h : WideRegs) (ws : List DWord) : WideRegs :=
  let v := wideRounds (widePrimes.map (wideFraction 3)) ws [] h
  ⟨h.a + v.a, h.b + v.b, h.c + v.c, h.d + v.d, h.e + v.e, h.f + v.f, h.g + v.g, h.h + v.h⟩

/-- The hash before the first block: square roots of the ninth to the sixteenth prime. -/
def wideStart : WideRegs :=
  let r (i : Nat) : DWord := wideFraction 2 (widePrimes.getD (8 + i) 0)
  ⟨r 0, r 1, r 2, r 3, r 4, r 5, r 6, r 7⟩

/-- SHA-384 of bytes, as a number of 384 bits. -/
def sha384 (m : List Nat) : Nat :=
  let n := m.length
  let p := m ++ [0x80] ++ List.replicate ((239 - n % 128) % 128) 0 ++ beBytes 16 (8 * n)
  let words := (upto (p.length / 8)).map fun i => BitVec.ofNat 64 (beNat ((p.drop (8 * i)).take 8))
  let h := (upto (p.length / 128)).foldl (fun h i => wideBlock h ((words.drop (16 * i)).take 16)) wideStart
  [h.a, h.b, h.c, h.d, h.e, h.f].foldl (fun n w => n * 2 ^ 64 + w.toNat) 0

end Sys2Proof.Machine
end

