-- ==== Sys2Proof/Machine/Ecdsa.lean ====
section
/-! DEFINITION. The check of an ECDSA signature on the curve P-384 (R447), whose numbers the spec takes as known (assumption log 60,
PRESUMED). Points stand in projective form, x / z² and y / z³, so that only the check of s needs an inverse. -/

namespace Sys2Proof.Machine

/-- The field of the curve, the order of its base point. -/
def curveField : Nat := 2 ^ 384 - 2 ^ 128 - 2 ^ 96 + 2 ^ 32 - 1
def curveOrder : Nat :=
  0xFFFFFFFFFFFFFFFFFFFFFFFFFFFFFFFFFFFFFFFFFFFFFFFFC7634D81F4372DDF581A0DB248B0A77AECEC196ACCC52973

/-- The constant term of the curve y² = x³ − 3x + b. -/
def curveB : Nat :=
  0xB3312FA7E23EE7E4988E056BE3F82D19181D9C6EFE8141120314088F5013875AC656398D8A2ED19D2A85C8EDD3EC2AEF

/-- A point; z is 0 at infinity. -/
structure CurvePt where
  x : Nat
  y : Nat
  z : Nat
  deriving DecidableEq, Repr

/-- The base point. -/
def curveBase : CurvePt :=
  ⟨0xAA87CA22BE8B05378EB1C71EF320AD746E1D3B628BA79B9859F741E082542A385502F25DBF55296C3A545E3872760AB7,
   0x3617DE4A96262C6F5D9E98BF9292DC29F8F41DBD289A147CE9DA3113B5F0B8C00A60B1CE1D7E819D7A431D7C90EA0E5F, 1⟩

/-- Go on with a number once it is known: an evaluation then keeps numbers in place of sums still to be formed. -/
def knowing {α : Type} (n : Nat) (go : Nat → α) : α :=
  match n with
  | 0 => go 0
  | m + 1 => go (m + 1)

/-- A difference in the field. -/
def fieldSub (a b : Nat) : Nat := (a + curveField - b % curveField) % curveField

/-- Go on with a point of reduced numbers. -/
def knowingPt {α : Type} (x y z : Nat) (go : CurvePt → α) : α :=
  knowing (x % curveField) fun x => knowing (y % curveField) fun y => knowing (z % curveField) fun z => go ⟨x, y, z⟩

/-- Twice a point. -/
def curveTwice {α : Type} (p : CurvePt) (go : CurvePt → α) : α :=
  knowing (p.z * p.z % curveField) fun zz =>
    knowing (p.y * p.y % curveField) fun yy =>
      knowing (p.x * yy % curveField) fun s =>
        knowing (3 * fieldSub p.x zz * (p.x + zz) % curveField) fun m =>
          knowing (fieldSub (m * m) (8 * s)) fun x => knowingPt x (fieldSub (m * fieldSub (4 * s) x) (8 * yy * yy)) (2 * p.y * p.z) go

/-- The sum of two points. -/
def curveAdd {α : Type} (p q : CurvePt) (go : CurvePt → α) : α :=
  if p.z = 0 then go q
  else if q.z = 0 then go p
  else
    knowing (p.z * p.z % curveField) fun zp =>
      knowing (q.z * q.z % curveField) fun zq =>
        knowing (p.x * zq % curveField) fun u =>
          knowing (fieldSub (q.x * zp) u) fun h =>
            knowing (p.y * q.z * zq % curveField) fun s =>
              knowing (fieldSub (q.y * p.z * zp) s) fun r =>
                if h = 0 then (if r = 0 then curveTwice p go else go ⟨1, 1, 0⟩)
                else
                  knowing (h * h % curveField) fun hh =>
                    knowing (u * hh % curveField) fun v =>
                      knowing (fieldSub (r * r) (h * hh + 2 * v)) fun x =>
                        knowingPt x (fieldSub (r * fieldSub v x) (s * h * hh)) (p.z * q.z * h) go

/-- Sixteen bits of the multiples u of the base point and v of `q`, the highest first, from bit `top` − 1 down; `both` is the sum of the
two points. -/
def curveBits (u v : Nat) (q both : CurvePt) (top : Nat) : Nat → CurvePt → CurvePt
  | 0, p => p
  | k + 1, p => curveTwice p fun p =>
    match nbit u (top - 16 + k), nbit v (top - 16 + k) with
    | false, false => curveBits u v q both top k p
    | true, false => curveAdd p curveBase (curveBits u v q both top k)
    | false, true => curveAdd p q (curveBits u v q both top k)
    | true, true => curveAdd p both (curveBits u v q both top k)

/-- u times the base point plus v times `q`, u and v below 2^384. -/
def curveSum (u v : Nat) (q : CurvePt) : CurvePt :=
  curveAdd q curveBase fun both => (upto 24).foldl (fun p i => curveBits u v q both (16 * (24 - i)) 16 p) ⟨1, 1, 0⟩

/-- A power modulo m: bits of the exponent below `i`, the highest first. -/
def powMod (m b e : Nat) : Nat → Nat → Nat
  | 0, r => r
  | i + 1, r => knowing (r * r % m * (if nbit e i then b else 1) % m) fun r => powMod m b e i r

/-- The first coordinate of a point is `r` in the field. -/
def hasFirst (p : CurvePt) (r : Nat) : Bool := p.z != 0 && decide (r < curveField) && fieldSub p.x (r * (p.z * p.z)) == 0

/-- A public key, as x · 2^384 + y, is a point of the curve. -/
def onCurve (key : Nat) : Bool :=
  let x := key / 2 ^ 384
  let y := key % 2 ^ 384
  decide (x < curveField) && decide (y < curveField) && (y * y + 3 * x) % curveField == (x * x * x + curveB) % curveField

/-- r and s are a signature of the hash `h` under the public key. -/
def ecdsaOk (key h r s : Nat) : Bool :=
  onCurve key && decide (0 < r) && decide (r < curveOrder) && decide (0 < s) && decide (s < curveOrder) &&
    knowing (powMod curveOrder s (curveOrder - 2) 384 1) fun w =>
      knowing (h * w % curveOrder) fun u =>
        knowing (r * w % curveOrder) fun v =>
          let p := curveSum u v ⟨key / 2 ^ 384, key % 2 ^ 384, 1⟩
          hasFirst p r || hasFirst p (r + curveOrder)

end Sys2Proof.Machine
end

