-- ==== Sys2Proof/Machine/ImgHead.lean ====
section
/-! DEFINITION. The headers of images, slots, parameter blocks and the flash directory (R445, R446, R572, R573): their fields, and the checks
of their form and of their signatures (rows 1, 3 and 4 of R449). -/

namespace Sys2Proof

/-! ## Fields of an image header (R445) -/

def SubImage.imgVer (u : SubImage) : Word := BitVec.ofNat 32 (Machine.leAt u.header 0x08 4)
def SubImage.layout (u : SubImage) : Word := BitVec.ofNat 32 (Machine.leAt u.header 0x0C 4)
def SubImage.svn (u : SubImage) : Nat := Machine.leAt u.header 0x10 4
def SubImage.length (u : SubImage) : Nat := Machine.leAt u.header 0x14 4
def SubImage.variant (u : SubImage) : Nat := Machine.leAt u.header 0x07 1
def SubImage.polder (u : SubImage) : Nat := Machine.leAt u.header 0x1A 1
def SubImage.entry (u : SubImage) : Nat := Machine.leAt u.header 0x1B 1
def SubImage.fresh (u : SubImage) : Bool := Machine.leAt u.header 0x1C 4 % 2 == 1
def SubImage.tsched (u : SubImage) : Nat := Machine.leAt u.header 0x20 4

def FullImage.fmtVer (f : FullImage) : Nat := Machine.leAt f.header 0x04 2
def FullImage.variant (f : FullImage) : Nat := Machine.leAt f.header 0x07 1
def FullImage.imgVer (f : FullImage) : Word := BitVec.ofNat 32 (Machine.leAt f.header 0x08 4)
def FullImage.svn (f : FullImage) : Nat := Machine.leAt f.header 0x10 4
def FullImage.tsched (f : FullImage) : Nat := Machine.leAt f.header 0x20 4

/-! ## Fields of a parameter block (R573) -/

def ParamBlock.polder (b : ParamBlock) : Nat := Machine.leAt b.header 4 1
def ParamBlock.keyId (b : ParamBlock) : Nat := Machine.leAt b.header 5 1
def ParamBlock.imgVer (b : ParamBlock) : Word := BitVec.ofNat 32 (Machine.leAt b.header 8 4)

/-- The entries: global engine number, data-memory word index, value. -/
def ParamBlock.values (b : ParamBlock) : List (Nat × Nat × Word) :=
  b.entries.map fun x => (x.1.toNat / 2 ^ 24, x.1.toNat % 2 ^ 15, x.2)

/-! ## Fields of a slot header (R572) -/

/-- The SHA-384 of the slot's SYSKEY, 104 bytes at 0x010 (R574). -/
def Slot.keyHash (x : Slot) : Nat := Machine.sha384 ((Machine.upto 104).map fun i => (x.header.getD (16 + i) 0).toNat)

/-- The public key of the slot's SYSKEY: the last 96 of its 104 bytes, as its coordinates x and y (assumption log 7, DEDUCED: 104 bytes hold
the flag and two numbers of 48 bytes). -/
def Slot.sysKey (x : Slot) : Nat := Machine.beNat ((Machine.upto 96).map fun i => (x.header.getD (24 + i) 0).toNat)

/-- MAGIC "KSLT" and HCRC over 0x000–0xFF3 are correct (R577). -/
def Slot.headerOk (x : Slot) : Bool :=
  x.header.take 4 == [0x4B, 0x53, 0x4C, 0x54] &&
    Machine.crc32 ((x.header.take 0xFF4).map (fun b => b.toNat) ++ List.replicate (0xFF4 - x.header.length) 0) == x.hcrc.toNat

namespace Machine

/-! ## Form of an image (rows 1 and 3 of R449) -/

/-- The section types of a full image, of a sub-image (R446). -/
def sectTypes (full : Bool) : List Nat :=
  0xFFFF :: (if full then [1, 2, 3, 4, 5, 6, 0x100] else (upto 13).map fun i => 0x200 + i)

/-- MAGIC, KIND as expected, FMTVER major 0x01 (row 1). -/
def magicOk (h : List (BitVec 8)) (full : Bool) : Bool :=
  h.take 4 == [0x4B, 0x4C, 0x54, 0x59] && leAt h 6 1 == (if full then 0 else 1) && leAt h 5 1 == 1

/-- The length of a section: its header, its value, the padding to a multiple of 8. -/
def sectBytes (x : Sect) : Nat := 8 + (x.len.toNat + 7) / 8 * 8

/-- The header of a section as bytes. -/
def sectHead (x : Sect) : List Nat :=
  (beBytes 2 x.type.toNat).reverse ++ (beBytes 2 x.flags.toNat).reverse ++ (beBytes 4 x.len.toNat).reverse

/-- A section as bytes. -/
def sectList (x : Sect) : List Nat := sectHead x ++ (x.value ++ x.pad).map fun b => b.toNat

/-- An image as bytes: its header and its sections. -/
def imageBytes (h : List (BitVec 8)) (l : List Sect) : List Nat := h.map (fun b => b.toNat) ++ l.flatMap sectList

/-- The sections that bytes spell, in order; a rest too short for a section's header is one that is not well formed. -/
def parseSects : Nat → List (BitVec 8) → List Sect
  | 0, _ => []
  | _, [] => []
  | n + 1, l =>
    if l.length < 8 then [{ type := 0, flags := 0, len := 0, value := [], pad := l }]
    else
      let len := leAt l 4 4
      let fill := (8 - len % 8) % 8
      let v := l.drop 8
      { type := BitVec.ofNat 16 (leAt l 0 2), flags := BitVec.ofNat 16 (leAt l 2 2), len := BitVec.ofNat 32 len, value := v.take len
        pad := (v.drop len).take fill } :: parseSects n (v.drop (len + fill))

/-- The value has LEN bytes, and zero bytes fill it up to a multiple of 8 (R446). -/
def padOk (x : Sect) : Bool := x.value.length == x.len.toNat && x.pad == List.replicate ((8 - x.len.toNat % 8) % 8) 0

/-- A section after the one of type `before`, if any: types rise, SUBIMG alone repeats, an unknown type is not critical, padding and the other
flags are zero, SIG and nothing else is last and holds 104 bytes, 7 of them reserved (R446, R447). -/
def sectOk (full : Bool) (before : Option Nat) (last : Bool) (x : Sect) : Bool :=
  let t := x.type.toNat
  (match before with
    | some b => decide (b < t) || (b == t && t == 0x100 && full)
    | none => true) &&
  padOk x && decide (x.flags.toNat < 2) && ((sectTypes full).contains t || x.flags.toNat == 0) &&
  (t == 0xFFFF) == last && (t != 0xFFFF || (x.len.toNat == 104 && ((x.value.drop 1).take 7).all (· == 0)))

/-- The first section at fault, from section `i` on; none where all are well formed. -/
def badSect (full : Bool) : Nat → Option Nat → List Sect → Option Nat
  | _, _, [] => none
  | i, b, x :: t => if sectOk full b t.isEmpty x then badSect full (i + 1) (some x.type.toNat) t else some i

/-- Reserved header fields are 0, LENGTH and NSECT are those of the sections (row 3); ENTRY is a mode or 0xFF. -/
def headerForm (h : List (BitVec 8)) (l : List Sect) (full : Bool) : Bool :=
  let e := leAt h 0x1B 1
  h.length == 64 && leAt h 0x1C 4 < 2 && (h.drop 0x24).all (· == 0) && leAt h 0x18 2 == l.length && !l.isEmpty &&
    leAt h 0x14 4 == 64 + (l.map sectBytes).sum && (if full then leAt h 0x1A 1 == 0 else leAt h 0x1A 1 < 8 && (e < 16 || e == 0xFF))

/-- The form of an image (row 3). -/
def structOk (h : List (BitVec 8)) (l : List Sect) (full : Bool) : Bool := headerForm h l full && (badSect full 0 none l).isNone

/-- The KEYID that a signature of polder `p` carries: `p` where KEYS marks its key present, else 0 (R447). -/
def keyIdFor (keys : List (Option Nat)) (p : Nat) : Nat := if p ≠ 0 ∧ (keys.getD (p - 1) none).isSome then p else 0

/-- A SIG section carries this KEYID, and its r and s are a signature, under a key, of the bytes before it and its own header (R447). -/
def sigGood (key keyId : Nat) (before : List Nat) (sig : Sect) : Bool :=
  let v := sig.value.map fun b => b.toNat
  v.getD 0 0 == keyId && ecdsaOk key (sha384 (before ++ sectHead sig)) (beNat ((v.drop 8).take 48)) (beNat ((v.drop 56).take 48))

/-- The signature that ends an image. -/
def imageSigned (key keyId : Nat) (h : List (BitVec 8)) (l : List Sect) : Bool :=
  match l.getLast? with
  | some x => x.type.toNat == 0xFFFF && sigGood key keyId (imageBytes h l.dropLast) x
  | none => false

/-- The key that a KEYID names: the system key, or one of a KEYS section. -/
def keyNamed (sys : Nat) (keys : List (Option Nat)) (id : Nat) : Nat := if id = 0 then sys else (keys.getD (id - 1) none).getD 0

/-- The signature of a sub-image under a system key and a KEYS section (row 4, R448). -/
def signedOk (sys : Nat) (keys : List (Option Nat)) (u : SubImage) : Bool :=
  let id := keyIdFor keys u.polder
  imageSigned (keyNamed sys keys id) id u.header u.sects

/-! ## What the sections hold (row 3) -/

/-- A section of a type stands in the list. -/
def hasSect (l : List Sect) (t : Nat) : Bool := l.any fun x => x.type.toNat == t

/-- What a sub-image holds stands in its sections: a section that is absent holds nothing (R446; assumption log 7). -/
def subHeld (u : SubImage) : Bool :=
  let here := hasSect u.sects
  (here 0x200 || u.tables.isEmpty) && (here 0x201 || (u.dmem.isEmpty && u.areas.isEmpty && u.cmpDest.isEmpty && u.encDest.isEmpty && u.portDest.isEmpty)) &&
    (here 0x202 || u.steps.isEmpty) && (here 0x203 || u.rules.isEmpty) && (here 0x204 || u.roles == 0) && (here 0x205 || u.csrc.isEmpty) &&
    (here 0x206 || u.latches.isEmpty) && (here 0x207 || u.groups.isEmpty) && (here 0x208 || u.insts.isEmpty) && (here 0x209 || u.cycles.isEmpty) &&
    (here 0x20A || u.regs.isEmpty) && (here 0x20B || u.taps.isEmpty) && (here 0x20C || u.migrate.isNone)

/-- What a full image holds stands in its sections, and each SUBIMG section is one of its sub-images, with header and SIG (R446). -/
def fullHeld (f : FullImage) : Bool :=
  let here := hasSect f.sects
  (here 1 || f.resmap.isEmpty) && (here 2 || f.binds.isEmpty) && (here 3 || f.sysregs.isEmpty) && (here 4 || f.tempos.isEmpty) &&
    (here 5 || (f.routes.isEmpty && f.pinned.isNone && f.credits.isEmpty)) && (here 6 || f.keys.isEmpty) &&
    (f.sects.filter fun x => x.type.toNat == 0x100).map (fun x => x.value.map fun b => b.toNat) ==
      f.subs.map fun u => imageBytes u.header u.sects

/-! ## The flash directory (R572) -/

/-- SLOTA, SLOTB and SLOTSIZE of a directory whose MAGIC "KFLD" and CRC-32 are right. -/
def directory (l : List (BitVec 8)) : Option (Nat × Nat × Nat) :=
  if l.length = 64 ∧ l.take 4 = [0x4B, 0x46, 0x4C, 0x44] ∧ crc32 ((l.take 60).map fun b => b.toNat) = leAt l 60 4 then
    some (leAt l 4 4, leAt l 8 4, leAt l 12 4)
  else none

/-! ## Parameter blocks (R573) -/

/-- A parameter block as bytes, up to its SIG section. -/
def paramBytes (b : ParamBlock) : List Nat := b.header.map (fun x => x.toNat) ++ b.entries.flatMap fun e => wordBytes e.1 ++ wordBytes e.2

/-- MAGIC "KPRM", N, and the signature with its KEYID. -/
def paramForm (sys : Nat) (keys : List (Option Nat)) (b : ParamBlock) : Bool :=
  let id := keyIdFor keys b.polder
  b.header.take 4 == [0x4B, 0x50, 0x52, 0x4D] && b.header.length == 16 && leAt b.header 12 4 == b.entries.length && b.keyId == id &&
    sectOk false none true b.sig && sigGood (keyNamed sys keys id) id (paramBytes b) b.sig

end Machine

end Sys2Proof
end

