-- ==== Sys2Proof/Machine/RegMap.lean ====
section
/-! DEFINITION. The register map of R28 and of the register tables of every chapter: for each register its
offset in its block (with the strides and counts of its repeats), and for each field that is not reserved
its bits, access code (R10), rights (R12) and reset value (R14). A reset value the spec gives as a dash, "per
image", "per boot", "per straps" or "random" stands as 0 (assumption log 3, DESIGN CHOICE). -/

namespace Sys2Proof.Machine

/-- The access codes of R10. -/
inductive Access | rw | ro | w1c | rc | ws | wo
  deriving DecidableEq, Repr

/-- The rights of R12. -/
inductive Rights | own | sys | any
  deriving DecidableEq, Repr

/-- One field of a register table: bits, access, rights, reset value. -/
structure FieldDesc where
  fld : Fld
  acc : Access
  rights : Rights
  rst : Nat
  deriving DecidableEq, Repr

/-- One register of a table: its offset, the (stride, count) of each repeat, its fields. -/
structure RegDesc where
  off : Nat
  dims : List (Nat × Nat)
  fields : List FieldDesc
  deriving DecidableEq, Repr

/-- Shorthand for one field row. -/
def fd (hi lo : Nat) (acc : Access) (rights : Rights) (rst : Nat) : FieldDesc := ⟨⟨hi, lo⟩, acc, rights, rst⟩

/-- SYS registers (00_scope.md, R1), part 1. -/
def sysRegs1 : List RegDesc := [
  -- IDREV
  ⟨0x0, [], [fd 31 16 .ro .any 37462, fd 15 8 .ro .any 176, fd 7 4 .ro .any 1]⟩,
  -- RSTCAUSE
  ⟨0x4, [], [fd 3 3 .w1c .sys 0, fd 2 2 .w1c .sys 0, fd 1 1 .w1c .sys 0, fd 0 0 .w1c .sys 1]⟩,
  -- PRST
  ⟨0x8, [], [fd 7 0 .wo .sys 0]⟩,
  -- PRSELF
  ⟨0xc, [], [fd 7 0 .wo .any 0]⟩,
  -- PRSTAT
  ⟨0x10, [], [fd 15 8 .w1c .sys 0, fd 7 0 .ro .any 0]⟩,
  -- UID_LO
  ⟨0x18, [], [fd 31 0 .ro .any 0]⟩,
  -- UID_HI
  ⟨0x1c, [], [fd 31 0 .ro .any 0]⟩,
  -- UNMAP_LO
  ⟨0x20, [], [fd 31 0 .ro .sys 0]⟩,
  -- UNMAP_HI
  ⟨0x24, [], [fd 31 16 .rc .sys 0, fd 12 12 .ro .sys 0, fd 11 11 .w1c .sys 0, fd 10 8 .ro .sys 0, fd 7 0 .ro .sys 0]⟩]

/-- All SYS registers. -/
def sysRegs : List RegDesc := sysRegs1

/-- CLK registers (21_clock_synthesis.md, R626), part 1. -/
def clkRegs1 : List RegDesc := [
  -- REFCFG
  ⟨0x0, [], [fd 1 0 .ro .any 0]⟩,
  -- CPROF
  ⟨0x10, [(4, 8)], [fd 31 31 .ws .sys 1, fd 30 30 .ro .any 0, fd 29 24 .ro .any 0, fd 12 0 .ws .sys 6000]⟩,
  -- CSEL
  ⟨0x30, [], [fd 2 0 .ws .sys 0]⟩,
  -- SPREAD
  ⟨0x34, [], [fd 31 31 .ws .sys 0, fd 15 8 .ws .sys 33, fd 7 0 .ws .sys 40]⟩,
  -- STAT
  ⟨0x40, [], [fd 4 4 .ro .any 0, fd 3 3 .ro .any 0, fd 2 2 .ro .any 0, fd 1 1 .ro .any 0, fd 0 0 .ro .any 0]⟩,
  -- LOSS
  ⟨0x44, [], [fd 23 16 .rc .sys 0, fd 15 8 .rc .sys 0, fd 7 0 .rc .sys 0]⟩,
  -- COMMIT
  ⟨0xff00, [], [fd 1 1 .wo .any 0, fd 0 0 .wo .any 0]⟩,
  -- STAGESTAT
  ⟨0xff04, [], [fd 23 16 .ro .any 0, fd 15 8 .ro .any 0, fd 7 0 .ro .any 0]⟩]

/-- All CLK registers. -/
def clkRegs : List RegDesc := clkRegs1

/-- TICK registers (02_tick_and_sequencer.md, R81), part 1. -/
def tickRegs1 : List RegDesc := [
  -- PERIOD
  ⟨0x0, [], [fd 13 0 .ws .sys 2000]⟩,
  -- COUNT_LO
  ⟨0x8, [], [fd 31 0 .ro .any 0]⟩,
  -- COUNT_HI
  ⟨0xc, [], [fd 15 0 .ro .any 0]⟩,
  -- FBWARN
  ⟨0x10, [], [fd 9 0 .rw .sys 80]⟩,
  -- RTEMPO
  ⟨0x20, [(4, 4)], [fd 1 0 .ws .sys 3]⟩,
  -- TSTAT
  ⟨0x30, [], [fd 5 5 .w1c .sys 0, fd 4 4 .w1c .sys 0, fd 3 0 .w1c .sys 0]⟩,
  -- FBMIN
  ⟨0x40, [(4, 16)], [fd 17 14 .rc .sys 0, fd 9 0 .rc .sys 1000]⟩,
  -- OVTCNT
  ⟨0x80, [(4, 8)], [fd 15 0 .rc .own 0]⟩,
  -- MODE
  ⟨0x100, [(4, 8)], [fd 31 16 .ro .own 0, fd 7 4 .ro .own 0, fd 3 0 .ro .own 0]⟩,
  -- HOSTCOND
  ⟨0x120, [(4, 8)], [fd 15 0 .rw .own 0]⟩,
  -- COND
  ⟨0x140, [(4, 8)], [fd 15 0 .ro .own 0]⟩,
  -- GCOMMIT
  ⟨0x180, [], [fd 24 1 .wo .any 0, fd 0 0 .wo .any 0]⟩]

/-- TICK registers (02_tick_and_sequencer.md, R81), part 2. -/
def tickRegs2 : List RegDesc := [
  -- CSRC
  ⟨0x1000, [(64, 8), (4, 16)], [fd 9 8 .ws .own 3, fd 7 0 .ws .own 0]⟩,
  -- COMMIT
  ⟨0xff00, [], [fd 1 1 .wo .any 0, fd 0 0 .wo .any 0]⟩,
  -- STAGESTAT
  ⟨0xff04, [], [fd 23 16 .ro .any 0, fd 15 8 .ro .any 0, fd 7 0 .ro .any 0]⟩]

/-- All TICK registers. -/
def tickRegs : List RegDesc := tickRegs1 ++ tickRegs2

/-- IMG registers (14_klotecy_image.md, R461), part 1. -/
def imgRegs1 : List RegDesc := [
  -- CTL
  ⟨0x0, [], [fd 1 0 .wo .any 0]⟩,
  -- SRCLO
  ⟨0x4, [], [fd 31 0 .rw .any 0]⟩,
  -- SRCHI
  ⟨0x8, [], [fd 7 0 .rw .any 0]⟩,
  -- LEN
  ⟨0xc, [], [fd 27 0 .rw .any 0]⟩,
  -- STAT
  ⟨0x10, [], [fd 31 30 .ro .any 0, fd 27 24 .ro .any 0, fd 15 0 .ro .any 0]⟩,
  -- ACTVER
  ⟨0x20, [], [fd 31 0 .ro .any 0]⟩,
  -- ACTINFO
  ⟨0x24, [], [fd 31 16 .ro .any 0, fd 7 0 .ro .any 0]⟩,
  -- ACTSVN
  ⟨0x28, [], [fd 31 0 .ro .any 0]⟩,
  -- PVER
  ⟨0x40, [(8, 8)], [fd 31 0 .ro .any 0]⟩,
  -- PLAY
  ⟨0x44, [(8, 8)], [fd 31 0 .ro .any 0]⟩,
  -- ROLE
  ⟨0x80, [(4, 8)], [fd 31 0 .ro .any 0]⟩,
  -- INST
  ⟨0x100, [(4, 64)], [fd 31 31 .ro .any 0, fd 30 30 .ro .any 0, fd 29 29 .ro .any 0, fd 28 26 .ro .any 0, fd 23 16 .ro .any 0, fd 15 8 .ro .any 0, fd 7 0 .ro .any 0]⟩]

/-- IMG registers (02_tick_and_sequencer.md, R82), part 2. -/
def imgRegs2 : List RegDesc := [
  -- COMMIT
  ⟨0xff00, [], [fd 1 1 .wo .any 0, fd 0 0 .wo .any 0]⟩,
  -- STAGESTAT
  ⟨0xff04, [], [fd 23 16 .ro .any 0, fd 15 8 .ro .any 0, fd 7 0 .ro .any 0]⟩]

/-- All IMG registers. -/
def imgRegs : List RegDesc := imgRegs1 ++ imgRegs2

/-- POLD registers (12_polders_and_culvert.md, R420), part 1. -/
def poldRegs1 : List RegDesc := [
  -- BIND
  ⟨0x0, [(4, 32)], [fd 31 31 .ws .sys 0, fd 30 30 .ws .sys 0, fd 27 16 .ws .sys 0, fd 2 0 .ws .sys 0]⟩,
  -- BRCNT
  ⟨0x100, [(4, 8)], [fd 31 0 .rc .sys 0]⟩,
  -- BRCAPLO
  ⟨0x120, [(8, 8)], [fd 31 0 .ro .sys 0]⟩,
  -- BRCAPHI
  ⟨0x124, [(8, 8)], [fd 31 28 .ro .sys 0, fd 27 26 .ro .sys 0, fd 22 20 .ro .sys 0, fd 11 11 .w1c .sys 0, fd 7 0 .ro .sys 0]⟩,
  -- BRLIM
  ⟨0x160, [], [fd 15 0 .rw .sys 256]⟩,
  -- UNBOUND
  ⟨0x164, [], [fd 31 0 .rc .sys 0]⟩,
  -- EVDROP
  ⟨0x180, [(4, 8)], [fd 31 0 .rc .sys 0]⟩,
  -- SELF
  ⟨0x200, [], [fd 2 0 .ro .any 0]⟩,
  -- RMAP
  ⟨0x1000, [(4, 32)], [fd 2 0 .ro .any 0, fd 6 4 .ro .any 0, fd 10 8 .ro .any 0, fd 14 12 .ro .any 0, fd 18 16 .ro .any 0, fd 22 20 .ro .any 0, fd 26 24 .ro .any 0, fd 30 28 .ro .any 0]⟩,
  -- RMAP
  ⟨0x1080, [(4, 32)], [fd 2 0 .ro .any 0, fd 6 4 .ro .any 0, fd 10 8 .ro .any 0, fd 14 12 .ro .any 0, fd 18 16 .ro .any 0, fd 22 20 .ro .any 0, fd 26 24 .ro .any 0, fd 30 28 .ro .any 0]⟩,
  -- RMAP
  ⟨0x1100, [(4, 4)], [fd 2 0 .ro .any 0, fd 6 4 .ro .any 0, fd 10 8 .ro .any 0, fd 14 12 .ro .any 0, fd 18 16 .ro .any 0, fd 22 20 .ro .any 0, fd 26 24 .ro .any 0, fd 30 28 .ro .any 0]⟩,
  -- RMAP
  ⟨0x1110, [(4, 4)], [fd 2 0 .ro .any 0, fd 6 4 .ro .any 0, fd 10 8 .ro .any 0, fd 14 12 .ro .any 0, fd 18 16 .ro .any 0, fd 22 20 .ro .any 0, fd 26 24 .ro .any 0, fd 30 28 .ro .any 0]⟩]

/-- POLD registers (12_polders_and_culvert.md, R421), part 2. -/
def poldRegs2 : List RegDesc := [
  -- RMAP
  ⟨0x1120, [(4, 6)], [fd 2 0 .ro .any 0, fd 6 4 .ro .any 0, fd 10 8 .ro .any 0, fd 14 12 .ro .any 0, fd 18 16 .ro .any 0, fd 22 20 .ro .any 0, fd 26 24 .ro .any 0, fd 30 28 .ro .any 0]⟩,
  -- RMAP
  ⟨0x1140, [(4, 6)], [fd 2 0 .ro .any 0, fd 6 4 .ro .any 0, fd 10 8 .ro .any 0, fd 14 12 .ro .any 0, fd 18 16 .ro .any 0, fd 22 20 .ro .any 0, fd 26 24 .ro .any 0, fd 30 28 .ro .any 0]⟩,
  -- RMAP
  ⟨0x1160, [(4, 1)], [fd 2 0 .ro .any 0, fd 6 4 .ro .any 0, fd 10 8 .ro .any 0, fd 14 12 .ro .any 0]⟩,
  -- RMAP
  ⟨0x1170, [(4, 2)], [fd 2 0 .ro .any 0, fd 6 4 .ro .any 0, fd 10 8 .ro .any 0, fd 14 12 .ro .any 0, fd 18 16 .ro .any 0, fd 22 20 .ro .any 0, fd 26 24 .ro .any 0, fd 30 28 .ro .any 0]⟩,
  -- RMAP
  ⟨0x1180, [(4, 4)], [fd 2 0 .ro .any 0, fd 6 4 .ro .any 0, fd 10 8 .ro .any 0, fd 14 12 .ro .any 0, fd 18 16 .ro .any 0, fd 22 20 .ro .any 0, fd 26 24 .ro .any 0, fd 30 28 .ro .any 0]⟩,
  -- RMAP
  ⟨0x1200, [(4, 32)], [fd 2 0 .ro .any 0, fd 6 4 .ro .any 0, fd 10 8 .ro .any 0, fd 14 12 .ro .any 0, fd 18 16 .ro .any 0, fd 22 20 .ro .any 0, fd 26 24 .ro .any 0, fd 30 28 .ro .any 0]⟩,
  -- RMAP
  ⟨0x1300, [(4, 8)], [fd 2 0 .ro .any 0, fd 6 4 .ro .any 0, fd 10 8 .ro .any 0, fd 14 12 .ro .any 0, fd 18 16 .ro .any 0, fd 22 20 .ro .any 0, fd 26 24 .ro .any 0, fd 30 28 .ro .any 0]⟩,
  -- COMMIT
  ⟨0xff00, [], [fd 1 1 .wo .any 0, fd 0 0 .wo .any 0]⟩,
  -- STAGESTAT
  ⟨0xff04, [], [fd 23 16 .ro .any 0, fd 15 8 .ro .any 0, fd 7 0 .ro .any 0]⟩]

/-- All POLD registers. -/
def poldRegs : List RegDesc := poldRegs1 ++ poldRegs2

/-- CULV registers (12_polders_and_culvert.md, R422), part 1. -/
def culvRegs1 : List RegDesc := [
  -- CFG
  ⟨0x0, [], [fd 7 0 .ws .sys 8]⟩,
  -- OP
  ⟨0x10, [], [fd 31 28 .wo .any 0, fd 27 16 .wo .any 0, fd 15 0 .wo .any 0]⟩,
  -- OPARG
  ⟨0x14, [], [fd 15 8 .rw .any 0, fd 2 0 .rw .any 0]⟩,
  -- OPRES
  ⟨0x18, [], [fd 31 16 .ro .any 0, fd 15 12 .ro .any 0, fd 11 0 .ro .any 0]⟩,
  -- STALECNT
  ⟨0x1c, [], [fd 31 0 .rc .any 0]⟩,
  -- WHEEL
  ⟨0x100, [(4, 8)], [fd 31 0 .ws .sys 0]⟩,
  -- FLAG
  ⟨0x4000, [(4, 4096)], [fd 31 0 .ro .any 0]⟩,
  -- COMMIT
  ⟨0xff00, [], [fd 1 1 .wo .any 0, fd 0 0 .wo .any 0]⟩,
  -- STAGESTAT
  ⟨0xff04, [], [fd 23 16 .ro .any 0, fd 15 8 .ro .any 0, fd 7 0 .ro .any 0]⟩]

/-- All CULV registers. -/
def culvRegs : List RegDesc := culvRegs1

/-- SLU registers (13_sluice_dma.md, R442), part 1. -/
def sluRegs1 : List RegDesc := [
  -- CFG
  ⟨0x0, [(64, 32)], [fd 31 31 .ws .own 0, fd 30 28 .ws .own 0, fd 27 24 .ws .own 3, fd 23 22 .ws .own 0, fd 21 12 .ws .own 0, fd 11 2 .ws .own 0]⟩,
  -- DPTR
  ⟨0x4, [(64, 32)], [fd 24 6 .rw .own 0]⟩,
  -- CMD
  ⟨0x8, [(64, 32)], [fd 2 0 .wo .own 0]⟩,
  -- STAT
  ⟨0xc, [(64, 32)], [fd 31 29 .ro .own 0, fd 28 26 .ro .own 0, fd 25 25 .w1c .own 0, fd 24 24 .w1c .own 0, fd 23 23 .w1c .own 0, fd 15 0 .rc .own 0]⟩,
  -- CUR
  ⟨0x10, [(64, 32)], [fd 24 6 .ro .own 0]⟩,
  -- POS0
  ⟨0x14, [(64, 32)], [fd 31 16 .ro .own 0, fd 15 0 .ro .own 0]⟩,
  -- POS1
  ⟨0x18, [(64, 32)], [fd 15 0 .ro .own 0]⟩,
  -- ERRLO
  ⟨0x1c, [(64, 32)], [fd 31 0 .ro .own 0]⟩,
  -- ERRHI
  ⟨0x20, [(64, 32)], [fd 31 31 .w1c .own 0, fd 30 30 .ro .own 0, fd 29 24 .ro .own 0, fd 7 0 .ro .own 0]⟩,
  -- RETRYCNT
  ⟨0x24, [(64, 32)], [fd 31 0 .rc .own 0]⟩,
  -- TAG
  ⟨0x28, [(64, 32)], [fd 31 0 .ro .own 0]⟩,
  -- COMMIT
  ⟨0xff00, [], [fd 1 1 .wo .any 0, fd 0 0 .wo .any 0]⟩]

/-- SLU registers (02_tick_and_sequencer.md, R82), part 2. -/
def sluRegs2 : List RegDesc := [
  -- STAGESTAT
  ⟨0xff04, [], [fd 23 16 .ro .any 0, fd 15 8 .ro .any 0, fd 7 0 .ro .any 0]⟩]

/-- All SLU registers. -/
def sluRegs : List RegDesc := sluRegs1 ++ sluRegs2

/-- ACQ registers (10_acquisition_and_comparators.md, R364), part 1. -/
def acqRegs1 : List RegDesc := [
  -- SLOT
  ⟨0x0, [(4096, 8), (32, 32)], [fd 31 31 .ws .own 0, fd 30 24 .ws .own 0, fd 23 22 .ws .own 0, fd 21 19 .ws .own 0, fd 18 18 .ws .own 0, fd 13 0 .ws .own 0]⟩,
  -- DEST
  ⟨0x4, [(4096, 8), (32, 32), (4, 4)], [fd 31 31 .ws .own 0, fd 30 30 .ws .own 0, fd 29 29 .ws .own 0, fd 26 0 .ws .own 0]⟩,
  -- SSTAT
  ⟨0x14, [(4096, 8), (32, 32)], [fd 31 31 .w1c .own 0, fd 30 30 .w1c .own 0, fd 15 0 .ro .own 0]⟩,
  -- GCTL
  ⟨0x800, [(4096, 8)], [fd 31 16 .ws .sys 5000, fd 1 1 .ws .sys 1, fd 0 0 .ws .sys 0]⟩,
  -- GSTAT
  ⟨0x804, [(4096, 8)], [fd 31 29 .ro .any 4, fd 28 24 .ro .any 0, fd 2 2 .ro .any 0, fd 1 1 .ro .any 0, fd 0 0 .ro .any 0]⟩,
  -- SCAL
  ⟨0x810, [(4096, 8), (4, 5)], [fd 31 16 .ro .any 0, fd 15 8 .ro .any 0, fd 7 0 .ro .any 0]⟩,
  -- COMMIT
  ⟨0xff00, [], [fd 1 1 .wo .any 0, fd 0 0 .wo .any 0]⟩,
  -- STAGESTAT
  ⟨0xff04, [], [fd 23 16 .ro .any 0, fd 15 8 .ro .any 0, fd 7 0 .ro .any 0]⟩]

/-- All ACQ registers. -/
def acqRegs : List RegDesc := acqRegs1

/-- CMP registers (10_acquisition_and_comparators.md, R365), part 1. -/
def cmpRegs1 : List RegDesc := [
  -- CTL
  ⟨0x0, [(32, 32)], [fd 31 31 .ws .own 0, fd 30 29 .ws .own 1, fd 28 24 .ws .own 0, fd 23 21 .ws .own 2, fd 20 20 .ws .own 0, fd 19 19 .ws .sys 0]⟩,
  -- THR
  ⟨0x4, [(32, 32)], [fd 25 16 .ws .own 1023, fd 9 0 .ws .own 0]⟩,
  -- XCFG
  ⟨0x8, [(32, 32)], [fd 31 31 .ws .own 0, fd 30 28 .ws .own 0, fd 27 23 .ws .own 0, fd 15 8 .ws .own 8, fd 3 0 .ws .own 4]⟩,
  -- STAT
  ⟨0xc, [(32, 32)], [fd 31 31 .w1c .own 0, fd 30 30 .ro .own 0, fd 29 29 .w1c .own 0, fd 28 28 .w1c .own 0, fd 27 27 .w1c .own 0, fd 26 26 .w1c .own 0, fd 15 0 .rc .own 0]⟩,
  -- LATCHED
  ⟨0x800, [], [fd 31 0 .w1c .any 0]⟩,
  -- DACSEL
  ⟨0x810, [], [fd 31 31 .ws .sys 0, fd 15 8 .ws .sys 8, fd 4 0 .ws .sys 0]⟩,
  -- COMMIT
  ⟨0xff00, [], [fd 1 1 .wo .any 0, fd 0 0 .wo .any 0]⟩,
  -- STAGESTAT
  ⟨0xff04, [], [fd 23 16 .ro .any 0, fd 15 8 .ro .any 0, fd 7 0 .ro .any 0]⟩]

/-- All CMP registers. -/
def cmpRegs : List RegDesc := cmpRegs1

/-- PWM registers (08_carriers_and_pwm.md, R299), part 1. -/
def pwmRegs1 : List RegDesc := [
  -- CARCTL
  ⟨0x0, [(4, 32)], [fd 3 3 .ws .own 0, fd 2 1 .ws .own 2, fd 0 0 .ws .own 0]⟩,
  -- CARPER
  ⟨0x80, [(4, 32)], [fd 27 4 .ws .own 60000, fd 3 0 .ws .own 0]⟩,
  -- CARPH
  ⟨0x100, [(4, 32)], [fd 15 0 .ws .own 0]⟩,
  -- CARSTAT
  ⟨0x180, [(4, 32)], [fd 31 31 .ro .own 0, fd 30 30 .ro .own 0, fd 23 0 .ro .own 0]⟩,
  -- PCTL
  ⟨0x400, [(4, 48)], [fd 12 8 .ws .own 0, fd 7 6 .ws .own 0, fd 5 5 .ws .own 1, fd 4 3 .ws .own 0, fd 2 1 .ws .own 0, fd 0 0 .ws .own 0]⟩,
  -- PDT
  ⟨0x500, [(4, 48)], [fd 27 16 .ws .own 300, fd 11 0 .ws .own 300]⟩,
  -- PCTRIP
  ⟨0x600, [(4, 48)], [fd 31 0 .ws .own 0]⟩,
  -- PFORCE
  ⟨0x700, [(4, 48)], [fd 1 0 .rw .own 0]⟩,
  -- PSTAT
  ⟨0x800, [(4, 48)], [fd 8 8 .ro .own 0, fd 7 7 .ro .own 0, fd 6 6 .w1c .own 0, fd 5 5 .ro .own 0, fd 4 4 .ro .own 0, fd 3 3 .ro .own 0, fd 2 2 .ro .own 0, fd 1 1 .ro .own 0, fd 0 0 .w1c .own 0]⟩,
  -- TRIPCTL
  ⟨0xa00, [(4, 16)], [fd 19 8 .ws .sys 15, fd 7 6 .ws .sys 3, fd 5 5 .ws .sys 0, fd 4 4 .ws .sys 0, fd 0 0 .ws .sys 0]⟩,
  -- TRIPMASKL
  ⟨0xa40, [(4, 16)], [fd 31 0 .ws .sys 0]⟩,
  -- TRIPMASKH
  ⟨0xa80, [(4, 16)], [fd 15 0 .ws .sys 0]⟩]

/-- PWM registers (08_carriers_and_pwm.md, R299), part 2. -/
def pwmRegs2 : List RegDesc := [
  -- TRIPSTAT
  ⟨0xac0, [], [fd 31 16 .w1c .sys 0, fd 15 0 .ro .sys 0]⟩,
  -- CELLTIM
  ⟨0x4000, [(4, 1152)], [fd 20 16 .ws .own 0, fd 15 0 .ws .own 0]⟩,
  -- COMMIT
  ⟨0xff00, [], [fd 1 1 .wo .any 0, fd 0 0 .wo .any 0]⟩,
  -- STAGESTAT
  ⟨0xff04, [], [fd 23 16 .ro .any 0, fd 15 8 .ro .any 0, fd 7 0 .ro .any 0]⟩]

/-- All PWM registers. -/
def pwmRegs : List RegDesc := pwmRegs1 ++ pwmRegs2

/-- CLNK registers (09_cell_link_and_gate_drive.md, R339), part 1. -/
def clnkRegs1 : List RegDesc := [
  -- PCFG
  ⟨0x0, [(32, 48)], [fd 28 24 .ws .own 24, fd 20 16 .ws .own 24, fd 15 14 .ws .own 2, fd 12 8 .ws .own 3, fd 7 7 .ws .own 1, fd 6 6 .ws .own 0, fd 5 5 .ws .own 1, fd 4 4 .ws .own 1, fd 0 0 .ws .own 0]⟩,
  -- PSTAT
  ⟨0x4, [(32, 48)], [fd 31 29 .ro .own 0, fd 28 27 .ro .own 0, fd 26 22 .ro .own 0, fd 2 2 .ro .own 0, fd 1 1 .ro .own 0, fd 0 0 .w1c .own 0]⟩,
  -- PERR
  ⟨0x8, [(32, 48)], [fd 31 16 .rc .own 0, fd 15 0 .rc .own 0]⟩,
  -- PTIME
  ⟨0xc, [(32, 48)], [fd 31 16 .ro .own 0, fd 15 0 .ro .own 0]⟩,
  -- DAPPLY
  ⟨0x800, [(4, 8)], [fd 13 0 .ws .own 1600]⟩,
  -- BOOTCFG
  ⟨0x840, [], [fd 31 16 .ws .sys 400, fd 11 0 .ws .sys 160]⟩,
  -- TSTCFG
  ⟨0x844, [], [fd 31 31 .ws .sys 1, fd 23 0 .ws .sys 50000]⟩,
  -- GSCLASS
  ⟨0x880, [(4, 8)], [fd 31 28 .ws .sys 8, fd 27 24 .ws .sys 15, fd 23 20 .ws .sys 0, fd 19 19 .ws .sys 1, fd 18 17 .ws .sys 2, fd 15 12 .ws .sys 2, fd 7 0 .ws .sys 75]⟩,
  -- CELLCTL
  ⟨0x1000, [(4, 1152)], [fd 11 11 .wo .own 0, fd 10 10 .wo .own 0, fd 9 9 .wo .own 0, fd 4 4 .ws .own 0, fd 3 0 .ws .own 8]⟩,
  -- CELLINFO
  ⟨0x3000, [(4, 1152)], [fd 31 29 .ro .own 0, fd 25 14 .ro .own 0, fd 13 8 .ro .own 0, fd 7 6 .ro .own 0]⟩,
  -- CELLSER
  ⟨0x5000, [(4, 1152)], [fd 31 0 .ro .own 0]⟩,
  -- COMMIT
  ⟨0xff00, [], [fd 1 1 .wo .any 0, fd 0 0 .wo .any 0]⟩]

/-- CLNK registers (02_tick_and_sequencer.md, R82), part 2. -/
def clnkRegs2 : List RegDesc := [
  -- STAGESTAT
  ⟨0xff04, [], [fd 23 16 .ro .any 0, fd 15 8 .ro .any 0, fd 7 0 .ro .any 0]⟩]

/-- All CLNK registers. -/
def clnkRegs : List RegDesc := clnkRegs1 ++ clnkRegs2

/-- ENC registers (07_power_point_tracking.md, R257), part 1. -/
def encRegs1 : List RegDesc := [
  -- CTL
  ⟨0x0, [(256, 4)], [fd 19 10 .ws .own 200, fd 9 4 .ws .own 4, fd 3 2 .ws .own 0, fd 1 1 .ws .own 0, fd 0 0 .ws .own 0]⟩,
  -- CPR
  ⟨0x4, [(256, 4)], [fd 23 0 .ws .own 4096]⟩,
  -- STAT
  ⟨0x8, [(256, 4)], [fd 5 5 .w1c .own 0, fd 4 4 .w1c .own 0, fd 3 3 .ro .own 0, fd 2 2 .ro .own 0, fd 1 1 .w1c .own 0, fd 0 0 .w1c .own 0]⟩,
  -- COUNT
  ⟨0xc, [(256, 4)], [fd 31 0 .ro .own 0]⟩,
  -- CORR
  ⟨0x10, [(256, 4)], [fd 31 0 .ro .own 0]⟩,
  -- ZREF
  ⟨0x14, [(256, 4)], [fd 31 0 .ro .own 0]⟩,
  -- DBLCNT
  ⟨0x18, [(256, 4)], [fd 15 0 .rc .own 0]⟩,
  -- CAPCTL
  ⟨0x1c, [(256, 4)], [fd 5 5 .ws .own 0, fd 4 0 .ws .own 0]⟩,
  -- CAPCNT
  ⟨0x20, [(256, 4)], [fd 31 0 .ro .own 0]⟩,
  -- CAPTIME
  ⟨0x24, [(256, 4)], [fd 31 0 .ro .own 0]⟩,
  -- COMMIT
  ⟨0xff00, [], [fd 1 1 .wo .any 0, fd 0 0 .wo .any 0]⟩,
  -- STAGESTAT
  ⟨0xff04, [], [fd 23 16 .ro .any 0, fd 15 8 .ro .any 0, fd 7 0 .ro .any 0]⟩]

/-- All ENC registers. -/
def encRegs : List RegDesc := encRegs1

/-- FLT registers (15_fault_collection.md, R483), part 1. -/
def fltRegs1 : List RegDesc := [
  -- SUM
  ⟨0x0, [(4, 8)], [fd 27 20 .ro .own 0, fd 8 8 .ro .own 0, fd 7 7 .ro .own 0, fd 6 6 .w1c .own 0, fd 5 5 .w1c .own 0, fd 4 1 .ro .own 0]⟩,
  -- ACK
  ⟨0x20, [(4, 8)], [fd 4 1 .wo .own 0]⟩,
  -- CAPA
  ⟨0x100, [(16, 8)], [fd 31 16 .ro .own 0, fd 15 13 .ro .own 0, fd 12 12 .ro .own 0, fd 9 9 .ro .own 0, fd 8 8 .w1c .own 0, fd 7 0 .ro .own 0]⟩,
  -- CAPB
  ⟨0x104, [(16, 8)], [fd 31 0 .ro .own 0]⟩,
  -- CAPTL
  ⟨0x108, [(16, 8)], [fd 31 0 .ro .own 0]⟩,
  -- CAPTH
  ⟨0x10c, [(16, 8)], [fd 31 0 .ro .own 0]⟩,
  -- HKSTAT
  ⟨0x200, [], [fd 31 0 .w1c .sys 0]⟩,
  -- HKNOW
  ⟨0x204, [], [fd 31 0 .ro .sys 0]⟩,
  -- TEMPLIM
  ⟨0x210, [], [fd 15 8 .ws .sys 105, fd 7 0 .ws .sys 120]⟩,
  -- PINCFG
  ⟨0x220, [], [fd 7 1 .ws .sys 127]⟩,
  -- PINSTAT
  ⟨0x224, [], [fd 1 1 .ro .any 0, fd 0 0 .ro .any 0]⟩,
  -- COMMIT
  ⟨0xff00, [], [fd 1 1 .wo .any 0, fd 0 0 .wo .any 0]⟩]

/-- FLT registers (02_tick_and_sequencer.md, R82), part 2. -/
def fltRegs2 : List RegDesc := [
  -- STAGESTAT
  ⟨0xff04, [], [fd 23 16 .ro .any 0, fd 15 8 .ro .any 0, fd 7 0 .ro .any 0]⟩]

/-- All FLT registers. -/
def fltRegs : List RegDesc := fltRegs1 ++ fltRegs2

/-- SAFE registers (16_safety_channel.md, R509), part 1. -/
def safeRegs1 : List RegDesc := [
  -- STAT
  ⟨0x0, [], [fd 10 10 .ro .any 0, fd 9 9 .ro .any 0, fd 8 8 .ro .any 0, fd 7 7 .ro .any 0, fd 6 6 .ro .any 0, fd 5 5 .ro .any 1, fd 4 4 .ro .any 0, fd 3 3 .ro .any 0, fd 2 2 .ro .any 0, fd 1 1 .ro .any 0, fd 0 0 .ro .any 0]⟩,
  -- CFG
  ⟨0x4, [], [fd 31 16 .ro .any 0, fd 15 0 .ro .any 0]⟩,
  -- CMD
  ⟨0x8, [], [fd 7 0 .wo .sys 0]⟩,
  -- OUTREQ
  ⟨0xc, [], [fd 7 0 .rw .sys 0]⟩,
  -- OUTST
  ⟨0x10, [], [fd 23 16 .ro .any 0, fd 15 8 .ro .any 0, fd 7 0 .ro .any 0]⟩,
  -- INST
  ⟨0x14, [], [fd 15 0 .ro .any 0]⟩,
  -- INFLT
  ⟨0x18, [], [fd 17 17 .ro .any 0, fd 16 16 .ro .any 0, fd 15 8 .ro .any 0, fd 7 0 .ro .any 0]⟩,
  -- DGREM
  ⟨0x1c, [], [fd 31 0 .ro .any 0]⟩,
  -- CONN
  ⟨0x100, [(8, 8)], [fd 31 31 .ws .sys 0, fd 30 28 .ws .sys 0, fd 27 20 .ws .sys 20, fd 11 0 .ws .sys 0]⟩,
  -- CONNSEED
  ⟨0x104, [(8, 8)], [fd 31 0 .ws .sys 0]⟩,
  -- CONNST
  ⟨0x140, [(4, 8)], [fd 31 29 .ro .any 0, fd 28 28 .ro .any 0, fd 15 0 .rc .any 0]⟩,
  -- COMMIT
  ⟨0xff00, [], [fd 1 1 .wo .any 0, fd 0 0 .wo .any 0]⟩]

/-- SAFE registers (02_tick_and_sequencer.md, R82), part 2. -/
def safeRegs2 : List RegDesc := [
  -- STAGESTAT
  ⟨0xff04, [], [fd 23 16 .ro .any 0, fd 15 8 .ro .any 0, fd 7 0 .ro .any 0]⟩]

/-- All SAFE registers. -/
def safeRegs : List RegDesc := safeRegs1 ++ safeRegs2

/-- RLM registers (17_ralma_fabric.md, R548), part 1. -/
def rlmRegs1 : List RegDesc := [
  -- PCFG
  ⟨0x0, [(256, 8)], [fd 31 31 .ws .sys 0, fd 30 30 .ws .sys 0, fd 29 28 .ws .sys 2, fd 27 24 .ws .sys 15, fd 23 16 .ws .sys 255, fd 15 15 .ws .sys 1]⟩,
  -- PSTAT
  ⟨0x4, [(256, 8)], [fd 31 29 .ro .any 0, fd 28 27 .ro .any 0, fd 26 26 .ro .any 0, fd 25 25 .ro .any 0, fd 24 17 .ro .any 0, fd 3 0 .ro .any 15]⟩,
  -- PERR
  ⟨0x8, [(256, 8)], [fd 31 16 .rc .sys 0, fd 15 0 .rc .sys 0]⟩,
  -- MODDIAG
  ⟨0xc, [(256, 8)], [fd 31 24 .ro .any 0, fd 23 8 .ro .any 0, fd 2 0 .ro .any 0]⟩,
  -- PDLY
  ⟨0x10, [(256, 8)], [fd 31 16 .ws .sys 0, fd 15 0 .ro .any 0]⟩,
  -- NODE
  ⟨0x800, [], [fd 31 31 .ro .any 0, fd 30 30 .ro .any 0, fd 27 16 .ro .any 0]⟩,
  -- ROOTCFG
  ⟨0x804, [], [fd 31 31 .ws .sys 0, fd 27 16 .ws .sys 0, fd 13 8 .ws .sys 32, fd 7 0 .ws .sys 128]⟩,
  -- ROOTLO
  ⟨0x808, [(4, 2)], [fd 31 0 .ro .any 0]⟩,
  -- TCTL
  ⟨0x810, [], [fd 31 31 .ws .sys 1, fd 30 30 .wo .sys 0, fd 23 16 .ws .sys 1, fd 15 0 .ws .sys 1000]⟩,
  -- TSTAT
  ⟨0x814, [], [fd 31 30 .ro .any 0, fd 29 29 .ro .any 0, fd 28 28 .ro .any 0, fd 15 0 .ro .any 0]⟩,
  -- TIMELO
  ⟨0x818, [(4, 2)], [fd 31 0 .ro .any 0]⟩,
  -- TSETLO
  ⟨0x820, [(4, 2)], [fd 31 0 .rw .sys 0]⟩]

/-- RLM registers (17_ralma_fabric.md, R548), part 2. -/
def rlmRegs2 : List RegDesc := [
  -- TBASELO
  ⟨0x828, [(4, 2)], [fd 31 0 .ro .any 0]⟩,
  -- GRPCFG
  ⟨0x830, [], [fd 31 16 .ws .sys 0, fd 15 0 .ws .sys 1]⟩,
  -- GRPSTAT
  ⟨0x834, [], [fd 31 31 .ro .any 0, fd 30 30 .ro .any 0, fd 25 16 .ro .any 0, fd 15 0 .ro .any 65535]⟩,
  -- EVDST
  ⟨0x838, [], [fd 31 31 .ws .sys 0, fd 27 16 .ws .sys 0, fd 15 0 .rc .sys 0]⟩,
  -- VCW
  ⟨0x840, [(4, 8)], [fd 15 8 .ws .sys 1, fd 7 0 .ws .sys 1]⟩,
  -- DUPCFG
  ⟨0x880, [], [fd 31 31 .ws .sys 0, fd 30 28 .ws .sys 0, fd 27 25 .ws .sys 1, fd 24 24 .ws .sys 0, fd 23 16 .ws .sys 0, fd 11 0 .ws .sys 0]⟩,
  -- DUPPATH
  ⟨0x888, [], [fd 1 0 .ro .any 0]⟩,
  -- DUPST
  ⟨0x890, [(4, 8)], [fd 31 30 .ro .own 0, fd 29 29 .ro .own 0, fd 28 28 .ro .own 0, fd 23 16 .ro .own 0, fd 15 0 .ro .own 0]⟩,
  -- MIR
  ⟨0x900, [(32, 8), (4, 8)], [fd 31 31 .ws .own 0, fd 30 25 .ws .own 0, fd 24 10 .ws .own 0, fd 8 0 .ws .own 0]⟩,
  -- ETHCFG
  ⟨0xa00, [(32, 2)], [fd 30 28 .ws .sys 0, fd 27 27 .ws .sys 0, fd 26 26 .ws .sys 0]⟩,
  -- ETHMACLO
  ⟨0xa04, [(32, 2)], [fd 31 0 .ws .sys 0]⟩,
  -- ETHMACHI
  ⟨0xa08, [(32, 2)], [fd 15 0 .ws .sys 0]⟩]

/-- RLM registers (17_ralma_fabric.md, R548), part 3. -/
def rlmRegs3 : List RegDesc := [
  -- RXRING
  ⟨0xa0c, [(32, 2), (4, 2)], [fd 24 11 .ws .sys 0, fd 2 0 .ws .sys 1]⟩,
  -- ETHCNT
  ⟨0xa14, [(32, 2)], [fd 31 16 .rc .sys 0, fd 15 0 .rc .sys 0]⟩,
  -- RT0
  ⟨0x4000, [(16384, 2), (4, 4096)], [fd 31 31 .ws .sys 0, fd 30 30 .ro .any 0, fd 7 0 .ws .sys 0]⟩,
  -- COMMIT
  ⟨0xff00, [], [fd 1 1 .wo .any 0, fd 0 0 .wo .any 0]⟩,
  -- STAGESTAT
  ⟨0xff04, [], [fd 23 16 .ro .any 0, fd 15 8 .ro .any 0, fd 7 0 .ro .any 0]⟩]

/-- All RLM registers. -/
def rlmRegs : List RegDesc := rlmRegs1 ++ rlmRegs2 ++ rlmRegs3

/-- SQ registers (20_sq_serial_ports.md, R611), part 1. -/
def sqRegs1 : List RegDesc := [
  -- CFG
  ⟨0x0, [], [fd 6 6 .ws .sys 0, fd 5 4 .ws .sys 0, fd 1 1 .ws .sys 0, fd 0 0 .ws .sys 0]⟩,
  -- STAT
  ⟨0x4, [], [fd 31 16 .rc .sys 0, fd 3 3 .ro .sys 0, fd 2 2 .w1c .sys 0]⟩,
  -- SELA
  ⟨0x10, [(8, 4)], [fd 25 25 .ws .own 0, fd 24 24 .ws .own 0, fd 21 20 .ws .own 0, fd 18 16 .ws .own 0, fd 15 8 .ws .own 16, fd 2 0 .ws .own 0]⟩,
  -- SELB
  ⟨0x14, [(8, 4)], [fd 31 24 .ws .own 16, fd 23 16 .ws .own 1, fd 12 8 .ws .own 0, fd 7 0 .ws .own 3]⟩,
  -- QHDR
  ⟨0x100, [(64, 4)], [fd 23 23 .rw .own 0, fd 22 22 .rw .own 0, fd 21 21 .rw .own 0, fd 20 20 .rw .own 0, fd 19 15 .rw .own 0, fd 14 12 .rw .own 0, fd 11 10 .rw .own 0, fd 9 0 .rw .own 0]⟩,
  -- QCMD
  ⟨0x104, [(64, 4)], [fd 15 0 .rw .own 0]⟩,
  -- QADDR
  ⟨0x108, [(64, 4)], [fd 31 0 .rw .own 0]⟩,
  -- QTX
  ⟨0x10c, [(64, 4), (4, 2)], [fd 24 2 .rw .own 0]⟩,
  -- QPUSH
  ⟨0x114, [(64, 4)], [fd 0 0 .wo .own 0]⟩,
  -- QSTAT
  ⟨0x118, [(64, 4)], [fd 31 31 .ro .own 0, fd 30 30 .w1c .own 0, fd 29 27 .ro .own 0, fd 3 0 .ro .own 0]⟩,
  -- QCNT
  ⟨0x11c, [(64, 4)], [fd 31 16 .rc .own 0, fd 15 0 .rc .own 0]⟩,
  -- COMMIT
  ⟨0xff00, [], [fd 1 1 .wo .any 0, fd 0 0 .wo .any 0]⟩]

/-- SQ registers (02_tick_and_sequencer.md, R82), part 2. -/
def sqRegs2 : List RegDesc := [
  -- STAGESTAT
  ⟨0xff04, [], [fd 23 16 .ro .any 0, fd 15 8 .ro .any 0, fd 7 0 .ro .any 0]⟩]

/-- All SQ registers. -/
def sqRegs : List RegDesc := sqRegs1 ++ sqRegs2

/-- KEEP registers (18_keep_domain_and_recorder.md, R570), part 1. -/
def keepRegs1 : List RegDesc := [
  -- STAT
  ⟨0x0, [], [fd 7 7 .ro .any 0, fd 6 6 .ro .any 0, fd 5 5 .ro .any 0, fd 4 4 .ro .any 0, fd 3 3 .ro .any 0, fd 2 2 .ro .any 0, fd 1 0 .ro .any 3]⟩,
  -- VMON
  ⟨0x4, [], [fd 31 16 .ro .any 0, fd 15 0 .ro .any 0]⟩,
  -- PRIMTIME
  ⟨0x8, [], [fd 31 0 .ro .any 0]⟩,
  -- PCFG
  ⟨0x10, [], [fd 31 24 .ws .sys 128, fd 23 16 .ws .sys 1, fd 15 4 .ws .sys 3300, fd 1 1 .ws .sys 1, fd 0 0 .ws .sys 0]⟩,
  -- BCFG
  ⟨0x14, [], [fd 31 16 .ws .sys 60, fd 15 8 .ws .sys 0, fd 3 3 .ws .sys 1, fd 2 2 .ws .sys 0, fd 1 1 .ws .sys 1, fd 0 0 .ws .sys 1]⟩,
  -- BCMD
  ⟨0x18, [], [fd 7 0 .wo .sys 0]⟩,
  -- TCFG
  ⟨0x1c, [], [fd 7 4 .ws .sys 0, fd 3 0 .ws .sys 0]⟩,
  -- TSTAT
  ⟨0x20, [], [fd 7 4 .ro .sys 0, fd 3 0 .w1c .sys 0]⟩,
  -- RTCLO
  ⟨0x28, [(4, 2)], [fd 31 0 .ro .any 0]⟩,
  -- RTCSETLO
  ⟨0x30, [(4, 2)], [fd 31 0 .rw .sys 0]⟩,
  -- RTCCMD
  ⟨0x38, [], [fd 7 0 .wo .sys 0]⟩,
  -- HEAD
  ⟨0x40, [], [fd 31 0 .ro .any 0]⟩]

/-- KEEP registers (18_keep_domain_and_recorder.md, R570), part 2. -/
def keepRegs2 : List RegDesc := [
  -- TAIL
  ⟨0x44, [], [fd 31 0 .ro .any 0]⟩,
  -- RDSEL
  ⟨0x50, [], [fd 31 0 .rw .any 0]⟩,
  -- RDSTAT
  ⟨0x54, [], [fd 1 1 .ro .any 0, fd 0 0 .ro .any 0]⟩,
  -- RDW
  ⟨0x60, [(4, 16)], [fd 31 0 .ro .any 0]⟩,
  -- NONCELO
  ⟨0xa0, [(4, 2)], [fd 31 0 .ro .sys 0]⟩,
  -- CLRHEAD
  ⟨0xa8, [], [fd 31 0 .rw .sys 0]⟩,
  -- CLRCMD
  ⟨0xac, [], [fd 7 0 .wo .sys 0]⟩,
  -- CLRTOK
  ⟨0xb0, [(4, 8)], [fd 31 0 .wo .sys 0]⟩,
  -- KEYPRG
  ⟨0xd0, [(4, 8)], [fd 31 0 .wo .sys 0]⟩,
  -- KEYCMD
  ⟨0xf0, [], [fd 7 0 .wo .sys 0]⟩,
  -- KEYSTAT
  ⟨0xf4, [], [fd 1 1 .w1c .sys 0, fd 0 0 .ro .any 0]⟩,
  -- RTOTLO
  ⟨0x48, [(4, 2)], [fd 31 0 .ro .any 0]⟩]

/-- KEEP registers (02_tick_and_sequencer.md, R82), part 3. -/
def keepRegs3 : List RegDesc := [
  -- COMMIT
  ⟨0xff00, [], [fd 1 1 .wo .any 0, fd 0 0 .wo .any 0]⟩,
  -- STAGESTAT
  ⟨0xff04, [], [fd 23 16 .ro .any 0, fd 15 8 .ro .any 0, fd 7 0 .ro .any 0]⟩]

/-- All KEEP registers. -/
def keepRegs : List RegDesc := keepRegs1 ++ keepRegs2 ++ keepRegs3

/-- MBOX registers (11_metrology_die.md, R395), part 1. -/
def mboxRegs1 : List RegDesc := [
  -- STAT
  ⟨0x0, [], [fd 7 7 .ro .any 0, fd 6 6 .ro .any 0, fd 5 5 .ro .any 0, fd 4 4 .ro .any 0, fd 3 3 .ro .any 0, fd 2 2 .ro .any 0, fd 1 1 .ro .any 0, fd 0 0 .ro .any 0]⟩,
  -- SEQ
  ⟨0x4, [], [fd 31 0 .ro .any 0]⟩,
  -- CHGCNT
  ⟨0x8, [], [fd 31 0 .ro .any 0]⟩,
  -- SWVER
  ⟨0xc, [], [fd 15 0 .ro .any 0]⟩,
  -- SWCRC
  ⟨0x10, [], [fd 31 0 .ro .any 0]⟩,
  -- LOGCNT
  ⟨0x14, [], [fd 10 0 .ro .any 0]⟩,
  -- SEALCNT
  ⟨0x18, [], [fd 31 16 .ro .any 0, fd 15 0 .ro .any 0]⟩,
  -- FREQ0
  ⟨0x1c, [], [fd 31 0 .ro .any 0]⟩,
  -- LINKERR
  ⟨0x20, [], [fd 15 0 .rc .any 0]⟩,
  -- PSTAT
  ⟨0x24, [], [fd 31 28 .ro .any 0, fd 27 26 .ro .any 0, fd 21 6 .ro .any 0, fd 5 0 .ro .any 0]⟩,
  -- SERIAL
  ⟨0x28, [], [fd 31 0 .ro .any 0]⟩,
  -- FREQ1
  ⟨0x2c, [], [fd 31 0 .ro .any 0]⟩]

/-- MBOX registers (11_metrology_die.md, R395), part 2. -/
def mboxRegs2 : List RegDesc := [
  -- AIMPLO
  ⟨0x100, [(64, 6)], [fd 31 0 .ro .any 0]⟩,
  -- AIMPHI
  ⟨0x104, [(64, 6)], [fd 31 0 .ro .any 0]⟩,
  -- AEXPLO
  ⟨0x108, [(64, 6)], [fd 31 0 .ro .any 0]⟩,
  -- AEXPHI
  ⟨0x10c, [(64, 6)], [fd 31 0 .ro .any 0]⟩,
  -- RPOSLO
  ⟨0x110, [(64, 6)], [fd 31 0 .ro .any 0]⟩,
  -- RPOSHI
  ⟨0x114, [(64, 6)], [fd 31 0 .ro .any 0]⟩,
  -- RNEGLO
  ⟨0x118, [(64, 6)], [fd 31 0 .ro .any 0]⟩,
  -- RNEGHI
  ⟨0x11c, [(64, 6)], [fd 31 0 .ro .any 0]⟩,
  -- P
  ⟨0x120, [(64, 6)], [fd 31 0 .ro .any 0]⟩,
  -- Q
  ⟨0x124, [(64, 6)], [fd 31 0 .ro .any 0]⟩,
  -- U1
  ⟨0x128, [(64, 6)], [fd 31 0 .ro .any 0]⟩,
  -- U2
  ⟨0x12c, [(64, 6)], [fd 31 0 .ro .any 0]⟩]

/-- MBOX registers (11_metrology_die.md, R395), part 3. -/
def mboxRegs3 : List RegDesc := [
  -- U3
  ⟨0x130, [(64, 6)], [fd 31 0 .ro .any 0]⟩,
  -- I1
  ⟨0x134, [(64, 6)], [fd 31 0 .ro .any 0]⟩,
  -- I2
  ⟨0x138, [(64, 6)], [fd 31 0 .ro .any 0]⟩,
  -- I3
  ⟨0x13c, [(64, 6)], [fd 31 0 .ro .any 0]⟩]

/-- All MBOX registers. -/
def mboxRegs : List RegDesc := mboxRegs1 ++ mboxRegs2 ++ mboxRegs3

/-- UPD registers (19_boot_and_update.md, R592), part 1. -/
def updRegs1 : List RegDesc := [
  -- CMD
  ⟨0x0, [], [fd 31 24 .wo .sys 0, fd 9 8 .wo .sys 0, fd 7 7 .wo .sys 0, fd 3 0 .wo .sys 0]⟩,
  -- PROGSRC
  ⟨0x4, [], [fd 11 0 .rw .sys 0]⟩,
  -- PROGOFF
  ⟨0x8, [], [fd 31 0 .rw .sys 0]⟩,
  -- PROGLEN
  ⟨0xc, [], [fd 24 0 .rw .sys 0]⟩,
  -- STAT
  ⟨0x10, [], [fd 31 29 .ro .any 0, fd 28 28 .ro .any 1, fd 27 24 .ro .any 0, fd 0 0 .ro .any 0]⟩,
  -- ACTATLO
  ⟨0x18, [(4, 2)], [fd 31 0 .rw .sys 0]⟩,
  -- ACTTICKLO
  ⟨0x20, [(4, 2)], [fd 31 0 .ro .any 0]⟩,
  -- INACTVER
  ⟨0x28, [], [fd 31 0 .ro .any 0]⟩,
  -- MARKA
  ⟨0x2c, [(4, 2)], [fd 31 0 .ro .any 0]⟩,
  -- OTPSVN
  ⟨0x34, [], [fd 7 0 .ro .any 0]⟩,
  -- OTPKEY
  ⟨0x38, [], [fd 3 0 .ro .any 0]⟩,
  -- PCHATLO
  ⟨0x3c, [(4, 2)], [fd 31 0 .ro .any 0]⟩]

/-- UPD registers (19_boot_and_update.md, R592), part 2. -/
def updRegs2 : List RegDesc := [
  -- PCHPER
  ⟨0x44, [], [fd 31 31 .ro .any 0, fd 13 0 .ro .any 0]⟩]

/-- All UPD registers. -/
def updRegs : List RegDesc := updRegs1 ++ updRegs2

/-- ENG registers (03_ulisa_engine.md, R129), part 1. -/
def engRegs1 : List RegDesc := [
  -- ESF
  ⟨0x40000, [], [fd 8 8 .w1c .own 0, fd 7 7 .w1c .own 0, fd 6 6 .w1c .own 0, fd 5 5 .w1c .own 0, fd 4 4 .w1c .own 0, fd 3 3 .w1c .own 0, fd 2 2 .w1c .own 0, fd 1 1 .w1c .own 0, fd 0 0 .w1c .own 0]⟩,
  -- ETICK
  ⟨0x40004, [], [fd 8 0 .ro .own 0]⟩,
  -- STAT
  ⟨0x40008, [], [fd 7 4 .ro .own 0, fd 1 1 .ro .own 0, fd 0 0 .ro .own 0]⟩,
  -- PLACE
  ⟨0x40010, [], [fd 31 24 .ro .own 0, fd 15 8 .wo .own 0, fd 7 7 .ro .own 0, fd 6 6 .ro .own 0, fd 5 4 .ro .own 0, fd 1 0 .ro .own 0]⟩,
  -- STATEA
  ⟨0x40014, [], [fd 27 16 .ro .own 0, fd 8 0 .ro .own 0]⟩,
  -- CYCLAST
  ⟨0x40018, [], [fd 19 0 .ro .own 0]⟩,
  -- CYCMAX
  ⟨0x4001c, [], [fd 19 0 .rc .own 0]⟩,
  -- ECC
  ⟨0x40024, [], [fd 31 16 .rc .own 0, fd 15 15 .ro .own 0, fd 14 0 .ro .own 0]⟩,
  -- TAP
  ⟨0x40030, [(4, 4)], [fd 31 31 .ro .own 0, fd 14 0 .ro .own 0]⟩,
  -- TRCTL
  ⟨0x40040, [], [fd 28 21 .rw .own 0, fd 20 11 .rw .own 512, fd 10 10 .rw .own 0, fd 9 9 .rw .own 0, fd 8 8 .rw .own 0, fd 7 4 .rw .own 0, fd 3 3 .rw .own 0, fd 2 2 .rw .own 0]⟩,
  -- TRCMD
  ⟨0x40044, [], [fd 1 0 .wo .own 0]⟩,
  -- TRSTAT
  ⟨0x40048, [], [fd 31 30 .ro .own 0, fd 29 29 .w1c .own 0, fd 28 28 .ro .own 0, fd 26 24 .ro .own 0, fd 19 10 .ro .own 0, fd 9 0 .ro .own 0]⟩]

/-- ENG registers (04_loop_structures.md, R158), part 2. -/
def engRegs2 : List RegDesc := [
  -- TRTICK
  ⟨0x4004c, [], [fd 31 0 .ro .own 0]⟩]

/-- All ENG registers. -/
def engRegs : List RegDesc := engRegs1 ++ engRegs2

/-- The registers of the block with number `b`, the index of its 64 KiB in R28. -/
def blockRegs (b : Nat) : List RegDesc :=
  match b with
  | 0 => sysRegs
  | 1 => clkRegs
  | 2 => tickRegs
  | 3 => imgRegs
  | 4 => poldRegs
  | 5 => culvRegs
  | 6 => sluRegs
  | 8 => acqRegs
  | 9 => cmpRegs
  | 10 => pwmRegs
  | 11 => clnkRegs
  | 12 => encRegs
  | 13 => fltRegs
  | 14 => safeRegs
  | 15 => rlmRegs
  | 16 => sqRegs
  | 17 => sqRegs
  | 18 => sqRegs
  | 19 => sqRegs
  | 20 => keepRegs
  | 21 => mboxRegs
  | 22 => updRegs
  | _ => []

/-! The addresses of the registers, and their fields, by name. -/

/-- SYS.IDREV (R1). -/
def sysIdrev : Nat := 0x60000000
def sysIdrev_Part : Fld := ⟨31, 16⟩
def sysIdrev_Rev : Fld := ⟨15, 8⟩
def sysIdrev_Var : Fld := ⟨7, 4⟩

/-- SYS.RSTCAUSE (R40). -/
def sysRstcause : Nat := 0x60000004
def sysRstcause_Tickloss : Fld := ⟨3, 3⟩
def sysRstcause_Hrstn : Fld := ⟨2, 2⟩
def sysRstcause_Keepsurv : Fld := ⟨1, 1⟩
def sysRstcause_Por : Fld := ⟨0, 0⟩

/-- SYS.PRST (R41). -/
def sysPrst : Nat := 0x60000008
def sysPrst_Polder : Fld := ⟨7, 0⟩

/-- SYS.PRSELF (R42). -/
def sysPrself : Nat := 0x6000000c
def sysPrself_Key : Fld := ⟨7, 0⟩

/-- SYS.PRSTAT (R43). -/
def sysPrstat : Nat := 0x60000010
def sysPrstat_Done : Fld := ⟨15, 8⟩
def sysPrstat_Busy : Fld := ⟨7, 0⟩

/-- SYS.UID_LO (R44). -/
def sysUidLo : Nat := 0x60000018
def sysUidLo_Uid : Fld := ⟨31, 0⟩

/-- SYS.UID_HI (R44). -/
def sysUidHi : Nat := 0x6000001c
def sysUidHi_Uid : Fld := ⟨31, 0⟩

/-- SYS.UNMAP_LO (R45). -/
def sysUnmapLo : Nat := 0x60000020
def sysUnmapLo_Addr : Fld := ⟨31, 0⟩

/-- SYS.UNMAP_HI (R45). -/
def sysUnmapHi : Nat := 0x60000024
def sysUnmapHi_Count : Fld := ⟨31, 16⟩
def sysUnmapHi_Write : Fld := ⟨12, 12⟩
def sysUnmapHi_Valid : Fld := ⟨11, 11⟩
def sysUnmapHi_Polder : Fld := ⟨10, 8⟩
def sysUnmapHi_Addr : Fld := ⟨7, 0⟩

/-- TICK.PERIOD (R81). -/
def tickPeriod : Nat := 0x60020000
def tickPeriod_Period : Fld := ⟨13, 0⟩

/-- TICK.COUNT_LO (R81). -/
def tickCountLo : Nat := 0x60020008
def tickCountLo_Count : Fld := ⟨31, 0⟩

/-- TICK.COUNT_HI (R81). -/
def tickCountHi : Nat := 0x6002000c
def tickCountHi_Count : Fld := ⟨15, 0⟩

/-- TICK.FBWARN (R81). -/
def tickFbwarn : Nat := 0x60020010
def tickFbwarn_Level : Fld := ⟨9, 0⟩

/-- TICK.RTEMPO (R81). -/
def tickRtempo (i : Nat) : Nat := 0x60020020 + 0x4 * i
def tickRtempo_Tempo : Fld := ⟨1, 0⟩

/-- TICK.TSTAT (R81). -/
def tickTstat : Nat := 0x60020030
def tickTstat_Supref : Fld := ⟨5, 5⟩
def tickTstat_Perref : Fld := ⟨4, 4⟩
def tickTstat_Tempref : Fld := ⟨3, 0⟩

/-- TICK.FBMIN (R81). -/
def tickFbmin (i : Nat) : Nat := 0x60020040 + 0x4 * i
def tickFbmin_Engine : Fld := ⟨17, 14⟩
def tickFbmin_Min : Fld := ⟨9, 0⟩

/-- TICK.OVTCNT (R81). -/
def tickOvtcnt (i : Nat) : Nat := 0x60020080 + 0x4 * i
def tickOvtcnt_Count : Fld := ⟨15, 0⟩

/-- TICK.MODE (R81). -/
def tickMode (i : Nat) : Nat := 0x60020100 + 0x4 * i
def tickMode_Tim : Fld := ⟨31, 16⟩
def tickMode_Prev : Fld := ⟨7, 4⟩
def tickMode_Cur : Fld := ⟨3, 0⟩

/-- TICK.HOSTCOND (R81). -/
def tickHostcond (i : Nat) : Nat := 0x60020120 + 0x4 * i
def tickHostcond_Hc : Fld := ⟨15, 0⟩

/-- TICK.COND (R81). -/
def tickCond (i : Nat) : Nat := 0x60020140 + 0x4 * i
def tickCond_Cond : Fld := ⟨15, 0⟩

/-- TICK.GCOMMIT (R81). -/
def tickGcommit : Nat := 0x60020180
def tickGcommit_Blocks : Fld := ⟨24, 1⟩
def tickGcommit_Go : Fld := ⟨0, 0⟩

/-- TICK.CSRC (R81). -/
def tickCsrc (i j : Nat) : Nat := 0x60021000 + 0x40 * i + 0x4 * j
def tickCsrc_Src : Fld := ⟨9, 8⟩
def tickCsrc_Index : Fld := ⟨7, 0⟩

/-- ENG.ESF (R129). -/
def engEsf (i : Nat) : Nat := 0x50040000 + 0x100000 * i
def engEsf_Ovt : Fld := ⟨8, 8⟩
def engEsf_Eccu : Fld := ⟨7, 7⟩
def engEsf_Eccc : Fld := ⟨6, 6⟩
def engEsf_Lref : Fld := ⟨5, 5⟩
def engEsf_M1ext : Fld := ⟨4, 4⟩
def engEsf_M0ext : Fld := ⟨3, 3⟩
def engEsf_M1acc : Fld := ⟨2, 2⟩
def engEsf_M0acc : Fld := ⟨1, 1⟩
def engEsf_Xsat : Fld := ⟨0, 0⟩

/-- ENG.ETICK (R129). -/
def engEtick (i : Nat) : Nat := 0x50040004 + 0x100000 * i
def engEtick_Flags : Fld := ⟨8, 0⟩

/-- ENG.STAT (R129). -/
def engStat (i : Nat) : Nat := 0x50040008 + 0x100000 * i
def engStat_Req : Fld := ⟨7, 4⟩
def engStat_Actbank : Fld := ⟨1, 1⟩
def engStat_Busy : Fld := ⟨0, 0⟩

/-- ENG.PLACE (R129). -/
def engPlace (i : Nat) : Nat := 0x50040010 + 0x100000 * i
def engPlace_Group : Fld := ⟨31, 24⟩
def engPlace_Readmit : Fld := ⟨15, 8⟩
def engPlace_Retired : Fld := ⟨7, 7⟩
def engPlace_Reduced : Fld := ⟨6, 6⟩
def engPlace_Member : Fld := ⟨5, 4⟩
def engPlace_Role : Fld := ⟨1, 0⟩

/-- ENG.STATEA (R129). -/
def engStatea (i : Nat) : Nat := 0x50040014 + 0x100000 * i
def engStatea_Base : Fld := ⟨27, 16⟩
def engStatea_Len : Fld := ⟨8, 0⟩

/-- ENG.CYCLAST (R129). -/
def engCyclast (i : Nat) : Nat := 0x50040018 + 0x100000 * i
def engCyclast_Cyc : Fld := ⟨19, 0⟩

/-- ENG.CYCMAX (R129). -/
def engCycmax (i : Nat) : Nat := 0x5004001c + 0x100000 * i
def engCycmax_Cyc : Fld := ⟨19, 0⟩

/-- ENG.ECC (R129). -/
def engEcc (i : Nat) : Nat := 0x50040024 + 0x100000 * i
def engEcc_Ccount : Fld := ⟨31, 16⟩
def engEcc_Tbl : Fld := ⟨15, 15⟩
def engEcc_Laddr : Fld := ⟨14, 0⟩

/-- ENG.TAP (R129). -/
def engTap (i j : Nat) : Nat := 0x50040030 + 0x100000 * i + 0x4 * j
def engTap_En : Fld := ⟨31, 31⟩
def engTap_Word : Fld := ⟨14, 0⟩

/-- ENG.TRCTL (R158). -/
def engTrctl (i : Nat) : Nat := 0x50040040 + 0x100000 * i
def engTrctl_Decm1 : Fld := ⟨28, 21⟩
def engTrctl_Post : Fld := ⟨20, 11⟩
def engTrctl_Prefill : Fld := ⟨10, 10⟩
def engTrctl_Xout : Fld := ⟨9, 9⟩
def engTrctl_Xin : Fld := ⟨8, 8⟩
def engTrctl_Lines : Fld := ⟨7, 4⟩
def engTrctl_Modechg : Fld := ⟨3, 3⟩
def engTrctl_Fault : Fld := ⟨2, 2⟩

/-- ENG.TRCMD (R158). -/
def engTrcmd (i : Nat) : Nat := 0x50040044 + 0x100000 * i
def engTrcmd_Cmd : Fld := ⟨1, 0⟩

/-- ENG.TRSTAT (R158). -/
def engTrstat (i : Nat) : Nat := 0x50040048 + 0x100000 * i
def engTrstat_State : Fld := ⟨31, 30⟩
def engTrstat_Retrig : Fld := ⟨29, 29⟩
def engTrstat_Wrap : Fld := ⟨28, 28⟩
def engTrstat_Cause : Fld := ⟨26, 24⟩
def engTrstat_Widx : Fld := ⟨19, 10⟩
def engTrstat_Tidx : Fld := ⟨9, 0⟩

/-- ENG.TRTICK (R158). -/
def engTrtick (i : Nat) : Nat := 0x5004004c + 0x100000 * i
def engTrtick_Tick : Fld := ⟨31, 0⟩

/-- ENC.CTL (R257). -/
def encCtl (i : Nat) : Nat := 0x600c0000 + 0x100 * i
def encCtl_Obw : Fld := ⟨19, 10⟩
def encCtl_Filt : Fld := ⟨9, 4⟩
def encCtl_Zmode : Fld := ⟨3, 2⟩
def encCtl_Dir : Fld := ⟨1, 1⟩
def encCtl_En : Fld := ⟨0, 0⟩

/-- ENC.CPR (R257). -/
def encCpr (i : Nat) : Nat := 0x600c0004 + 0x100 * i
def encCpr_Cpr : Fld := ⟨23, 0⟩

/-- ENC.STAT (R257). -/
def encStat (i : Nat) : Nat := 0x600c0008 + 0x100 * i
def encStat_Capovr : Fld := ⟨5, 5⟩
def encStat_Capv : Fld := ⟨4, 4⟩
def encStat_Lock : Fld := ⟨3, 3⟩
def encStat_Zseen : Fld := ⟨2, 2⟩
def encStat_Degr : Fld := ⟨1, 1⟩
def encStat_Double : Fld := ⟨0, 0⟩

/-- ENC.COUNT (R257). -/
def encCount (i : Nat) : Nat := 0x600c000c + 0x100 * i
def encCount_Count : Fld := ⟨31, 0⟩

/-- ENC.CORR (R257). -/
def encCorr (i : Nat) : Nat := 0x600c0010 + 0x100 * i
def encCorr_Corr : Fld := ⟨31, 0⟩

/-- ENC.ZREF (R257). -/
def encZref (i : Nat) : Nat := 0x600c0014 + 0x100 * i
def encZref_Zref : Fld := ⟨31, 0⟩

/-- ENC.DBLCNT (R257). -/
def encDblcnt (i : Nat) : Nat := 0x600c0018 + 0x100 * i
def encDblcnt_Count : Fld := ⟨15, 0⟩

/-- ENC.CAPCTL (R257). -/
def encCapctl (i : Nat) : Nat := 0x600c001c + 0x100 * i
def encCapctl_Capen : Fld := ⟨5, 5⟩
def encCapctl_Capsel : Fld := ⟨4, 0⟩

/-- ENC.CAPCNT (R257). -/
def encCapcnt (i : Nat) : Nat := 0x600c0020 + 0x100 * i
def encCapcnt_Cnt : Fld := ⟨31, 0⟩

/-- ENC.CAPTIME (R257). -/
def encCaptime (i : Nat) : Nat := 0x600c0024 + 0x100 * i
def encCaptime_Time : Fld := ⟨31, 0⟩

/-- PWM.CARCTL (R299). -/
def pwmCarctl (i : Nat) : Nat := 0x600a0000 + 0x4 * i
def pwmCarctl_Sync : Fld := ⟨3, 3⟩
def pwmCarctl_Shape : Fld := ⟨2, 1⟩
def pwmCarctl_En : Fld := ⟨0, 0⟩

/-- PWM.CARPER (R299). -/
def pwmCarper (i : Nat) : Nat := 0x600a0080 + 0x4 * i
def pwmCarper_Period : Fld := ⟨27, 4⟩
def pwmCarper_Frac : Fld := ⟨3, 0⟩

/-- PWM.CARPH (R299). -/
def pwmCarph (i : Nat) : Nat := 0x600a0100 + 0x4 * i
def pwmCarph_Shift : Fld := ⟨15, 0⟩

/-- PWM.CARSTAT (R299). -/
def pwmCarstat (i : Nat) : Nat := 0x600a0180 + 0x4 * i
def pwmCarstat_Run : Fld := ⟨31, 31⟩
def pwmCarstat_Setpend : Fld := ⟨30, 30⟩
def pwmCarstat_Elapsed : Fld := ⟨23, 0⟩

/-- PWM.PCTL (R299). -/
def pwmPctl (i : Nat) : Nat := 0x600a0400 + 0x4 * i
def pwmPctl_Car : Fld := ⟨12, 8⟩
def pwmPctl_Mode : Fld := ⟨7, 6⟩
def pwmPctl_Fmt : Fld := ⟨5, 5⟩
def pwmPctl_Loadat : Fld := ⟨4, 3⟩
def pwmPctl_Tripst : Fld := ⟨2, 1⟩
def pwmPctl_Ctmode : Fld := ⟨0, 0⟩

/-- PWM.PDT (R299). -/
def pwmPdt (i : Nat) : Nat := 0x600a0500 + 0x4 * i
def pwmPdt_Dtf : Fld := ⟨27, 16⟩
def pwmPdt_Dtr : Fld := ⟨11, 0⟩

/-- PWM.PCTRIP (R299). -/
def pwmPctrip (i : Nat) : Nat := 0x600a0600 + 0x4 * i
def pwmPctrip_Mask : Fld := ⟨31, 0⟩

/-- PWM.PFORCE (R299). -/
def pwmPforce (i : Nat) : Nat := 0x600a0700 + 0x4 * i
def pwmPforce_Mode : Fld := ⟨1, 0⟩

/-- PWM.PSTAT (R299). -/
def pwmPstat (i : Nat) : Nat := 0x600a0800 + 0x4 * i
def pwmPstat_Blv : Fld := ⟨8, 8⟩
def pwmPstat_Alv : Fld := ⟨7, 7⟩
def pwmPstat_Clamp : Fld := ⟨6, 6⟩
def pwmPstat_Fact : Fld := ⟨5, 5⟩
def pwmPstat_Safe : Fld := ⟨4, 4⟩
def pwmPstat_Rst : Fld := ⟨3, 3⟩
def pwmPstat_Pin : Fld := ⟨2, 2⟩
def pwmPstat_Cmp : Fld := ⟨1, 1⟩
def pwmPstat_Tripped : Fld := ⟨0, 0⟩

/-- PWM.TRIPCTL (R299). -/
def pwmTripctl (i : Nat) : Nat := 0x600a0a00 + 0x4 * i
def pwmTripctl_Flenm1 : Fld := ⟨19, 8⟩
def pwmTripctl_Class : Fld := ⟨7, 6⟩
def pwmTripctl_Mode : Fld := ⟨5, 5⟩
def pwmTripctl_Pol : Fld := ⟨4, 4⟩
def pwmTripctl_En : Fld := ⟨0, 0⟩

/-- PWM.TRIPMASKL (R299). -/
def pwmTripmaskl (i : Nat) : Nat := 0x600a0a40 + 0x4 * i
def pwmTripmaskl_Pairs : Fld := ⟨31, 0⟩

/-- PWM.TRIPMASKH (R299). -/
def pwmTripmaskh (i : Nat) : Nat := 0x600a0a80 + 0x4 * i
def pwmTripmaskh_Pairs : Fld := ⟨15, 0⟩

/-- PWM.TRIPSTAT (R299). -/
def pwmTripstat : Nat := 0x600a0ac0
def pwmTripstat_Seen : Fld := ⟨31, 16⟩
def pwmTripstat_Level : Fld := ⟨15, 0⟩

/-- PWM.CELLTIM (R299). -/
def pwmCelltim (i : Nat) : Nat := 0x600a4000 + 0x4 * i
def pwmCelltim_Car : Fld := ⟨20, 16⟩
def pwmCelltim_Cshift : Fld := ⟨15, 0⟩

/-- CLNK.PCFG (R339). -/
def clnkPcfg (i : Nat) : Nat := 0x600b0000 + 0x20 * i
def clnkPcfg_Nexp : Fld := ⟨28, 24⟩
def clnkPcfg_Nmin : Fld := ⟨20, 16⟩
def clnkPcfg_Rmax : Fld := ⟨15, 14⟩
def clnkPcfg_Misslim : Fld := ⟨12, 8⟩
def clnkPcfg_Atb : Fld := ⟨7, 7⟩
def clnkPcfg_Stb : Fld := ⟨6, 6⟩
def clnkPcfg_Gsa : Fld := ⟨5, 5⟩
def clnkPcfg_Bte : Fld := ⟨4, 4⟩
def clnkPcfg_En : Fld := ⟨0, 0⟩

/-- CLNK.PSTAT (R339). -/
def clnkPstat (i : Nat) : Nat := 0x600b0004 + 0x20 * i
def clnkPstat_State : Fld := ⟨31, 29⟩
def clnkPstat_Rate : Fld := ⟨28, 27⟩
def clnkPstat_Nfound : Fld := ⟨26, 22⟩
def clnkPstat_Safe : Fld := ⟨2, 2⟩
def clnkPstat_Rst : Fld := ⟨1, 1⟩
def clnkPstat_Tripped : Fld := ⟨0, 0⟩

/-- CLNK.PERR (R339). -/
def clnkPerr (i : Nat) : Nat := 0x600b0008 + 0x20 * i
def clnkPerr_Crccnt : Fld := ⟨31, 16⟩
def clnkPerr_Misscnt : Fld := ⟨15, 0⟩

/-- CLNK.PTIME (R339). -/
def clnkPtime (i : Nat) : Nat := 0x600b000c + 0x20 * i
def clnkPtime_Tret : Fld := ⟨31, 16⟩
def clnkPtime_Tarr : Fld := ⟨15, 0⟩

/-- CLNK.DAPPLY (R339). -/
def clnkDapply (i : Nat) : Nat := 0x600b0800 + 0x4 * i
def clnkDapply_Dapply : Fld := ⟨13, 0⟩

/-- CLNK.BOOTCFG (R339). -/
def clnkBootcfg : Nat := 0x600b0840
def clnkBootcfg_Blim : Fld := ⟨31, 16⟩
def clnkBootcfg_Rfw : Fld := ⟨11, 0⟩

/-- CLNK.TSTCFG (R339). -/
def clnkTstcfg : Nat := 0x600b0844
def clnkTstcfg_En : Fld := ⟨31, 31⟩
def clnkTstcfg_Gap : Fld := ⟨23, 0⟩

/-- CLNK.GSCLASS (R339). -/
def clnkGsclass (i : Nat) : Nat := 0x600b0880 + 0x4 * i
def clnkGsclass_Gsinit : Fld := ⟨31, 28⟩
def clnkGsclass_Gsmax : Fld := ⟨27, 24⟩
def clnkGsclass_Gsmin : Fld := ⟨23, 20⟩
def clnkGsclass_Kind : Fld := ⟨19, 19⟩
def clnkGsclass_Bandmin : Fld := ⟨18, 17⟩
def clnkGsclass_Hyst : Fld := ⟨15, 12⟩
def clnkGsclass_Ttgt : Fld := ⟨7, 0⟩

/-- CLNK.CELLCTL (R339). -/
def clnkCellctl (i : Nat) : Nat := 0x600b1000 + 0x4 * i
def clnkCellctl_Fclr : Fld := ⟨11, 11⟩
def clnkCellctl_Byprel : Fld := ⟨10, 10⟩
def clnkCellctl_Bypreq : Fld := ⟨9, 9⟩
def clnkCellctl_Gsfixen : Fld := ⟨4, 4⟩
def clnkCellctl_Gsfix : Fld := ⟨3, 0⟩

/-- CLNK.CELLINFO (R339). -/
def clnkCellinfo (i : Nat) : Nat := 0x600b3000 + 0x4 * i
def clnkCellinfo_State : Fld := ⟨31, 29⟩
def clnkCellinfo_Cls : Fld := ⟨25, 14⟩
def clnkCellinfo_Feat : Fld := ⟨13, 8⟩
def clnkCellinfo_Maxrate : Fld := ⟨7, 6⟩

/-- CLNK.CELLSER (R339). -/
def clnkCellser (i : Nat) : Nat := 0x600b5000 + 0x4 * i
def clnkCellser_Serial : Fld := ⟨31, 0⟩

/-- ACQ.SLOT (R364). -/
def acqSlot (i j : Nat) : Nat := 0x60080000 + 0x1000 * i + 0x20 * j
def acqSlot_En : Fld := ⟨31, 31⟩
def acqSlot_Chan : Fld := ⟨30, 24⟩
def acqSlot_Gain : Fld := ⟨23, 22⟩
def acqSlot_Osrc : Fld := ⟨21, 19⟩
def acqSlot_Filt : Fld := ⟨18, 18⟩
def acqSlot_Start : Fld := ⟨13, 0⟩

/-- ACQ.DEST (R364). -/
def acqDest (i j k : Nat) : Nat := 0x60080004 + 0x1000 * i + 0x20 * j + 0x4 * k
def acqDest_En : Fld := ⟨31, 31⟩
def acqDest_Kind : Fld := ⟨30, 30⟩
def acqDest_Statw : Fld := ⟨29, 29⟩
def acqDest_Target : Fld := ⟨26, 0⟩

/-- ACQ.SSTAT (R364). -/
def acqSstat (i j : Nat) : Nat := 0x60080014 + 0x1000 * i + 0x20 * j
def acqSstat_Ovr : Fld := ⟨31, 31⟩
def acqSstat_Cref : Fld := ⟨30, 30⟩
def acqSstat_Last : Fld := ⟨15, 0⟩

/-- ACQ.GCTL (R364). -/
def acqGctl (i : Nat) : Nat := 0x60080800 + 0x1000 * i
def acqGctl_Calt : Fld := ⟨31, 16⟩
def acqGctl_Calen : Fld := ⟨1, 1⟩
def acqGctl_En : Fld := ⟨0, 0⟩

/-- ACQ.GSTAT (R364). -/
def acqGstat (i : Nat) : Nat := 0x60080804 + 0x1000 * i
def acqGstat_Spare : Fld := ⟨31, 29⟩
def acqGstat_Retired : Fld := ⟨28, 24⟩
def acqGstat_Invalid : Fld := ⟨2, 2⟩
def acqGstat_Degr : Fld := ⟨1, 1⟩
def acqGstat_Calrdy : Fld := ⟨0, 0⟩

/-- ACQ.SCAL (R364). -/
def acqScal (i j : Nat) : Nat := 0x60080810 + 0x1000 * i + 0x4 * j
def acqScal_Off : Fld := ⟨31, 16⟩
def acqScal_Gerr : Fld := ⟨15, 8⟩
def acqScal_Skew : Fld := ⟨7, 0⟩

/-- CMP.CTL (R365). -/
def cmpCtl (i : Nat) : Nat := 0x60090000 + 0x20 * i
def cmpCtl_En : Fld := ⟨31, 31⟩
def cmpCtl_Clr : Fld := ⟨30, 29⟩
def cmpCtl_Carsel : Fld := ⟨28, 24⟩
def cmpCtl_Hyst : Fld := ⟨23, 21⟩
def cmpCtl_Int : Fld := ⟨20, 20⟩
def cmpCtl_Wake : Fld := ⟨19, 19⟩

/-- CMP.THR (R365). -/
def cmpThr (i : Nat) : Nat := 0x60090004 + 0x20 * i
def cmpThr_Hi : Fld := ⟨25, 16⟩
def cmpThr_Lo : Fld := ⟨9, 0⟩

/-- CMP.XCFG (R365). -/
def cmpXcfg (i : Nat) : Nat := 0x60090008 + 0x20 * i
def cmpXcfg_Xen : Fld := ⟨31, 31⟩
def cmpXcfg_Xgrp : Fld := ⟨30, 28⟩
def cmpXcfg_Xslot : Fld := ⟨27, 23⟩
def cmpXcfg_Xmarg : Fld := ⟨15, 8⟩
def cmpXcfg_Xn : Fld := ⟨3, 0⟩

/-- CMP.STAT (R365). -/
def cmpStat (i : Nat) : Nat := 0x6009000c + 0x20 * i
def cmpStat_Latch : Fld := ⟨31, 31⟩
def cmpStat_Now : Fld := ⟨30, 30⟩
def cmpStat_Xmiss : Fld := ⟨29, 29⟩
def cmpStat_Xfalse : Fld := ⟨28, 28⟩
def cmpStat_Xdac : Fld := ⟨27, 27⟩
def cmpStat_Suspect : Fld := ⟨26, 26⟩
def cmpStat_Xcnt : Fld := ⟨15, 0⟩

/-- CMP.LATCHED (R365). -/
def cmpLatched : Nat := 0x60090800
def cmpLatched_L : Fld := ⟨31, 0⟩

/-- CMP.DACSEL (R365). -/
def cmpDacsel : Nat := 0x60090810
def cmpDacsel_Auto : Fld := ⟨31, 31⟩
def cmpDacsel_Xdac : Fld := ⟨15, 8⟩
def cmpDacsel_Sel : Fld := ⟨4, 0⟩

/-- MBOX.STAT (R395). -/
def mboxStat : Nat := 0x60150000
def mboxStat_Optovl : Fld := ⟨7, 7⟩
def mboxStat_Logfull : Fld := ⟨6, 6⟩
def mboxStat_Pend : Fld := ⟨5, 5⟩
def mboxStat_Seal : Fld := ⟨4, 4⟩
def mboxStat_Nverr : Fld := ⟨3, 3⟩
def mboxStat_Xtalf : Fld := ⟨2, 2⟩
def mboxStat_Meas : Fld := ⟨1, 1⟩
def mboxStat_Link : Fld := ⟨0, 0⟩

/-- MBOX.SEQ (R395). -/
def mboxSeq : Nat := 0x60150004
def mboxSeq_Win : Fld := ⟨31, 0⟩

/-- MBOX.CHGCNT (R395). -/
def mboxChgcnt : Nat := 0x60150008
def mboxChgcnt_Chg : Fld := ⟨31, 0⟩

/-- MBOX.SWVER (R395). -/
def mboxSwver : Nat := 0x6015000c
def mboxSwver_Ver : Fld := ⟨15, 0⟩

/-- MBOX.SWCRC (R395). -/
def mboxSwcrc : Nat := 0x60150010
def mboxSwcrc_Crc : Fld := ⟨31, 0⟩

/-- MBOX.LOGCNT (R395). -/
def mboxLogcnt : Nat := 0x60150014
def mboxLogcnt_N : Fld := ⟨10, 0⟩

/-- MBOX.SEALCNT (R395). -/
def mboxSealcnt : Nat := 0x60150018
def mboxSealcnt_Ovlcnt : Fld := ⟨31, 16⟩
def mboxSealcnt_Seal : Fld := ⟨15, 0⟩

/-- MBOX.FREQ0 (R395). -/
def mboxFreq0 : Nat := 0x6015001c
def mboxFreq0_F : Fld := ⟨31, 0⟩

/-- MBOX.LINKERR (R395). -/
def mboxLinkerr : Nat := 0x60150020
def mboxLinkerr_Bad : Fld := ⟨15, 0⟩

/-- MBOX.PSTAT (R395). -/
def mboxPstat : Nat := 0x60150024
def mboxPstat_Povf : Fld := ⟨31, 28⟩
def mboxPstat_Freqerr : Fld := ⟨27, 26⟩
def mboxPstat_Ovr : Fld := ⟨21, 6⟩
def mboxPstat_Noload : Fld := ⟨5, 0⟩

/-- MBOX.SERIAL (R395). -/
def mboxSerial : Nat := 0x60150028
def mboxSerial_Sn : Fld := ⟨31, 0⟩

/-- MBOX.FREQ1 (R395). -/
def mboxFreq1 : Nat := 0x6015002c
def mboxFreq1_F : Fld := ⟨31, 0⟩

/-- MBOX.AIMPLO (R395). -/
def mboxAimplo (i : Nat) : Nat := 0x60150100 + 0x40 * i
def mboxAimplo_Aimplo : Fld := ⟨31, 0⟩

/-- MBOX.AIMPHI (R395). -/
def mboxAimphi (i : Nat) : Nat := 0x60150104 + 0x40 * i
def mboxAimphi_Aimphi : Fld := ⟨31, 0⟩

/-- MBOX.AEXPLO (R395). -/
def mboxAexplo (i : Nat) : Nat := 0x60150108 + 0x40 * i
def mboxAexplo_Aexplo : Fld := ⟨31, 0⟩

/-- MBOX.AEXPHI (R395). -/
def mboxAexphi (i : Nat) : Nat := 0x6015010c + 0x40 * i
def mboxAexphi_Aexphi : Fld := ⟨31, 0⟩

/-- MBOX.RPOSLO (R395). -/
def mboxRposlo (i : Nat) : Nat := 0x60150110 + 0x40 * i
def mboxRposlo_Rposlo : Fld := ⟨31, 0⟩

/-- MBOX.RPOSHI (R395). -/
def mboxRposhi (i : Nat) : Nat := 0x60150114 + 0x40 * i
def mboxRposhi_Rposhi : Fld := ⟨31, 0⟩

/-- MBOX.RNEGLO (R395). -/
def mboxRneglo (i : Nat) : Nat := 0x60150118 + 0x40 * i
def mboxRneglo_Rneglo : Fld := ⟨31, 0⟩

/-- MBOX.RNEGHI (R395). -/
def mboxRneghi (i : Nat) : Nat := 0x6015011c + 0x40 * i
def mboxRneghi_Rneghi : Fld := ⟨31, 0⟩

/-- MBOX.P (R395). -/
def mboxP (i : Nat) : Nat := 0x60150120 + 0x40 * i
def mboxP_P : Fld := ⟨31, 0⟩

/-- MBOX.Q (R395). -/
def mboxQ (i : Nat) : Nat := 0x60150124 + 0x40 * i
def mboxQ_Q : Fld := ⟨31, 0⟩

/-- MBOX.U1 (R395). -/
def mboxU1 (i : Nat) : Nat := 0x60150128 + 0x40 * i
def mboxU1_U1 : Fld := ⟨31, 0⟩

/-- MBOX.U2 (R395). -/
def mboxU2 (i : Nat) : Nat := 0x6015012c + 0x40 * i
def mboxU2_U2 : Fld := ⟨31, 0⟩

/-- MBOX.U3 (R395). -/
def mboxU3 (i : Nat) : Nat := 0x60150130 + 0x40 * i
def mboxU3_U3 : Fld := ⟨31, 0⟩

/-- MBOX.I1 (R395). -/
def mboxI1 (i : Nat) : Nat := 0x60150134 + 0x40 * i
def mboxI1_I1 : Fld := ⟨31, 0⟩

/-- MBOX.I2 (R395). -/
def mboxI2 (i : Nat) : Nat := 0x60150138 + 0x40 * i
def mboxI2_I2 : Fld := ⟨31, 0⟩

/-- MBOX.I3 (R395). -/
def mboxI3 (i : Nat) : Nat := 0x6015013c + 0x40 * i
def mboxI3_I3 : Fld := ⟨31, 0⟩

/-- POLD.BIND (R420). -/
def poldBind (i : Nat) : Nat := 0x60040000 + 0x4 * i
def poldBind_En : Fld := ⟨31, 31⟩
def poldBind_Kind : Fld := ⟨30, 30⟩
def poldBind_Source : Fld := ⟨27, 16⟩
def poldBind_Polder : Fld := ⟨2, 0⟩

/-- POLD.BRCNT (R420). -/
def poldBrcnt (i : Nat) : Nat := 0x60040100 + 0x4 * i
def poldBrcnt_Count : Fld := ⟨31, 0⟩

/-- POLD.BRCAPLO (R420). -/
def poldBrcaplo (i : Nat) : Nat := 0x60040120 + 0x8 * i
def poldBrcaplo_Addr : Fld := ⟨31, 0⟩

/-- POLD.BRCAPHI (R420). -/
def poldBrcaphi (i : Nat) : Nat := 0x60040124 + 0x8 * i
def poldBrcaphi_Reason : Fld := ⟨31, 28⟩
def poldBrcaphi_Kind : Fld := ⟨27, 26⟩
def poldBrcaphi_Src : Fld := ⟨22, 20⟩
def poldBrcaphi_Valid : Fld := ⟨11, 11⟩
def poldBrcaphi_Addr : Fld := ⟨7, 0⟩

/-- POLD.BRLIM (R420). -/
def poldBrlim : Nat := 0x60040160
def poldBrlim_Limit : Fld := ⟨15, 0⟩

/-- POLD.UNBOUND (R420). -/
def poldUnbound : Nat := 0x60040164
def poldUnbound_Count : Fld := ⟨31, 0⟩

/-- POLD.EVDROP (R420). -/
def poldEvdrop (i : Nat) : Nat := 0x60040180 + 0x4 * i
def poldEvdrop_Count : Fld := ⟨31, 0⟩

/-- POLD.SELF (R420). -/
def poldSelf : Nat := 0x60040200
def poldSelf_Polder : Fld := ⟨2, 0⟩

/-- CULV.CFG (R422). -/
def culvCfg : Nat := 0x60050000
def culvCfg_Deflease : Fld := ⟨7, 0⟩

/-- CULV.OP (R422). -/
def culvOp : Nat := 0x60050010
def culvOp_Op : Fld := ⟨31, 28⟩
def culvOp_Page : Fld := ⟨27, 16⟩
def culvOp_Gen : Fld := ⟨15, 0⟩

/-- CULV.OPARG (R422). -/
def culvOparg : Nat := 0x60050014
def culvOparg_Lease : Fld := ⟨15, 8⟩
def culvOparg_Target : Fld := ⟨2, 0⟩

/-- CULV.OPRES (R422). -/
def culvOpres : Nat := 0x60050018
def culvOpres_Gen : Fld := ⟨31, 16⟩
def culvOpres_Status : Fld := ⟨15, 12⟩
def culvOpres_Page : Fld := ⟨11, 0⟩

/-- CULV.STALECNT (R422). -/
def culvStalecnt : Nat := 0x6005001c
def culvStalecnt_Count : Fld := ⟨31, 0⟩

/-- CULV.WHEEL (R422). -/
def culvWheel (i : Nat) : Nat := 0x60050100 + 0x4 * i
def culvWheel_Slots : Fld := ⟨31, 0⟩

/-- CULV.FLAG (R422). -/
def culvFlag (i : Nat) : Nat := 0x60054000 + 0x4 * i
def culvFlag_Flag : Fld := ⟨31, 0⟩

/-- SLU.CFG (R442). -/
def sluCfg (i : Nat) : Nat := 0x60060000 + 0x40 * i
def sluCfg_En : Fld := ⟨31, 31⟩
def sluCfg_Prio : Fld := ⟨30, 28⟩
def sluCfg_Retry : Fld := ⟨27, 24⟩
def sluCfg_Trig : Fld := ⟨23, 22⟩
def sluCfg_Divm1 : Fld := ⟨21, 12⟩
def sluCfg_Phase : Fld := ⟨11, 2⟩

/-- SLU.DPTR (R442). -/
def sluDptr (i : Nat) : Nat := 0x60060004 + 0x40 * i
def sluDptr_Addr : Fld := ⟨24, 6⟩

/-- SLU.CMD (R442). -/
def sluCmd (i : Nat) : Nat := 0x60060008 + 0x40 * i
def sluCmd_Cmd : Fld := ⟨2, 0⟩

/-- SLU.STAT (R442). -/
def sluStat (i : Nat) : Nat := 0x6006000c + 0x40 * i
def sluStat_State : Fld := ⟨31, 29⟩
def sluStat_Cause : Fld := ⟨28, 26⟩
def sluStat_Cmderr : Fld := ⟨25, 25⟩
def sluStat_Trigovr : Fld := ⟨24, 24⟩
def sluStat_Donef : Fld := ⟨23, 23⟩
def sluStat_Dcount : Fld := ⟨15, 0⟩

/-- SLU.CUR (R442). -/
def sluCur (i : Nat) : Nat := 0x60060010 + 0x40 * i
def sluCur_Addr : Fld := ⟨24, 6⟩

/-- SLU.POS0 (R442). -/
def sluPos0 (i : Nat) : Nat := 0x60060014 + 0x40 * i
def sluPos0_K1 : Fld := ⟨31, 16⟩
def sluPos0_K0 : Fld := ⟨15, 0⟩

/-- SLU.POS1 (R442). -/
def sluPos1 (i : Nat) : Nat := 0x60060018 + 0x40 * i
def sluPos1_K2 : Fld := ⟨15, 0⟩

/-- SLU.ERRLO (R442). -/
def sluErrlo (i : Nat) : Nat := 0x6006001c + 0x40 * i
def sluErrlo_Addr : Fld := ⟨31, 0⟩

/-- SLU.ERRHI (R442). -/
def sluErrhi (i : Nat) : Nat := 0x60060020 + 0x40 * i
def sluErrhi_Valid : Fld := ⟨31, 31⟩
def sluErrhi_Write : Fld := ⟨30, 30⟩
def sluErrhi_Len : Fld := ⟨29, 24⟩
def sluErrhi_Addr : Fld := ⟨7, 0⟩

/-- SLU.RETRYCNT (R442). -/
def sluRetrycnt (i : Nat) : Nat := 0x60060024 + 0x40 * i
def sluRetrycnt_Count : Fld := ⟨31, 0⟩

/-- SLU.TAG (R442). -/
def sluTag (i : Nat) : Nat := 0x60060028 + 0x40 * i
def sluTag_Tag : Fld := ⟨31, 0⟩

/-- IMG.CTL (R461). -/
def imgCtl : Nat := 0x60030000
def imgCtl_Cmd : Fld := ⟨1, 0⟩

/-- IMG.SRCLO (R461). -/
def imgSrclo : Nat := 0x60030004
def imgSrclo_Addr : Fld := ⟨31, 0⟩

/-- IMG.SRCHI (R461). -/
def imgSrchi : Nat := 0x60030008
def imgSrchi_Addr : Fld := ⟨7, 0⟩

/-- IMG.LEN (R461). -/
def imgLen : Nat := 0x6003000c
def imgLen_Bytes : Fld := ⟨27, 0⟩

/-- IMG.STAT (R461). -/
def imgStat : Nat := 0x60030010
def imgStat_State : Fld := ⟨31, 30⟩
def imgStat_Result : Fld := ⟨27, 24⟩
def imgStat_Sect : Fld := ⟨15, 0⟩

/-- IMG.ACTVER (R461). -/
def imgActver : Nat := 0x60030020
def imgActver_Imgver : Fld := ⟨31, 0⟩

/-- IMG.ACTINFO (R461). -/
def imgActinfo : Nat := 0x60030024
def imgActinfo_Fmtver : Fld := ⟨31, 16⟩
def imgActinfo_Variant : Fld := ⟨7, 0⟩

/-- IMG.ACTSVN (R461). -/
def imgActsvn : Nat := 0x60030028
def imgActsvn_Svn : Fld := ⟨31, 0⟩

/-- IMG.PVER (R461). -/
def imgPver (i : Nat) : Nat := 0x60030040 + 0x8 * i
def imgPver_Imgver : Fld := ⟨31, 0⟩

/-- IMG.PLAY (R461). -/
def imgPlay (i : Nat) : Nat := 0x60030044 + 0x8 * i
def imgPlay_Layout : Fld := ⟨31, 0⟩

/-- IMG.ROLE (R461). -/
def imgRole (i : Nat) : Nat := 0x60030080 + 0x4 * i
def imgRole_Roles : Fld := ⟨31, 0⟩

/-- IMG.INST (R461). -/
def imgInst (i : Nat) : Nat := 0x60030100 + 0x4 * i
def imgInst_Valid : Fld := ⟨31, 31⟩
def imgInst_Cert : Fld := ⟨30, 30⟩
def imgInst_Isol : Fld := ⟨29, 29⟩
def imgInst_Polder : Fld := ⟨28, 26⟩
def imgInst_Engine : Fld := ⟨23, 16⟩
def imgInst_Group : Fld := ⟨15, 8⟩
def imgInst_Segid : Fld := ⟨7, 0⟩

/-- FLT.SUM (R483). -/
def fltSum (i : Nat) : Nat := 0x600d0000 + 0x4 * i
def fltSum_Nunack : Fld := ⟨27, 20⟩
def fltSum_Modehold : Fld := ⟨8, 8⟩
def fltSum_Isol : Fld := ⟨7, 7⟩
def fltSum_Esccap : Fld := ⟨6, 6⟩
def fltSum_Ackref : Fld := ⟨5, 5⟩
def fltSum_Unack : Fld := ⟨4, 1⟩

/-- FLT.ACK (R483). -/
def fltAck (i : Nat) : Nat := 0x600d0020 + 0x4 * i
def fltAck_Classes : Fld := ⟨4, 1⟩

/-- FLT.CAPA (R483). -/
def fltCapa (i : Nat) : Nat := 0x600d0100 + 0x10 * i
def fltCapa_Code : Fld := ⟨31, 16⟩
def fltCapa_Class : Fld := ⟨15, 13⟩
def fltCapa_Esc : Fld := ⟨12, 12⟩
def fltCapa_Ovf : Fld := ⟨9, 9⟩
def fltCapa_Valid : Fld := ⟨8, 8⟩
def fltCapa_Ovcnt : Fld := ⟨7, 0⟩

/-- FLT.CAPB (R483). -/
def fltCapb (i : Nat) : Nat := 0x600d0104 + 0x10 * i
def fltCapb_Param : Fld := ⟨31, 0⟩

/-- FLT.CAPTL (R483). -/
def fltCaptl (i : Nat) : Nat := 0x600d0108 + 0x10 * i
def fltCaptl_Time : Fld := ⟨31, 0⟩

/-- FLT.CAPTH (R483). -/
def fltCapth (i : Nat) : Nat := 0x600d010c + 0x10 * i
def fltCapth_Time : Fld := ⟨31, 0⟩

/-- FLT.HKSTAT (R483). -/
def fltHkstat : Nat := 0x600d0200
def fltHkstat_Src : Fld := ⟨31, 0⟩

/-- FLT.HKNOW (R483). -/
def fltHknow : Nat := 0x600d0204
def fltHknow_Src : Fld := ⟨31, 0⟩

/-- FLT.TEMPLIM (R483). -/
def fltTemplim : Nat := 0x600d0210
def fltTemplim_Warn : Fld := ⟨15, 8⟩
def fltTemplim_Trip : Fld := ⟨7, 0⟩

/-- FLT.PINCFG (R483). -/
def fltPincfg : Nat := 0x600d0220
def fltPincfg_Pinmask : Fld := ⟨7, 1⟩

/-- FLT.PINSTAT (R483). -/
def fltPinstat : Nat := 0x600d0224
def fltPinstat_Lvl : Fld := ⟨1, 1⟩
def fltPinstat_Alive : Fld := ⟨0, 0⟩

/-- SAFE.STAT (R509). -/
def safeStat : Nat := 0x600e0000
def safeStat_Setpend : Fld := ⟨10, 10⟩
def safeStat_Cfgok : Fld := ⟨9, 9⟩
def safeStat_Hold : Fld := ⟨8, 8⟩
def safeStat_Expired : Fld := ⟨7, 7⟩
def safeStat_Degr : Fld := ⟨6, 6⟩
def safeStat_Safest : Fld := ⟨5, 5⟩
def safeStat_Tripreq : Fld := ⟨4, 4⟩
def safeStat_Brk : Fld := ⟨3, 3⟩
def safeStat_Wrail : Fld := ⟨2, 2⟩
def safeStat_Sprail : Fld := ⟨1, 1⟩
def safeStat_Pen : Fld := ⟨0, 0⟩

/-- SAFE.CFG (R509). -/
def safeCfg : Nat := 0x600e0004
def safeCfg_Switches : Fld := ⟨31, 16⟩
def safeCfg_Adopted : Fld := ⟨15, 0⟩

/-- SAFE.CMD (R509). -/
def safeCmd : Nat := 0x600e0008
def safeCmd_Key : Fld := ⟨7, 0⟩

/-- SAFE.OUTREQ (R509). -/
def safeOutreq : Nat := 0x600e000c
def safeOutreq_Req : Fld := ⟨7, 0⟩

/-- SAFE.OUTST (R509). -/
def safeOutst : Nat := 0x600e0010
def safeOutst_Fail : Fld := ⟨23, 16⟩
def safeOutst_Cfb : Fld := ⟨15, 8⟩
def safeOutst_Ener : Fld := ⟨7, 0⟩

/-- SAFE.INST (R509). -/
def safeInst : Nat := 0x600e0014
def safeInst_Pair : Fld := ⟨15, 0⟩

/-- SAFE.INFLT (R509). -/
def safeInflt : Nat := 0x600e0018
def safeInflt_Tpob : Fld := ⟨17, 17⟩
def safeInflt_Tpoa : Fld := ⟨16, 16⟩
def safeInflt_Chb : Fld := ⟨15, 8⟩
def safeInflt_Cha : Fld := ⟨7, 0⟩

/-- SAFE.DGREM (R509). -/
def safeDgrem : Nat := 0x600e001c
def safeDgrem_Sec : Fld := ⟨31, 0⟩

/-- SAFE.CONN (R509). -/
def safeConn (i : Nat) : Nat := 0x600e0100 + 0x8 * i
def safeConn_En : Fld := ⟨31, 31⟩
def safeConn_Rconn : Fld := ⟨30, 28⟩
def safeConn_Wd : Fld := ⟨27, 20⟩
def safeConn_Node : Fld := ⟨11, 0⟩

/-- SAFE.CONNSEED (R509). -/
def safeConnseed (i : Nat) : Nat := 0x600e0104 + 0x8 * i
def safeConnseed_Seed : Fld := ⟨31, 0⟩

/-- SAFE.CONNST (R509). -/
def safeConnst (i : Nat) : Nat := 0x600e0140 + 0x4 * i
def safeConnst_State : Fld := ⟨31, 29⟩
def safeConnst_Rdemand : Fld := ⟨28, 28⟩
def safeConnst_Bad : Fld := ⟨15, 0⟩

/-- RLM.PCFG (R548). -/
def rlmPcfg (i : Nat) : Nat := 0x600f0000 + 0x100 * i
def rlmPcfg_En : Fld := ⟨31, 31⟩
def rlmPcfg_Mode : Fld := ⟨30, 30⟩
def rlmPcfg_Emrate : Fld := ⟨29, 28⟩
def rlmPcfg_Offer : Fld := ⟨27, 24⟩
def rlmPcfg_Vcmask : Fld := ⟨23, 16⟩
def rlmPcfg_Safe : Fld := ⟨15, 15⟩

/-- RLM.PSTAT (R548). -/
def rlmPstat (i : Nat) : Nat := 0x600f0004 + 0x100 * i
def rlmPstat_State : Fld := ⟨31, 29⟩
def rlmPstat_Rate : Fld := ⟨28, 27⟩
def rlmPstat_Parent : Fld := ⟨26, 26⟩
def rlmPstat_Safeok : Fld := ⟨25, 25⟩
def rlmPstat_Vcs : Fld := ⟨24, 17⟩
def rlmPstat_Cap : Fld := ⟨3, 0⟩

/-- RLM.PERR (R548). -/
def rlmPerr (i : Nat) : Nat := 0x600f0008 + 0x100 * i
def rlmPerr_Crcerr : Fld := ⟨31, 16⟩
def rlmPerr_Drop : Fld := ⟨15, 0⟩

/-- RLM.MODDIAG (R548). -/
def rlmModdiag (i : Nat) : Nat := 0x600f000c + 0x100 * i
def rlmModdiag_Temp : Fld := ⟨31, 24⟩
def rlmModdiag_Rxp : Fld := ⟨23, 8⟩
def rlmModdiag_Stat : Fld := ⟨2, 0⟩

/-- RLM.PDLY (R548). -/
def rlmPdly (i : Nat) : Nat := 0x600f0010 + 0x100 * i
def rlmPdly_Asym : Fld := ⟨31, 16⟩
def rlmPdly_Ldly : Fld := ⟨15, 0⟩

/-- RLM.NODE (R548). -/
def rlmNode : Nat := 0x600f0800
def rlmNode_Addrv : Fld := ⟨31, 31⟩
def rlmNode_Root : Fld := ⟨30, 30⟩
def rlmNode_Addr : Fld := ⟨27, 16⟩

/-- RLM.ROOTCFG (R548). -/
def rlmRootcfg : Nat := 0x600f0804
def rlmRootcfg_Pinen : Fld := ⟨31, 31⟩
def rlmRootcfg_Pin : Fld := ⟨27, 16⟩
def rlmRootcfg_Ttl : Fld := ⟨13, 8⟩
def rlmRootcfg_Prio : Fld := ⟨7, 0⟩

/-- RLM.ROOTLO (R548). -/
def rlmRootlo (i : Nat) : Nat := 0x600f0808 + 0x4 * i
def rlmRootlo_Uid : Fld := ⟨31, 0⟩

/-- RLM.TCTL (R548). -/
def rlmTctl : Nat := 0x600f0810
def rlmTctl_Disc : Fld := ⟨31, 31⟩
def rlmTctl_Set : Fld := ⟨30, 30⟩
def rlmTctl_Stepth : Fld := ⟨23, 16⟩
def rlmTctl_Tstept : Fld := ⟨15, 0⟩

/-- RLM.TSTAT (R548). -/
def rlmTstat : Nat := 0x600f0814
def rlmTstat_Align : Fld := ⟨31, 30⟩
def rlmTstat_Holdover : Fld := ⟨29, 29⟩
def rlmTstat_Tvalid : Fld := ⟨28, 28⟩
def rlmTstat_Terr : Fld := ⟨15, 0⟩

/-- RLM.TIMELO (R548). -/
def rlmTimelo (i : Nat) : Nat := 0x600f0818 + 0x4 * i
def rlmTimelo_Time : Fld := ⟨31, 0⟩

/-- RLM.TSETLO (R548). -/
def rlmTsetlo (i : Nat) : Nat := 0x600f0820 + 0x4 * i
def rlmTsetlo_Time : Fld := ⟨31, 0⟩

/-- RLM.TBASELO (R548). -/
def rlmTbaselo (i : Nat) : Nat := 0x600f0828 + 0x4 * i
def rlmTbaselo_Tbase : Fld := ⟨31, 0⟩

/-- RLM.GRPCFG (R548). -/
def rlmGrpcfg : Nat := 0x600f0830
def rlmGrpcfg_Group : Fld := ⟨31, 16⟩
def rlmGrpcfg_Nunits : Fld := ⟨15, 0⟩

/-- RLM.GRPSTAT (R548). -/
def rlmGrpstat : Nat := 0x600f0834
def rlmGrpstat_Valid : Fld := ⟨31, 31⟩
def rlmGrpstat_Mism : Fld := ⟨30, 30⟩
def rlmGrpstat_Nunits : Fld := ⟨25, 16⟩
def rlmGrpstat_Cphase : Fld := ⟨15, 0⟩

/-- RLM.EVDST (R548). -/
def rlmEvdst : Nat := 0x600f0838
def rlmEvdst_En : Fld := ⟨31, 31⟩
def rlmEvdst_Node : Fld := ⟨27, 16⟩
def rlmEvdst_Drop : Fld := ⟨15, 0⟩

/-- RLM.VCW (R548). -/
def rlmVcw (i : Nat) : Nat := 0x600f0840 + 0x4 * i
def rlmVcw_W5 : Fld := ⟨15, 8⟩
def rlmVcw_W4 : Fld := ⟨7, 0⟩

/-- RLM.DUPCFG (R548). -/
def rlmDupcfg : Nat := 0x600f0880
def rlmDupcfg_En : Fld := ⟨31, 31⟩
def rlmDupcfg_Porta : Fld := ⟨30, 28⟩
def rlmDupcfg_Portb : Fld := ⟨27, 25⟩
def rlmDupcfg_Pref : Fld := ⟨24, 24⟩
def rlmDupcfg_Mask : Fld := ⟨23, 16⟩
def rlmDupcfg_Partner : Fld := ⟨11, 0⟩

/-- RLM.DUPPATH (R548). -/
def rlmDuppath : Nat := 0x600f0888
def rlmDuppath_Ok : Fld := ⟨1, 0⟩

/-- RLM.DUPST (R548). -/
def rlmDupst (i : Nat) : Nat := 0x600f0890 + 0x4 * i
def rlmDupst_Role : Fld := ⟨31, 30⟩
def rlmDupst_Yield : Fld := ⟨29, 29⟩
def rlmDupst_Pabs : Fld := ⟨28, 28⟩
def rlmDupst_Mirmiss : Fld := ⟨23, 16⟩
def rlmDupst_Score : Fld := ⟨15, 0⟩

/-- RLM.MIR (R548). -/
def rlmMir (i j : Nat) : Nat := 0x600f0900 + 0x20 * i + 0x4 * j
def rlmMir_En : Fld := ⟨31, 31⟩
def rlmMir_Eng : Fld := ⟨30, 25⟩
def rlmMir_Word : Fld := ⟨24, 10⟩
def rlmMir_Lenm1 : Fld := ⟨8, 0⟩

/-- RLM.ETHCFG (R548). -/
def rlmEthcfg (i : Nat) : Nat := 0x600f0a00 + 0x20 * i
def rlmEthcfg_Polder : Fld := ⟨30, 28⟩
def rlmEthcfg_Promisc : Fld := ⟨27, 27⟩
def rlmEthcfg_Mcast : Fld := ⟨26, 26⟩

/-- RLM.ETHMACLO (R548). -/
def rlmEthmaclo (i : Nat) : Nat := 0x600f0a04 + 0x20 * i
def rlmEthmaclo_Mac : Fld := ⟨31, 0⟩

/-- RLM.ETHMACHI (R548). -/
def rlmEthmachi (i : Nat) : Nat := 0x600f0a08 + 0x20 * i
def rlmEthmachi_Mac : Fld := ⟨15, 0⟩

/-- RLM.RXRING (R548). -/
def rlmRxring (i j : Nat) : Nat := 0x600f0a0c + 0x20 * i + 0x4 * j
def rlmRxring_Base : Fld := ⟨24, 11⟩
def rlmRxring_Nlog : Fld := ⟨2, 0⟩

/-- RLM.ETHCNT (R548). -/
def rlmEthcnt (i : Nat) : Nat := 0x600f0a14 + 0x20 * i
def rlmEthcnt_Rxdrop : Fld := ⟨31, 16⟩
def rlmEthcnt_Rxerr : Fld := ⟨15, 0⟩

/-- RLM.RT0 (R548). -/
def rlmRt0 (i j : Nat) : Nat := 0x600f4000 + 0x4000 * i + 0x4 * j
def rlmRt0_Static : Fld := ⟨31, 31⟩
def rlmRt0_Learned : Fld := ⟨30, 30⟩
def rlmRt0_Mask : Fld := ⟨7, 0⟩

/-- KEEP.STAT (R570). -/
def keepStat : Nat := 0x60140000
def keepStat_Rtcvalid : Fld := ⟨7, 7⟩
def keepStat_Mainon : Fld := ⟨6, 6⟩
def keepStat_St31 : Fld := ⟨5, 5⟩
def keepStat_St24 : Fld := ⟨4, 4⟩
def keepStat_Hrun : Fld := ⟨3, 3⟩
def keepStat_Primin : Fld := ⟨2, 2⟩
def keepStat_Src : Fld := ⟨1, 0⟩

/-- KEEP.VMON (R570). -/
def keepVmon : Nat := 0x60140004
def keepVmon_Tegoc : Fld := ⟨31, 16⟩
def keepVmon_Vst : Fld := ⟨15, 0⟩

/-- KEEP.PRIMTIME (R570). -/
def keepPrimtime : Nat := 0x60140008
def keepPrimtime_Sec : Fld := ⟨31, 0⟩

/-- KEEP.PCFG (R570). -/
def keepPcfg : Nat := 0x60140010
def keepPcfg_Mppk : Fld := ⟨31, 24⟩
def keepPcfg_Mppint : Fld := ⟨23, 16⟩
def keepPcfg_Hmax : Fld := ⟨15, 4⟩
def keepPcfg_Hen : Fld := ⟨1, 1⟩
def keepPcfg_Primen : Fld := ⟨0, 0⟩

/-- KEEP.BCFG (R570). -/
def keepBcfg : Nat := 0x60140014
def keepBcfg_Measint : Fld := ⟨31, 16⟩
def keepBcfg_Bcnint : Fld := ⟨15, 8⟩
def keepBcfg_Tampb : Fld := ⟨3, 3⟩
def keepBcfg_Wakeb : Fld := ⟨2, 2⟩
def keepBcfg_Lgasp : Fld := ⟨1, 1⟩
def keepBcfg_En : Fld := ⟨0, 0⟩

/-- KEEP.BCMD (R570). -/
def keepBcmd : Nat := 0x60140018
def keepBcmd_Key : Fld := ⟨7, 0⟩

/-- KEEP.TCFG (R570). -/
def keepTcfg : Nat := 0x6014001c
def keepTcfg_Pol : Fld := ⟨7, 4⟩
def keepTcfg_En : Fld := ⟨3, 0⟩

/-- KEEP.TSTAT (R570). -/
def keepTstat : Nat := 0x60140020
def keepTstat_Level : Fld := ⟨7, 4⟩
def keepTstat_Latch : Fld := ⟨3, 0⟩

/-- KEEP.RTCLO (R570). -/
def keepRtclo (i : Nat) : Nat := 0x60140028 + 0x4 * i
def keepRtclo_Time : Fld := ⟨31, 0⟩

/-- KEEP.RTCSETLO (R570). -/
def keepRtcsetlo (i : Nat) : Nat := 0x60140030 + 0x4 * i
def keepRtcsetlo_Time : Fld := ⟨31, 0⟩

/-- KEEP.RTCCMD (R570). -/
def keepRtccmd : Nat := 0x60140038
def keepRtccmd_Key : Fld := ⟨7, 0⟩

/-- KEEP.HEAD (R570). -/
def keepHead : Nat := 0x60140040
def keepHead_Seq : Fld := ⟨31, 0⟩

/-- KEEP.TAIL (R570). -/
def keepTail : Nat := 0x60140044
def keepTail_Seq : Fld := ⟨31, 0⟩

/-- KEEP.RDSEL (R570). -/
def keepRdsel : Nat := 0x60140050
def keepRdsel_Seq : Fld := ⟨31, 0⟩

/-- KEEP.RDSTAT (R570). -/
def keepRdstat : Nat := 0x60140054
def keepRdstat_Hidden : Fld := ⟨1, 1⟩
def keepRdstat_Ok : Fld := ⟨0, 0⟩

/-- KEEP.RDW (R570). -/
def keepRdw (i : Nat) : Nat := 0x60140060 + 0x4 * i
def keepRdw_Word : Fld := ⟨31, 0⟩

/-- KEEP.NONCELO (R570). -/
def keepNoncelo (i : Nat) : Nat := 0x601400a0 + 0x4 * i
def keepNoncelo_Nonce : Fld := ⟨31, 0⟩

/-- KEEP.CLRHEAD (R570). -/
def keepClrhead : Nat := 0x601400a8
def keepClrhead_Seq : Fld := ⟨31, 0⟩

/-- KEEP.CLRCMD (R570). -/
def keepClrcmd : Nat := 0x601400ac
def keepClrcmd_Key : Fld := ⟨7, 0⟩

/-- KEEP.CLRTOK (R570). -/
def keepClrtok (i : Nat) : Nat := 0x601400b0 + 0x4 * i
def keepClrtok_Token : Fld := ⟨31, 0⟩

/-- KEEP.KEYPRG (R570). -/
def keepKeyprg (i : Nat) : Nat := 0x601400d0 + 0x4 * i
def keepKeyprg_Key : Fld := ⟨31, 0⟩

/-- KEEP.KEYCMD (R570). -/
def keepKeycmd : Nat := 0x601400f0
def keepKeycmd_Key : Fld := ⟨7, 0⟩

/-- KEEP.KEYSTAT (R570). -/
def keepKeystat : Nat := 0x601400f4
def keepKeystat_Clrref : Fld := ⟨1, 1⟩
def keepKeystat_Locked : Fld := ⟨0, 0⟩

/-- KEEP.RTOTLO (R570). -/
def keepRtotlo (i : Nat) : Nat := 0x60140048 + 0x4 * i
def keepRtotlo_Count : Fld := ⟨31, 0⟩

/-- UPD.CMD (R592). -/
def updCmd : Nat := 0x60160000
def updCmd_Key : Fld := ⟨31, 24⟩
def updCmd_Arg : Fld := ⟨9, 8⟩
def updCmd_Disrupt : Fld := ⟨7, 7⟩
def updCmd_Op : Fld := ⟨3, 0⟩

/-- UPD.PROGSRC (R592). -/
def updProgsrc : Nat := 0x60160004
def updProgsrc_Page : Fld := ⟨11, 0⟩

/-- UPD.PROGOFF (R592). -/
def updProgoff : Nat := 0x60160008
def updProgoff_Off : Fld := ⟨31, 0⟩

/-- UPD.PROGLEN (R592). -/
def updProglen : Nat := 0x6016000c
def updProglen_Len : Fld := ⟨24, 0⟩

/-- UPD.STAT (R592). -/
def updStat : Nat := 0x60160010
def updStat_State : Fld := ⟨31, 29⟩
def updStat_Marked : Fld := ⟨28, 28⟩
def updStat_Result : Fld := ⟨27, 24⟩
def updStat_Slot : Fld := ⟨0, 0⟩

/-- UPD.ACTATLO (R592). -/
def updActatlo (i : Nat) : Nat := 0x60160018 + 0x4 * i
def updActatlo_At : Fld := ⟨31, 0⟩

/-- UPD.ACTTICKLO (R592). -/
def updActticklo (i : Nat) : Nat := 0x60160020 + 0x4 * i
def updActticklo_N : Fld := ⟨31, 0⟩

/-- UPD.INACTVER (R592). -/
def updInactver : Nat := 0x60160028
def updInactver_Imgver : Fld := ⟨31, 0⟩

/-- UPD.MARKA (R592). -/
def updMarka (i : Nat) : Nat := 0x6016002c + 0x4 * i
def updMarka_Actmark : Fld := ⟨31, 0⟩

/-- UPD.OTPSVN (R592). -/
def updOtpsvn : Nat := 0x60160034
def updOtpsvn_Svn : Fld := ⟨7, 0⟩

/-- UPD.OTPKEY (R592). -/
def updOtpkey : Nat := 0x60160038
def updOtpkey_Revoked : Fld := ⟨3, 0⟩

/-- UPD.PCHATLO (R592). -/
def updPchatlo (i : Nat) : Nat := 0x6016003c + 0x4 * i
def updPchatlo_At : Fld := ⟨31, 0⟩

/-- UPD.PCHPER (R592). -/
def updPchper : Nat := 0x60160044
def updPchper_Valid : Fld := ⟨31, 31⟩
def updPchper_Period : Fld := ⟨13, 0⟩

/-- SQ.CFG (R611). -/
def sqCfg (i : Nat) : Nat := 0x60100000 + 0x10000 * i
def sqCfg_Wen : Fld := ⟨6, 6⟩
def sqCfg_Wsel : Fld := ⟨5, 4⟩
def sqCfg_Role : Fld := ⟨1, 1⟩
def sqCfg_En : Fld := ⟨0, 0⟩

/-- SQ.STAT (R611). -/
def sqStat (i : Nat) : Nat := 0x60100004 + 0x10000 * i
def sqStat_Winerr : Fld := ⟨31, 16⟩
def sqStat_Slvbusy : Fld := ⟨3, 3⟩
def sqStat_Frameerr : Fld := ⟨2, 2⟩

/-- SQ.SELA (R611). -/
def sqSela (i j : Nat) : Nat := 0x60100010 + 0x10000 * i + 0x8 * j
def sqSela_Addr4 : Fld := ⟨25, 25⟩
def sqSela_Busychk : Fld := ⟨24, 24⟩
def sqSela_Wsize : Fld := ⟨21, 20⟩
def sqSela_Sdly : Fld := ⟨18, 16⟩
def sqSela_Div : Fld := ⟨15, 8⟩
def sqSela_Mode : Fld := ⟨2, 0⟩

/-- SQ.SELB (R611). -/
def sqSelb (i j : Nat) : Nat := 0x60100014 + 0x10000 * i + 0x8 * j
def sqSelb_Blim : Fld := ⟨31, 24⟩
def sqSelb_Gap : Fld := ⟨23, 16⟩
def sqSelb_Dummy : Fld := ⟨12, 8⟩
def sqSelb_Rdcmd : Fld := ⟨7, 0⟩

/-- SQ.QHDR (R611). -/
def sqQhdr (i j : Nat) : Nat := 0x60100100 + 0x10000 * i + 0x40 * j
def sqQhdr_Evt : Fld := ⟨23, 23⟩
def sqQhdr_Cont : Fld := ⟨22, 22⟩
def sqQhdr_Rxen : Fld := ⟨21, 21⟩
def sqQhdr_Txen : Fld := ⟨20, 20⟩
def sqQhdr_Dummy : Fld := ⟨19, 15⟩
def sqQhdr_Addrlen : Fld := ⟨14, 12⟩
def sqQhdr_Cmdlen : Fld := ⟨11, 10⟩
def sqQhdr_Nwm1 : Fld := ⟨9, 0⟩

/-- SQ.QCMD (R611). -/
def sqQcmd (i j : Nat) : Nat := 0x60100104 + 0x10000 * i + 0x40 * j
def sqQcmd_Cmd : Fld := ⟨15, 0⟩

/-- SQ.QADDR (R611). -/
def sqQaddr (i j : Nat) : Nat := 0x60100108 + 0x10000 * i + 0x40 * j
def sqQaddr_Addr : Fld := ⟨31, 0⟩

/-- SQ.QTX (R611). -/
def sqQtx (i j k : Nat) : Nat := 0x6010010c + 0x10000 * i + 0x40 * j + 0x4 * k
def sqQtx_Addr : Fld := ⟨24, 2⟩

/-- SQ.QPUSH (R611). -/
def sqQpush (i j : Nat) : Nat := 0x60100114 + 0x10000 * i + 0x40 * j
def sqQpush_Push : Fld := ⟨0, 0⟩

/-- SQ.QSTAT (R611). -/
def sqQstat (i j : Nat) : Nat := 0x60100118 + 0x10000 * i + 0x40 * j
def sqQstat_Active : Fld := ⟨31, 31⟩
def sqQstat_Err : Fld := ⟨30, 30⟩
def sqQstat_Cause : Fld := ⟨29, 27⟩
def sqQstat_Depth : Fld := ⟨3, 0⟩

/-- SQ.QCNT (R611). -/
def sqQcnt (i j : Nat) : Nat := 0x6010011c + 0x10000 * i + 0x40 * j
def sqQcnt_Busycnt : Fld := ⟨31, 16⟩
def sqQcnt_Done : Fld := ⟨15, 0⟩

/-- CLK.REFCFG (R626). -/
def clkRefcfg : Nat := 0x60010000
def clkRefcfg_Rsel : Fld := ⟨1, 0⟩

/-- CLK.CPROF (R626). -/
def clkCprof (i : Nat) : Nat := 0x60010010 + 0x4 * i
def clkCprof_En : Fld := ⟨31, 31⟩
def clkCprof_Valid : Fld := ⟨30, 30⟩
def clkCprof_Band : Fld := ⟨29, 24⟩
def clkCprof_Freq : Fld := ⟨12, 0⟩

/-- CLK.CSEL (R626). -/
def clkCsel : Nat := 0x60010030
def clkCsel_Prof : Fld := ⟨2, 0⟩

/-- CLK.SPREAD (R626). -/
def clkSpread : Nat := 0x60010034
def clkSpread_En : Fld := ⟨31, 31⟩
def clkSpread_Fmod : Fld := ⟨15, 8⟩
def clkSpread_Depth : Fld := ⟨7, 0⟩

/-- CLK.STAT (R626). -/
def clkStat : Nat := 0x60010040
def clkStat_Hop : Fld := ⟨4, 4⟩
def clkStat_Srch : Fld := ⟨3, 3⟩
def clkStat_Refok : Fld := ⟨2, 2⟩
def clkStat_Alock : Fld := ⟨1, 1⟩
def clkStat_Clock : Fld := ⟨0, 0⟩

/-- CLK.LOSS (R626). -/
def clkLoss : Nat := 0x60010044
def clkLoss_Rloss : Fld := ⟨23, 16⟩
def clkLoss_Aloss : Fld := ⟨15, 8⟩
def clkLoss_Closs : Fld := ⟨7, 0⟩

/-- BLOCK.COMMIT of block number `b` (R68). -/
def blockCommit (b : Nat) : Nat := 0x6000FF00 + 0x10000 * b
/-- BLOCK.STAGESTAT of block number `b` (R68). -/
def blockStagestat (b : Nat) : Nat := 0x6000FF04 + 0x10000 * b
def stagestat_Cpend : Fld := ⟨23, 16⟩
def stagestat_Ref : Fld := ⟨15, 8⟩
def stagestat_Pend : Fld := ⟨7, 0⟩

/-- The index path at which an offset meets a register's repeats, if it does. -/
def matchDims : List (Nat × Nat) → Nat → Option (List Nat)
  | [], r => if r = 0 then some [] else none
  | (st, n) :: t, r =>
    if r / st < n then (matchDims t (r % st)).map fun l => r / st :: l else none

/-- The register that an offset of a block decodes, with its index path. -/
def findReg : List RegDesc → Nat → Option (RegDesc × List Nat)
  | [], _ => none
  | d :: t, o =>
    if d.off ≤ o then
      match matchDims d.dims (o - d.off) with
      | some l => some (d, l)
      | none => findReg t o
    else findReg t o

/-- The register at an address, in a register block (R28) or in an engine space (R129). -/
def regAt (a : Nat) : Option (RegDesc × List Nat) :=
  if 0x60000000 ≤ a ∧ a < 0x60170000 then findReg (blockRegs ((a - 0x60000000) / 0x10000)) (a % 0x10000)
  else if 0x50000000 ≤ a ∧ a < 0x60000000 then findReg engRegs (a % 0x100000)
  else none

/-- The word of a register's reset values (R14). -/
def resetWord (fs : List FieldDesc) : Word :=
  fs.foldl (fun w f => fset w f.fld f.rst) 0

/-- Banked registers (R408, R461, R570) stand at the address plus this stride times the polder. -/
def bankStride : Nat := 0x10000000000

/-- The reset value of the register with key `a` (an address, plus the bank of a banked register). CLK.CPROF
k is enabled at reset for k = 0 only (R626). -/
def regReset (a : Nat) : Word :=
  let p := a % bankStride
  match regAt p with
  | some (d, _) =>
    let w := resetWord d.fields
    if 0x60010014 ≤ p ∧ p < 0x60010030 then fset w ⟨31, 31⟩ 0 else w
  | none => 0

end Sys2Proof.Machine
end

