-- ==== Sys2Proof/Machine/Cells.lean ====
section
/-! DEFINITION. Sparse maps from a number to a value, in ONE canonical form: a list of pairs with
strictly rising keys that lists no pair equal to the map's default. Every sparse field of the machine
(registers, memory, the states of its units) is held so, so that equal maps are equal data. -/

namespace Sys2Proof.Machine

/-- A sparse map: key and value pairs. -/
abbrev Cells (α : Type) := List (Nat × α)

/-- The value listed at key `k`, if one is listed. -/
def cellFind {α : Type} : Cells α → Nat → Option α
  | [], _ => none
  | (j, v) :: t, k => if j = k then some v else cellFind t k

/-- The value at key `k`, or the default `d`. -/
def cellGet {α : Type} (d : α) (m : Cells α) (k : Nat) : α := (cellFind m k).getD d

/-- Insert or replace, keeping the keys rising. -/
def cellPut {α : Type} : Cells α → Nat → α → Cells α
  | [], k, v => [(k, v)]
  | (j, u) :: t, k, v =>
    if k < j then (k, v) :: (j, u) :: t
    else if k = j then (k, v) :: t
    else (j, u) :: cellPut t k v

/-- Remove a key. -/
def cellDel {α : Type} (m : Cells α) (k : Nat) : Cells α := m.filter fun c => c.1 != k

/-- Write `v` at `k`; writing the default removes the entry, so the form stays canonical. -/
def cellSet {α : Type} [DecidableEq α] (d : α) (m : Cells α) (k : Nat) (v : α) : Cells α :=
  if v = d then cellDel m k else cellPut m k v

/-- Remove every key in `lo ..< hi`. -/
def cellClear {α : Type} (m : Cells α) (lo hi : Nat) : Cells α :=
  m.filter fun c => decide (c.1 < lo) || decide (hi ≤ c.1)

/-- The keys rise strictly, and every key is at least `lo`. -/
def cellsRise {α : Type} : Nat → Cells α → Bool
  | _, [] => true
  | lo, (j, _) :: t => decide (lo ≤ j) && cellsRise (j + 1) t

/-- The canonical form: keys rise strictly and no pair equals the default. -/
def cellsWf {α : Type} [DecidableEq α] (d : α) (m : Cells α) : Bool :=
  cellsRise 0 m && m.all fun c => decide (c.2 ≠ d)

/-- Memory: byte cells of the 40-bit address map. -/
abbrev Memory := List Host.Cell

end Sys2Proof.Machine
end

