-- ==== Sys2Proof/Machine/State.lean ====
section
/-! DEFINITION. The machine's state: plain data, holding every piece of state the spec gives the DTN9256.
Registers stand in one sparse map keyed by address (`regs`; a register not listed reads its reset value),
memories in one sparse byte map over the 40-bit address space (`mem`), and each block's inner state, which no
register shows, in a structure of its own. `pending` is the queue of commands that wait. -/

namespace Sys2Proof.Machine

/-- Why the machine stops with a fault. The spec describes no stop of the whole device: what goes wrong is
an event, an error response or a refusal bit, all of them effects on the state. So nothing raises one (safe). -/
inductive Fault
  deriving DecidableEq, Repr

/-- Why a command has no meaning. -/
inductive Refusal
  /-- Raised by an arm of `exec` whose command has no meaning yet (safe). -/
  | notModelled (mnemonic : String)
  /-- Raised by an engine slot operation in a form the loader never lets an engine execute (R98): the
  reserved address mode 0b11, an odd register pair (safe). -/
  | neverExecuted (mnemonic : String)
  deriving DecidableEq, Repr

/-! ## Device, resets, boot (ch. 01, 19) -/

/-- Where the main dies stand between a reset and the running image (R29, R39, R577–R579). -/
inductive Phase
  | off | held | released | loaded | running | recovery
  deriving DecidableEq, Repr

/-- What started a polder reset (R29, R460). -/
inductive ResetCause
  | prst | prself | isolation | migration
  deriving DecidableEq, Repr

/-- A polder in reset (R35, R36, R457). -/
structure InReset where
  cause : ResetCause
  reloaded : Bool
  stuck : Bool
  whole : Bool
  deriving DecidableEq, Repr

/-- The device as a whole: its variant, its OTP (unique ID, hashes of system keys; R1, R44, R574), its boot phase, the tick
generator, the polder resets. -/
structure Dev where
  ca : Bool
  uid : DWord
  phase : Phase
  tickRun : Bool
  tickLost : Bool
  resetReq : Cells ResetCause
  inReset : Cells InReset
  skh : List Nat
  deriving DecidableEq, Repr

/-- Reset: power-on reset ended, HRSTN still low, nothing booted. -/
def devReset : Dev :=
  { ca := false, uid := 0, phase := .held, tickRun := false, tickLost := false, resetReq := [], inReset := [], skh := [0, 0, 0, 0] }

/-! ## Tick, modes, staging (ch. 02) -/

/-- A value that a polder has staged in a register and not yet committed (R10, R68): the bits in `mask`. -/
structure Staged where
  pol : Nat
  addr : Nat
  mask : Word
  val : Word
  deriving DecidableEq, Repr

/-- What a polder's staged values of one block wait for (R68, R71): the ticks since the first, whether the
notice was given, whether a GO is pending. -/
structure StageMeta where
  age : Nat
  noticed : Bool
  go : Bool
  deriving DecidableEq, Repr

/-- A set that a cut-off has formed for the coming edge (R54, R69): its values, or the loaded sub-image
of IMG (R453); `sched` for the set of a scheduled period change (R590). -/
structure CSet where
  pol : Nat
  blk : Nat
  vals : List Staged
  sched : Bool := false
  deriving DecidableEq, Repr

/-- A capture for one reading source (R652). -/
structure Capture where
  src : Source
  reg : Nat
  val : Word
  deriving DecidableEq, Repr

/-- The tick generator, the sequencers' mode choice, staging. `early` holds, by address, the data-memory words that encoders and
comparators deliver 60 ns after the edge, as they were before: steps read them until then (R53). `whole`: the tick began with a T0 edge (R363). -/
structure Tick where
  count : BitVec 48
  trim : Int
  condLatch : Cells Nat
  nextMode : Cells (Nat × Nat)
  fbNoted : List Nat
  staged : List Staged
  stageMeta : Cells StageMeta
  sets : List CSet
  captures : List Capture
  early : Cells Word
  vddr : List Nat
  whole : Bool
  deriving DecidableEq, Repr

/-- Reset. The region supplies stand at their lowest operating value (mV). -/
def tickReset : Tick :=
  { count := 0, trim := 0, condLatch := [], nextMode := [], fbNoted := [], staged := [], stageMeta := [],
    sets := [], captures := [], early := [], vddr := [850, 850, 850, 850], whole := false }

/-! ## The dike, the culvert, events (ch. 12, 15) -/

/-- The breaches of one polder in the present tick (R404) and window (R405); `beyond`: the window has passed the limit. -/
structure Breaches where
  reason : Nat
  addr : Nat
  number : Nat
  window : Nat
  beyond : Bool
  deriving DecidableEq, Repr

/-- The response a requester got (R7, R402). -/
structure Resp where
  err : Bool
  data : List Word
  deriving DecidableEq, Repr

/-- The dike: breach bookkeeping, per-tick notices, the last response given. -/
structure Dike where
  breaches : Cells Breaches
  unboundNoted : Bool
  staleNoted : List Nat
  resp : Resp
  deriving DecidableEq, Repr

def dikeReset : Dike := { breaches := [], unboundNoted := false, staleNoted := [], resp := ⟨false, []⟩ }

/-- Whose beat waits in a polder's queue at the culvert (R415): a sluice's, with its port and the first element of its access, an engine's
stalled access, or that of a requester whose command ends with it. -/
inductive Beat
  | sluice (chan : Nat) (write : Bool) (first : Nat)
  | engine (e : Nat)
  | now
  deriving DecidableEq, Repr

/-- The culvert beside its flag words: the lease L of each page's last grant, the pages its owner used in the
tick (R411), the pages that wait to be zeroed (R412), each polder's queue of beats in arrival order (R415), the wheel's next slot (R414). -/
structure Culv where
  lastL : Cells Nat
  used : List Nat
  zeroing : List Nat
  beats : Cells (List Beat)
  slot : Nat
  deriving DecidableEq, Repr

def culvReset : Culv := { lastL := [], used := [], zeroing := [], beats := [], slot := 0 }

/-- An event on its way to the recorder (R463–R466): code, class as handled, scope, parameters, fabric time
of its detection, and whether that is the time of a clock that has not been set (R562). -/
structure Event where
  code : Nat
  cls : Nat
  scope : Nat
  params : List Word
  time : DWord
  timeq : Bool := false
  deriving DecidableEq, Repr

/-- A fault that its scope holds unacknowledged (R467, R472): its code, first parameter, class as handled and
the HKNOW bit of its source when it is a housekeeping source (R475). -/
structure Held where
  scope : Nat
  code : Nat
  param : Word
  cls : Nat
  hk : Option Nat
  deriving DecidableEq, Repr

/-- A fault that an edge has found: code, class, scope, parameters (R473). -/
structure DueFault where
  code : Nat
  cls : Nat
  scope : Nat
  params : List Word
  deriving DecidableEq, Repr

/-- The fault collector beside its registers (ch. 15). `due` are the faults of an edge that are not collected yet (R473). -/
structure Flt where
  held : List Held
  due : List DueFault
  isol : List Nat
  tripLine : Bool
  hold : Bool
  mismatch : Bool
  aliveHigh : Bool
  traceFault : List Nat
  bootHeld : Bool
  deriving DecidableEq, Repr

/-- Reset: the pins are in the fault state until the first image commit (R477). -/
def fltReset : Flt :=
  { held := [], due := [], isol := [], tripLine := false, hold := false, mismatch := false, aliveHigh := false,
    traceFault := [], bootHeld := true }

/-! ## Engines, placement, latches, trace (ch. 03, 04) -/

/-- The registers of one engine (R92, R93): general registers, accumulators, predicate flags. -/
structure EngRegs where
  g : Cells Word
  a : Cells (BitVec 72)
  f : BitVec 4
  deriving DecidableEq, Repr

def engRegsReset : EngRegs := { g := [], a := [], f := 0 }

/-- A repeat block that runs (R97): first and last word, repetitions left. -/
structure Rep where
  first : Nat
  last : Nat
  left : Nat
  deriving DecidableEq, Repr

/-- The step an engine runs (R59): its place in the step list, its polder, KIND and segment start. -/
structure Running where
  idx : Nat
  pol : Nat
  kind : Nat
  seg : Nat
  deriving DecidableEq, Repr

/-- An L-slot access that stalls (R85): the kind of transfer, its address, registers and data; `served` once the culvert has executed it:
whether the page allowed it, the words it read (R411, R415). -/
structure Stall where
  load : Bool
  half : Bool
  unsignedHalf : Bool
  pair : Bool
  addr : Nat
  gr : Nat
  data : List Word
  eow : Bool
  served : Option (Bool × List Word) := none
  deriving DecidableEq, Repr

/-- A host write that waits for the engine (R89): byte address, words. -/
structure HostWrite where
  addr : Nat
  words : List Word
  deriving DecidableEq, Repr

/-- One engine beside its registers at ENG and its memories. `cur` is what a word's slots read, `nxt` what they
write (R96), `nextReqs` and `nextLines` the request outputs and trigger lines that the word's REQ and TRIG write; `stepEnded`: a step has
ended in this tick (R59). `queue` holds host writes, 16 at most; `held` those that wait for space in it (R89). -/
structure Eng where
  cur : EngRegs
  nxt : EngRegs
  running : Option Running
  nextStep : Nat
  done : Bool
  wp : Nat
  reps : List Rep
  atEnd : Bool
  stall : Option Stall
  stepEnded : Bool
  cycles : Nat
  setFlags : Nat
  newFlags : Nat
  wordFlags : Nat
  outs : Cells Word
  vouts : Cells Word
  reqLane : Cells Bool
  nextReqs : Cells Bool
  lines : Nat
  nextLines : Nat
  queue : List HostWrite
  held : List HostWrite
  eccFault : Bool
  overtopped : Bool
  eccRetired : Bool
  sig : Option Word
  fetchErr : Option (Nat × Ecc)
  tapSnap : Option (List Word)
  deriving DecidableEq, Repr

def engReset : Eng :=
  { cur := engRegsReset, nxt := engRegsReset, running := none, nextStep := 0, done := false, wp := 0, reps := [],
    atEnd := false, stall := none, stepEnded := false, cycles := 0, setFlags := 0, newFlags := 0, wordFlags := 0, outs := [], vouts := [],
    reqLane := [], nextReqs := [], lines := 0, nextLines := 0, queue := [], held := [], eccFault := false, overtopped := false, eccRetired := false,
    sig := none, fetchErr := none, tapSnap := none }

/-- What a placement group's state transfer of this tick does (R116). -/
inductive Xfer
  | shadow | restore | seed (eng : Nat)
  deriving DecidableEq, Repr

/-- A placement group as it runs (R114–R128): present members and spare, retired engines, the transfer that
must end before the group starts, the restore vote that is due, a re-admission asked for. -/
structure GroupSt where
  members : List Nat
  spare : Option Nat
  retired : List Nat
  xfer : Option Xfer
  restoring : Bool
  agreed : Bool
  readmit : Option Nat
  voteFailed : Bool
  maj : List Nat
  deriving DecidableEq, Repr

/-- A group that the image has not placed. -/
def groupReset : GroupSt :=
  { members := [], spare := none, retired := [], xfer := none, restoring := false, agreed := false, readmit := none,
    voteFailed := false, maj := [] }

/-- A set-point latch as it runs (R134–R136): start, target, ramp index, the applied value, the words captured in this tick by
engine, whether the source step ended after the cut-off. -/
structure LatchSt where
  s : Word
  tg : Word
  k : Nat
  active : Bool
  applied : Word
  caps : Cells Word
  late : Bool
  deriving DecidableEq, Repr

def latchReset : LatchSt := { s := 0, tg := 0, k := 0, active := false, applied := 0, caps := [], late := false }

/-- A trace lane beside its registers (R160): records taken since ARM, records left after the trigger, the
command and control word that act at the next edge. -/
structure Lane where
  filled : Nat
  left : Nat
  cmd : Nat
  ctl : Option Word
  deriving DecidableEq, Repr

def laneReset : Lane := { filled := 0, left := 0, cmd := 0, ctl := none }

/-! ## The recorder's queues (ch. 12, 18) -/

/-- The event recorder: one queue per polder (R417), the events placed in it in this tick, the events of the present tick
that were dropped, records that go ahead of the rotation, the keep domain's own queue (R558, R564) and what the scan lost,
the next queue in rotation; MRAM: record slots, newest and oldest sequence number, slot writes; a scan under way; OTP:
recorder key; the slots that a clear zeroes. -/
structure Recorder where
  queues : Cells (List Event)
  placed : Cells Nat
  dropped : Cells Nat
  ahead : List Event
  keepQ : List Event
  lost : Nat
  rot : Nat
  mram : Cells (List Word)
  head : Word
  tail : Word
  total : Nat
  scanning : Bool
  key : Option (List Word)
  clearing : Option (Word × Word)
  deriving DecidableEq, Repr

/-- Reset: an empty MRAM, its scan under way. -/
def recReset : Recorder :=
  { queues := [], placed := [], dropped := [], ahead := [], keepQ := [], lost := 0, rot := 0, mram := [], head := 0, tail := 1,
    total := 0, scanning := true, key := none, clearing := none }

/-- The keep domain beside its registers (R550–R561): it runs; VKEEP taken as present; VKEEP and VPRIM in mV; the clock at
the last supply sample, in 1/64 ns, and the part of a crystal period then gone by, in 1/125; milliseconds on the harvester, on the primary cell, with the main supplies off; the harvester's input
regulation in 10 µV; the last tamper sample; clock times of the tamper latches; the KIND of the beacon transmission that
runs and of the merged triggers; beacon sequence (MRAM); the frame sent last. -/
structure Keep where
  alive : Bool
  vkeepOn : Bool
  vkeep : Nat
  vprim : Nat
  rtc : Nat
  xtal : Nat
  row2 : Nat
  primMs : Nat
  offMs : Nat
  vreg : Nat
  tampPrev : Nat
  tampTime : Cells Nat
  bcn : Option Nat
  pend : Option Nat
  bseq : Nat
  frame : List Nat
  deriving DecidableEq, Repr

def keepReset : Keep :=
  { alive := true, vkeepOn := false, vkeep := 0, vprim := 0, rtc := 0, xtal := 0, row2 := 0, primMs := 0, offMs := 0, vreg := 0, tampPrev := 0,
    tampTime := [], bcn := none, pend := none, bseq := 0, frame := [] }

/-! ## The image in force (ch. 14) -/

/-- The loader's view of one polder (R452–R458): who started the load, the words it has read from the source, whether a read failed or
waits for an SQ port, the sub-image loaded, the one that runs, whether it
was committed at runtime, a migration that is under way, whether tick loss made its ENTRY void (R460), one that takes over
when the polder's reset ends (R586). -/
structure PolImg where
  loading : Option Source
  fetched : List Word
  fetchBad : Bool
  fetchWait : Bool
  loaded : Option SubImage
  run : Option SubImage
  runtime : Bool
  migrating : Option SubImage
  entryLost : Bool
  waiting : Option SubImage
  deriving DecidableEq, Repr

def polImgReset : PolImg :=
  { loading := none, fetched := [], fetchBad := false, fetchWait := false, loaded := none, run := none, runtime := false, migrating := none, entryLost := false, waiting := none }

/-- The committed image: the active full image with its parameter blocks, the resource map, the keys, with the system key of its slot, the
running tables. -/
structure Img where
  active : Option FullImage
  params : List ParamBlock
  resmap : Cells Nat
  pol : Cells PolImg
  steps : Cells (List DWord)
  rules : Cells (List DWord)
  latches : Cells DWord
  cycles : Cells Nat
  tempos : List Nat
  keys : List (Option Nat)
  sysKey : Nat
  areas : List Area
  groups : List Group
  insts : List Placed
  bank : Cells Nat
  bootLoad : Option (Nat × FullImage × List ParamBlock)
  deriving DecidableEq, Repr

def imgReset : Img :=
  { active := none, params := [], resmap := [], pol := [], steps := [], rules := [], latches := [], cycles := [],
    tempos := [15, 15, 15, 15], keys := [], sysKey := 0, areas := [], groups := [], insts := [], bank := [], bootLoad := none }

/-! ## Carriers and pairs (ch. 08) -/

/-- A carrier beside its registers (R278, R281): the CARCTL, CARPER and CARPH words it runs with, those of
a FREE set that wait for its period start, the elapsed steps at its last event, and those at the last T0 edge as its present pattern has them. -/
structure Car where
  ctl : Word
  per : Word
  ph : Word
  waiting : Option (Word × Word × Word)
  e : Nat
  base : Nat
  deriving DecidableEq, Repr

def carReset : Car := { ctl := 4, per := 0xEA600, ph := 0, waiting := none, e := 0, base := 0 }

/-- A pair beside its registers: pending compares as words, active compares in steps (R283), reference levels, the force waiting and in effect,
whether a CMP trip acts yet, whether RST came from a boot, the dead times that run after A and after B went
off, a PIN cause that only the owner clears, the levels that are wanted, the rank
in effect, whether a trip has been cleared since the last period start (R284–R293). -/
structure Pair where
  pendA : Word
  pendB : Word
  actA : Nat
  actB : Nat
  refA : Bool
  refB : Bool
  forceWait : Bool
  force : Nat
  cmpActs : Bool
  rank : Nat
  rstBoot : Bool
  deadA : Bool
  deadB : Bool
  pinHeld : Bool
  cleared : Bool
  wantA : Bool
  wantB : Bool
  cmpNoted : Bool
  clampNoted : Bool
  deriving DecidableEq, Repr

def pairReset : Pair :=
  { pendA := 0, pendB := 0, actA := 0, actB := 0, refA := false, refB := false, forceWait := false, force := 0,
    cmpActs := false, rank := 5, rstBoot := false, deadA := false, deadB := false, pinHeld := false, cleared := false, wantA := false, wantB := false,
    cmpNoted := false, clampNoted := false }
/-! ## Acquisition and comparators (ch. 10) -/

/-- A converter group beside its registers (R345–R349): the slice at each interleave position, ticks since
the last swap, initial calibration under way, a replacement that waits for the next edge (the active slice that goes and
its estimate), slots whose overrange or dropped delivery was noted in this tick. -/
structure Grp where
  active : List Nat
  ticks : Nat
  calibrating : Bool
  replace : Option (Nat × Word)
  ovr : List Nat
  cref : List Nat
  deriving DecidableEq, Repr

def grpReset : Grp :=
  { active := [0, 1, 2, 3], ticks := 0, calibrating := false, replace := none, ovr := [], cref := [] }

/-- A comparator beside its registers: the mismatch ticks in a row (R360), whether events 0x0901 and 0x0903 were
recorded in this tick. -/
structure Cmp where
  run : Nat
  noted : Bool
  dacNoted : Bool
  deriving DecidableEq, Repr

def cmpReset : Cmp := { run := 0, noted := false, dacNoted := false }

/-! ## Cell link (ch. 09) -/

/-- What a port's transmit lane sends (R301, R307, R323). -/
inductive Tx
  | nothing | idle | enum | config | rate | echo | timing | cmd | inh
  deriving DecidableEq, Repr

/-- What became of a cell's status slot in a tick (R320). -/
inductive CellRx
  | missing | bad | good
  deriving DecidableEq, Repr

/-- A cell-link port beside its registers (R307–R314, R332): start-up step, its tries, the target rate, the chain's
records with their CRCs, the features that every cell sets, the ECHO round trips by position (sum, number), the delays and WAIT values in
ns, the slots of the last CMD frame, what the transmit lane sends, the code groups of both lanes (of the transmit lane the last frame or
ordered set, of the receive lane the last status frame; a control group Kx.y as 256 + its byte), the self-test rotation. -/
structure Port where
  step : Nat
  tries : Nat
  tgt : Nat
  recs : List (BitVec 128)
  feats : Nat
  echo : Cells (Nat × Nat)
  tdn : List Nat
  sumTc : Nat
  wait : List Int
  frame : List (BitVec 96)
  line : List Nat
  rline : List Nat
  pinh : Bool
  seq : Nat
  tickp : Nat
  tx : Tx
  rot : Nat
  rotKeep : Bool
  gap : Nat
  testPend : Bool
  deriving DecidableEq, Repr

def portReset : Port :=
  { step := 0, tries := 0, tgt := 0, recs := [], feats := 0, echo := [], tdn := [], sumTc := 0, wait := [], frame := [], line := [], rline := [], pinh := false,
    seq := 0, tickp := 0, tx := .nothing, rot := 0, rotKeep := false, gap := 0, testPend := false }

/-- A cell as its port sees it (R316–R334): the slot received in this tick, the last valid status, invalid and valid
runs, bypass, WDOG seen since the last delivery, gate codes of S3–S0, a pending FCLR, the bootstrap times of both legs
(in 10 ns) with their values before the last window, a refresh that must come first, the last pass of each comparator
(tick, time) and the time of its last notice. -/
structure Cell where
  rx : CellRx
  last : BitVec 160
  misses : Nat
  good : Nat
  lost : Bool
  byp : Bool
  wdog : Bool
  gs : Nat
  fclr : Bool
  g0 : Nat
  g1 : Nat
  h0 : Nat
  h1 : Nat
  need : Bool
  pass : Cells (Nat × Nat)
  noted : Cells Nat
  deriving DecidableEq, Repr

def cellReset : Cell :=
  { rx := .missing, last := 0, misses := 0, good := 0, lost := false, byp := false, wdog := false, gs := 0, fclr := false,
    g0 := 0, g1 := 0, h0 := 0, h1 := 0, need := false, pass := [], noted := [] }

/-! ## Encoders (ch. 07) -/

/-- An encoder beside its registers (R249, R251–R254): the levels of lines A and B that the glitch filters have accepted, the observer's
θ and ω in 2^-16 counts, the edges in a row with a small error, the double events of this tick, the ticks of the last double events. -/
structure Enc where
  lineA : Bool
  lineB : Bool
  theta : Int
  omega : Int
  run : Nat
  doubles : Nat
  recent : List Nat
  deriving DecidableEq, Repr

def encReset : Enc := { lineA := false, lineB := false, theta := 0, omega := 0, run := 0, doubles := 0, recent := [] }

/-! ## Metrology die (ch. 11) -/

/-- What the metrology die retains over loss of its supply (R384, R386): per point the residuals (active, reactive) and
the registers AIMP, AEXP, RPOS, RNEG; per output acc and due; counters (five windows are an operating
second); the seal at the last change. -/
structure MetKeep where
  res : Cells Int
  energy : Cells Nat
  acc : Cells Nat
  due : Cells Nat
  chg : Nat
  sealcnt : Nat
  windows : Nat
  sealBroken : Bool
  deriving DecidableEq, Repr

/-- What the optical port sends last (R392, R393): nothing, its identification, the readout: its lines (identifier, value; no value where it
shows ERR) and the characters of its data message. -/
inductive OptOut
  | silent | ident | readout (lines : List (List Nat × Option Nat)) (text : List Nat)
  deriving DecidableEq, Repr

/-- An answer on the calibration port (R387). -/
structure CalResp where
  status : Nat
  pid : Nat
  idx : Nat
  value : Word
  crc : Nat
  deriving DecidableEq, Repr

/-- The metrology die: power, faults, window counter since power-up, parameters committed and pending (by 256 × PID +
IDX), PID and IDX of a COMMIT that waits for the next window, log, retained state as the die runs with it and as its newer and its older copy
hold it (R384), the integrators of air-core channels (w in 2^-60 of full scale, the last code; R373), sums of squares of the last window
(R375), the last values of each channel before and after gain and delay (R374, R377), whether the last window's energy was accumulated, frequencies of the AC points in mHz with their FREQERR, pulses still to be sent in the window and sent, optical port, the frame of the last window by MBOX address, the
compute die's note that a frame came since its reset. -/
structure Met where
  on : Bool
  broken : Bool
  xtalf : Bool
  xtalBack : Bool
  nverr : Bool
  seq : Nat
  params : Cells Word
  pend : Cells Word
  commitAsked : Option (Nat × Nat)
  log : List (List Word)
  keep : MetKeep
  copyNew : MetKeep
  copyOld : MetKeep
  integ : Cells (Int × Int)
  mag : Cells Nat
  past : Cells (List Int)
  latest : Cells (List Int)
  meas : Bool
  freq : Cells (Nat × Bool)
  firstWin : Bool
  sched : Cells Nat
  sent : Cells Nat
  resp : Option CalResp
  selWait : Bool
  ovl : Bool
  ovlcnt : Nat
  out : OptOut
  ver : Nat
  romCrc : Word
  serial : Word
  frame : Cells Word
  seen : Bool
  deriving DecidableEq, Repr

def metKeepReset : MetKeep :=
  { res := [], energy := [], acc := [], due := [], chg := 0, sealcnt := 0, windows := 0, sealBroken := false }

def metReset : Met :=
  { on := false, broken := false, xtalf := false, xtalBack := false, nverr := false, seq := 0, params := [], pend := [],
    commitAsked := none, log := [], keep := metKeepReset, copyNew := metKeepReset, copyOld := metKeepReset, integ := [], mag := [], past := [], latest := [], meas := false,
    freq := [], firstWin := true, sched := [], sent := [],
    resp := none, selWait := false, ovl := false, ovlcnt := 0, out := .silent, ver := 0, romCrc := 0, serial := 0, frame := [],
    seen := false }

/-! ## Sluices and SQ ports (ch. 13, 20) -/

/-- How an access outside the register blocks ends. -/
inductive AccRes
  /-- Executed; the data of a read. -/
  | ok (data : List Word)
  /-- An error response; not a breach. -/
  | err
  /-- A breach (R404). -/
  | breach
  /-- A stale generation (R427). -/
  | stale
  /-- A read of an SQ window, which becomes a transaction of the port (R597): port, offset. -/
  | sq (port off : Nat)
  /-- Not executed yet: on its way, or in its polder's queue at the culvert (R415, R430). -/
  | queued
  deriving DecidableEq, Repr

/-- An access of a sluice's descriptor: elements first .. first + count − 1, of which the port has issued the beats of `sent` elements, the
beats that the culvert has executed, how it ended, what it meets in an engine's memory, whether its error response has come, whether it
waits for the port again, how often it failed (R428–R433, R438). -/
structure OutAcc where
  write : Bool
  first : Nat
  count : Nat
  sent : Nat
  beats : Nat
  addr : Nat
  data : List Word
  res : AccRes
  ecc : Ecc
  failed : Bool
  again : Bool
  fails : Nat
  deriving DecidableEq, Repr

/-- A sluice beside its registers (R424–R440): working copy of the descriptor, whether it passed its check, a fetch under
way and how often it failed, elements read and written so far (issued), written with a good response, buffer by element, accesses issued, STOP or
ABORT that waits for responses, a pause that came from WAIT, events of this tick. -/
structure Slu where
  desc : List Word
  good : Bool
  fetching : Option Nat
  fetchFails : Nat
  rPos : Nat
  wPos : Nat
  acked : Nat
  buf : Cells (List Word)
  outs : List OutAcc
  stopping : Bool
  fromWait : Bool
  noted : List Nat
  deriving DecidableEq, Repr

def sluReset : Slu :=
  { desc := [], good := false, fetching := none, fetchFails := 0, rPos := 0, wPos := 0, acked := 0, buf := [], outs := [], stopping := false,
    fromWait := false, noted := [] }

/-- Who waits for a window read (R597): a host request, the request of an SQ slave port (R606), a request frame (its source,
channel, POL and SEQ; R535), a sluice with the first element of its access, the image loader (R452). -/
inductive SqFor
  | host | slave (port : Nat) | frame (src vc pol seq : Nat) | sluice (c first : Nat) | loader (p : Nat)
  deriving DecidableEq, Repr

/-- A window read that waits or runs. -/
structure SqRead where
  who : SqFor
  off : Nat
  words : Nat
  deriving DecidableEq, Repr

/-- A queue entry (R600, R601). -/
structure SqEntry where
  hdr : Word
  cmd : Word
  addr : Word
  qtx : Word
  qrx : Word
  deriving DecidableEq, Repr

/-- A transaction that runs: of which select, a window read or the head entry, under which SELA set, its received data
dropped (R604, R605, R610). -/
structure SqRun where
  sel : Nat
  read : Option SqRead
  entry : Option SqEntry
  sela : Word
  dropRx : Bool
  deriving DecidableEq, Repr

/-- What a port sends in a transaction (R597, R600): command bytes, address bytes, dummy cycles, data bytes, each in the order sent. -/
structure SqLine where
  cmd : List Nat
  addr : List Nat
  dummy : Nat
  data : List Nat
  deriving DecidableEq, Repr

/-- An SQ port beside its registers (R597–R609): waiting window reads, entries by select, the running transaction, the
next select in rotation, busy repeats of the head entry, selects that wait for GAP, what the last transaction sends, push notices of this
tick; as a slave: a request runs and whether its result is still to come, its result and data, whether any was accepted,
the bytes sent in the last frame. -/
structure SqPort where
  reads : List SqRead
  queues : Cells (List SqEntry)
  run : Option SqRun
  rot : Nat
  repeats : Cells Nat
  gap : List Nat
  line : SqLine
  noted : List Nat
  slvBusy : Bool
  slvWait : Bool
  result : Nat
  data : List Word
  out : List Nat
  deriving DecidableEq, Repr

def sqPortReset : SqPort :=
  { reads := [], queues := [], run := none, rot := 0, repeats := [], gap := [], line := ⟨[], [], 0, []⟩, noted := [], slvBusy := false,
    slvWait := false, result := 4, data := [], out := [] }


/-! ## Safety channel (ch. 16) -/

/-- A valid copy of a safe message (R502): virtual channel, SEQ, TIME, DATA. -/
structure Copy where
  chan : Bool
  seq : Nat
  time : Nat
  data : Nat
  deriving DecidableEq, Repr

/-- A connection beside its registers (R501–R503): SEQ and TIME of the last valid copy of either channel, the copies that
wait for their partner, the next SEQ to send, the payloads sent last. -/
structure Conn where
  last0 : Option (Nat × Nat)
  last1 : Option (Nat × Nat)
  copies : List Copy
  tx : Nat
  sent : List (List Nat)
  deriving DecidableEq, Repr

def connReset : Conn := { last0 := none, last1 := none, copies := [], tx := 0, sent := [] }

/-- The safety channel beside its registers: what the last read of the seal found, what MRAM stores (setting, CRC of the
connection table), whether the configuration was checked, the table in use, cycles of 500 µs since the restart, open
channels (A 0–7, B 8–15), pairs with a discrepancy, channel reads that are blanked, single-channel faults with their
passes in a row (channels 0–15, outputs 16 and 17, connections from 32), channel faults found at the last check, a latched
second fault, the breaker's delay and state, the switch of each technology in each output (R487), outputs whose feedback time runs,
connections, whether the read of the seal waits for the boot commit with its loop closed, whether a source that is no message holds the
safe state (R501), test-pulse outputs whose channels are not counted (R493), what the safety processor read at its last cycle (open channels,
its switches, the output nodes) and what it decided then (R485, R487). -/
structure Safe where
  loopClosed : Bool
  read : Nat
  stored : Option Nat
  storedCrc : Option Word
  checked : Bool
  table : List (Word × Word)
  cycles : Nat
  opened : Nat
  disc : Nat
  dropout : Nat
  faults : Cells Nat
  recent : List Nat
  second : Bool
  brkPend : Bool
  brkOpen : Bool
  switchW : Nat
  switchP : Nat
  moved : Nat
  conns : Cells Conn
  sealed : Bool
  ownHeld : Bool
  blank : Nat
  imageP : Nat × Nat × Nat
  safeP : Bool
  deriving DecidableEq, Repr

def safeReset : Safe :=
  { loopClosed := false, read := 0, stored := none, storedCrc := none, checked := false, table := [], cycles := 0, opened := 0,
    disc := 0, dropout := 0, faults := [], recent := [], second := false, brkPend := false, brkOpen := true, switchW := 0, switchP := 0,
    moved := 0, conns := [], sealed := false, ownHeld := true, blank := 0, imageP := (0, 0, 0), safeP := true }

/-! ## Clock synthesis (ch. 21) -/

/-- The PLLs beside their registers (R617–R625): lowest and highest frequency of each band in MHz, the profile a hop
leaves, gated outputs, a CPLL that resumes at the next edge, cell-link ports that restart at the next edge. -/
structure Clk where
  bands : List (Nat × Nat)
  hopFrom : Nat
  gateC : Bool
  gateA : Bool
  resumeC : Bool
  relink : Bool
  deriving DecidableEq, Repr

def clkReset : Clk := { bands := [], hopFrom := 0, gateC := false, gateA := false, resumeC := false, relink := false }

/-! ## Ralma (ch. 17) -/

/-- A claim (R524). -/
structure Claim where
  prio : Nat
  root : Nat
  epoch : Nat
  dist : Nat
  deriving DecidableEq, Repr

/-- A frame (R517). -/
structure RFrame where
  dst : Nat
  src : Nat
  vc : Nat
  type : Nat
  pol : Nat
  ttl : Nat
  seq : Nat
  data : List Nat
  deriving DecidableEq, Repr

/-- A Ralma port beside its registers (R513–R522): rates of its module, bring-up flags (failure noted in this episode, NEG
of the partner received, own NEG sent with ACK, NEG with ACK received, lock at the agreed rate), the partner's OFFER, VCMASK,
SAFE and UNITS, units sent and not returned (virtual channel, key of the credit, units), units to return, frames that wait for
credit, the safety channel served last, where each deficit rotation stands (0 for the channels 4–7, 4 and 5 for the pools of a
channel) and its deficits (R520, R522), the claim received last. -/
structure RPort where
  mods : Nat
  noted : Bool
  ack : Bool
  ackSent : Bool
  pAck : Bool
  lock : Bool
  offer : Nat
  vcs : Nat
  safe : Bool
  units : List Nat
  owed : List (Nat × Nat × Nat)
  ret : Cells Nat
  wait : List RFrame
  lastSafe : Nat
  turn : Cells Nat
  deficit : Cells Nat
  claim : Option Claim
  deriving DecidableEq, Repr

def rportReset : RPort :=
  { mods := 0, noted := false, ack := false, ackSent := false, pAck := false, lock := false, offer := 0, vcs := 0, safe := false,
    units := [], owed := [], ret := [], wait := [], lastSafe := 1, turn := [], deficit := [], claim := none }

/-- An address that a root has given: UID, group, CPHASE. -/
structure Alloc where
  uid : Nat
  group : Nat
  phase : Option Nat
  deriving DecidableEq, Repr

/-- The Ralma block beside its registers (R524–R545): own EPOCH, best claim, parent port, JOINs that passed through (UID to
port + 8 × fabric time), addresses given (address to node), NUNITS by group, learned routes (address to port), SEQ by type, frames sent by the
last command with their ports, a drop noted in this tick; captured times, what the last FOLLOW said (TBASE, PERIOD, root),
whether an exchange has been completed and whether fabric time has been set since reset, steering in ns, runs of edges with a small
and with a large error; responses kept for repeats by 8 × source + channel;
duplex: the partner's HEART of this tick and the last one, ticks without, misses by path, polders whose REQ was sent, whose
absent partner was noted, roles (role + 4 × row) and mirror writes (engine, word) for the next edge, mirror frames received
(tick, polder, range, word, data); the tick count that a tick step gives the next edge (R534); the address that this node
held last. -/
structure Rlm where
  ports : Cells RPort
  epoch : Nat
  best : Claim
  parent : Option Nat
  joins : Cells Nat
  allocs : Cells Alloc
  groups : Cells Nat
  learned : Cells Nat
  seqs : Cells Nat
  sent : List (Nat × RFrame)
  dropNoted : Bool
  t1 : Nat
  t2 : Nat
  t3 : Nat
  follow : Option (Nat × Nat × Nat)
  exchanged : Bool
  timed : Bool
  steer : Int
  goodRun : Nat
  badRun : Nat
  kept : Cells (List (Nat × List Nat))
  heart : Option (List Word)
  last : Option (List Word)
  absent : Nat
  missA : Nat
  missB : Nat
  reqSent : List Nat
  absNoted : List Nat
  roles : Cells Nat
  mirror : List (Nat × Nat × Nat × Nat × List Word)
  mirWrites : List (Nat × Nat × List Word)
  stepTo : Option Nat
  prev : Option Nat
  deriving DecidableEq, Repr

def rlmReset : Rlm :=
  { ports := [], epoch := 0, best := ⟨0x80, 0, 0, 0⟩, parent := none, joins := [], allocs := [], groups := [], learned := [],
    seqs := [], sent := [], dropNoted := false, t1 := 0, t2 := 0, t3 := 0, follow := none, exchanged := false, timed := false, steer := 0, goodRun := 0, badRun := 0,
    kept := [], heart := none, last := none, absent := 0, missA := 0, missB := 0, reqSent := [], absNoted := [], roles := [],
    mirror := [], mirWrites := [], stepTo := none, prev := none }

/-! ## Ethernet (R546) -/

/-- The next slots of the rings of Ethernet port e: receive, transmit; the frame sent last. -/
structure Eth where
  rx : Nat
  tx : Nat
  sent : List Nat
  deriving DecidableEq, Repr

def ethReset : Eth := { rx := 0, tx := 0, sent := [] }

/-! ## Update (ch. 19) -/

def sfdpNone : Sfdp := { ok := false, mode := 0, clock := 25, addr4 := false, erase := 16, density := 256 }

/-- The flash bytes that PROG has written in the inactive slot, by offset (erased bytes 0xFF are not listed), SFDP, the key
hash of the running slot, the slot that VERIFY found good, whether ARM allows a restart, whether its load has ended, what the cut-off has
formed for the edge: an activation, a period change; the offset of the page that is being programmed; the tick count of an
activation whose event waits for the end of its migration tick; SLOTSIZE of the directory, if it is valid. -/
structure Upd where
  flash : Cells Byte
  sfdp : Sfdp
  keyHash : Nat
  verified : Option Slot
  disrupt : Bool
  loaded : Bool
  actDue : Bool
  pchDue : Bool
  prog : Option Nat
  actNote : Option Nat
  dirSize : Option Nat
  prefer : Option Nat
  deriving DecidableEq, Repr

def updReset : Upd :=
  { flash := [], sfdp := sfdpNone, keyHash := 0, verified := none, disrupt := false, loaded := false, actDue := false,
    pchDue := false, prog := none, actNote := none, dirSize := none, prefer := none }

/-- The whole machine. -/
structure State where
  regs : Cells Word
  mem : Memory
  pending : List Instr
  free : Nat
  time : Nat
  dev : Dev
  tick : Tick
  dike : Dike
  culv : Culv
  flt : Flt
  recorder : Recorder
  img : Img
  eng : Cells Eng
  win : Cells Word
  groups : Cells GroupSt
  latches : Cells LatchSt
  lanes : Cells Lane
  pairs : Cells Pair
  cars : Cells Car
  cmpLast : Nat
  grps : Cells Grp
  cmps : Cells Cmp
  ports : Cells Port
  cells : Cells Cell
  enc : Cells Enc
  fsHist : Cells (List Nat)
  fsChips : Cells (List (Int × Int))
  met : Met
  slus : Cells Slu
  sluRot : Cells Nat
  sqs : Cells SqPort
  safe : Safe
  clk : Clk
  keep : Keep
  rlm : Rlm
  eth : Cells Eth
  upd : Upd
  deriving DecidableEq, Repr

/-- The machine right after power-on reset: every register at its reset value, no memory listed, no image, an
empty queue. -/
def State.reset : State :=
  { regs := [], mem := [], pending := [], free := 0, time := 0, dev := devReset, tick := tickReset, dike := dikeReset,
    culv := culvReset, flt := fltReset, recorder := recReset, img := imgReset, eng := [], win := [], groups := [], latches := [],
    lanes := [], pairs := [], cars := [],
    cmpLast := 0,
    grps := [],
    cmps := [],
    ports := [],
    cells := [],
    enc := [],
    fsHist := [],
    fsChips := [],
    met := metReset,
    slus := [],
    sluRot := [],
    sqs := [],
    safe := safeReset,
    clk := clkReset,
    keep := keepReset,
    rlm := rlmReset,
    eth := [],
    upd := updReset }

end Sys2Proof.Machine
end

