-- ==== Sys2Proof/Machine/Ops.lean ====
section
/-! DEFINITION. The named operations over registers, memory, polders and time. Every read and every write
of a register or of memory goes through these. -/

namespace Sys2Proof.Machine

/-! ## Registers -/

/-- The word a register holds. -/
def getReg (s : State) (a : Nat) : Word := (cellFind s.regs a).getD (regReset a)

/-- Write a register's word; the reset value is not listed. -/
def setReg (s : State) (a : Nat) (w : Word) : State :=
  { s with regs := cellSet (regReset a) s.regs a w }

/-- Read a field. -/
def getF (s : State) (a : Nat) (f : Fld) : Nat := fget (getReg s a) f

/-- Read a one-bit field. -/
def getB (s : State) (a : Nat) (f : Fld) : Bool := getF s a f == 1

/-- Write a field. -/
def setF (s : State) (a : Nat) (f : Fld) (v : Nat) : State := setReg s a (fset (getReg s a) f v)

/-- Write a one-bit field. -/
def setB (s : State) (a : Nat) (f : Fld) (b : Bool) : State := setF s a f (bit b)

/-- Bit `i` of a field. -/
def getFbit (s : State) (a : Nat) (f : Fld) (i : Nat) : Bool := nbit (getF s a f) i

/-- Write bit `i` of a field. -/
def setFbit (s : State) (a : Nat) (f : Fld) (i : Nat) (b : Bool) : State :=
  setF s a f (nbitSet (getF s a f) i b)

/-- Count up in a field, stopping at its highest value. -/
def countF (s : State) (a : Nat) (f : Fld) (k : Nat) : State :=
  setF s a f (satInc (fldCard f - 1) (getF s a f) k)

/-- A register back at its reset value. -/
def resetReg (s : State) (a : Nat) : State := setReg s a (regReset a)

/-- All registers with a key in a range back at their reset values. -/
def resetRegs (s : State) (lo hi : Nat) : State := { s with regs := cellClear s.regs lo hi }

/-- The key of the copy that polder `p` sees of a banked register (R408, R461, R570). -/
def banked (a p : Nat) : Nat := a + bankStride * p

/-- A 64-bit value in two registers, low word at the lower address. -/
def get64 (s : State) (lo : Nat) : Nat := (getReg s lo).toNat + 4294967296 * (getReg s (lo + 4)).toNat

/-- Write a 64-bit value into two registers. -/
def set64 (s : State) (lo : Nat) (v : Nat) : State :=
  setReg (setReg s lo (BitVec.ofNat 32 v)) (lo + 4) (BitVec.ofNat 32 (v / 4294967296))

/-! ## Memory -/

/-- One byte of memory. A byte nothing has written reads 0 (R32: zeroed memories). -/
def rdByte (s : State) (a : Nat) : Byte := cellGet 0 s.mem a

/-- Write one byte. -/
def wrByte (s : State) (a : Nat) (b : Byte) : State := { s with mem := cellSet 0 s.mem a b }

/-- The little-endian word at an address. -/
def rdWord (s : State) (a : Nat) : Word :=
  wordOfBytes (rdByte s a) (rdByte s (a + 1)) (rdByte s (a + 2)) (rdByte s (a + 3))

/-- Write a little-endian word. -/
def wrWord (s : State) (a : Nat) (w : Word) : State :=
  wrByte (wrByte (wrByte (wrByte s a (wordByte w 0)) (a + 1) (wordByte w 1)) (a + 2) (wordByte w 2)) (a + 3) (wordByte w 3)

/-- `n` words from an address. -/
def rdWords (s : State) : Nat → Nat → List Word
  | _, 0 => []
  | a, n + 1 => rdWord s a :: rdWords s (a + 4) n

/-- Write words from an address. -/
def wrWords (s : State) : Nat → List Word → State
  | _, [] => s
  | a, w :: t => wrWords (wrWord s a w) (a + 4) t

/-- Zero a range of memory. -/
def zeroMem (s : State) (lo hi : Nat) : State := { s with mem := cellClear s.mem lo hi }

/-- A 16-bit half at an address. -/
def rdHalf (s : State) (a : Nat) : Nat := (rdByte s a).toNat + 256 * (rdByte s (a + 1)).toNat

/-- Write a 16-bit half. -/
def wrHalf (s : State) (a : Nat) (h : Nat) : State :=
  wrByte (wrByte s a (BitVec.ofNat 8 h)) (a + 1) (BitVec.ofNat 8 (h / 256))

/-- The memory's canonical form: addresses rise, no byte listed is 0. -/
def Memory.wf (m : Memory) : Bool := cellsWf (0 : Byte) m

/-- The registers' canonical form: keys rise, no register listed stands at its reset value. -/
def regsWf (m : Cells Word) : Bool := cellsRise 0 m && m.all fun c => decide (c.2 ≠ regReset c.1)

/-! ## Address map (R24, R28) -/

/-- The engine space of engine `e` (global number): R24's sum is 1 MiB times the number. -/
def engBase (e : Nat) : Nat := 0x50000000 + 0x100000 * e

/-- The shared memory of cluster `k`. -/
def sharedBase (k : Nat) : Nat := 0x70000000 + 0x200000 * k

/-- The trace lane of engine `e`. -/
def laneBase (e : Nat) : Nat := 0x72000000 + 0x4000 * e

/-- Page `n` of the culvert. -/
def pageBase (n : Nat) : Nat := 0x40000000 + 0x1000 * n

/-- Data-memory word `w` of engine `e`. -/
def dmWord (e w : Nat) : Nat := engBase e + 4 * w

/-- The cluster of an engine. -/
def clusterOf (e : Nat) : Nat := e / 16

/-- The region of an engine. -/
def regionOf (e : Nat) : Nat := e / 64

/-! ## Resources and polders (R21, R421): a resource is numbered by its place in POLD.RMAP -/

def resEngine (e : Nat) : Nat := e
def resSlot (g j : Nat) : Nat := 256 + 32 * g + j
def resCmp (c : Nat) : Nat := 512 + c
def resCarrier (k : Nat) : Nat := 544 + k
def resPair (p : Nat) : Nat := 576 + p
def resPort (n : Nat) : Nat := 640 + n
def resEnc (n : Nat) : Nat := 704 + n
def resSqSel (p s : Nat) : Nat := 736 + 4 * p + s
def resSlu (c : Nat) : Nat := 768 + c
def resSeg (k i : Nat) : Nat := 1024 + 16 * k + i
def resWheel (i : Nat) : Nat := 1536 + i

/-- The polder that holds a resource; polder 0 where the image leaves it unassigned (R21). -/
def resPol (s : State) (r : Nat) : Nat := cellGet 0 s.img.resmap r

/-- The engines of a polder, by ascending global number (R16). -/
def enginesOf (s : State) (p : Nat) : List Nat := (upto 256).filter fun e => resPol s (resEngine e) == p

/-- The engine at a position of a polder's list (R16, R82). -/
def engineAt (s : State) (p i : Nat) : Option Nat := (enginesOf s p)[i]?

/-- The pairs of a polder. -/
def pairsOf (s : State) (p : Nat) : List Nat := (upto 48).filter fun i => resPol s (resPair i) == p

/-- The cell-link ports of a polder. -/
def portsOf (s : State) (p : Nat) : List Nat := (upto 48).filter fun i => resPol s (resPort i) == p

/-- The sluices of a polder. -/
def sluicesOf (s : State) (p : Nat) : List Nat := (upto 32).filter fun i => resPol s (resSlu i) == p

/-- The main dies are powered and out of HRSTN (R29, R39). -/
def mainRuns (s : State) : Bool := s.dev.phase != .off && s.dev.phase != .held

/-- The polder is in reset (R36). -/
def inReset (s : State) (p : Nat) : Bool := (cellFind s.dev.inReset p).isSome

/-! ## Time -/

/-- The committed tick period in 10 ns units (R46). -/
def period (s : State) : Nat := getF s tickPeriod tickPeriod_Period

/-- The fabric time of the present instant: that of the last edge, and a free offset inside the tick; without ticks the counter runs on,
and the offset has no bound (R623). -/
def nowTime (s : State) : DWord :=
  BitVec.ofNat 64 (s.time + (if s.dev.tickRun then Config.freeOffset s.free % (10 * period s) else Config.freeOffset s.free))

/-- Advance the counter that numbers the free values. -/
def nextFree (s : State) : State := { s with free := s.free + 1 }

/-- The committed mode of a polder. -/
def curMode (s : State) (p : Nat) : Nat := getF s (tickMode p) tickMode_Cur

/-- The lowest core supply of a tempo in mV (R76). -/
def tempoMinMv (t : Nat) : Nat :=
  match t with
  | 0 => 800
  | 1 => 720
  | 2 => 680
  | _ => 650

/-- The step that begins with the state and leaves the rest to `f` for every element of a list. -/
def forEach {α : Type} (l : List α) (s : State) (f : State → α → State) : State := l.foldl f s

/-- Apply an effect when a condition holds. -/
def when' (b : Bool) (f : State → State) (s : State) : State := if b then f s else s

/-! ## Fields of a step entry (R60) -/

def stepKind (d : DWord) : Nat := nbits d.toNat 57 56
def stepPhase (d : DWord) : Nat := nbits d.toNat 55 46
def stepDiv (d : DWord) : Nat := nbits d.toNat 45 36 + 1
def stepSeg (d : DWord) : Nat := nbits d.toNat 35 24
def stepModes (d : DWord) : Nat := nbits d.toNat 23 8
def stepPol (d : DWord) : Nat := nbits d.toNat 6 4
def stepEng (d : DWord) : Nat := nbits d.toNat 3 0

end Sys2Proof.Machine
end

