-- ==== Sys2Proof/Machine/PwmCore.lean ====
section
/-! DEFINITION. Carriers and pairs without their events (ch. 08): the carrier value, the compare in steps, the
reference levels, the ranks of R287, the dead time of R286. -/

namespace Sys2Proof.Machine

/-- A carrier's inner state. -/
def getCar (s : State) (k : Nat) : Car := cellGet carReset s.cars k
def setCar (s : State) (k : Nat) (c : Car) : State := { s with cars := cellSet carReset s.cars k c }

/-- A pair's inner state. -/
def getPair (s : State) (p : Nat) : Pair := cellGet pairReset s.pairs p
def setPair (s : State) (p : Nat) (q : Pair) : State := { s with pairs := cellSet pairReset s.pairs p q }

/-- The period of a carrier in steps (R276), of a CARPER word. -/
def p16Of (per : Word) : Nat := 16 * fget per pwmCarper_Period + fget per pwmCarper_Frac

/-- The period in steps a carrier runs with. -/
def p16 (s : State) (k : Nat) : Nat := p16Of (getCar s k).per

/-- The shift in steps (R278). -/
def shiftSteps (shift p : Nat) : Nat := shift * p / 65536

/-- The carrier value at elapsed steps `e` (R277). -/
def carrierValue (shape p e : Nat) : Nat :=
  match shape with
  | 0 => e
  | 1 => p - e
  | _ => if 2 * e < p then 2 * e else 2 * (p - e)

/-- A compare word in steps (R283), and whether a raw compare was clamped. -/
def compareSteps (duty : Bool) (p : Nat) (w : Word) : Nat × Bool :=
  if duty then
    if w.toInt < 0 then (0, false)
    else if 0x7FFF0000 ≤ w.toNat then (p, false)
    else (w.toNat * p / 2147483648, false)
  else
    let c := w.toNat % 268435456
    if p < c then (p, true) else (c, false)

/-- The carrier a pair follows (R282). -/
def pairCar (s : State) (p : Nat) : Nat := getF s (pwmPctl p) pwmPctl_Car

/-- The carrier runs. -/
def carRuns (s : State) (k : Nat) : Bool := getB s (pwmCarstat k) pwmCarstat_Run

/-- The reference levels of a pair at elapsed steps `e` of its carrier (R284). -/
def refLevels (s : State) (p e : Nat) : Bool × Bool :=
  let q := getPair s p
  let k := pairCar s p
  let pp := p16 s k
  let v := carrierValue (fget (getCar s k).ctl pwmCarctl_Shape) pp e
  let a := decide (v < q.actA)
  if getF s (pwmPctl p) pwmPctl_Mode = 2 then (a, decide (v < q.actB)) else (a, !a)

/-- The outputs of a state code with one output on: 1 A on, 2 B on, else both low (TRIPST of R287). -/
def stateLevels (code : Nat) : Bool × Bool := (code == 1, code == 2)

/-- The outputs of a force code (R293): 2 A on, 3 B on, else both low. -/
def forceLevels (mode : Nat) : Bool × Bool := (mode == 2, mode == 3)

/-- The highest rank of R287 whose source is active. -/
def activeRank (s : State) (p : Nat) : Nat :=
  let a := pwmPstat p
  if !getB s safeStat safeStat_Pen then 1
  else if getB s a pwmPstat_Safe || getB s a pwmPstat_Rst then 2
  else if getB s a pwmPstat_Pin || (getB s a pwmPstat_Cmp && (getPair s p).cmpActs) then 3
  else if (getPair s p).force ≠ 0 then 4
  else 5

/-- The outputs that a rank asks for. A trip with cause RST takes the TRIPST state, but after a boot, and a trip
with cause SAFE, both outputs are low (assumption log 12, DEDUCED). -/
def rankLevels (s : State) (p rank : Nat) : Bool × Bool :=
  let tripst := stateLevels (getF s (pwmPctl p) pwmPctl_Tripst)
  match rank with
  | 1 => (false, false)
  | 2 => if getB s (pwmPstat p) pwmPstat_Safe || (getPair s p).rstBoot then (false, false) else tripst
  | 3 => tripst
  | 4 => forceLevels (getPair s p).force
  | _ => ((getPair s p).refA, (getPair s p).refB)

/-- Bring the outputs to the wanted levels (R286): what is not wanted turns off at once; in complementary mode an
output turns on only when no dead time of the other output runs. -/
def driveOutputs (s : State) (p : Nat) (wa wb : Bool) : State :=
  let a := pwmPstat p
  let comp := getF s (pwmPctl p) pwmPctl_Mode == 1
  let la := getB s a pwmPstat_Alv
  let lb := getB s a pwmPstat_Blv
  let q := getPair s p
  let deadA := comp && !wa && (q.deadA || (la && getF s (pwmPdt p) pwmPdt_Dtf != 0))
  let deadB := comp && !wb && (q.deadB || (lb && getF s (pwmPdt p) pwmPdt_Dtr != 0))
  let onA := wa && (la || !deadB)
  let onB := wb && (lb || !deadA)
  let s := setPair s p { q with deadA := deadA, deadB := deadB, wantA := wa, wantB := wb }
  setB (setB s a pwmPstat_Alv onA) a pwmPstat_Blv onB

/-- The rank that a pair comes to: its highest active one, but after the clear of a trip a force waits for the period start (R287, R292). -/
def refreshRank (s : State) (p : Nat) (start : Bool) : Nat :=
  let q := getPair s p
  if q.cleared && !start && q.rank = 5 && activeRank s p = 4 then 5 else activeRank s p

/-- Bring a pair to its highest active rank. A higher rank acts at once; a lower one, when a source ended, at a
period start (`start`) or on a carrier that does not run (R287); after the clear of a trip, a force too waits for the period start (R292). -/
def pairRefresh (s : State) (p : Nat) (start : Bool) : State :=
  let q := getPair s p
  let r := refreshRank s p start
  let run := carRuns s (pairCar s p)
  let q := { q with cleared := q.cleared && !start && run }
  if getF s (pwmPctl p) pwmPctl_Mode = 0 || !run then
    driveOutputs (setPair s p { q with rank := activeRank s p }) p false false
  else if r ≤ q.rank || start then
    let s := setPair s p { q with rank := r }
    driveOutputs s p (rankLevels s p r).1 (rankLevels s p r).2
  else setPair s p q

/-- A pair latches a trip with the cause of a PSTAT field (R287–R294). -/
def pairTrip (s : State) (p : Nat) (cause : Fld) : State :=
  let a := pwmPstat p
  pairRefresh (setB (setB s a cause true) a pwmPstat_Tripped true) p false

/-- A pair latches RST and takes its TRIPST state (R295, R468). -/
def pairTripRst (s : State) (p : Nat) : State :=
  pairTrip (setPair s p { getPair s p with rstBoot := false }) p pwmPstat_Rst

/-- Every enabled pair starts after a boot with RST latched and both outputs low (R295). -/
def pairBootRst (s : State) (p : Nat) : State :=
  if getF s (pwmPctl p) pwmPctl_Mode = 0 then s
  else pairTrip (setPair s p { getPair s p with rstBoot := true }) p pwmPstat_Rst

/-- A cell-link port's inner state. -/
def getPort (s : State) (n : Nat) : Port := cellGet portReset s.ports n
def setPort (s : State) (n : Nat) (x : Port) : State := { s with ports := cellSet portReset s.ports n x }

/-- Code groups of the cell link (R305): IDLE is K28.5 D16.2, INH is K28.7 D10.2. -/
def clIdle : List Nat := [256 + 0xBC, 0x50]
def clInh : List Nat := [256 + 0xFC, 0x4A]
def clSofd : Nat := 256 + 0x3C
def clSofu : Nat := 256 + 0xFB
def clEof : Nat := 256 + 0xFD

/-- The lane sends INH: a frame in progress ends with EOF. The model takes a frame as in progress until the lane sends something else
(assumption log 70). -/
def inhPort (x : Port) : Port :=
  { x with line := (if x.tx = .idle ∨ x.tx = .inh then clInh else clEof :: clInh), tx := .inh, pinh := true }

/-- A port that sends goes over to INH (R323, R468). -/
def portInh (s : State) (n : Nat) : State := if (getPort s n).tx = .nothing then s else setPort s n (inhPort (getPort s n))

/-- A cell-link port latches RST (R324). -/
def portTripRst (s : State) (n : Nat) : State := setB (setB s (clnkPstat n) clnkPstat_Rst true) (clnkPstat n) clnkPstat_Tripped true

/-- A cell-link port sends IDLE only, and no CMD frame (R325). -/
def portIdle (s : State) (n : Nat) : State :=
  if (getPort s n).tx = .nothing then s else setPort s n { getPort s n with tx := .idle, frame := [], line := clIdle }

/-- The Warden line of a port becomes inactive: the frame ends, INH goes out, SAFE is latched (R323). -/
def portSafe (s : State) (n : Nat) : State :=
  portInh (setB (setB s (clnkPstat n) clnkPstat_Safe true) (clnkPstat n) clnkPstat_Tripped true) n

/-- Latch SAFE on every enabled pair (R294). -/
def safePairs (s : State) : State :=
  forEach (upto 48) s fun s p => if getF s (pwmPctl p) pwmPctl_Mode = 0 then pairRefresh s p false else pairTrip s p pwmPstat_Safe

end Sys2Proof.Machine
end

