-- ==== Sys2Proof/Machine/SafeCore.lean ====
section
/-! DEFINITION. The safe state itself (R485–R487, R495–R499): demand, breaker, safety outputs, pulse-enable lines. -/

namespace Sys2Proof.Machine

/-- A field of the adopted setting (R489). -/
def setting (s : State) (hi lo : Nat) : Nat := nbits (getF s safeCfg safeCfg_Adopted) hi lo

/-- The degraded-mode time in seconds (R489). -/
def dgSeconds (s : State) : Nat := [0, 600, 3600, 28800, 86400, 259200, 604800, 0].getD (setting s 2 0) 0

/-- SOUTk is in use (R489). -/
def outUsed (s : State) (k : Nat) : Bool := decide (k < 2) || nbit (setting s 14 12) (k / 2 - 1)

/-- Input pair j is in use (R489). -/
def pairUsed (s : State) (j : Nat) : Bool := nbit (setting s 6 3) (j / 2)

/-- Whether an output is energised, from requests and the safety channel's permission (R499): SOUT0 and SOUT1 stay
energised until the breaker opens, and turn on only when the safe state has ended. -/
def outWanted (s : State) (k : Nat) : Bool :=
  getFbit s safeOutreq safeOutreq_Req k && outUsed s k && !getFbit s safeOutst safeOutst_Fail k &&
    (if k < 2 then !s.safe.brkOpen && (getFbit s safeOutst safeOutst_Ener k || !getB s safeStat safeStat_Safest)
     else getB s safeStat safeStat_Pen)

/-- Bring the outputs to what is permitted; a change starts its feedback time (R499, R500). An output is energised while the switches of
both technologies are closed (R487): both close at once, the Warden's opens at once, the safety processor's with its next cycle. -/
def refreshOuts (s : State) : State :=
  let s := forEach (upto 8) s fun s k =>
    let on := outWanted s k
    let x := { s.safe with switchW := nbitSet s.safe.switchW k on, switchP := nbitSet s.safe.switchP k (on || nbit s.safe.switchP k) }
    let closed := nbit x.switchW k && nbit x.switchP k
    if getFbit s safeOutst safeOutst_Ener k = closed then { s with safe := x }
    else setFbit { s with safe := { x with moved := nbitSet x.moved k true } } safeOutst safeOutst_Ener k closed
  setB s safeStat safeStat_Brk (getFbit s safeOutst safeOutst_Ener 0 && getFbit s safeOutst safeOutst_Ener 1)

/-- The pulse-enable lines become inactive (R294, R323, R486). -/
def lineOff (s : State) : State := forEach (upto 48) (safePairs s) portSafe

/-- A demand of the safe state (R495–R497): the Warden's rail goes at once, the safety processor's with its next cycle.
`brk` 0: the breaker opens at once; 1: after BRKDLY; 2: not by this demand. `own`: the source is not a message. -/
def demandBy (s : State) (brk : Nat) (own : Bool) : State :=
  let s := { s with safe := { s.safe with brkOpen := s.safe.brkOpen || brk == 0, brkPend := s.safe.brkPend || brk == 1
                                          ownHeld := s.safe.ownHeld || own } }
  let was := getB s safeStat safeStat_Pen
  let s := setB (setB (setB s safeStat safeStat_Safest true) safeStat safeStat_Wrail false) safeStat safeStat_Pen false
  refreshOuts (if was then lineOff s else s)

/-- A demand by a source that is not a message. -/
def demand (s : State) (brk : Nat) : State := demandBy s brk true

/-- How a demand of an input pair or of a message treats the breaker (R489, R495). -/
def brkOf (s : State) (input : Bool) : Nat :=
  match setting s 8 7 with
  | 0 => 0
  | 3 => if input then 2 else 0
  | _ => 1

end Sys2Proof.Machine
end

