-- ==== Sys2Proof/Machine/Collect.lean ====
section
/-! DEFINITION. Events and faults (ch. 15): recording (R417), condition latches (R63), the fault collector with
its escalation, capture, isolation and pins. -/

namespace Sys2Proof.Machine

/-! ## Recording (R417) -/

/-- The keep domain's queue takes an event; 256 wait at most (R564). -/
def enqueueKeep (s : State) (e : Event) : State :=
  let r := s.recorder
  if 256 ≤ r.keepQ.length then { s with recorder := { r with lost := r.lost + 1 } }
  else { s with recorder := { r with keepQ := r.keepQ ++ [e] } }

/-- Place an event in its scope's queue; a full queue, or the 65th event of a tick, drops it (R417). During the recorder's
scan it waits in the keep domain's queue (R564). -/
def enqueue (s : State) (e : Event) : State :=
  let r := s.recorder
  let q := cellGet [] r.queues e.scope
  let n := cellGet 0 r.placed e.scope
  if r.scanning then enqueueKeep s e
  else if 64 ≤ q.length ∨ 64 ≤ n then
    countF { s with recorder := { r with dropped := cellSet 0 r.dropped e.scope (cellGet 0 r.dropped e.scope + 1) } }
      (poldEvdrop e.scope) poldEvdrop_Count 1
  else
    { s with recorder := { r with queues := cellSet [] r.queues e.scope (q ++ [e]), placed := cellSet 0 r.placed e.scope (n + 1) } }

/-- Record a notice (class 0). Its time is that of its detection (assumption log 9, DESIGN CHOICE). -/
def notice (s : State) (code scope : Nat) (params : List Word) : State :=
  nextFree (enqueue s { code := code, cls := 0, scope := scope, params := params, time := nowTime s })

/-! ## Conditions (R62–R64) -/

/-- A held fault affects polder `p` (R464). -/
def affects (h : Held) (p : Nat) : Bool := h.scope == p || (h.scope == 0 && decide (3 ≤ h.cls))

/-- The present value of condition source `b` of polder `p` (R62, TICK.CSRC). -/
def condSource (s : State) (p b : Nat) : Bool :=
  let i := getF s (tickCsrc p b) tickCsrc_Index
  match getF s (tickCsrc p b) tickCsrc_Src with
  | 0 => getB s (cmpStat (i % 32)) cmpStat_Latch
  | 1 => s.flt.held.any fun h => affects h p && decide (i % 8 ≤ h.cls)
  | 2 =>
    match engineAt s p (i / 4) with
    | some e => getFbit s (engStat e) engStat_Req (i % 4)
    | none => false
  | _ => getFbit s (tickHostcond p) tickHostcond_Hc (i % 16)

/-- The 16 sources of a polder as a number. -/
def condNow (s : State) (p : Nat) : Nat :=
  (upto 16).foldl (fun n b => n + bit (condSource s p b) * 2 ^ b) 0

/-- Latch the sources that are true now (R63). -/
def latchConds (s : State) (p : Nat) : State :=
  { s with tick := { s.tick with condLatch := cellSet 0 s.tick.condLatch p (cellGet 0 s.tick.condLatch p ||| condNow s p) } }

/-- Latch the sources of every polder. -/
def latchAllConds (s : State) : State := forEach (upto 8) s latchConds

/-! ## Fault state shown in registers -/

/-- A scope drives the pins (R477). -/
def drivesPins (s : State) (p : Nat) : Bool := p == 0 || nbit (getF s fltPincfg fltPincfg_Pinmask) (p - 1)

/-- The pins are in the fault state (R477, R478). -/
def pinsFault (s : State) : Bool :=
  s.flt.bootHeld || s.flt.mismatch || s.flt.held.any fun h => decide (2 ≤ h.cls) && drivesPins s h.scope

/-- Bring the pins to the fault state or out of it; FLT_ALIVE starts with a high half-period (R477). -/
def refreshPins (s : State) : State :=
  let bad := pinsFault s
  let was := getB s fltPinstat fltPinstat_Alive
  let s := setB (setB s fltPinstat fltPinstat_Lvl (!bad)) fltPinstat fltPinstat_Alive (!bad)
  { s with flt := { s.flt with aliveHigh := !bad && (!was || s.flt.aliveHigh) } }

/-- FLT.SUM of one scope from the faults it holds (R483). -/
def refreshSum (s : State) (p : Nat) : State :=
  let hs := s.flt.held.filter fun h => h.scope == p
  let un := (upto 5).foldl (fun n c => n + bit (decide (1 ≤ c) && hs.any fun h => h.cls == c) * 2 ^ c) 0
  let s := setF s (fltSum p) fltSum_Nunack (min 255 hs.length)
  let s := setF s (fltSum p) fltSum_Unack (un / 2)
  setB s (fltSum p) fltSum_Isol (s.flt.isol.contains p)

/-- Mode hold begins with a fault of class 2 or above that affects the polder (R468). -/
def startModeHold (s : State) (p : Nat) : State :=
  if s.flt.held.any fun h => affects h p && decide (2 ≤ h.cls) then setB s (fltSum p) fltSum_Modehold true else s

/-- All that follows a change of the held faults: FLT.SUM, mode hold, the trip line with its demand of the safe state
(R469, R495), the pins, the condition sources. -/
def refreshFaults (s : State) : State :=
  let s := forEach (upto 8) s fun s p => startModeHold (refreshSum s p) p
  let line := s.flt.held.any fun h => decide (3 ≤ h.cls)
  let rose := line && !s.flt.tripLine
  let s := setB { s with flt := { s.flt with tripLine := line } } safeStat safeStat_Tripreq line
  let s := if rose then notice (demand s 0) 0x0E13 0 [] else s
  latchAllConds (refreshPins s)

/-! ## Isolation (R468) -/

/-- Request a polder reset; one in reset is not reset again (R37), a request that stands is not doubled. -/
def requestReset (s : State) (p : Nat) (c : ResetCause) : State :=
  if inReset s p || (cellFind s.dev.resetReq p).isSome then s
  else { s with dev := { s.dev with resetReq := cellPut s.dev.resetReq p c } }

/-- Trip every pair and port of a polder with cause RST. -/
def tripPolder (s : State) (p : Nat) : State :=
  forEach (portsOf s p) (forEach (pairsOf s p) s pairTripRst) portTripRst

/-- Isolation of a polder; `reset` is false where tick loss takes the place of the polder resets (R469). -/
def isolate (s : State) (p : Nat) (reset : Bool) : State :=
  let s := forEach (portsOf s p) (tripPolder s p) portInh
  let s := { s with flt := { s.flt with isol := if s.flt.isol.contains p then s.flt.isol else s.flt.isol ++ [p] } }
  if reset then requestReset s p .isolation else s

/-! ## The collector (R467, R471–R474) -/

/-- Capture a fault that is not from a housekeeping source (R474). -/
def captureFault (s : State) (e : Event) (esc : Bool) : State :=
  let a := fltCapa e.scope
  if getB s a fltCapa_Valid then countF (setB s a fltCapa_Ovf true) a fltCapa_Ovcnt 1
  else
    let s := setF (setF (setB (setB s a fltCapa_Valid true) a fltCapa_Esc esc) a fltCapa_Code e.code) a fltCapa_Class e.cls
    let s := setReg s (fltCapb e.scope) (e.params.headD 0)
    setReg (setReg s (fltCaptl e.scope) (e.time.setWidth 32)) (fltCapth e.scope) ((e.time >>> 32).setWidth 32)

/-- The polders that a fault of this scope and class reaches (R464). -/
def reached (scope cls : Nat) : List Nat := if 3 ≤ cls ∧ scope = 0 then upto 8 else [scope]

/-- Collect a fault: code, class as reported, scope, parameters, its HKNOW bit when it is a housekeeping source,
and whether its isolation starts polder resets. -/
def collect (s : State) (code cls scope : Nat) (params : List Word) (hk : Option Nat) (reset : Bool) : State :=
  let p1 : Word := params.headD 0
  let time := nowTime s
  let s := nextFree s
  let repeated := s.flt.held.any fun h => h.code == code && h.param == p1 && h.scope == scope
  let same := s.flt.held.any fun h => h.cls == cls && h.scope == scope
  let esc := !repeated && same && decide (cls < 4) && !(scope != 0 && decide (2 ≤ cls))
  let capped := !repeated && same && scope != 0 && decide (2 ≤ cls)
  let cls' := if esc then cls + 1 else cls
  let s := when' capped (fun s => setB s (fltSum scope) fltSum_Esccap true) s
  let e : Event := { code := code, cls := cls', scope := scope, params := params, time := time }
  let s := enqueue s e
  let s := when' esc (fun s => notice s 0x0D01 scope [BitVec.ofNat 32 scope, BitVec.ofNat 32 code, BitVec.ofNat 32 cls]) s
  let s := { s with flt := { s.flt with held := s.flt.held ++ [{ scope := scope, code := code, param := p1, cls := cls', hk := hk }] } }
  let s := if hk.isNone then captureFault s e esc else s
  let s := when' (decide (2 ≤ cls')) (fun s =>
    { s with flt := { s.flt with traceFault := s.flt.traceFault ++ (reached scope cls') } }) s
  let s := when' (!repeated && decide (2 ≤ cls')) (fun s => isolate s scope reset) s
  let s := when' (!repeated && decide (3 ≤ cls')) (fun s => forEach (upto 8) s fun s p => isolate s p (reset || decide (4 ≤ cls'))) s
  let s := when' (decide (4 ≤ cls')) (fun s =>
    demand (setB { s with flt := { s.flt with hold := true } } safeStat safeStat_Hold true) 0) s
  refreshFaults s

/-- Record an event of any class (R463–R467). -/
def event (s : State) (code cls scope : Nat) (params : List Word) : State :=
  if cls = 0 then notice s code scope params else collect s code cls scope params none true

/-- A fault of an edge: faults of one edge and scope are collected in ascending code order (R473), so they wait until all are known. -/
def faultDue (s : State) (code cls scope : Nat) (params : List Word) : State :=
  { s with flt := { s.flt with due := s.flt.due ++ [{ code := code, cls := cls, scope := scope, params := params }] } }

/-- Put a fault into a list of ascending code, behind those of its code. -/
def insertDue (d : DueFault) : List DueFault → List DueFault
  | [] => [d]
  | x :: t => if x.code ≤ d.code then x :: insertDue d t else d :: x :: t

/-- The faults of the edge are collected (R473). -/
def collectDue (s : State) : State :=
  forEach (s.flt.due.foldl (fun l d => insertDue d l) []) { s with flt := { s.flt with due := [] } } fun s d =>
    event s d.code d.cls d.scope d.params

/-- A number as a parameter word. -/
def pw (n : Nat) : Word := BitVec.ofNat 32 n

end Sys2Proof.Machine
end

