-- ==== Sys2Proof/Machine/ClkCore.lean ====
section
/-! DEFINITION. Clock synthesis without its events (R617–R621, R626): profiles, bands, spread, the region frequency that
freeboard checks use, housekeeping sources (R475, R476). -/

namespace Sys2Proof.Machine

/-- The divider of a region at a tempo (R617). -/
def tempoDiv (t : Nat) : Nat :=
  match t with
  | 0 => 2
  | 1 => 3
  | 2 => 4
  | _ => 6

/-- The straps start the PLLs (R613). -/
def pllsRun (s : State) : Bool := mainRuns s && getF s clkRefcfg clkRefcfg_Rsel != 3

/-- The ball LOCK_C is high: the CPLL holds lock, and its output is not gated (R622). -/
def lockPinC (s : State) : Bool := pllsRun s && getB s clkStat clkStat_Clock && !s.clk.gateC

/-- The ball LOCK_A is high: the APLL holds lock, and its output is not gated (R622). -/
def lockPinA (s : State) : Bool := pllsRun s && getB s clkStat clkStat_Alock && !s.clk.gateA

/-- FV of the committed profile in MHz. -/
def fvMHz (s : State) : Nat := getF s (clkCprof (getF s clkCsel clkCsel_Prof)) clkCprof_Freq

/-- FV × (1 − DEPTH) in 1/4000 MHz (R621): DEPTH counts 0.025 %, 0 while spread is off. -/
def fvLow (s : State) (fv : Nat) : Nat := fv * (4000 - (if getB s clkSpread clkSpread_En then getF s clkSpread clkSpread_Depth else 0))

/-- Freeboard of at least 5 % for count `c` at a tempo, frequency in 1/4000 MHz, period in 10 ns (R55, R621). -/
def freeboardOk (c tempo per fv : Nat) : Bool := decide (100 * (c * 100 * 4000 * tempoDiv tempo) ≤ 95 * (fv * per))

/-- The distance of a band's centre from a frequency, doubled. -/
def bandDist (b : Nat × Nat) (fv : Nat) : Nat := (b.1 + b.2 - 2 * fv) + (2 * fv - (b.1 + b.2))

/-- The band that centres a frequency, if one reaches it (R618). -/
def bandFor (bands : List (Nat × Nat)) (fv : Nat) : Option Nat :=
  let l := (upto bands.length).filter fun i => decide ((bands.getD i (1, 0)).1 ≤ fv) && decide (fv ≤ (bands.getD i (1, 0)).2)
  match l with
  | [] => none
  | i :: t => some (t.foldl (fun m j => if bandDist (bands.getD j (1, 0)) fv < bandDist (bands.getD m (1, 0)) fv then j else m) i)

/-- Every enabled profile takes its band (R618). -/
def refreshProfiles (s : State) : State :=
  forEach (upto 8) s fun s k =>
    let a := clkCprof k
    match (if getB s a clkCprof_En then bandFor s.clk.bands (getF s a clkCprof_Freq) else none) with
    | some b => setF (setB s a clkCprof_Valid true) a clkCprof_Band b
    | none => setF (setB s a clkCprof_Valid false) a clkCprof_Band 0

/-- A CLK commit took effect; a profile change starts a hop (R619). -/
def clkCommit (s : State) (oldSel : Nat) : State :=
  let s := refreshProfiles s
  if oldSel = getF s clkCsel clkCsel_Prof ∨ s.clk.gateC then s
  else setB { s with clk := { s.clk with hopFrom := oldSel } } clkStat clkStat_Hop true

/-- The field checks of R626 on a CLK set, the state holding its values. -/
def clkFieldsOk (s : State) : Bool :=
  let k := getF s clkCsel clkCsel_Prof
  let f (i : Nat) : Nat := getF s (clkCprof i) clkCprof_Freq
  getB s (clkCprof k) clkCprof_En && (bandFor s.clk.bands (f k)).isSome &&
    (upto 8).all (fun i => decide (5500 ≤ f i) && decide (f i ≤ 6000)) &&
    decide (20 ≤ getF s clkSpread clkSpread_Fmod) && decide (getF s clkSpread clkSpread_Fmod ≤ 50) && decide (getF s clkSpread clkSpread_Depth ≤ 80)

/-- Every engine keeps 5 % freeboard at the period, tempos and clock that the state holds, and at the lower frequency of a
hop from `oldFv` (R75, R621). -/
def freeboardAll (s : State) (oldFv : Nat) : Bool :=
  (upto 256).all fun e =>
    freeboardOk (cellGet 0 s.img.cycles (4 * e + getF s (tickRtempo (regionOf e)) tickRtempo_Tempo))
      (getF s (tickRtempo (regionOf e)) tickRtempo_Tempo) (period s) (fvLow s (min oldFv (fvMHz s)))

/-! ## Housekeeping sources (R475, R476) -/

/-- The condition of a housekeeping source begins: its event, unless its sticky bit still stands. -/
def hkBegin (s : State) (b code cls : Nat) (params : List Word) : State :=
  if getFbit s fltHknow fltHknow_Src b then s
  else
    let s := setFbit s fltHknow fltHknow_Src b true
    if getFbit s fltHkstat fltHkstat_Src b then s
    else collect (setFbit s fltHkstat fltHkstat_Src b true) code cls 0 params (some b) (code != 0x0202 && code != 0x0203)

/-- The condition of a housekeeping source ends. -/
def hkEnd (s : State) (b : Nat) : State := setFbit s fltHknow fltHknow_Src b false

end Sys2Proof.Machine
end

