-- ==== Sys2Proof/Machine/Flags.lean ====
section
/-! DEFINITION. The arithmetic of an engine's slots: saturation, rounding shift and sticky flags (R101–R109). -/

namespace Sys2Proof.Machine

/-- Bits of ENG.ESF (R105, R129). -/
def esfXsat : Nat := 1
def esfLref : Nat := 32
def esfEccc : Nat := 64
def esfEccu : Nat := 128
def esfOvt : Nat := 256

/-- The flag an accumulator operation of slot M0 or M1 sets when it clips. -/
def esfAcc (m1 : Bool) : Nat := if m1 then 4 else 2

/-- The flag an ASAT of slot M0 or M1 sets when it clips. -/
def esfExt (m1 : Bool) : Nat := if m1 then 16 else 8

/-- sat32 (R104) with whether it clipped. -/
def sat32 (x : Int) : Word × Bool := (BitVec.ofInt 32 (satS 32 x), !fitsS 32 x)

/-- sat72 (R104) with whether it clipped. -/
def sat72 (x : Int) : BitVec 72 × Bool := (BitVec.ofInt 72 (satS 72 x), !fitsS 72 x)

/-- The arithmetic right shift by Q, with RND rounding half up (R101, R107). -/
def shiftQ (x : Int) (q : Nat) (rnd : Bool) : Int :=
  (if rnd && decide (0 < q) then x + 2 ^ (q - 1) else x) / 2 ^ q

/-- The product P of two words (R101). -/
def prodP (a b : Word) : Int := a.toInt * b.toInt

/-- The dual 16-bit product PD (R101). -/
def prodPD (a b : Word) : Int :=
  signed 16 a.toNat * signed 16 b.toNat + signed 16 (a.toNat / 65536) * signed 16 (b.toNat / 65536)

/-- The conditions of CMP (R103). -/
def cmpCond (c : Nat) (a b : Word) : Bool :=
  match c with
  | 0 => a == b
  | 1 => a != b
  | 2 => decide (a.toInt < b.toInt)
  | 3 => decide (a.toInt ≤ b.toInt)
  | 4 => decide (b.toInt < a.toInt)
  | 5 => decide (b.toInt ≤ a.toInt)
  | 6 => decide (a.toNat < b.toNat)
  | _ => decide (b.toNat ≤ a.toNat)

/-- The engine's inner state. -/
def getEng (s : State) (e : Nat) : Eng := cellGet engReset s.eng e
def setEng (s : State) (e : Nat) (x : Eng) : State := { s with eng := cellSet engReset s.eng e x }

/-- A placement group as it runs. -/
def getGroup (s : State) (k : Nat) : GroupSt := cellGet groupReset s.groups k
def setGroup (s : State) (k : Nat) (g : GroupSt) : State := { s with groups := cellSet groupReset s.groups k g }

/-- Set sticky flags at once: ENG.ESF, and what the tick's summary needs (R108, R109). -/
def raiseEsf (s : State) (e mask : Nat) : State :=
  let old := (getReg s (engEsf e)).toNat
  let x := getEng s e
  let s := setEng s e { x with setFlags := x.setFlags ||| mask, newFlags := x.newFlags ||| (mask &&& (511 - old % 512)) }
  setReg s (engEsf e) (BitVec.ofNat 32 (old ||| mask))

/-- The placement group an engine serves, as the image declares it: its key and declaration (R114). -/
def groupOf (s : State) (e : Nat) : Option (Nat × Group) :=
  (firstWith (fun g : Group => g.members.contains e || g.spare == some e) s.img.groups).map fun g =>
    (g.polder * 256 + g.id, g)

/-- An uncorrectable error. -/
def eccBad : Ecc → Bool
  | .double _ => true
  | _ => false

/-- The word of the access at which the error lies, of `n` words. -/
def eccAt (k : Ecc) (n : Nat) : Nat :=
  match k with
  | .clean => 0
  | .single i => i % n
  | .double i => i % n

/-- The flag of ENG.ESF that a memory error sets (R112). -/
def eccFlag (k : Ecc) : Nat :=
  match k with
  | .clean => 0
  | .single _ => esfEccc
  | .double _ => esfEccu

/-- What a memory error at a word of an engine does beside its flag (R112): `loc` is ENG.ECC's TBL and LADDR. `meets` is
true when a step of the engine itself meets it. -/
def eccRecord (s : State) (e loc : Nat) (k : Ecc) (meets : Bool) : State :=
  let p := resPol s (resEngine e)
  match k with
  | .clean => s
  | .single _ =>
    let was := getF s (engEcc e) engEcc_Ccount
    let s := countF s (engEcc e) engEcc_Ccount 1
    let s := setReg s (engEcc e) ((getReg s (engEcc e) &&& 0xFFFF0000) ||| BitVec.ofNat 32 (loc % 65536))
    if was = 0 then notice s 0x0402 p [pw e, pw loc] else s
  | .double _ =>
    let s := setReg s (engEcc e) ((getReg s (engEcc e) &&& 0xFFFF0000) ||| BitVec.ofNat 32 (loc % 65536))
    let s := if meets then setEng s e { getEng s e with eccFault := true } else s
    event s 0x0403 (if (groupOf s e).isSome then 1 else 2) p [pw e, pw loc]

/-- A memory error outside an instruction word: its flag sticks at once. -/
def eccMeet (s : State) (e loc : Nat) (k : Ecc) (meets : Bool) : State :=
  if k = .clean then s else eccRecord (raiseEsf s e (eccFlag k)) e loc k meets

end Sys2Proof.Machine
end

