-- ==== Sys2Proof/Machine/Operands.lean ====
section
/-! DEFINITION. The operand forms of the engine's slots: general registers, accumulators, flags, the L slot's
address modes and what an engine address reaches (R84, R92, R96, R100), and the end of an instruction word. -/

namespace Sys2Proof.Machine

/-- A general register as the slots of this word read it; g0 reads 0 (R92, R96). -/
def gprRead (x : Eng) (r : Nat) : Word := if r = 0 then 0 else cellGet 0 x.cur.g r

/-- Write a general register at the end of this word; g0 discards it (R92, R96). -/
def gprWrite (x : Eng) (r : Nat) (w : Word) : Eng :=
  if r = 0 then x else { x with nxt := { x.nxt with g := cellSet 0 x.nxt.g r w } }

/-- An accumulator as this word reads it. -/
def accRead (x : Eng) (a : Nat) : Int := (cellGet 0 x.cur.a a).toInt

/-- Write an accumulator at the end of this word. -/
def accWrite (x : Eng) (a : Nat) (v : BitVec 72) : Eng :=
  { x with nxt := { x.nxt with a := cellSet 0 x.nxt.a a v } }

/-- Write an accumulator saturated, and note the slot's ACC flag when it clips (R104, R105). -/
def accSat (x : Eng) (m1 : Bool) (a : Nat) (v : Int) : Eng :=
  let x := accWrite x a (sat72 v).1
  if (sat72 v).2 then { x with wordFlags := x.wordFlags ||| esfAcc m1 } else x

/-- Write a general register saturated, and note XSAT when it clips (R104, R105). -/
def gprSat (x : Eng) (r : Nat) (v : Int) : Eng :=
  let x := gprWrite x r (sat32 v).1
  if (sat32 v).2 then { x with wordFlags := x.wordFlags ||| esfXsat } else x

/-- The active table bank of an engine (R110). -/
def actBank (s : State) (e : Nat) : Nat := getF s (engStat e) engStat_Actbank

/-- The bank that loads and fetches use: in a migration tick of the polder, the shadow bank (R458). -/
def execBank (s : State) (e : Nat) : Nat :=
  if (cellGet polImgReset s.img.pol (resPol s (resEngine e))).migrating.isSome then 1 - actBank s e else actBank s e

/-- The address of table word `w` of bank `b` of an engine. -/
def bankWord (e b w : Nat) : Nat := engBase e + 0x20000 + 0x10000 * b + 16 * w

/-- The top 16 bits of the instruction word at `wp`: RCNT [15:8], RLEN [7:2], END [1] (R95). -/
def wordHeader (s : State) (e wp : Nat) : Nat := rdHalf s (bankWord e (execBank s e) wp + 14)

/-- Close the repeat blocks that end at a word, and give the next word (R97). -/
def closeReps : List Rep → Nat → List Rep × Nat
  | [], wp => ([], wp + 1)
  | r :: t, wp =>
    if r.last = wp then
      if 1 < r.left then ({ r with left := r.left - 1 } :: t, r.first) else closeReps t wp
    else (r :: t, wp + 1)

/-- Open the block that starts at a word, unless it already runs (R95, R97). -/
def openRep (hdr wp : Nat) (reps : List Rep) : List Rep :=
  if hdr / 256 % 256 = 0 then reps
  else if (reps.head?.map Rep.first) = some wp then reps
  else { first := wp, last := wp + hdr / 4 % 64, left := hdr / 256 % 256 } :: reps

/-- The fetch of the word at the word pointer meets a memory error (R112): a corrected word runs, an uncorrectable one
ends the step, none of its slots or header fields used. -/
def fetchCheck (s : State) (e : Nat) : State :=
  let x := getEng s e
  match x.fetchErr with
  | some (w, k) =>
    if w = x.wp then
      let s := eccMeet (setEng s e { x with fetchErr := none }) e (0x8000 + 4096 * execBank s e + w) k true
      if eccBad k then setEng s e { getEng s e with atEnd := true } else s
    else s
  | none => s

/-- The address an L slot forms (R100); mode 0b11 is reserved. -/
def lAddr (x : Eng) (am gb : Nat) (off : Int) : Option Nat :=
  match am with
  | 0 => some (((gprRead x gb).toInt + 4 * off) % 4294967296).toNat
  | 1 => some (gprRead x gb).toNat
  | 2 => some (4 * ((gb * 2048 + unsigned 11 off) % 65536))
  | _ => none

/-- The post-modify of mode 0b01 (R100), made also when the access is refused. -/
def postModify (x : Eng) (am gb : Nat) (off : Int) : Eng :=
  if am = 1 then gprWrite x gb (wordOfInt ((gprRead x gb).toInt + 4 * off)) else x

/-! ## What an engine address reaches (R84) -/

/-- Where an engine address lies. -/
inductive Reach
  | dmem (a : Nat) | table (a : Nat) | shared (a : Nat) | culvert (a : Nat) | window (off : Nat) | none
  deriving DecidableEq, Repr

/-- Decode an engine address (R84). -/
def reach (s : State) (e a : Nat) : Reach :=
  if a < 0x20000 then .dmem (engBase e + a)
  else if a < 0x30000 then .table (engBase e + 0x20000 + 0x10000 * execBank s e + (a - 0x20000))
  else if 0x1000000 ≤ a ∧ a < 0x1200000 then
    if resPol s (resSeg (clusterOf e) ((a - 0x1000000) / 0x20000)) = resPol s (resEngine e)
    then .shared (sharedBase (clusterOf e) + (a - 0x1000000)) else .none
  else if 0x2000000 ≤ a ∧ a < 0x3000000 then .culvert (0x40000000 + (a - 0x2000000))
  else if 0x3000000 ≤ a ∧ a < 0x3010000 then .window (a - 0x3000000)
  else .none

/-- The polder of the pair or cell that an output-window word names; none where no word lies (R283). -/
def windowOwner (s : State) (off : Nat) : Option Nat :=
  if off < 0xC0 then some (resPol s (resPair (off / 4)))
  else if 0x100 ≤ off ∧ off < 0x1C0 then some (resPol s (resPair ((off - 0x100) / 4)))
  else if 0x200 ≤ off ∧ off < 0x4A00 then some (resPol s (resPort ((off - 0x200) / 16 / 24)))
  else none

/-- Whether a polder may read or write a culvert page (R407); in ROM recovery the culvert has no flags (R579). -/
def pageAllows (s : State) (n p : Nat) (write : Bool) : Bool :=
  let w := (getReg s (culvFlag n)).toNat
  let owner := nbits w 4 2
  match s.dev.phase, nbits w 1 0 with
  | .recovery, _ => true
  | _, 1 => owner == p
  | _, 2 => !write && (owner == p || nbits w 7 5 == p)
  | _, 3 => !write
  | _, _ => false

/-- Note that a requester of the owner used an OWNED page in this tick (R411). -/
def markUsed (s : State) (n p : Nat) : State :=
  let w := (getReg s (culvFlag n)).toNat
  if nbits w 1 0 = 1 ∧ nbits w 4 2 = p ∧ !s.culv.used.contains n then
    { s with culv := { s.culv with used := n :: s.culv.used } }
  else s

/-- The engine runs a step of a placement group, so its outputs go to its voter lane (R117). -/
def inVoterStep (x : Eng) : Bool := match x.running with
  | some r => r.kind == 1
  | none => false

/-- The value a word of the output window holds in this tick for an engine (R283): its own lane or write, that of
another step of the polder, or what applied in the previous tick. -/
def windowWord (s : State) (e off : Nat) : Word :=
  let x := getEng s e
  let i := off / 4
  if inVoterStep x then (cellFind x.vouts i).getD (cellGet 0 s.win i)
  else
    match cellFind x.outs i with
    | some w => w
    | none =>
      match (enginesOf s (resPol s (resEngine e))).findSome? fun d => cellFind (getEng s d).outs i with
      | some w => w
      | none => cellGet 0 s.win i

/-- Write a word of the output window. -/
def windowWrite (s : State) (e off : Nat) (w : Word) : State :=
  let x := getEng s e
  if inVoterStep x then setEng s e { x with vouts := cellPut x.vouts (off / 4) w }
  else setEng s e { x with outs := cellPut x.outs (off / 4) w }

/-- Write request output `n` of an engine (R94): a group step writes it into its voter lane (R117); a migration step
has no request outputs (R458). -/
def setRequest (s : State) (e n : Nat) (v : Bool) : State :=
  let x := getEng s e
  let p := resPol s (resEngine e)
  if (cellGet polImgReset s.img.pol p).migrating.isSome then s
  else if inVoterStep x then setEng s e { x with reqLane := cellPut x.reqLane n v }
  else latchConds (setFbit s (engStat e) engStat_Req n v) p

/-! ## The end of a word -/

/-- The end of an instruction word (R96, R97): results, trigger lines and request outputs become visible, flags stick, the word pointer
moves on. -/
def endWord (s : State) (e : Nat) : State :=
  let x := getEng s e
  let hdr := wordHeader s e x.wp
  let r := closeReps (openRep hdr x.wp x.reps) x.wp
  let fin := nbit hdr 1 && r.1.isEmpty
  let s := setEng s e { x with cur := x.nxt, wordFlags := 0, cycles := x.cycles + 1, reps := r.1, wp := r.2 % 4096, atEnd := fin
                               lines := x.lines ||| x.nextLines, nextLines := 0, nextReqs := [] }
  let s := forEach x.nextReqs s fun s c => setRequest s e c.1 c.2
  let s := if x.wordFlags = 0 then s else raiseEsf s e x.wordFlags
  if fin then s else fetchCheck s e

/-- After a slot: at the last slot of the word the word ends, unless an L access still stalls it (R85). -/
def afterSlot (s : State) (e : Nat) (eow : Bool) : State :=
  if eow then
    match (getEng s e).stall with
    | some st => setEng s e { getEng s e with stall := some { st with eow := true } }
    | none => endWord s e
  else s

/-- The step of an engine runs words: not after its last one or a word whose fetch has failed (R97, R112), nor while the CPLL gates its
output (R625) or a hold stops the engines (R470). -/
def wordRuns (s : State) (e : Nat) : Bool := !(getEng s e).atEnd && !s.clk.gateC && !s.flt.hold

/-- A slot acts while its step runs words, and acts as NOP otherwise. -/
def inWord (s : State) (e : Nat) (f : State → State) : State := if wordRuns s e then f s else s

/-- One slot that works on registers alone. -/
def regSlot (s : State) (e : Nat) (eow : Bool) (f : Eng → Eng) : State :=
  inWord s e fun s => afterSlot (setEng s e (f (getEng s e))) e eow

/-- Note a refused L access (R84). -/
def lRefused (x : Eng) : Eng := { x with wordFlags := x.wordFlags ||| esfLref }

/-! ## What an L access moves (R102) -/

/-- The value that a load of a half takes into a register. -/
def halfValue (unsignedHalf : Bool) (h : Nat) : Word :=
  if unsignedHalf then BitVec.ofNat 32 h else wordOfInt (signed 16 h)

/-- The words a load finds at a physical address. -/
def loadWords (s : State) (half unsignedHalf pair : Bool) (a : Nat) : List Word :=
  if half then [halfValue unsignedHalf (rdHalf s a)] else if pair then [rdWord s a, rdWord s (a + 4)] else [rdWord s a]

/-- Put a store's data into memory. -/
def storeWords (s : State) (half : Bool) (a : Nat) (data : List Word) : State :=
  if half then wrHalf s a ((data.headD 0).toNat % 65536) else wrWords s a data

end Sys2Proof.Machine
end

