-- ==== Sys2Proof/Machine/Dike.lean ====
section
/-! DEFINITION. The dike's breaches (R404, R405), unbound sources (R400, R401) and the culvert's pages (R406–R412). -/

namespace Sys2Proof.Machine

/-- Who makes a checked request, for BRCAPHI.SRC (R420); the housekeeping processor has no code there (assumption log 68). -/
inductive Who
  | ralma | sq | sluice | housekeeping
  deriving DecidableEq, Repr

def whoCode (w : Who) : Nat :=
  match w with
  | .ralma => 0
  | .sq => 1
  | .sluice => 2
  | .housekeeping => (Config.causeWord 0x0501 2).toNat

/-- The kind of requester a host source is. -/
def sourceWho : Source → Who
  | .ralma _ => .ralma
  | .sq _ => .sq
  | .housekeeping => .housekeeping

def breachReset : Breaches := ⟨0, 0, 0, 0, false⟩

/-- A breach (R404, R405): counted, captured, noted for the edge, held against the limit. `kind` 0 is a read, 1 a write,
2 a culvert operation. -/
def breach (s : State) (p : Nat) (who : Who) (kind reason addr : Nat) : State :=
  let s := countF s (poldBrcnt p) poldBrcnt_Count 1
  let hi := poldBrcaphi p
  let s := if getB s hi poldBrcaphi_Valid then s
    else
      let w : Word := fset (fset (fset (fset (fset (getReg s hi) poldBrcaphi_Valid 1) poldBrcaphi_Reason reason) poldBrcaphi_Kind kind)
        poldBrcaphi_Src (whoCode who)) poldBrcaphi_Addr (addr / 2 ^ 32)
      setReg (setReg s hi w) (poldBrcaplo p) (BitVec.ofNat 32 addr)
  let b := cellGet breachReset s.dike.breaches p
  let b : Breaches := if b.number = 0 then { b with reason := reason, addr := addr } else b
  let lim := getF s poldBrlim poldBrlim_Limit
  let first : Bool := p != 0 && lim != 0 && decide (lim < b.window + 1) && !b.beyond
  let b := { b with number := b.number + 1, window := b.window + 1, beyond := b.beyond || first }
  let s := { s with dike := { s.dike with breaches := cellSet breachReset s.dike.breaches p b } }
  if first then event s 0x0502 2 p [pw p, pw b.window] else s

/-- The breach notices at the edge that ends a tick, and the start of a window when the new count is a multiple of
65,536 (R404, R405). -/
def breachEdge (s : State) (newCount : Nat) : State :=
  let s := forEach (upto 8) s fun s p =>
    let b := cellGet breachReset s.dike.breaches p
    let s := if b.number = 0 then s else notice s 0x0501 0 [pw p, pw b.reason, pw b.addr, pw b.number]
    let b : Breaches := if newCount % 65536 = 0 then breachReset else { breachReset with window := b.window, beyond := b.beyond }
    { s with dike := { s.dike with breaches := cellSet breachReset s.dike.breaches p b } }
  { s with dike := { s.dike with unboundNoted := false, staleNoted := [] } }

/-- A source as a word laid out as POLD.BINDk; the housekeeping processor needs no binding. -/
def sourceWord : Source → Word
  | .ralma n => BitVec.ofNat 32 (n.val * 65536)
  | .sq p => BitVec.ofNat 32 (0x40000000 + p.val * 65536)
  | .housekeeping => 0

/-- The polder that the enabled binding of a source names (R400). -/
def boundPolder (s : State) (src : Source) : Option Nat :=
  let w := (sourceWord src).toNat / 65536
  ((upto 32).find? fun k => getB s (poldBind k) poldBind_En && (getReg s (poldBind k)).toNat / 65536 % 32768 == w).map fun k =>
    getF s (poldBind k) poldBind_Polder

/-- The polder of a source (R399, R400); in ROM recovery the bindings are those of R579. -/
def sourcePolder (s : State) (src : Source) : Option Nat :=
  match src with
  | .housekeeping => some 0
  | .ralma _ => if s.dev.phase = .recovery then some 0 else boundPolder s src
  | .sq n => if s.dev.phase = .recovery then (if n.val = 1 then some 0 else none) else boundPolder s src

/-- A request from an unbound source (R401). -/
def unboundRequest (s : State) (src : Source) (addr : Nat) : State :=
  let s := countF s poldUnbound poldUnbound_Count 1
  if s.dike.unboundNoted then s
  else notice { s with dike := { s.dike with unboundNoted := true } } 0x0503 0 [sourceWord src, pw addr, pw (addr / 2 ^ 32)]

/-! ## Culvert pages -/

/-- A flag word (R406). -/
def flagWord (gen lease target owner st : Nat) : Word :=
  BitVec.ofNat 32 (gen % 65536 * 65536 + lease % 256 * 256 + target % 8 * 32 + owner % 8 * 4 + st % 4)

def pageGen (s : State) (n : Nat) : Nat := (getReg s (culvFlag n)).toNat / 65536
def pageLease (s : State) (n : Nat) : Nat := (getReg s (culvFlag n)).toNat / 256 % 256
def pageTarget (s : State) (n : Nat) : Nat := (getReg s (culvFlag n)).toNat / 32 % 8
def pageOwner (s : State) (n : Nat) : Nat := (getReg s (culvFlag n)).toNat / 4 % 8
def pageState (s : State) (n : Nat) : Nat := (getReg s (culvFlag n)).toNat % 4

/-- A page enters FREE and waits to be zeroed (R412). -/
def freePage (s : State) (n gen : Nat) : State :=
  let s := setReg s (culvFlag n) (flagWord gen 0xFF 0 0 0)
  { s with culv := { s.culv with zeroing := s.culv.zeroing ++ [n], lastL := cellDel s.culv.lastL n, used := s.culv.used.filter (· != n) } }

/-- The accesses that a page had in this tick are those of its former owner: they renew no lease of the next one (R411). -/
def dropUse (s : State) (n : Nat) : State := { s with culv := { s.culv with used := s.culv.used.filter (· != n) } }

/-- A page is OWNED by a polder with lease L. -/
def ownPage (s : State) (n gen p l : Nat) : State :=
  let s := setReg s (culvFlag n) (flagWord gen l 0 p 1)
  { s with culv := { s.culv with lastL := cellSet 0 s.culv.lastL n l } }

/-- A stale refusal (R410). -/
def staleRefusal (s : State) (p page gen : Nat) : State :=
  let s := countF s (banked culvStalecnt p) culvStalecnt_Count 1
  if s.dike.staleNoted.contains p then s
  else notice { s with dike := { s.dike with staleNoted := s.dike.staleNoted ++ [p] } } 0x0603 p [pw p, pw page, pw gen]

/-- The state and the holder that an operation requires: the state, and the polder that must write it, if any (R409). -/
def opNeeds (s : State) (op page p : Nat) : Nat × Nat :=
  match op with
  | 1 => (0, p)
  | 5 => (2, pageTarget s page)
  | 6 => (2, pageOwner s page)
  | 8 => (3, 0)
  | _ => (1, pageOwner s page)

/-- The status of an operation and whether it is a breach with which reason (R410). -/
def opStatus (s : State) (op page gen p : Nat) : Nat × Nat :=
  let need := opNeeds s op page p
  if op = 0 ∨ 8 < op then (5, 0)
  else if (op = 7 ∨ op = 8) ∧ p ≠ 0 then (4, 5)
  else if op ≠ 1 ∧ gen ≠ pageGen s page then (2, 0)
  else if op = 1 ∧ pageState s page = 0 ∧ pageLease s page ≠ 0 then (3, 0)
  else if pageState s page ≠ need.1 then (1, 0)
  else if need.2 ≠ p then (4, 4)
  else if op = 4 ∧ getF s (banked culvOparg p) culvOparg_Target = p then (5, 0)
  else (0, 0)

/-- What an accepted operation does (R409). -/
def opApply (s : State) (op n p : Nat) : State :=
  let arg := banked culvOparg p
  let l := getF s arg culvOparg_Lease
  let l := if l = 0 then getF s culvCfg culvCfg_Deflease else l
  let g := pageGen s n
  match op with
  | 1 => ownPage s n g p l
  | 2 => ownPage s n g p l
  | 3 => freePage s n (g + 1)
  | 4 => setReg s (culvFlag n) (flagWord g l (getF s arg culvOparg_Target) p 2)
  | 5 => ownPage (dropUse s n) n (g + 1) p l
  | 6 => ownPage s n g p l
  | 7 => setReg s (culvFlag n) (flagWord g 0 0 0 3)
  | _ => freePage s n (g + 1)

/-- A write of CULV.OP by a host of polder `p` (R408–R410); whether it ends with an error. -/
def culvOpWrite (s : State) (p : Nat) (who : Who) (w : Word) : State × Bool :=
  let op := fget w culvOp_Op
  let n := fget w culvOp_Page
  let gen := fget w culvOp_Gen
  let r := opStatus s op n gen p
  let s := if r.1 = 0 then opApply s op n p else s
  let s := if r.1 = 2 then staleRefusal s p n gen else s
  let res : Word := BitVec.ofNat 32 (pageGen s n * 65536 + r.1 * 4096 + n)
  let s := setReg s (banked culvOpres p) res
  if r.2 = 0 then (s, false) else (breach s p who 2 r.2 culvOp, true)

/-! ## Leases (R411, R412) -/

/-- The pages whose flag words are listed, in order: all others are FREE and ready. -/
def listedPages (s : State) : List Nat :=
  (s.regs.filter fun c => decide (0x60054000 ≤ c.1) && decide (c.1 < 0x60058000) && c.1 % 4 == 0).map fun c => (c.1 - 0x60054000) / 4

/-- The lease of a page at the edge. -/
def leaseUpdate (s : State) (n : Nat) : State :=
  let st := pageState s n
  let l := if st = 1 ∧ s.culv.used.contains n then cellGet 0 s.culv.lastL n else pageLease s n - 1
  if st = 1 ∨ st = 2 then
    setReg s (culvFlag n) (flagWord (pageGen s n) l (pageTarget s n) (pageOwner s n) st)
  else s

/-- The pages that hold a lease of 0: they expire. -/
def expiring (s : State) : List Nat :=
  (listedPages s).filter fun n => (pageState s n == 1 || pageState s n == 2) && pageLease s n == 0

/-- Pages expire: FREE with GEN + 1, one notice per former owner, and per owner and target of a HANDOFF (R411, R412). -/
def expirePages (s : State) (ns : List Nat) : State :=
  let own := ns.filter fun n => pageState s n == 1
  let off := ns.filter fun n => pageState s n == 2
  let src := s
  let s := forEach ns s fun s n => freePage s n (pageGen s n + 1)
  let s := forEach (upto 8) s fun s p =>
    match own.filter fun n => pageOwner src n == p with
    | [] => s
    | n :: t => notice s 0x0601 p [pw p, pw (t.length + 1), pw n, pw (pageGen s n)]
  forEach (upto 64) s fun s k =>
    match off.filter fun n => pageOwner src n * 8 + pageTarget src n == k with
    | [] => s
    | n :: t => notice s 0x0602 (k / 8) [pw (k / 8), pw (k % 8), pw (t.length + 1), pw n]

/-- All leases at the T0 edge. -/
def culvEdge (s : State) : State :=
  let s := forEach (listedPages s) s leaseUpdate
  let s := { s with culv := { s.culv with used := [] } }
  expirePages s (expiring s)

/-- LEASE_EXPIRY: pages whose lease is 0 become FREE (R411). -/
def execLeaseExpiry (s : State) : Host.Outcome State Fault Refusal := .next (expirePages s (expiring s))

/-- PAGE_ZEROED: the port finishes the page it zeroes (R412). -/
def execPageZeroed (s : State) : Host.Outcome State Fault Refusal :=
  .next (match s.culv.zeroing with
    | [] => s
    | n :: t =>
      let s := zeroMem s (pageBase n) (pageBase n + 4096)
      setReg { s with culv := { s.culv with zeroing := t } } (culvFlag n) (flagWord (pageGen s n) 0 0 0 0))

/-- Tick loss: the culvert is zeroed in page order; SEALED pages stay (R32, R413). -/
def culvTickLoss (s : State) : State :=
  let l := (upto 4096).filter fun n => pageState s n != 3
  let s := forEach l s fun s n =>
    setReg s (culvFlag n) (flagWord (pageGen s n + 1) 0xFF 0 0 0)
  { s with culv := { s.culv with zeroing := l, used := [], lastL := [] } }

end Sys2Proof.Machine
end

