-- ==== Sys2Proof/Machine/Culvert.lean ====
section
/-! DEFINITION. Data accesses to the culvert (R407, R411, R427) and the queue of at most 16 beats that each polder has there
(R415), in which the accesses of its sluices wait until they are served in arrival order. -/

namespace Sys2Proof.Machine

/-- An access: requester's polder and kind, write or read, address, bytes, data of a write, page generation of a sluice,
a memory error its first word meets. -/
structure Acc where
  p : Nat
  who : Who
  write : Bool
  addr : Nat
  len : Nat
  data : List Word
  gen : Option Nat
  ecc : Ecc
  deriving DecidableEq, Repr

def getSlu (s : State) (c : Nat) : Slu := cellGet sluReset s.slus c
def setSlu (s : State) (c : Nat) (x : Slu) : State := { s with slus := cellSet sluReset s.slus c x }

/-- The page of a culvert address. -/
def culvPage (a : Nat) : Nat := (a - 0x40000000) / 4096

/-- The address lies in the culvert (R23). -/
def inCulvert (a : Nat) : Bool := decide (0x40000000 ≤ a) && decide (a < 0x41000000)

/-- The culvert executes an access (R407, R411, R427); a polder in reset makes no access (R37, R413). -/
def culvertAccess (s : State) (x : Acc) (page : Nat) : State × AccRes :=
  if s.dev.phase ≠ .recovery ∧ x.gen.isSome ∧ x.gen ≠ some (pageGen s page) then
    (staleRefusal s x.p page (x.gen.getD 0), .stale)
  else if inReset s x.p then (s, .err)
  else if !pageAllows s page x.p x.write then (breach s x.p x.who (bit x.write) 3 x.addr, .breach)
  else
    let s := if s.dev.phase = .recovery then s else markUsed s page x.p
    if x.write then (wrWords s x.addr x.data, .ok []) else (s, .ok (rdWords s x.addr (x.len / 4)))

/-! ## The queues of the polders and the wheel (R414, R415) -/

def beatQueue (s : State) (p : Nat) : List Beat := cellGet [] s.culv.beats p
def setBeatQueue (s : State) (p : Nat) (q : List Beat) : State := { s with culv := { s.culv with beats := cellSet [] s.culv.beats p q } }

/-- The 32-byte beats of an access. -/
def beatsOf (len : Nat) : Nat := (len + 31) / 32

/-- The bytes of an access of a channel. -/
def outLen (d : List Word) (o : OutAcc) : Nat := o.count * (4 * 2 ^ nbits (d.getD 5 0).toNat 17 16)

/-- An access of a channel as the dike sees it: at the culvert it carries the generation that the descriptor names (R427). -/
def sluAcc (s : State) (p c : Nat) (o : OutAcc) : Acc :=
  let d := (getSlu s c).desc
  { p := p, who := .sluice, write := o.write, addr := o.addr, len := outLen d o, data := o.data,
    gen := if inCulvert o.addr then some ((d.getD (if o.write then 3 else 1) 0).toNat / 65536) else none, ecc := o.ecc }

/-- The place in a channel's list of the access of a port that begins at an element. -/
def outOf (x : Slu) (write : Bool) (first : Nat) : Option (Nat × OutAcc) :=
  ((upto x.outs.length).findSome? fun i => x.outs[i]?.bind fun o => if o.write = write ∧ o.first = first then some (i, o) else none)

/-- The culvert has executed all beats of an access of a channel: the access takes effect, and its answer waits for the response. -/
def outExecute (s : State) (p c i : Nat) (o : OutAcc) : State :=
  if o.res = .queued ∧ o.sent = o.count ∧ inCulvert o.addr ∧ o.beats = beatsOf (outLen (getSlu s c).desc o) then
    let r := culvertAccess s (sluAcc s p c o) (culvPage o.addr)
    let y := getSlu r.1 c
    setSlu r.1 c { y with outs := y.outs.set i { o with res := r.2 } }
  else s

/-- What an engine's stalled access finds at the culvert: under the page flags of this moment (R407, R411). -/
def stallExecute (s : State) (p e : Nat) : State :=
  let x := getEng s e
  match x.stall with
  | none => s
  | some st =>
    let page := culvPage st.addr
    let done (s : State) (r : Bool × List Word) : State := setEng s e { getEng s e with stall := some { st with served := some r } }
    if st.served.isSome || !inCulvert st.addr then s
    else if !pageAllows s page p (!st.load) then done s (false, [])
    else if st.load then done (markUsed s page p) (true, loadWords s st.half st.unsignedHalf st.pair st.addr)
    else done (storeWords (markUsed s page p) st.half st.addr st.data) (true, [])

/-- The culvert executes a beat of a polder's requester. -/
def beatExecute (s : State) (p : Nat) : Beat → State
  | .sluice c write first =>
    match outOf (getSlu s c) write first with
    | none => s
    | some (i, o) =>
      let o := { o with beats := o.beats + 1 }
      let x := getSlu s c
      outExecute (setSlu s c { x with outs := x.outs.set i o }) p c i o
  | .engine e => stallExecute s p e
  | .now => s

/-- The wheel's polder at a slot. -/
def wheelPol (s : State) (i : Nat) : Nat := (getReg s (culvWheel (i / 8))).toNat / 16 ^ (i % 8) % 8

/-- One slot of the wheel: the beat of its polder, else of the next polder after it that has one waiting (R414). -/
def wheelTurn (s : State) : State :=
  let first := wheelPol s s.culv.slot
  let s := { s with culv := { s.culv with slot := (s.culv.slot + 1) % 64 } }
  match ((upto 8).map fun i => (first + i) % 8).find? fun p => !(beatQueue s p).isEmpty with
  | none => s
  | some p =>
    match beatQueue s p with
    | [] => s
    | b :: t => beatExecute (setBeatQueue s p t) p b

/-- The wheel turns until a polder's queue is as it must be; the eight queues hold at most 128 beats. -/
def wheelUntil (s : State) (p : Nat) (done : List Beat → Bool) : State :=
  forEach (upto 128) s fun s _ => if done (beatQueue s p) then s else wheelTurn s

/-- A beat still finds room in a polder's queue. -/
def beatRoom (s : State) (p : Nat) : Bool := decide ((beatQueue s p).length < 16)

/-- A beat enters its polder's queue. Where no beat waited, the slot that the wheel has come to is a free value (assumption log 35). -/
def beatEnter (s : State) (p : Nat) (b : Beat) : State :=
  let s := if s.culv.beats.isEmpty then nextFree { s with culv := { s.culv with slot := (Config.freeWord s.free).toNat % 64 } } else s
  setBeatQueue s p (beatQueue s p ++ [b])

/-- A requester with nothing else to do waits until its beats fit, and until the culvert has executed them. -/
def beatsPass (s : State) (p n : Nat) : State :=
  if s.culv.beats.isEmpty then s
  else wheelUntil (forEach (upto n) s fun s _ => beatEnter (wheelUntil s p fun q => decide (q.length < 16)) p .now) p List.isEmpty

/-- An access of a requester whose command ends with it, behind all that waits in the polder's queue. -/
def culvertRequest (s : State) (x : Acc) (page : Nat) : State × AccRes := culvertAccess (beatsPass s x.p (beatsOf x.len)) x page

end Sys2Proof.Machine
end

