-- ==== Sys2Proof/Machine/Engine.lean ====
section
/-! DEFINITION. The Ulisa engine's slot operations (R101–R103): each command is one slot of an instruction word of
engine `e`; `eow` says that it is the last slot of its word, at whose end the results become visible (R96). -/

namespace Sys2Proof.Machine

/-- The outcome of a command. -/
abbrev Out := Host.Outcome State Fault Refusal

/-! ## M slots (R101) -/

/-- NOP: none (R101–R103). -/
def execNop (e : Fin 256) (eow : Bool) (s : State) : Out := .next (regSlot s e eow id)

/-- MUL: AD = P >> Q. -/
def execMul (e : Fin 256) (_m1 : Bool) (ad : Fin 4) (ga gb : Fin 32) (q : Fin 32) (rnd eow : Bool) (s : State) : Out :=
  .next (regSlot s e eow fun x => accWrite x ad (BitVec.ofInt 72 (shiftQ (prodP (gprRead x ga) (gprRead x gb)) q rnd)))

/-- MAC: AD = sat72(AD + (P >> Q)). -/
def execMac (e : Fin 256) (m1 : Bool) (ad : Fin 4) (ga gb : Fin 32) (q : Fin 32) (rnd eow : Bool) (s : State) : Out :=
  .next (regSlot s e eow fun x => accSat x m1 ad (accRead x ad + shiftQ (prodP (gprRead x ga) (gprRead x gb)) q rnd))

/-- MSU: AD = sat72(AD − (P >> Q)). -/
def execMsu (e : Fin 256) (m1 : Bool) (ad : Fin 4) (ga gb : Fin 32) (q : Fin 32) (rnd eow : Bool) (s : State) : Out :=
  .next (regSlot s e eow fun x => accSat x m1 ad (accRead x ad - shiftQ (prodP (gprRead x ga) (gprRead x gb)) q rnd))

/-- MULD: AD = PD >> Q. -/
def execMuld (e : Fin 256) (_m1 : Bool) (ad : Fin 4) (ga gb : Fin 32) (q : Fin 32) (rnd eow : Bool) (s : State) : Out :=
  .next (regSlot s e eow fun x => accWrite x ad (BitVec.ofInt 72 (shiftQ (prodPD (gprRead x ga) (gprRead x gb)) q rnd)))

/-- MACD: AD = sat72(AD + (PD >> Q)). -/
def execMacd (e : Fin 256) (m1 : Bool) (ad : Fin 4) (ga gb : Fin 32) (q : Fin 32) (rnd eow : Bool) (s : State) : Out :=
  .next (regSlot s e eow fun x => accSat x m1 ad (accRead x ad + shiftQ (prodPD (gprRead x ga) (gprRead x gb)) q rnd))

/-- MSUD: AD = sat72(AD − (PD >> Q)). -/
def execMsud (e : Fin 256) (m1 : Bool) (ad : Fin 4) (ga gb : Fin 32) (q : Fin 32) (rnd eow : Bool) (s : State) : Out :=
  .next (regSlot s e eow fun x => accSat x m1 ad (accRead x ad - shiftQ (prodPD (gprRead x ga) (gprRead x gb)) q rnd))

/-- ACLR: AD = 0. -/
def execAclr (e : Fin 256) (_m1 : Bool) (ad : Fin 4) (eow : Bool) (s : State) : Out :=
  .next (regSlot s e eow fun x => accWrite x ad 0)

/-- ALD: AD = sat72(sext(GA) << Q). -/
def execAld (e : Fin 256) (m1 : Bool) (ad : Fin 4) (ga : Fin 32) (q : Fin 32) (eow : Bool) (s : State) : Out :=
  .next (regSlot s e eow fun x => accSat x m1 ad ((gprRead x ga).toInt * 2 ^ q.val))

/-- AADD: AD = sat72(AD + (sext(GA) << Q)). -/
def execAadd (e : Fin 256) (m1 : Bool) (ad : Fin 4) (ga : Fin 32) (q : Fin 32) (eow : Bool) (s : State) : Out :=
  .next (regSlot s e eow fun x => accSat x m1 ad (accRead x ad + (gprRead x ga).toInt * 2 ^ q.val))

/-- AADDA: AD = sat72(AD + AS). -/
def execAadda (e : Fin 256) (m1 : Bool) (ad as : Fin 4) (eow : Bool) (s : State) : Out :=
  .next (regSlot s e eow fun x => accSat x m1 ad (accRead x ad + accRead x as))

/-- ASUBA: AD = sat72(AD − AS). -/
def execAsuba (e : Fin 256) (m1 : Bool) (ad as : Fin 4) (eow : Bool) (s : State) : Out :=
  .next (regSlot s e eow fun x => accSat x m1 ad (accRead x ad - accRead x as))

/-- ASAT: the register that GB names = sat32(AD >> Q), setting EXT when it clips; AD unchanged. -/
def execAsat (e : Fin 256) (m1 : Bool) (ad : Fin 4) (gb : Fin 32) (q : Fin 32) (rnd eow : Bool) (s : State) : Out :=
  .next (regSlot s e eow fun x =>
    let r := sat32 (shiftQ (accRead x ad) q rnd)
    let x := gprWrite x gb r.1
    if r.2 then { x with wordFlags := x.wordFlags ||| esfExt m1 } else x)

/-- ASHL: AD = sat72(AD << Q). -/
def execAshl (e : Fin 256) (m1 : Bool) (ad : Fin 4) (q : Fin 32) (eow : Bool) (s : State) : Out :=
  .next (regSlot s e eow fun x => accSat x m1 ad (accRead x ad * 2 ^ q.val))

/-- ASHR: AD = AD >> Q, arithmetic. -/
def execAshr (e : Fin 256) (_m1 : Bool) (ad : Fin 4) (q : Fin 32) (rnd eow : Bool) (s : State) : Out :=
  .next (regSlot s e eow fun x => accWrite x ad (BitVec.ofInt 72 (shiftQ (accRead x ad) q rnd)))

/-- ANEG: AD = sat72(−AD). -/
def execAneg (e : Fin 256) (m1 : Bool) (ad : Fin 4) (eow : Bool) (s : State) : Out :=
  .next (regSlot s e eow fun x => accSat x m1 ad (-(accRead x ad)))

/-! ## X slot (R103) -/

/-- MOV: GD = GA. -/
def execMov (e : Fin 256) (gd ga : Fin 32) (eow : Bool) (s : State) : Out :=
  .next (regSlot s e eow fun x => gprWrite x gd (gprRead x ga))

/-- MOVI: GD = sext(IMM16). -/
def execMovi (e : Fin 256) (gd : Fin 32) (imm : BitVec 16) (eow : Bool) (s : State) : Out :=
  .next (regSlot s e eow fun x => gprWrite x gd (imm.signExtend 32))

/-- MOVH: GD[31:16] = IMM16; GD[15:0] unchanged. -/
def execMovh (e : Fin 256) (gd : Fin 32) (imm : BitVec 16) (eow : Bool) (s : State) : Out :=
  .next (regSlot s e eow fun x => gprWrite x gd ((gprRead x gd &&& 0xFFFF) ||| (imm.setWidth 32 <<< 16)))

/-- ADD: GD = sat32(GA + GB). -/
def execAdd (e : Fin 256) (gd ga gb : Fin 32) (eow : Bool) (s : State) : Out :=
  .next (regSlot s e eow fun x => gprSat x gd ((gprRead x ga).toInt + (gprRead x gb).toInt))

/-- SUB: GD = sat32(GA − GB). -/
def execSub (e : Fin 256) (gd ga gb : Fin 32) (eow : Bool) (s : State) : Out :=
  .next (regSlot s e eow fun x => gprSat x gd ((gprRead x ga).toInt - (gprRead x gb).toInt))

/-- ADDI: GD = sat32(GA + sext(IMM13)). -/
def execAddi (e : Fin 256) (gd ga : Fin 32) (imm : BitVec 13) (eow : Bool) (s : State) : Out :=
  .next (regSlot s e eow fun x => gprSat x gd ((gprRead x ga).toInt + imm.toInt))

/-- MIN: the signed minimum. -/
def execMin (e : Fin 256) (gd ga gb : Fin 32) (eow : Bool) (s : State) : Out :=
  .next (regSlot s e eow fun x => gprWrite x gd (wordOfInt (min (gprRead x ga).toInt (gprRead x gb).toInt)))

/-- MAX: the signed maximum. -/
def execMax (e : Fin 256) (gd ga gb : Fin 32) (eow : Bool) (s : State) : Out :=
  .next (regSlot s e eow fun x => gprWrite x gd (wordOfInt (max (gprRead x ga).toInt (gprRead x gb).toInt)))

/-- ABS: GD = sat32(abs(GA)). -/
def execAbs (e : Fin 256) (gd ga : Fin 32) (eow : Bool) (s : State) : Out :=
  .next (regSlot s e eow fun x => gprSat x gd |(gprRead x ga).toInt|)

/-- NEG: GD = sat32(−GA). -/
def execNeg (e : Fin 256) (gd ga : Fin 32) (eow : Bool) (s : State) : Out :=
  .next (regSlot s e eow fun x => gprSat x gd (-(gprRead x ga).toInt))

/-- SATS: GD = min(max(GA, −GB), GB), a negative GB taken as 0; no flag (R105). -/
def execSats (e : Fin 256) (gd ga gb : Fin 32) (eow : Bool) (s : State) : Out :=
  .next (regSlot s e eow fun x =>
    let b := max 0 (gprRead x gb).toInt
    gprWrite x gd (wordOfInt (min (max (gprRead x ga).toInt (-b)) b)))

/-- SHL: GD = sat32(GA << n). -/
def execShl (e : Fin 256) (gd ga : Fin 32) (n : Fin 32) (eow : Bool) (s : State) : Out :=
  .next (regSlot s e eow fun x => gprSat x gd ((gprRead x ga).toInt * 2 ^ n.val))

/-- SHR: arithmetic right shift. -/
def execShr (e : Fin 256) (gd ga : Fin 32) (n : Fin 32) (eow : Bool) (s : State) : Out :=
  .next (regSlot s e eow fun x => gprWrite x gd ((gprRead x ga).sshiftRight n))

/-- SHRU: logical right shift. -/
def execShru (e : Fin 256) (gd ga : Fin 32) (n : Fin 32) (eow : Bool) (s : State) : Out :=
  .next (regSlot s e eow fun x => gprWrite x gd ((gprRead x ga) >>> n.val))

/-- AND. -/
def execAnd (e : Fin 256) (gd ga gb : Fin 32) (eow : Bool) (s : State) : Out :=
  .next (regSlot s e eow fun x => gprWrite x gd (gprRead x ga &&& gprRead x gb))

/-- OR. -/
def execOr (e : Fin 256) (gd ga gb : Fin 32) (eow : Bool) (s : State) : Out :=
  .next (regSlot s e eow fun x => gprWrite x gd (gprRead x ga ||| gprRead x gb))

/-- XOR. -/
def execXor (e : Fin 256) (gd ga gb : Fin 32) (eow : Bool) (s : State) : Out :=
  .next (regSlot s e eow fun x => gprWrite x gd (gprRead x ga ^^^ gprRead x gb))

/-- CMP: flag n = (GA cond GB). -/
def execCmp (e : Fin 256) (ga gb : Fin 32) (cond : Fin 8) (n : Fin 4) (eow : Bool) (s : State) : Out :=
  .next (regSlot s e eow fun x =>
    { x with nxt := { x.nxt with f := BitVec.ofNat 4 (nbitSet x.nxt.f.toNat n (cmpCond cond (gprRead x ga) (gprRead x gb))) } })

/-- SEL: GD = flag n ? GA : GB. -/
def execSel (e : Fin 256) (gd ga gb : Fin 32) (n : Fin 4) (eow : Bool) (s : State) : Out :=
  .next (regSlot s e eow fun x => gprWrite x gd (if nbit x.cur.f.toNat n then gprRead x ga else gprRead x gb))

/-- REQ: request output n = GA[0], at the end of the word (R96); from a step of a placement group the value goes to the voter lane
(R117). -/
def execReq (e : Fin 256) (ga : Fin 32) (n : Fin 4) (eow : Bool) (s : State) : Out :=
  .next (regSlot s e eow fun x => { x with nextReqs := cellPut x.nextReqs n (nbit (gprRead x ga).toNat 0) })

/-- TRIG: raises trace trigger line n of the engine's lane for this tick, at the end of the word (R96, R159). -/
def execTrig (e : Fin 256) (n : Fin 4) (eow : Bool) (s : State) : Out :=
  .next (regSlot s e eow fun x => { x with nextLines := nbitSet x.nextLines n true })

/-- RDSF: GD = ESF (R108). -/
def execRdsf (e : Fin 256) (gd : Fin 32) (eow : Bool) (s : State) : Out :=
  .next (regSlot s e eow fun x => gprWrite x gd (getReg s (engEsf e)))

/-- ADDW: GD = GA + GB modulo 2^32. -/
def execAddw (e : Fin 256) (gd ga gb : Fin 32) (eow : Bool) (s : State) : Out :=
  .next (regSlot s e eow fun x => gprWrite x gd (gprRead x ga + gprRead x gb))

/-- SUBW: GD = GA − GB modulo 2^32. -/
def execSubw (e : Fin 256) (gd ga gb : Fin 32) (eow : Bool) (s : State) : Out :=
  .next (regSlot s e eow fun x => gprWrite x gd (gprRead x ga - gprRead x gb))

/-! ## L slot (R84, R85, R100, R102) -/

/-- The width in bytes of an L access. -/
def lWidth (half pair : Bool) : Nat := if half then 2 else if pair then 8 else 4

/-- Write the loaded words into GR, and GR+1 for a pair. -/
def loadInto (x : Eng) (gr : Nat) (l : List Word) : Eng :=
  match l with
  | [a] => gprWrite x gr a
  | a :: b :: _ => gprWrite (gprWrite x gr a) (gr + 1) b
  | [] => x

/-- The ECC location of a physical address in an engine's space (R112, ENG.ECC). -/
def eccLoc (a : Nat) : Nat :=
  let o := a % 0x100000
  if o < 0x20000 then o / 4 else 32768 + 4096 * ((o - 0x20000) / 0x10000) + (o % 0x10000) / 16

/-- The step is still in the 40 ns between its tick's first steps and the deliveries of encoders and comparators (R53): the
engine's cycles at its region's clock. -/
def isEarly (s : State) (e : Nat) : Bool :=
  decide ((getEng s e).cycles * 1000 * tempoDiv (getF s (tickRtempo (regionOf e)) tickRtempo_Tempo) < 40 * fvMHz s)

/-- Memory as the steps of an engine see it: in the first 40 ns without this tick's encoder and comparator words. -/
def seenMem (s : State) (e : Nat) : State := if isEarly s e then forEach s.tick.early s fun s c => wrWord s c.1 c.2 else s

/-- A store to data memory. In the first 40 ns a word that encoders or comparators deliver takes the store until the delivery. -/
def storeOwn (s : State) (e : Nat) (half : Bool) (q : Nat) (data : List Word) : State :=
  let t := storeWords s half q data
  if isEarly s e && !s.tick.early.isEmpty then
    let seen := storeWords (seenMem s e) half q data
    { forEach s.tick.early t (fun t c => wrWord t c.1 (rdWord s c.1)) with
      tick := { s.tick with early := s.tick.early.map fun c => (c.1, rdWord seen c.1) } }
  else t

/-- An access to the culvert joins its polder's queue (R415). -/
def stallEnter (s : State) (e q : Nat) : State :=
  let p := resPol s (resEngine e)
  if inCulvert q then beatEnter (wheelUntil s p fun l => decide (l.length < 16)) p (.engine e) else s

/-- A load of the L slot: refused under R84, at once from the engine's own memories, stalled from cluster memory
and the culvert (R85). -/
def lLoad (s : State) (e : Nat) (half unsignedHalf pair : Bool) (gr gb am : Nat) (off : Int) (ecc : Ecc) (eow : Bool)
    (a : Nat) : State :=
  let x := getEng s e
  let w := lWidth half pair
  let p := resPol s (resEngine e)
  let zero : List Word := if pair then [0, 0] else [0]
  let refuse := setEng s e (loadInto (postModify (lRefused x) am gb off) gr zero)
  let own (q : Nat) : State :=
    let x := { x with wordFlags := x.wordFlags ||| eccFlag ecc }
    let s := setEng s e (loadInto (postModify x am gb off) gr
      (if eccBad ecc then zero else loadWords (seenMem s e) half unsignedHalf pair q))
    eccRecord s e (eccLoc (q + 4 * eccAt ecc (if pair then 2 else 1))) ecc true
  let wait (q : Nat) : State :=
    stallEnter (setEng s e { postModify x am gb off with
      stall := some { load := true, half := half, unsignedHalf := unsignedHalf, pair := pair, addr := q, gr := gr, data := [], eow := false } }) e q
  let s' :=
    if a % w ≠ 0 then refuse
    else match reach s e a with
      | .dmem q => own q
      | .table q => own q
      | .shared q => wait q
      | .culvert q => if pageAllows s ((q - 0x40000000) / 4096) p false then wait q else refuse
      | .window _ => refuse
      | .none => refuse
  afterSlot s' e eow

/-- A store into a word of the output window: a half replaces its half of the word's value in this tick (R283). -/
def windowStore (s : State) (e : Nat) (half : Bool) (off : Nat) (data : List Word) : State :=
  let s :=
    match data with
    | [w] =>
      if half then
        let old := (windowWord s e (off / 4 * 4)).toNat
        let h := w.toNat % 65536
        windowWrite s e (off / 4 * 4) (BitVec.ofNat 32 (if off % 4 = 0 then old / 65536 * 65536 + h else old % 65536 + 65536 * h))
      else windowWrite s e off w
    | a :: b :: _ => windowWrite (windowWrite s e off a) e (off + 4) b
    | [] => s
  s

/-- A store of the L slot (R84, R85, R87). -/
def lStore (s : State) (e : Nat) (half pair : Bool) (gr gb am : Nat) (off : Int) (eow : Bool) (a : Nat) : State :=
  let x := getEng s e
  let w := lWidth half pair
  let p := resPol s (resEngine e)
  let data : List Word := if pair then [gprRead x gr, gprRead x (gr + 1)] else [gprRead x gr]
  let mig := (cellGet polImgReset s.img.pol p).migrating.isSome
  let moved := setEng s e (postModify x am gb off)
  let refuse := setEng s e (postModify (lRefused x) am gb off)
  let wait (q : Nat) : State :=
    stallEnter (setEng s e { postModify x am gb off with
      stall := some { load := false, half := half, unsignedHalf := false, pair := pair, addr := q, gr := gr, data := data, eow := false } }) e q
  let s' :=
    if a % w ≠ 0 then refuse
    else match reach s e a with
      | .dmem q => if 0x1FF00 ≤ q % 0x100000 then refuse else storeOwn moved e half q data
      | .table _ => refuse
      | .shared q => wait q
      | .culvert q => if pageAllows s ((q - 0x40000000) / 4096) p true then wait q else refuse
      | .window o =>
        if windowOwner s o = some p ∧ (!pair || windowOwner s (o + 4) == some p) then
          (if mig then moved else windowStore moved e half o data)
        else refuse
      | .none => refuse
  afterSlot s' e eow

/-- The wheel turns until the culvert has executed an engine's stalled access. -/
def stallServed (s : State) (e : Nat) : State :=
  let waits (s : State) : Bool := ((getEng s e).stall.map fun st => st.served.isNone && inCulvert st.addr) == some true
  stallExecute (forEach (upto 128) s fun s _ => if waits s then wheelTurn s else s) (resPol s (resEngine e)) e

/-- The end of a stalled access (R85): an access to the culvert has been executed in its turn (R414, R415); the word ends when it waited
for it. -/
def finishStall (s : State) (e n : Nat) (st : Stall) : State :=
  let s := stallServed s e
  let r := ((getEng s e).stall.bind fun st => st.served).getD (true, loadWords s st.half st.unsignedHalf st.pair st.addr)
  let x := { getEng s e with stall := none, cycles := (getEng s e).cycles + n }
  let zero : List Word := if st.pair then [0, 0] else [0]
  let s' :=
    if !r.1 then setEng s e (if st.load then loadInto (lRefused x) st.gr zero else lRefused x)
    else if st.load then setEng s e (loadInto x st.gr r.2)
    else if inCulvert st.addr then setEng s e x
    else storeWords (setEng s e x) st.half st.addr st.data
  if st.eow then endWord s' e else s'

/-- L_STALL_END: the stalled access of engine `e` completes after `n` cycles of stall (R85). -/
def execLStallEnd (e : Fin 256) (n : Nat) (s : State) : Out :=
  match (getEng s e).stall with
  | some st => .next (if s.flt.hold then s else finishStall s e n st)
  | none => .next s

/-- LDW. Address mode 0b11 is reserved: no engine executes such a word (R98, R100). -/
def execLdw (e : Fin 256) (gr gb : Fin 32) (am : Fin 4) (off : BitVec 11) (ecc : Ecc) (eow : Bool) (s : State) : Out :=
  match lAddr (getEng s e) am gb off.toInt with
  | some a => .next (inWord s e fun s => lLoad s e false false false gr gb am off.toInt ecc eow a)
  | none => .refused (.neverExecuted "LDW")

/-- STW. -/
def execStw (e : Fin 256) (gr gb : Fin 32) (am : Fin 4) (off : BitVec 11) (eow : Bool) (s : State) : Out :=
  match lAddr (getEng s e) am gb off.toInt with
  | some a => .next (inWord s e fun s => lStore s e false false gr gb am off.toInt eow a)
  | none => .refused (.neverExecuted "STW")

/-- LDD: two words into an even register pair; an odd GR is never executed (R98). -/
def execLdd (e : Fin 256) (gr gb : Fin 32) (am : Fin 4) (off : BitVec 11) (ecc : Ecc) (eow : Bool) (s : State) : Out :=
  match lAddr (getEng s e) am gb off.toInt with
  | some a => if gr.val % 2 = 0 then .next (inWord s e fun s => lLoad s e false false true gr gb am off.toInt ecc eow a)
              else .refused (.neverExecuted "LDD")
  | none => .refused (.neverExecuted "LDD")

/-- STD: an even register pair as two words; an odd GR is never executed (R98). -/
def execStd (e : Fin 256) (gr gb : Fin 32) (am : Fin 4) (off : BitVec 11) (eow : Bool) (s : State) : Out :=
  match lAddr (getEng s e) am gb off.toInt with
  | some a => if gr.val % 2 = 0 then .next (inWord s e fun s => lStore s e false true gr gb am off.toInt eow a)
              else .refused (.neverExecuted "STD")
  | none => .refused (.neverExecuted "STD")

/-- LDH: a sign-extended half. -/
def execLdh (e : Fin 256) (gr gb : Fin 32) (am : Fin 4) (off : BitVec 11) (ecc : Ecc) (eow : Bool) (s : State) : Out :=
  match lAddr (getEng s e) am gb off.toInt with
  | some a => .next (inWord s e fun s => lLoad s e true false false gr gb am off.toInt ecc eow a)
  | none => .refused (.neverExecuted "LDH")

/-- LDHU: a zero-extended half. -/
def execLdhu (e : Fin 256) (gr gb : Fin 32) (am : Fin 4) (off : BitVec 11) (ecc : Ecc) (eow : Bool) (s : State) : Out :=
  match lAddr (getEng s e) am gb off.toInt with
  | some a => .next (inWord s e fun s => lLoad s e true true false gr gb am off.toInt ecc eow a)
  | none => .refused (.neverExecuted "LDHU")

/-- STH: GR[15:0] as a half. -/
def execSth (e : Fin 256) (gr gb : Fin 32) (am : Fin 4) (off : BitVec 11) (eow : Bool) (s : State) : Out :=
  match lAddr (getEng s e) am gb off.toInt with
  | some a => .next (inWord s e fun s => lStore s e true false gr gb am off.toInt eow a)
  | none => .refused (.neverExecuted "STH")

end Sys2Proof.Machine
end

