-- ==== Sys2Proof/Machine/Pwm.lean ====
section
/-! DEFINITION. The carrier bank and the direct outputs (ch. 08): carrier events, compares, dead time, trips, forces,
the carrier sets of a commit, the edge schedules of R296. -/

namespace Sys2Proof.Machine

/-- The pairs that follow a carrier. -/
def carPairs (s : State) (k : Nat) : List Nat := (upto 48).filter fun p => pairCar s p == k

/-- The filtered lines that are active and name pair `p` (R288). -/
def activeTrips (s : State) (p : Nat) : List Nat :=
  (upto 16).filter fun k => getFbit s pwmTripstat pwmTripstat_Level k &&
    (if p < 32 then getFbit s (pwmTripmaskl k) pwmTripmaskl_Pairs p else getFbit s (pwmTripmaskh k) pwmTripmaskh_Pairs (p - 32))

/-- A comparator that a pair names has its output set (R290). -/
def namedCmpSet (s : State) (p : Nat) : Bool :=
  (upto 32).any fun c => getFbit s (pwmPctrip p) pwmPctrip_Mask c && getB s (cmpStat c) cmpStat_Latch

/-- The named comparators that are set, as a mask. -/
def cmpSetMask (s : State) (p : Nat) : Nat :=
  (upto 32).foldl (fun n c => n + bit (getFbit s (pwmPctrip p) pwmPctrip_Mask c && getB s (cmpStat c) cmpStat_Latch) * 2 ^ c) 0

/-- A clear of a cause leaves TRIPPED set while another cause is latched (R292). -/
def settleTripped (s : State) (p : Nat) : State :=
  let a := pwmPstat p
  setB s a pwmPstat_Tripped (getB s a pwmPstat_Safe || getB s a pwmPstat_Rst || getB s a pwmPstat_Pin || getB s a pwmPstat_Cmp)

/-- The pending compares become active, in the steps that the P16 and the format of this moment give; a raw compare above P16 is clamped
(R283, R284, R300). -/
def activateCompares (s : State) (p : Nat) : State :=
  let q := getPair s p
  let duty := getB s (pwmPctl p) pwmPctl_Fmt
  let pp := p16 s (pairCar s p)
  let a := compareSteps duty pp q.pendA
  let b := compareSteps duty pp q.pendB
  let s := setPair s p { q with actA := a.1, actB := b.1, clampNoted := q.clampNoted || a.2 || b.2 }
  if a.2 || b.2 then
    let s := setB s (pwmPstat p) pwmPstat_Clamp true
    if q.clampNoted then s else notice s 0x0A04 (resPol s (resPair p)) [pw p, (if a.2 then q.pendA else q.pendB) &&& 0x0FFFFFFF]
  else s

/-- A force takes effect or is released, unless a trip holds the pair (R293). -/
def applyForce (s : State) (p : Nat) : State :=
  let q := getPair s p
  if q.forceWait && !getB s (pwmPstat p) pwmPstat_Tripped then
    let m := getF s (pwmPforce p) pwmPforce_Mode
    let s := setPair s p { q with forceWait := false, force := m }
    let s := setB s (pwmPstat p) pwmPstat_Fact (decide (m ≠ 0))
    if m = q.force then s else notice s 0x0A03 (resPol s (resPair p)) [pw p, pw m]
  else s

/-- A carrier event for one pair: a latched CMP trip acts, a waiting force acts (R287, R290, R293). -/
def pairEvent (s : State) (p : Nat) (start : Bool) : State :=
  let q := getPair s p
  let s := if getB s (pwmPstat p) pwmPstat_Cmp then setPair s p { q with cmpActs := true } else s
  pairRefresh (applyForce s p) p start

/-- A carrier event of carrier `k` (R280). -/
def carrierEvent (s : State) (k : Nat) (start : Bool) : State := forEach (carPairs s k) s fun s p => pairEvent s p start

/-- Bring a pair's reference levels to the carrier's elapsed time; says whether one changed. -/
def setRefs (s : State) (p : Nat) : State × Bool :=
  let q := getPair s p
  let r := refLevels s p (getCar s (pairCar s p)).e
  (setPair s p { q with refA := r.1, refB := r.2 }, decide (r ≠ (q.refA, q.refB)))

/-- The reference levels of a carrier's pairs at its elapsed time; where one changes, that is a carrier event (R280). On a carrier that
does not run, what waits for a carrier event acts at once (R287). -/
def carRefs (s : State) (k : Nat) (start : Bool) : State :=
  let r := (carPairs s k).foldl (fun (x : State × Bool) p => ((setRefs x.1 p).1, x.2 || (setRefs x.1 p).2)) (s, false)
  if r.2 || !carRuns s k then carrierEvent r.1 k start else forEach (carPairs s k) r.1 fun s p => pairRefresh s p start

/-- The same after a change to one pair, such as its mode or its carrier. -/
def pairRefs (s : State) (p : Nat) : State :=
  let r := setRefs s p
  let k := pairCar s p
  if !carRuns s k then pairEvent r.1 p false else if r.2 then carrierEvent r.1 k false else pairRefresh r.1 p false

/-- At a period start the PIN causes of LEVEL inputs and the cycle-by-cycle CMP causes end, when their sources have
ended (R289, R290). -/
def endCauses (s : State) (p : Nat) : State :=
  let a := pwmPstat p
  let q := getPair s p
  let s := if getB s a pwmPstat_Pin && !q.pinHeld && (activeTrips s p).isEmpty then setB s a pwmPstat_Pin false else s
  let s := if getB s a pwmPstat_Cmp && getB s (pwmPctl p) pwmPctl_Ctmode && !namedCmpSet s p then
      setPair (setB s a pwmPstat_Cmp false) p { getPair s p with cmpActs := false } else s
  settleTripped s p

/-- Take the words a carrier runs with: the elapsed steps now, and as this pattern has them at the last T0 edge. -/
def loadCar (s : State) (k : Nat) (c p h : Word) (e base : Nat) : State :=
  setB (setCar s k { ctl := c, per := p, ph := h, waiting := none, e := e, base := base }) (pwmCarstat k) pwmCarstat_Setpend false

/-- The elapsed steps at a T0 edge of a carrier of this period and shift (R278). -/
def lockStart (per ph : Word) : Nat :=
  let p := p16Of per
  (p - shiftSteps (fget ph pwmCarph_Shift) p) % p

/-- The elapsed steps at the period start at which a waiting FREE set takes effect (R281). -/
def freeStart (old oldPh new newPh : Word) : Nat :=
  let p := p16Of new
  let d : Int := (shiftSteps (fget newPh pwmCarph_Shift) p : Int) - shiftSteps (fget oldPh pwmCarph_Shift) (p16Of old)
  ((-d) % (p : Int)).toNat

/-- The elapsed steps that the pattern after a waiting set has at the last T0 edge: its first period start after that edge takes the set. -/
def freeBase (c : Car) (new newPh : Word) : Nat :=
  let p := p16Of new
  let gone := p16Of c.per - c.base % p16Of c.per
  (freeStart c.per c.ph new newPh + p * gone - gone) % p

/-- A period start of a carrier that runs: what waits for it takes effect (R280, R281, R284, R287–R293, R356). -/
def periodStart (s : State) (k : Nat) : State :=
  let c := getCar s k
  let s := match c.waiting with
    | some (cc, cp, ch) => loadCar s k cc cp ch (freeStart c.per c.ph cp ch) (freeBase c cp ch)
    | none => setCar s k { c with e := 0 }
  let s := forEach (upto 32) s fun s j =>
    if getF s (cmpCtl j) cmpCtl_Clr == 2 && getF s (cmpCtl j) cmpCtl_Carsel == k && !getB s (cmpStat j) cmpStat_Now then
      setB s (cmpStat j) cmpStat_Latch false else s
  forEach (carPairs s k) s fun s p =>
    let s := if getF s (pwmPctl p) pwmPctl_Loadat < 2 then activateCompares s p else s
    pairEvent (setRefs (endCauses s p) p).1 p true

/-- CARRIER_PERIOD_START: a period start inside the tick; one at the T0 edge is part of TICK_EDGE (`restartCar`). -/
def execCarrierPeriodStart (k : Fin 32) (s : State) : Host.Outcome State Fault Refusal :=
  .next (if carRuns s k then periodStart s k else s)

/-- CARRIER_PEAK: a carrier event of a TRI carrier, and a load point of LOADAT 0b01 (R277, R280, R284). -/
def execCarrierPeak (k : Fin 32) (s : State) : Host.Outcome State Fault Refusal :=
  .next <|
    if carRuns s k && fget (getCar s k).ctl pwmCarctl_Shape == 2 then
      let s := setCar s k { getCar s k with e := (p16 s k + 1) / 2 }
      forEach (carPairs s k) s fun s p =>
        let s := if getF s (pwmPctl p) pwmPctl_Loadat = 1 then activateCompares s p else s
        pairEvent (setRefs s p).1 p false
    else s

/-- COMPARE_EDGE: at elapsed step `e` of its carrier the pair's reference level changes; that instant is a carrier event
of the carrier (R280, R284, R285). -/
def execCompareEdge (p : Fin 48) (e : Nat) (s : State) : Host.Outcome State Fault Refusal :=
  .next <|
    let k := pairCar s p
    if carRuns s k then
      let s := setCar s k { getCar s k with e := e % max 1 (p16 s k) }
      let r := setRefs s p
      if r.2 then carrierEvent r.1 k false else r.1
    else s

/-- DEAD_TIME_END: the output that waits turns on (R286). -/
def execDeadTimeEnd (p : Fin 48) (s : State) : Host.Outcome State Fault Refusal :=
  .next <|
    let q := getPair s p
    driveOutputs (setPair s p { q with deadA := false, deadB := false }) p q.wantA q.wantB

/-- A pair latches a PIN trip of input `k`. -/
def pinTrip (s : State) (k p : Nat) : State :=
  let q := getPair s p
  let held := q.pinHeld || !getB s (pwmTripctl k) pwmTripctl_Mode
  pairTrip (setPair s p { q with pinHeld := held }) p pwmPstat_Pin

/-- The filter of a trip input takes a level after FLENM1 + 1 samples in a row at it (R288). -/
def tripAccepts (s : State) (k : Nat) (samples : BitVec 13) : Bool := decide (getF s (pwmTripctl k) pwmTripctl_Flenm1 + 1 ≤ samples.toNat)

/-- TRIP_INPUT_ACTIVE: the ball of an input comes to `level` and stays there for so many samples; where that is the level POL calls active
and the filter takes it, the filtered line of an enabled input becomes active (R288, R300). -/
def execTripInputActive (k : Fin 16) (level : Bool) (samples : BitVec 13) (s : State) : Host.Outcome State Fault Refusal :=
  .next <|
    if getB s (pwmTripctl k) pwmTripctl_En && tripAccepts s k samples && level != getB s (pwmTripctl k) pwmTripctl_Pol && !getFbit s pwmTripstat pwmTripstat_Level k then
      let s := setFbit (setFbit s pwmTripstat pwmTripstat_Level k true) pwmTripstat pwmTripstat_Seen k true
      let s := forEach ((upto 48).filter fun p => (activeTrips s p).contains k.val) s fun s p => pinTrip s k p
      event s 0x0A01 (getF s (pwmTripctl k) pwmTripctl_Class) 0 [pw k, getReg s (pwmTripmaskl k), getReg s (pwmTripmaskh k)]
    else s

/-- TRIP_INPUT_INACTIVE: the same towards the other level; the filtered line becomes inactive, and LEVEL causes end at the next period
start (R288, R289). -/
def execTripInputInactive (k : Fin 16) (level : Bool) (samples : BitVec 13) (s : State) : Host.Outcome State Fault Refusal :=
  .next (if tripAccepts s k samples && level == getB s (pwmTripctl k) pwmTripctl_Pol then setFbit s pwmTripstat pwmTripstat_Level k false else s)

/-- A pair latches a trip with cause CMP, once reported in a tick (R290, R291); with a disabled carrier it acts at once. -/
def cmpTrip (s : State) (p : Nat) : State :=
  let q := getPair s p
  if getB s (pwmPstat p) pwmPstat_Cmp then s
  else
    let s := setPair s p { q with cmpActs := !carRuns s (pairCar s p), cmpNoted := true }
    let s := pairTrip s p pwmPstat_Cmp
    if q.cmpNoted then s
    else event s 0x0A02 (if getB s (pwmPctl p) pwmPctl_Ctmode then 0 else 1) (resPol s (resPair p)) [pw p, pw (cmpSetMask s p)]

/-- Comparator `c` trips every pair that names it. -/
def comparatorTrip (s : State) (c : Nat) : State := forEach ((upto 48).filter fun p => getFbit s (pwmPctrip p) pwmPctrip_Mask c) s cmpTrip

/-- A write of 1 to PSTAT.TRIPPED (R292); a force that waited for the clear takes effect (R293), on the outputs from the next period start.
Until then a pair whose trip has not acted yet follows its compares. -/
def tripClear (s : State) (p : Nat) : State :=
  let a := pwmPstat p
  let pol := resPol s (resPair p)
  let s := if (activeTrips s p).isEmpty then setPair (setB s a pwmPstat_Pin false) p { getPair s p with pinHeld := false } else s
  let s := if namedCmpSet s p then s else setPair (setB s a pwmPstat_Cmp false) p { getPair s p with cmpActs := false }
  let s := if s.dev.tickRun && !inReset s pol && !s.flt.isol.contains pol then setB s a pwmPstat_Rst false else s
  let s := if getB s safeStat safeStat_Pen then setB s a pwmPstat_Safe false else s
  let was := getB s a pwmPstat_Tripped
  let s := settleTripped s p
  let s := if was && !getB s a pwmPstat_Tripped then setPair s p { getPair s p with cleared := true } else s
  pairRefresh (applyForce s p) p false

/-- A write of PFORCE.MODE (R293): it waits for the next carrier event, or acts at once on a carrier that does not run
(R287). -/
def forceWrite (s : State) (p m : Nat) : State :=
  let s := setF s (pwmPforce p) pwmPforce_Mode m
  let s := setPair s p { getPair s p with forceWait := true }
  if carRuns s (pairCar s p) then s else pairRefresh (applyForce s p) p false

/-! ## Carrier sets at a T0 edge (R281) -/

/-- The committed words of a carrier take effect at this edge, or wait for its period start. -/
def applyCarSet (s : State) (k : Nat) : State :=
  let c := getCar s k
  let cc := getReg s (pwmCarctl k)
  let cp := getReg s (pwmCarper k)
  let ch := getReg s (pwmCarph k)
  let en := fget cc pwmCarctl_En == 1
  let free := fget cc pwmCarctl_Sync == 1
  let was := carRuns s k
  let wasFree := fget c.ctl pwmCarctl_Sync == 1
  let s :=
    if was && en && free && wasFree then
      (if c.base = 0 then loadCar s k cc cp ch (freeStart c.per c.ph cp ch) (freeStart c.per c.ph cp ch)
       else setB (setCar s k { c with waiting := some (cc, cp, ch) }) (pwmCarstat k) pwmCarstat_Setpend true)
    else loadCar s k cc cp ch (lockStart cp ch) (lockStart cp ch)
  carRefs (setB s (pwmCarstat k) pwmCarstat_Run en) k (was != en)

/-- The FREE carriers run on through a tick of `dt` ns, 48 steps each (R276, R278, R279). -/
def runFree (s : State) (dt : Nat) : State :=
  forEach (upto 32) s fun s k =>
    let c := getCar s k
    if carRuns s k && fget c.ctl pwmCarctl_Sync == 1 then
      let e := (c.base + 48 * dt) % max 1 (p16Of c.per)
      setCar s k { c with e := e, base := e }
    else s

/-- The elapsed time of a LOCK carrier at a T0 edge (R278). -/
def lockTime (s : State) (k : Nat) : State :=
  let c := getCar s k
  if carRuns s k && fget c.ctl pwmCarctl_Sync == 0 then setCar s k { c with e := lockStart c.per c.ph, base := lockStart c.per c.ph } else s

/-- What the T0 edge is to a carrier that runs: a period start where its elapsed time is 0 there (R278, R284), else the reference levels of
that time. -/
def restartCar (s : State) (k : Nat) : State :=
  let s := lockTime s k
  if !carRuns s k then s else if (getCar s k).base = 0 then periodStart s k else carRefs s k false

/-- The carriers 40 ns after the T0 edge. -/
def carsAt40 (s : State) : State :=
  forEach ((upto 32).filter (carRuns s)) s fun s k => setCar s k { getCar s k with e := ((getCar s k).base + 1920) % max 1 (p16 s k) }

/-- The compares of the ended tick enter the pending compares at +40 ns; LOADAT 0b10 makes them active at once (R284). -/
def loadCompares (s : State) : State :=
  forEach (upto 48) (carsAt40 s) fun s p =>
    let q := getPair s p
    let s := setPair s p { q with pendA := cellGet 0 s.win p, pendB := cellGet 0 s.win (64 + p) }
    if getF s (pwmPctl p) pwmPctl_Loadat = 2 then pairRefs (activateCompares s p) p else s

/-! ## Edge schedules for cells (R296) -/

/-- Where, in elapsed steps, the switch is on: the interval's start and length, cyclic in the period. -/
def onInterval (shape p d : Nat) : Nat × Nat :=
  let c := (d * p + 65535) / 65536
  let m := (d * p + 131071) / 131072
  if d = 0 then (0, 0)
  else match shape with
    | 0 => (0, c)
    | 1 => ((p + 1 - c) % p, c - 1)
    | _ => ((p + 1 - m) % p, 2 * m - 1)

/-- The start state (1 upper on, 2 lower on) and the edges of a carrier-timed leg, in 5 ns units; 0x7FFF is none. -/
def cellEdges (s : State) (i d : Nat) : Nat × Nat × Nat :=
  let k := getF s (pwmCelltim i) pwmCelltim_Car
  let p := max 1 (480 * period s)
  let d := if d = 0xFFFF then 65536 else d
  let sh := shiftSteps ((getF s (pwmCarph k) pwmCarph_Shift + getF s (pwmCelltim i) pwmCelltim_Cshift) % 65536) p
  let iv := onInterval (fget (getCar s k).ctl pwmCarctl_Shape) p d
  let e0 := (p - sh) % p
  let inside := decide ((e0 + p - iv.1) % p < iv.2)
  if iv.2 = 0 ∨ p ≤ iv.2 then (if iv.2 = 0 then 2 else 1, 0x7FFF, 0x7FFF)
  else
    let tOn := (iv.1 + sh) % p
    let tOff := (iv.1 + iv.2 + sh) % p
    let es := ((if tOn = 0 then [] else [tOn / 240]) ++ (if tOff = 0 then [] else [tOff / 240]))
    let st := if inside then 1 else 2
    match es with
    | [a, b] => if a = b then (st, 0x7FFF, 0x7FFF) else (st, min a b, max a b)
    | [a] => (st, a, 0x7FFF)
    | _ => (st, 0x7FFF, 0x7FFF)

end Sys2Proof.Machine
end

