-- ==== Sys2Proof/Machine/Clnk.lean ====
section
/-! DEFINITION. The cell link (ch. 09): chain start-up, cyclic frames, status, gate codes, bootstrap refresh,
self-test, bypass. -/

namespace Sys2Proof.Machine

def getCell (s : State) (i : Nat) : Cell := cellGet cellReset s.cells i
def setCell (s : State) (i : Nat) (x : Cell) : State := { s with cells := cellSet cellReset s.cells i x }

def portState (s : State) (n : Nat) : Nat := getF s (clnkPstat n) clnkPstat_State
def portPol (s : State) (n : Nat) : Nat := resPol s (resPort n)
def portN (s : State) (n : Nat) : Nat := (getPort s n).recs.length

/-- The symbol time of a rate code in ns (R301). -/
def symbolNs (rate : Nat) : Nat := if rate = 0 then 40 else if rate = 1 then 20 else 10

/-- The running sub-image of a polder. -/
def runSub (s : State) (p : Nat) : Option SubImage := (cellGet polImgReset s.img.pol p).run

/-- The engines that a delivery to an engine reaches: every member and the spare of its placement group (R327, R353). -/
def deliveryEngines (s : State) (e : Nat) : List Nat :=
  match groupOf s e with
  | some (_, g) => g.members ++ g.spare.toList
  | none => [e]

/-- Deliver a word to an engine, and to every member and the spare of its placement group. -/
def deliver (s : State) (e w : Nat) (v : Word) : State := forEach (deliveryEngines s e) s fun s d => wrWord s (dmWord d w) v

/-- A delivery that is in memory 60 ns after the edge (R53): until then steps read the word from before. -/
def deliverLate (s : State) (e w : Nat) (v : Word) : State :=
  let old := (deliveryEngines s e).foldl (fun m d => if (cellFind m (dmWord d w)).isSome then m else cellPut m (dmWord d w) (rdWord s (dmWord d w)))
    s.tick.early
  deliver { s with tick := { s.tick with early := old } } e w v

/-! ## DISC records (R309) -/

/-- Byte `i` of a record. -/
def discByte (r : BitVec 128) (i : Nat) : Nat := r.toNat / 256 ^ (15 - i) % 256

def discSerial (r : BitVec 128) : Word := BitVec.ofNat 32 (r.toNat / 2 ^ 96)
def discRate (r : BitVec 128) : Nat := discByte r 5
def discFeat (r : BitVec 128) : Nat := discByte r 6

/-- The switch classes of S3–S0, three bits each. -/
def discCls (r : BitVec 128) : Nat := discByte r 8 % 64 * 64 + discByte r 7 % 64

/-- The record's CRC is right (R306). -/
def discOk (r : BitVec 128) : Bool := crc16 ((upto 14).map (discByte r)) == r.toNat % 65536

/-! ## Start-up (R307–R312) -/

/-- The CONFIG frame's four bytes for each cell: rate code, enabled features, GSINIT of S0's class, reserved (R307, R329; assumption log 71). -/
def configBytes (s : State) (rate feats : Nat) (recs : List (BitVec 128)) : List Nat :=
  recs.flatMap fun r => [rate, feats, getF s (clnkGsclass (discCls r % 8)) clnkGsclass_Gsinit, 0]

/-- A start-up frame: SOFD, the bytes that open it, its contents, their CRC, EOF (R305–R307; assumption log 71). -/
def linkFrame (kind : Nat) (contents : List Nat) : List Nat :=
  let b := Config.linkHead kind ++ contents
  clSofd :: b ++ beBytes 2 (crc16 b) ++ [clEof]

/-- The position that the next ECHO goes to: the first that 16 answers have not come from (R307). -/
def echoNext (x : Port) : Nat := ((upto x.recs.length).find? fun q => decide ((cellGet (0, 0) x.echo q).2 < 16)).getD 0

/-- What a start-up step sends (R307). -/
def stepLine (s : State) (x : Port) : Tx × List Nat :=
  match x.step with
  | 2 => (.enum, linkFrame 0 [0])
  | 3 => (.config, linkFrame 1 (configBytes s x.tgt x.feats x.recs))
  | 4 => (.rate, (upto 16).flatMap fun k => linkFrame 2 [15 - k])
  | 5 => (.echo, linkFrame 3 [echoNext x])
  | 6 => (.timing, linkFrame 4 (x.wait.flatMap fun t => beBytes 2 (t % 65536).toNat))
  | _ => (.idle, clIdle)

/-- The port sends what its step asks for; while the tick is lost, IDLE only (R307, R325). -/
def portSend (s : State) (n : Nat) : State :=
  let x := getPort s n
  let l := if s.dev.tickLost then (.idle, clIdle) else stepLine s x
  setPort s n { x with tx := l.1, line := l.2 }

/-- Enter a start-up step: 1–6, 7 is RUN. -/
def portStep (s : State) (n step : Nat) : State :=
  let st := if step ≤ 2 then 1 else if step = 3 then 2 else if step = 4 then 3 else if step ≤ 6 then 4 else 5
  portSend (setPort (setF s (clnkPstat n) clnkPstat_State st) n { getPort s n with step := step, tries := 0, echo := [] }) n

/-- Step 1: IDLE at 250 MBd. -/
def portStart (s : State) (n : Nat) : State :=
  let s := setF s (clnkPstat n) clnkPstat_Rate 0
  let s := setPort s n { getPort s n with recs := [], feats := 0, frame := [], tgt := getF s (clnkPcfg n) clnkPcfg_Rmax }
  portStep s n 1

/-- The port is off. -/
def portOff (s : State) (n : Nat) : State :=
  setPort (setF s (clnkPstat n) clnkPstat_State 0) n { getPort s n with step := 0, tx := .nothing, frame := [], line := [] }

/-- FAULT, with its event (R308, R310, R311). -/
def portFault (s : State) (n code : Nat) (params : List Word) : State :=
  let s := setPort (setF s (clnkPstat n) clnkPstat_State 6) n { getPort s n with step := 0, tx := .idle, frame := [], line := clIdle }
  event s code 2 (portPol s n) (pw n :: params)

/-- CL_TRAIN_END: the 200 µs of IDLE end, the port sends ENUM (R307). -/
def execClTrainEnd (n : Fin 48) (s : State) : Host.Outcome State Fault Refusal :=
  .next (if (getPort s n).step = 1 then portStep s n 2 else s)

/-- What a position keeps at an enumeration: only BYPREL ends a bypass (R333, R334). -/
def freshCell (s : State) (i : Nat) : Cell := { cellReset with byp := (getCell s i).byp }

/-- Store what a DISC record says of cell `i` (R309, R329). -/
def storeRec (s : State) (i : Nat) (r : BitVec 128) : State :=
  let cls (k : Nat) : Nat := discCls r / 8 ^ k % 8
  let init (k : Nat) : Nat := getF s (clnkGsclass (cls k)) clnkGsclass_Gsinit
  let gs := init 0 + 16 * init 1 + 256 * init 2 + 4096 * init 3
  let a := clnkCellinfo i
  let s := setF (setF (setF s a clnkCellinfo_State 1) a clnkCellinfo_Cls (discCls r)) a clnkCellinfo_Feat (discFeat r / 2)
  let s := setReg (setF s a clnkCellinfo_Maxrate (discRate r)) (clnkCellser i) (discSerial r)
  setCell s i { freshCell s i with gs := gs, need := true }

/-- CL_DISC_RECEIVED: chain length, rate and features are fixed (R307, R310); an answer with a bad CRC is none. -/
def execClDiscReceived (n : Fin 48) (recs : List (BitVec 128)) (s : State) : Host.Outcome State Fault Refusal :=
  .next <|
    if (getPort s n).step ≠ 2 || !recs.all discOk then s
    else
      let len := recs.length
      let cfg := clnkPcfg n
      let s := setF s (clnkPstat n) clnkPstat_Nfound len
      if len < getF s cfg clnkPcfg_Nmin ∨ getF s cfg clnkPcfg_Nexp < len then portFault s n 0x0B02 [pw 2, pw len]
      else
        let recs := recs.take 24
        let rate := recs.foldl (fun m r => min m (discRate r)) (getF s cfg clnkPcfg_Rmax)
        let feats := recs.foldl (fun m r => m &&& discFeat r) 255
        let s := setPort s n { getPort s n with recs := recs, feats := feats, tgt := rate }
        let s := forEach (upto 24) s fun s p => match recs[p]? with
          | some r => storeRec s (24 * n.val + p) r
          | none => setCell (setReg s (clnkCellinfo (24 * n.val + p)) 0) (24 * n.val + p) (freshCell s (24 * n.val + p))
        let s := if len < getF s cfg clnkPcfg_Nexp then event s 0x0B03 1 (portPol s n) [pw n, pw len] else s
        portStep s n 3

/-- Tret and Tarr in ns at a symbol time (R314). -/
def tretNs (n tb sum : Nat) : Nat := 200 + 2 * sum + 12 * (n - 1) * tb + (27 + 22 * n) * tb
def tarrNs (n tb sum : Nat) : Nat := 200 + (8 + 14 * n) * tb + 6 * (n - 1) * tb + sum

/-- DAPPLY of the owning polder in ns. -/
def dapplyNs (s : State) (pol : Nat) : Nat := 5 * getF s (clnkDapply pol) clnkDapply_Dapply

/-- Both checks of R314 for a port under a DAPPLY and a tick period in ns. -/
def timingOk (s : State) (n dapply tick : Nat) : Bool :=
  let x := getPort s n
  let tb := symbolNs (getF s (clnkPstat n) clnkPstat_Rate)
  decide (tarrNs x.recs.length tb x.sumTc + 200 ≤ dapply) && decide (tretNs x.recs.length tb x.sumTc + 1000 ≤ tick)

/-- The WAIT values of a chain (R311). -/
def waits (x : Port) (dapply : Nat) : List Int := x.tdn.map fun t => (dapply : Int) - t

/-- The timing checks fail: FAULT with event 0x0B0B (R311). -/
def timingFault (s : State) (n : Nat) : State :=
  portFault s n 0x0B0B [pw (getF s (clnkPtime n) clnkPtime_Tarr), pw (getF s (clnkPtime n) clnkPtime_Tret)]

/-- The checks of R314 as DAPPLY and the tick period are now. -/
def timingNow (s : State) (n : Nat) : Bool := timingOk s n (dapplyNs s (portPol s n)) (10 * period s)

/-- Entry to RUN (R312). -/
def portRun (s : State) (n : Nat) : State :=
  let s := portTripRst (portStep s n 7) n
  let len := portN s n
  let now := (s.tick.count.toNat, s.time)
  let s := forEach (upto len) s fun s p =>
    let i := 24 * n + p
    let c := getCell s i
    let s := setF s (clnkCellinfo i) clnkCellinfo_State (if c.byp then 3 else 2)
    setCell s i { c with pass := (upto 8).foldl (fun m k => if (cellFind m k).isSome then m else cellPut m k now) c.pass }
  event s 0x0B01 0 (portPol s n) [pw n, pw len, pw (getF s (clnkPstat n) clnkPstat_Rate)]

/-- CL_ACK_RECEIVED: an answer to CONFIG or TIMING with so many ACKs; the step ends with N (R307, R312). RUN is entered only when the checks of
R314 hold then (R311). -/
def execClAckReceived (n : Fin 48) (acks : Fin 32) (s : State) : Host.Outcome State Fault Refusal :=
  .next (if acks.val ≠ portN s n then s
    else match (getPort s n).step with
    | 3 => portStep s n 4
    | 6 => if timingNow s n then portRun s n else timingFault s n
    | _ => s)

/-- CL_RATE_RELOCK: an ENUM at the new rate returns the same records (R307). -/
def execClRateRelock (n : Fin 48) (recs : List (BitVec 128)) (s : State) : Host.Outcome State Fault Refusal :=
  .next <|
    let x := getPort s n
    if x.step = 4 ∧ recs = x.recs then portStep (setF s (clnkPstat n) clnkPstat_Rate x.tgt) n 5 else s

/-- The delays of a chain from its ECHO round trips (R307, R311): a round trip is twice Tdn, and 20 tb in the cell. -/
def chainDelays (x : Port) (tb : Nat) : List Nat :=
  (upto x.recs.length).map fun p =>
    let r := cellGet (0, 0) x.echo p
    (r.1 / max 1 r.2 - 20 * tb) / 2

/-- CL_ECHO_ANSWER: an ECHO of position `p` is answered after `rt` ns; when every one is, delays, WAIT values and the
timing checks follow (R311, R314). -/
def execClEchoAnswer (n : Fin 48) (p : Fin 24) (rt : Nat) (s : State) : Host.Outcome State Fault Refusal :=
  .next <|
    let x := getPort s n
    if x.step ≠ 5 ∨ x.recs.length ≤ p.val then s
    else
      let r := cellGet (0, 0) x.echo p
      let x := { x with echo := cellPut x.echo p (r.1 + rt, r.2 + 1) }
      if (upto x.recs.length).all fun q => decide (16 ≤ (cellGet (0, 0) x.echo q).2) then
        let tb := symbolNs (getF s (clnkPstat n) clnkPstat_Rate)
        let tdn := chainDelays x tb
        let sum := tdn.getLastD 0 - 6 * (x.recs.length - 1) * tb
        let da := dapplyNs s (portPol s n)
        let x := { x with tdn := tdn, sumTc := sum }
        let s := setPort s n { x with wait := waits x da }
        let s := setF s (clnkPtime n) clnkPtime_Tret (tretNs x.recs.length tb sum / 10)
        let s := setF s (clnkPtime n) clnkPtime_Tarr (tarrNs x.recs.length tb sum / 10)
        if timingNow s n then portStep s n 6 else timingFault s n
      else portSend (setPort s n x) n

/-- CL_STEP_TIMEOUT: a step is repeated up to twice, then falls back in rate or enters FAULT (R308). -/
def execClStepTimeout (n : Fin 48) (s : State) : Host.Outcome State Fault Refusal :=
  .next <|
    let x := getPort s n
    if x.step < 2 ∨ 6 < x.step then s
    else if x.tries < 2 then portSend (setPort s n { x with tries := x.tries + 1, echo := [] }) n
    else if (x.step = 4 ∨ x.step = 5) ∧ x.tgt ≠ 0 then
      let s := notice s 0x0B09 (portPol s n) [pw n, pw (x.tgt - 1)]
      portStep (setPort s n { x with tgt := x.tgt - 1 }) n 3
    else portFault s n 0x0B02 [pw x.step, pw x.recs.length]

/-- CL_FAULT_RESTART: 100 ms after FAULT with EN set (R308). -/
def execClFaultRestart (n : Fin 48) (s : State) : Host.Outcome State Fault Refusal :=
  .next (if portState s n = 6 ∧ getB s (clnkPcfg n) clnkPcfg_En then portStart s n else s)

/-! ## Bypass (R333, R334) -/

/-- Bypass a cell of the chain, once (R333). -/
def bypassCell (s : State) (i cause : Nat) : State :=
  let c := getCell s i
  if c.byp || decide (portN s (i / 24) ≤ i % 24) then s
  else
    let s := setF (setCell s i { c with byp := true }) (clnkCellinfo i) clnkCellinfo_State 3
    notice s 0x0B06 (portPol s (i / 24)) [pw i, Config.causeWord 0x0B06 cause]

/-- FEAT bits of a cell (R309): 0 GSADJ, 2 SELFTEST, 3 BYPDEV, 4 and 5 BOOT, 6 LEGS2. -/
def cellFeat (s : State) (i b : Nat) : Bool :=
  match (getPort s (i / 24)).recs[i % 24]? with
  | some r => nbit (discFeat r) b
  | none => false

/-- The state CELLINFO shows for a cell that is not bypassed. -/
def cellInfoState (c : Cell) : Nat := if c.lost then 4 else if c.wdog then 5 else 2

/-- The write of BYPREL: no effect on a closed bypass device, with latched faults, or while W2 bit 0 is set (R334). -/
def byprel (s : State) (i : Nat) : State :=
  let c := getCell s i
  if c.byp && !cellFeat s i 3 && nbits c.last.toNat 43 40 == 0 && !nbit (cellGet 0 s.win (128 + 4 * i + 2)).toNat 0 then
    setF (setCell s i { c with byp := false }) (clnkCellinfo i) clnkCellinfo_State (cellInfoState c)
  else s

/-- The write of FCLR: it goes out in the next slot (R328). -/
def fclrWrite (s : State) (i : Nat) : State := setCell s i { getCell s i with fclr := true }

/-! ## Status frames (R316, R320, R331–R333) -/

/-- The comparator that the rotation stands at: position, switch, kind. -/
def rotCell (r : Nat) : Nat := r / 8
def rotSwitch (r : Nat) : Nat := r / 2 % 4
def rotKind (r : Nat) : Nat := r % 2

/-- A self-test result in a valid status (R331, R332). -/
def testResult (s : State) (n p : Nat) (b : Nat) : State :=
  let x := getPort s n
  let i := 24 * n + p
  let res := nbits b 35 34
  if res = 0 ∨ rotCell x.rot ≠ p ∨ nbits b 33 30 ≠ 4 * rotSwitch x.rot + rotKind x.rot then s
  else if res = 3 then setPort s n { x with rotKeep := true }
  else if res = 1 then
    let c := getCell s i
    setCell s i { c with pass := cellPut c.pass (x.rot % 8) (s.tick.count.toNat, s.time) }
  else
    let s := event s 0x0B07 1 (portPol s n) [pw i, pw (rotSwitch x.rot), pw (rotKind x.rot)]
    if getB s (clnkPcfg n) clnkPcfg_Stb then bypassCell s i 1 else s

/-- A valid status slot of a cell: faults, WDOG, test result, refresh that did not happen (R320, R330, R333, R340). -/
def statusOk (s : State) (n p : Nat) (bits : BitVec 160) : State :=
  let i := 24 * n + p
  let b := bits.toNat
  let c := getCell s i
  let old := nbits c.last.toNat 47 40
  let flt := nbits b 47 40
  let lnk := nbit flt 6
  let wd := nbit b 20
  let c := { c with rx := .good, last := bits, wdog := c.wdog || wd, need := c.need || wd
                    g0 := if lnk then c.h0 + period s else c.g0, g1 := if lnk then c.h1 + period s else c.g1 }
  let s := setF (setCell s i c) (clnkCellinfo i) clnkCellinfo_State (if c.byp then 3 else cellInfoState c)
  let pol := portPol s n
  let s := if flt % 16 != 0 && (flt % 16) ||| (old % 16) != old % 16 then event s 0x0B05 1 pol [pw i, pw flt] else s
  let s := if flt % 16 != 0 && getB s (clnkPcfg n) clnkPcfg_Atb then bypassCell s i 0 else s
  let s := if wd then event s 0x0B0A 1 pol [pw i] else s
  let s := if nbits flt 5 4 != 0 && (nbits flt 5 4) ||| (nbits old 5 4) != nbits old 5 4 then event s 0x0B0C 1 pol [pw i, pw flt] else s
  testResult s n p b

/-- The CRC of a status slot is right (R306, R316). -/
def stsSlotOk (bits : BitVec 160) (crc : BitVec 16) : Bool := crc16 (beBytes 20 bits.toNat) == crc.toNat

/-- The position of the cell that opened an STS frame: byte 4 of bytes 1 to 5 (R316). -/
def stsOrig (head : BitVec 40) : Nat := head.toNat / 256 % 256

/-- The header of an STS frame, bytes 1 to 5, is right: TYPE, SEQ of the CMD frame, zero bytes, a position of the chain, HCRC (R316). -/
def stsHeadOk (x : Port) (head : BitVec 40) (hcrc : BitVec 16) : Bool :=
  match beBytes 5 head.toNat with
  | [type, seq, nul, orig, rest] => type == 0x81 && seq == x.seq && nul == 0 && decide (orig < x.recs.length) && rest == 0 &&
      crc16 [type, seq, nul, orig, rest] == hcrc.toNat
  | _ => false

/-- The bytes of a status slot as it came. -/
def slotBytes : SlotRx → List Nat
  | .slot bits crc => beBytes 20 bits.toNat ++ beBytes 2 crc.toNat
  | .missing => []

/-- STS_FRAME: the port checks and stores each cell's status slot; the slots come in the order ORIG down to 0 (R316, R320). A frame with a
bad header is not received (assumption log 70, DEDUCED). -/
def execStsFrame (n : Fin 48) (head : BitVec 40) (hcrc : BitVec 16) (slots : List SlotRx) (s : State) : Host.Outcome State Fault Refusal :=
  .next <|
    let x := getPort s n
    let line := clSofu :: beBytes 5 head.toNat ++ beBytes 2 hcrc.toNat ++ slots.flatMap slotBytes ++ [clEof]
    let s := setPort s n { x with rline := line }
    if portState s n ≠ 5 || !stsHeadOk x head hcrc then s
    else
      forEach (upto (portN s n)) s fun s p =>
        let i := 24 * n.val + p
        match if p ≤ stsOrig head then slots.getD (stsOrig head - p) .missing else .missing with
        | .slot bits crc =>
          if stsSlotOk bits crc then statusOk s n p bits
          else countF (setCell s i { getCell s i with rx := .bad }) (clnkPerr n) clnkPerr_Crccnt 1
        | .missing => s

/-- CELL_LOST: MISSLIM consecutive invalid slots (R320). -/
def execCellLost (i : Fin 1152) (s : State) : Host.Outcome State Fault Refusal :=
  .next <|
    let c := getCell s i
    if !c.lost && portState s (i / 24) == 5 && decide (getF s (clnkPcfg (i / 24)) clnkPcfg_Misslim ≤ c.misses) then
      let s := setF (setCell s i { c with lost := true }) (clnkCellinfo i) clnkCellinfo_State 4
      event s 0x0B04 1 (portPol s (i / 24)) [pw i]
    else s

/-- CELL_RETURN: a LOST cell after 64 consecutive valid slots (R320). -/
def execCellReturn (i : Fin 1152) (s : State) : Host.Outcome State Fault Refusal :=
  .next <|
    let c := getCell s i
    if c.lost && decide (64 ≤ c.good) then
      setF (setCell s i { c with lost := false }) (clnkCellinfo i) clnkCellinfo_State (if c.byp then 3 else cellInfoState { c with lost := false })
    else s

/-- INH_REPEAT: while SAFE is latched, and in isolation as long as the ticks run, the port sends INH between frames (R323, R325, R468;
assumption log 70). -/
def execInhRepeat (n : Fin 48) (s : State) : Host.Outcome State Fault Refusal :=
  .next (if (getB s (clnkPstat n) clnkPstat_Safe || (s.dev.tickRun && s.flt.isol.contains (portPol s n) && !inReset s (portPol s n))) &&
    (getPort s n).tx != .nothing then setPort s n { getPort s n with tx := .inh, line := clInh } else s)

/-- A write of 1 to PSTAT.TRIPPED (R324). -/
def portClear (s : State) (n : Nat) : State :=
  let a := clnkPstat n
  let s := if getB s safeStat safeStat_Pen then setB s a clnkPstat_Safe false else s
  let s := if s.dev.tickRun && !inReset s (portPol s n) && !s.flt.isol.contains (portPol s n) && portState s n == 5 then setB s a clnkPstat_Rst false else s
  setB s a clnkPstat_Tripped (getB s a clnkPstat_Safe || getB s a clnkPstat_Rst)

/-! ## Self-test rotation (R332) -/

/-- The comparators of a port that the rotation visits: running cells with SELFTEST, the switches they have. -/
def rotList (s : State) (n : Nat) : List Nat :=
  (upto 192).filter fun r =>
    let i := 24 * n + rotCell r
    decide (rotCell r < portN s n) && cellFeat s i 2 && (decide (rotSwitch r < 2) || cellFeat s i 6) &&
      getF s (clnkCellinfo i) clnkCellinfo_State == 2

/-- The comparator after `r` in the rotation. -/
def rotNext (l : List Nat) (r : Nat) : Option Nat :=
  match l.find? fun x => decide (r < x) with
  | some x => some x
  | none => l.head?

/-- SELFTEST_STEP: every GAP ticks the rotation advances; a test that was not run is asked for again (R332). -/
def execSelftestStep (n : Fin 48) (s : State) : Host.Outcome State Fault Refusal :=
  .next <|
    let x := getPort s n
    if getB s clnkTstcfg clnkTstcfg_En && portState s n == 5 && decide (getF s clnkTstcfg clnkTstcfg_Gap ≤ x.gap) then
      let l := rotList s n
      let next := if x.rotKeep && l.contains x.rot then some x.rot else rotNext l x.rot
      match next with
      | some r => setPort s n { x with rot := r, rotKeep := false, gap := 0, testPend := true }
      | none => setPort s n { x with gap := 0 }
    else s

/-- A day in ns. -/
def dayNs : Nat := 86400000000000

/-- SELFTEST_PASS_TIMEOUT: a comparator that a running cell has, without a pass for 24 h, once a day (R332). -/
def execSelftestPassTimeout (i : Fin 1152) (k : Fin 8) (s : State) : Host.Outcome State Fault Refusal :=
  .next <|
    let c := getCell s i
    let since := max (cellGet (0, 0) c.pass k).2 (cellGet 0 c.noted k)
    if getF s (clnkCellinfo i) clnkCellinfo_State == 2 && cellFeat s i 2 && (decide (k.val / 2 < 2) || cellFeat s i 6) && decide (since + dayNs ≤ s.time) then
      let s := setCell s i { c with noted := cellPut c.noted k s.time }
      event s 0x0B08 1 (portPol s (i / 24)) [pw i, pw (k / 2), pw (k % 2)]
    else s

/-! ## The T0 edge (R313, R320, R326–R330) -/

/-- The gate codes that go out: GSFIX in place of the adapted ones where it is on (R329). -/
def gateCodes (s : State) (i : Nat) : Nat :=
  if getB s (clnkCellctl i) clnkCellctl_Gsfixen then 0x1111 * getF s (clnkCellctl i) clnkCellctl_Gsfix else (getCell s i).gs

/-- The adapted code of one switch after a status (R329). -/
def adaptCode (s : State) (i b k code : Nat) : Nat :=
  let cls := getF s (clnkCellinfo i) clnkCellinfo_Cls / 8 ^ k % 8
  let a := clnkGsclass cls
  let t := nbits b 143 80
  let ton := t / 2 ^ (56 - 16 * k) % 256
  let toff := t / 2 ^ (48 - 16 * k) % 256
  let m := if getB s a clnkGsclass_Kind then toff else ton
  let band := nbits b 39 36 / 4 ^ (k / 2) % 4
  let hyst := getF s a clnkGsclass_Hyst
  let tgt := getF s a clnkGsclass_Ttgt
  let lim (c : Nat) : Nat := max (code - 1) (min (code + 1) (max (getF s a clnkGsclass_Gsmin) (min (getF s a clnkGsclass_Gsmax) c)))
  if m = 0xFF ∨ band < getF s a clnkGsclass_Bandmin then code
  else if m = 0xFE ∨ tgt + hyst < m then lim (code + 1)
  else if m + hyst < tgt then lim (code - 1)
  else lim code

/-- Gate-code adaptation of a cell with a new status. -/
def adaptCell (s : State) (i b : Nat) : State :=
  if cellFeat s i 0 && getB s (clnkPcfg (i / 24)) clnkPcfg_Gsa then
    let c := getCell s i
    setCell s i { c with gs := (upto 4).foldl (fun n k => n + adaptCode s i b k (c.gs / 16 ^ k % 16) * 16 ^ k) 0 }
  else s

/-- A cell's status at the edge: counted, adapted, delivered (R320, R327, R329). -/
def cellEdge (s : State) (n p : Nat) : State :=
  let i := 24 * n + p
  let c := getCell s i
  let got := c.rx == .good
  let s := if c.rx = .missing then countF s (clnkPerr n) clnkPerr_Misscnt 1 else s
  let s := if got then adaptCell s i c.last.toNat else s
  let c := getCell s i
  let c := if got then { c with misses := 0, good := c.good + 1 } else { c with misses := c.misses + 1, good := 0 }
  let b := c.last.toNat
  let word := bit got * 2 ^ 31 + bit (!got) * 2 ^ 30 + bit c.byp * 2 ^ 29 + bit c.lost * 2 ^ 28 + bit c.wdog * 2 ^ 27 +
    min 255 c.misses * 65536 + gateCodes s i
  let s := setCell s i { c with rx := .missing, wdog := false }
  match runSub s (portPol s n) with
  | some sub =>
    match sub.portDest.find? fun d => d.1 == n with
    | some (_, e, w) =>
      let s := forEach (upto 5) s fun s k => deliver s e (w + 8 * p + k) (BitVec.ofNat 32 (b / 2 ^ (128 - 32 * k)))
      deliver (deliver (deliver s e (w + 8 * p + 5) (BitVec.ofNat 32 word)) e (w + 8 * p + 6) 0) e (w + 8 * p + 7) 0
    | none => s
  | none => s

/-- One leg of a slot: start state and edges (R326). -/
def legOf (s : State) (i : Nat) (w : Word) : Nat × Nat × Nat :=
  let v := w.toNat
  if nbits v 31 30 = 3 then cellEdges s i (v % 65536) else (nbits v 31 30, nbits v 29 15, nbits v 14 0)

/-- The edges of a leg that act in a window of `2 × TICKP` units of 5 ns (R315). -/
def legEdges (win : Nat) (l : Nat × Nat × Nat) : List Nat :=
  if l.1 = 0 ∨ l.2.1 = l.2.2 then []
  else (if l.2.1 ≠ 0x7FFF ∧ l.2.1 < win then [l.2.1] else []) ++ (if l.2.2 ≠ 0x7FFF ∧ l.2.2 < win then [l.2.2] else [])

/-- The longest time the lower switch is on in a window. -/
def lowerTime (win : Nat) (l : Nat × Nat × Nat) : Nat :=
  if l.1 = 0 then 0
  else match legEdges win l with
    | [] => if l.1 = 2 then win else 0
    | [a] => if l.1 = 2 then a else win - a
    | a :: b :: _ => if l.1 = 2 then max a (win - b) else b - a

/-- The switch is off in the whole window: 0 upper, 1 lower. -/
def switchOff (win : Nat) (l : Nat × Nat × Nat) (lower : Bool) : Bool :=
  l.1 == 0 || ((legEdges win l).isEmpty && (l.1 == (if lower then 1 else 2)))

/-- Whether a leg needs RF in this window (R330). -/
def needRf (s : State) (i k g win : Nat) (l : Nat × Nat × Nat) (need pinh : Bool) : Bool :=
  let upper := l.1 == 1 || (l.1 == 2 && !(legEdges win l).isEmpty)
  let rfw := getF s clnkBootcfg clnkBootcfg_Rfw
  !pinh && getB s (clnkPcfg (i / 24)) clnkPcfg_Bte && cellFeat s i (4 + k) &&
    ((decide (getF s clnkBootcfg clnkBootcfg_Blim * 100 < g + period s) && decide (lowerTime win l < rfw)) || (need && upper))

/-- The slot of cell `i` in the frame of this edge, with what it leaves behind. -/
def cellSlot (s : State) (n p : Nat) (pinh : Bool) : State × BitVec 96 :=
  let i := 24 * n + p
  let w (k : Nat) : Word := cellGet 0 s.win (128 + 4 * i + k)
  let s := if nbit (w 2).toNat 0 then bypassCell s i 2 else s
  let c := getCell s i
  let x := getPort s n
  let win := 2 * period s
  let l0 := legOf s i (w 0)
  let l1 := legOf s i (w 1)
  let rf0 := needRf s i 0 c.g0 win l0 c.need pinh
  let rf1 := needRf s i 1 c.g1 win l1 c.need pinh
  let rfw := getF s clnkBootcfg clnkBootcfg_Rfw
  let sw := rotSwitch x.rot
  let leg := if sw < 2 then l0 else l1
  let ten := x.testPend && rotCell x.rot == p && switchOff win leg (sw % 2 == 1) && !(if sw < 2 then rf0 else rf1)
  let v := ((l0.1 * 2 ^ 15 + l0.2.1) * 2 ^ 15 + l0.2.2) * 2 ^ 32 + ((l1.1 * 2 ^ 15 + l1.2.1) * 2 ^ 15 + l1.2.2)
  let low := gateCodes s i * 65536 + bit rf1 * 32768 + bit rf0 * 16384 + bit c.byp * 8192 + bit ten * 4096 +
    (if ten then sw * 1024 + rotKind x.rot * 256 else 0) + bit c.fclr * 128
  let g (g : Nat) (rf : Bool) (l : Nat × Nat × Nat) : Nat := if !pinh && (rf || decide (rfw ≤ lowerTime win l)) then 0 else g + period s
  let c := { c with fclr := false, h0 := c.g0, h1 := c.g1, g0 := g c.g0 rf0 l0, g1 := g c.g1 rf1 l1, need := pinh }
  let s := setCell s i c
  let s := if ten then setPort s n { x with testPend := false } else s
  (s, BitVec.ofNat 96 (v * 2 ^ 32 + low))

/-- The slots of a chain in order. -/
def buildSlots (s : State) (n : Nat) (pinh : Bool) : Nat → State × List (BitVec 96)
  | 0 => (s, [])
  | k + 1 =>
    let r := buildSlots s n pinh k
    let c := cellSlot r.1 n k pinh
    (c.1, r.2 ++ [c.2])

/-- The code groups of a CMD frame: SOFD, header with its CRC, slots with theirs, EOF (R306, R313). -/
def cmdBytes (seq tickp : Nat) (pinh : Bool) (slots : List (BitVec 96)) : List Nat :=
  let head := [1, seq, 128 * bit pinh] ++ beBytes 2 tickp
  let crcd (l : List Nat) : List Nat := l ++ beBytes 2 (crc16 l)
  clSofd :: crcd head ++ (slots.flatMap fun w => crcd (beBytes 12 w.toNat)) ++ [clEof]

/-- The CMD frame of this edge (R313, R324). -/
def cmdFrame (s : State) (n : Nat) : State :=
  if portState s n ≠ 5 then s
  else
    let pinh := getB s (clnkPstat n) clnkPstat_Safe || getB s (clnkPstat n) clnkPstat_Rst
    let r := buildSlots s n pinh (portN s n)
    let x := getPort r.1 n
    let seq := s.tick.count.toNat % 256
    setPort r.1 n { x with line := cmdBytes seq (period s) pinh r.2, frame := r.2, pinh := pinh, seq := seq, tickp := period s, tx := .cmd, gap := x.gap + 1 }

/-- Status of a tick that has had a CMD frame, to the engines. -/
def portEdge (s : State) (n : Nat) : State :=
  if portState s n = 5 ∧ (getPort s n).frame ≠ [] then forEach (upto (portN s n)) s fun s p => cellEdge s n p else s

/-- After a commit that changed EN, RMAX, NEXP or NMIN the port starts anew (R307, R312). -/
def portCommit (s : State) (n : Nat) (old : Word) : State :=
  let new := getReg s (clnkPcfg n)
  let same (f : Fld) : Bool := fget old f == fget new f
  let s :=
    if same clnkPcfg_En && same clnkPcfg_Rmax && same clnkPcfg_Nexp && same clnkPcfg_Nmin then s
    else if fget new clnkPcfg_En = 1 then portStart s n else portOff s n
  setPort s n { getPort s n with wait := waits (getPort s n) (dapplyNs s (portPol s n)) }

end Sys2Proof.Machine
end

