-- ==== Sys2Proof/Machine/Fs.lean ====
section
/-! DEFINITION. What the certified function sets share (R143–R148): where a placed segment finds its blocks, the take
of the live block (R146), fixed-point arithmetic whose rounding the spec leaves open. The segment's internal state
stands in its own memory words, in a layout of the model (assumption log 16, DESIGN CHOICE). -/

namespace Sys2Proof.Machine

/-! ## Fixed point -/

/-- A quotient by a positive divisor: exact, or one of its two neighbours (`Config.roundUp`). -/
def fsDivPos (n d : Int) : Int := if n % d = 0 then n / d else n / d + (if Config.roundUp n d then 1 else 0)

/-- An exact quotient, or one of its two neighbours. -/
def fsDiv (n d : Int) : Int := if d < 0 then fsDivPos (-n) (-d) else fsDivPos n d

/-- One in Q4.28. -/
def one28 : Int := 268435456

/-- A product of two Q4.28 values. -/
def mulQ (a b : Int) : Int := fsDiv (a * b) one28

/-- A quotient of two Q4.28 values. -/
def divQ (a b : Int) : Int := fsDiv (a * one28) b

/-- The root of `n` below 2^(k), bit by bit from bit k − 1. -/
def isqrtGo : Nat → Nat → Nat → Nat
  | 0, _, r => r
  | k + 1, n, r => if (r + 2 ^ k) * (r + 2 ^ k) ≤ n then isqrtGo k n (r + 2 ^ k) else isqrtGo k n r

/-- The integer root. -/
def isqrt (n : Nat) : Nat := isqrtGo 48 n 0

/-- A root, exact or one of its two neighbours. -/
def fsRoot (n : Int) : Int :=
  let r : Int := isqrt n.toNat
  if r * r = n then r else r + (if Config.roundUp n 0 then 1 else 0)

/-- A root that does not pass the exact one, for a limit that must hold. -/
def fsRootDown (n : Int) : Int := isqrt n.toNat

/-- The root of 3, and half of pi, in 2^-60. -/
def rootThree : Int := 1996918623117814388
def halfPi : Int := 1811004864519280711

/-- The sine of an angle up to a quarter turn, in radians and 2^-60: the series up to x^23, from the last of `k` terms. -/
def sinSeries (x2 : Int) : Nat → Int → Int
  | 0, t => t
  | k + 1, t => sinSeries x2 k (2 ^ 60 - x2 * t / (2 ^ 60 * ((2 * k + 2) * (2 * k + 3))))

/-- The sine of `r` of 3 · 2^32 parts of a quarter turn, in 2^-60. -/
def sinQuarter (r : Int) : Int :=
  let x := r * halfPi / (3 * 2 ^ 32)
  x * sinSeries (x * x / 2 ^ 60) 11 (2 ^ 60) / 2 ^ 60

/-- The sine in Q4.28 of an angle with 12 · 2^32 to one turn, or a neighbour of it. -/
def fsSin (a : Int) : Int :=
  let q : Int := 3 * 2 ^ 32
  let n := a % (4 * q)
  let r := n % q
  let v := if n / q % 2 = 0 then sinQuarter r else sinQuarter (q - r)
  fsDiv (if n / q < 2 then v else -v) (2 ^ 32)

/-- The cosine. -/
def fsCos (a : Int) : Int := fsSin (a + 3 * 2 ^ 32)

/-- An angle word (2^32 per turn), as the sine takes it, and so many twelfths of a turn. -/
def angle12 (w : Word) (k : Int) : Int := 12 * (w.toNat : Int) + k * 2 ^ 32

/-- The phases of a vector in the stationary frame: alpha lies on phase a. -/
def fsPhase (alpha beta : Int) (k : Nat) : Int :=
  match k with
  | 0 => alpha
  | 1 => fsDiv (-alpha * 2 ^ 60 + beta * rootThree) (2 ^ 61)
  | _ => fsDiv (-alpha * 2 ^ 60 - beta * rootThree) (2 ^ 61)

/-- A raw input, a fraction of full scale with 2^31 to one (R351), times its scale (raw to pu), in Q4.28 (assumption log 64). -/
def fsScale (raw scale : Int) : Int := satS 32 (fsDiv (raw * scale) 2147483648)

/-- A vector turned by an angle with 12 · 2^32 to one turn. -/
def fsTurn (v : Int × Int) (a : Int) : Int × Int := (mulQ v.1 (fsCos a) - mulQ v.2 (fsSin a), mulQ v.1 (fsSin a) + mulQ v.2 (fsCos a))

/-- The vector of three phase values in the stationary frame: alpha lies on phase a. -/
def fsVector (a b c : Int) : Int × Int := (fsDiv (2 * a - b - c) 3, fsDiv ((b - c) * rootThree) (3 * 2 ^ 60))

/-- The angle of a vector in the first quadrant, with 2^32 to one turn, bit by bit. -/
def fsAngleGo (x y : Int) : Nat → Int → Int
  | 0, a => a
  | k + 1, a => fsAngleGo x y k (if x * fsSin (12 * (a + 2 ^ k)) ≤ y * fsCos (12 * (a + 2 ^ k)) then a + 2 ^ k else a)

/-- The angle of a vector, with 2^32 to one turn. -/
def fsAngle (x y : Int) : Int :=
  if 0 < x ∧ 0 ≤ y then fsAngleGo x y 30 0
  else if x ≤ 0 ∧ 0 < y then 2 ^ 30 + fsAngleGo y (-x) 30 0
  else if x < 0 ∧ y ≤ 0 then 2 ^ 31 + fsAngleGo (-x) (-y) 30 0
  else 3 * 2 ^ 30 + fsAngleGo (-y) x 30 0

/-- The gains of a second-order loop with natural frequency `bw` in Hz and damping 0.707, applied to its error over a tick of `ts` in 10 ns:
1.414 · ωn · T · e and (ωn · T)² · e, as R254 has them. -/
def loopK1 (bw ts e : Int) : Int := fsDiv (1414 * (4 * halfPi * bw * ts) * e) (1000 * 2 ^ 60 * 10 ^ 8)
def loopK2 (bw ts e : Int) : Int := fsDiv ((4 * halfPi * bw * ts) * (4 * halfPi * bw * ts) * e) (2 ^ 120 * 10 ^ 16)

/-- The word of a value, limited to 32 bits. -/
def qw (x : Int) : Word := wordOfInt (satS 32 x)

/-- The magnitude of a value as a number. -/
def absI (x : Int) : Int := if x < 0 then -x else x

/-! ## Placed segments -/

/-- A placed segment as one engine runs it. -/
structure FsAt where
  e : Nat
  idx : Nat
  pl : Placed
  lead : Bool
  deriving DecidableEq, Repr

/-- The engines that run a placed segment: the one named, or the group's present members, with the spare after a
mismatch (R123). -/
def placedOn (s : State) (pl : Placed) : List Nat :=
  if pl.group = 255 then [pl.engine]
  else
    let g := getGroup s (pl.polder * 256 + pl.group)
    if g.restoring then g.members ++ g.spare.toList else g.members

/-- Placed segment `i` as it runs on its engines. -/
def fsRuns (s : State) (i : Nat) : List FsAt :=
  match s.img.insts[i]? with
  | some pl => (placedOn s pl).map fun e => { e := e, idx := i, pl := pl, lead := (placedOn s pl).head? == some e }
  | none => []

/-- The placed segment that starts at table word `seg` of engine `e`, if one does. -/
def fsAt (s : State) (e seg : Nat) : Option FsAt :=
  ((upto s.img.insts.length).flatMap fun i => fsRuns s i).find? fun f => f.e == e && f.pl.seg == seg

/-- Do something for each engine of placed segment `i`, when it holds segment `id`. -/
def fsEach (s : State) (i id : Nat) (f : State → FsAt → State) : State :=
  forEach ((fsRuns s i).filter fun x => x.pl.segId == id) s f

/-- A word of the block that starts at the live block. -/
def lv (s : State) (f : FsAt) (o : Nat) : Word := rdWord s (engBase f.e + (f.pl.live + o) % 0x20000)
def lvN (s : State) (f : FsAt) (o : Nat) : Nat := (lv s f o).toNat
def lvI (s : State) (f : FsAt) (o : Nat) : Int := (lv s f o).toInt
def lvSet (s : State) (f : FsAt) (o : Nat) (w : Word) : State := wrWord s (engBase f.e + (f.pl.live + o) % 0x20000) w
def lvSetN (s : State) (f : FsAt) (o n : Nat) : State := lvSet s f o (BitVec.ofNat 32 n)
def lvSetI (s : State) (f : FsAt) (o : Nat) (i : Int) : State := lvSet s f o (qw i)

/-- A 64-bit number in two words of the block. -/
def lvL (s : State) (f : FsAt) (o : Nat) : Nat := lvN s f o + 4294967296 * lvN s f (o + 4)
def lvSetL (s : State) (f : FsAt) (o n : Nat) : State := lvSetN (lvSetN s f o n) f (o + 4) (n / 4294967296)

/-- A count of consecutive ticks in a word of the block. -/
def lvRun (s : State) (f : FsAt) (o : Nat) (b : Bool) : State :=
  lvSetN s f o (if b then satInc 4294967295 (lvN s f o) 1 else 0)

/-- A word of the fixed block, in the bank that the engine executes (R110, R145). -/
def fx (s : State) (f : FsAt) (o : Nat) : Word := rdWord s (bankWord f.e (actBank s f.e) 0 + (f.pl.fixed + o) % 0x10000)
def fxN (s : State) (f : FsAt) (o : Nat) : Nat := (fx s f o).toNat
def fxI (s : State) (f : FsAt) (o : Nat) : Int := (fx s f o).toInt

/-- The first `n` words of the fixed block. -/
def fxWords (s : State) (f : FsAt) (n : Nat) : List Word := (upto n).map fun k => fx s f (4 * k)

/-- A word of the engine's data memory at an engine address. -/
def em (s : State) (f : FsAt) (a : Nat) : Word := rdWord s (engBase f.e + a % 0x20000)
def emSet (s : State) (f : FsAt) (a : Nat) (w : Word) : State := wrWord s (engBase f.e + a % 0x20000) w

/-- Words of the block. -/
def lvWords (s : State) (f : FsAt) (o n : Nat) : List Word := rdWords s (engBase f.e + (f.pl.live + o) % 0x20000) n

/-- A value the chapter bounds and does not give (`Config.fsValue`). -/
def fsV (f : FsAt) (k : Nat) (l : List Word) : Word := Config.fsValue f.pl.segId k l

/-- Such a value between bounds that the chapter gives. -/
def fsIn (f : FsAt) (k : Nat) (l : List Word) (lo hi : Int) : Int := clampI lo hi (fsV f k l).toInt

/-- A first-order filter of time constant `tau` over a tick of `ts`: its step lies between those of the two Euler rules, as every
usual realisation's does (assumption log 64). -/
def fsLag (f : FsAt) (k : Nat) (l : List Word) (old new ts tau : Int) : Int :=
  let d := (new - old) * ts
  old + fsIn f k l (min (d / (tau + ts)) (d / tau)) (max (-(-d / (tau + ts))) (-(-d / tau)))

/-- Bit `i` of a word. -/
def lvBit (s : State) (f : FsAt) (o i : Nat) : Bool := nbit (lvN s f o) i
def lvBitSet (s : State) (f : FsAt) (o i : Nat) (b : Bool) : State := lvSetN s f o (nbitSet (lvN s f o) i b)

/-- An event of a placed segment, recorded once for its group. -/
def fsEvent (s : State) (f : FsAt) (code cls : Nat) (params : List Word) : State :=
  if f.lead then event s code cls f.pl.polder (pw f.idx :: params) else s

/-- The polder's mode, and the ticks in it, as the engine's mode word has them (R87). -/
def fsMode (s : State) (f : FsAt) : Nat := (em s f 0x1FF00).toNat % 16
def fsPrevMode (s : State) (f : FsAt) : Nat := (em s f 0x1FF00).toNat / 16 % 16
def fsTicksIn (s : State) (f : FsAt) : Nat := (em s f 0x1FF00).toNat / 65536
def fsTickNo (s : State) (f : FsAt) : Nat := (em s f 0x1FF04).toNat

/-! ## The take (R146) -/

/-- One live parameter: its offset, whether it is signed, its range. -/
structure Live where
  off : Nat
  sgn : Bool
  lo : Int
  hi : Int
  deriving DecidableEq, Repr

/-- A live value, limited to its range. -/
def liveClamp (l : Live) (w : Word) : Word :=
  if l.sgn then qw (clampI l.lo l.hi w.toInt) else BitVec.ofNat 32 (clampI l.lo l.hi (w.toNat : Int)).toNat

/-- Copy the live block word by word. -/
def copyLive (s : State) (f : FsAt) (tk : Nat) : Nat → State
  | 0 => s
  | n + 1 => lvSet (copyLive s f tk n) f (tk + 4 * n) (lv s f (4 * n))

/-- The take: when TAKE differs from the taken TAKE, the whole live block of `n` words goes, clamped, into the taken
copy at `tk`; the CLAMP bit of the status word says whether a value was clamped; each clamped value records `code`. -/
def takeLive (s : State) (f : FsAt) (tk n : Nat) (ranges : List Live) (status bitNo code : Nat) : State :=
  if lv s f 0 = lv s f tk then s
  else
    let cut := ranges.filter fun l => decide (liveClamp l (lv s f l.off) ≠ lv s f l.off)
    let s := copyLive s f tk n
    let s := forEach cut s fun s l => lvSet s f (tk + l.off) (liveClamp l (lv s f l.off))
    let s := lvBitSet s f status bitNo (!cut.isEmpty)
    if code = 0 then s else forEach cut s fun s l => fsEvent s f code 0 [pw l.off]

end Sys2Proof.Machine
end

