-- ==== Sys2Proof/Machine/Cbs.lean ====
section
/-! DEFINITION. The cell balancing set (R335–R338). The errors of R336's loops are computed, what a loop makes of its error is
`Config.fsValue`; arm references, healthy cells, duty codes and inserted cells are computed. The segment keeps its status, with CLAMP, in its state at 0x104
and shows it at 0x80 (assumption log 25, DESIGN CHOICE). -/

namespace Sys2Proof.Machine

def cbsRanges : List Live := [⟨4, true, 134217728, 322122547⟩, ⟨8, true, 0, 536870912⟩, ⟨12, false, 0, 1⟩]

/-- The cells of an arm: those of its ports in order; 0 upper, 1 lower (R335). -/
def cbsCells (s : State) (f : FsAt) (arm : Nat) : List Nat :=
  (upto 4).flatMap fun k =>
    let n := fxN s f (0x18 + 4 * arm) / 256 ^ k % 256
    if n < 48 then (upto (portN s n)).map fun p => 24 * n + p else []

/-- A word of a cell's delivery as the engine's memory holds it (R327). -/
def cbsWord (s : State) (f : FsAt) (i k : Nat) : Word :=
  match runSub s f.pl.polder with
  | some sub => match sub.portDest.find? fun d => d.1 == i / 24 with
    | some (_, _, w) => rdWord s (dmWord f.e (w + 8 * (i % 24) + k))
    | none => 0
  | none => 0

/-- A cell is healthy: VALID, not BYP, not LOST, no fault bit (R337). -/
def cbsHealthy (s : State) (f : FsAt) (i : Nat) : Bool :=
  let w := (cbsWord s f i 5).toNat
  nbit w 31 && !nbit w 29 && !nbit w 28 && nbits (cbsWord s f i 3).toNat 11 8 == 0

/-- A cell's capacitor voltage in pu. -/
def cbsVc (s : State) (f : FsAt) (i : Nat) : Int := ((cbsWord s f i 0).toNat / 65536 : Nat) * fxI s f 0x28

/-- Insert a cell into a list sorted by voltage. -/
def cbsInsert (s : State) (f : FsAt) (i : Nat) : List Nat → List Nat
  | [] => [i]
  | j :: t => if cbsVc s f i < cbsVc s f j then i :: j :: t else j :: cbsInsert s f i t

/-- Cells by rising voltage. -/
def cbsSort (s : State) (f : FsAt) (l : List Nat) : List Nat := l.foldl (fun a i => cbsInsert s f i a) []

/-- Write a leg word of a cell into the output window. -/
def cbsLeg (s : State) (f : FsAt) (i k start e1 e2 : Nat) : State :=
  windowWrite s f.e (0x200 + 16 * i + 4 * k) (BitVec.ofNat 32 (start * 2 ^ 30 + e1 * 2 ^ 15 + e2))

/-- One arm: its commands for the arm reference `v` (R337). -/
def cbsArm (s : State) (f : FsAt) (arm : Nat) (v : Int) : State :=
  let cells := cbsCells s f arm
  let good := cells.filter (cbsHealthy s f)
  let nh : Int := good.length
  let iarm := (em s f (fxN s f 0x10 + 4 * arm)).toInt
  let sum := good.foldl (fun n i => n + cbsVc s f i) 0
  let avg := fsDiv sum (max 1 nh)
  let s := forEach (cells.filter fun i => !good.contains i) s fun s i => cbsLeg (cbsLeg s f i 0 0 0 0) f i 1 0 0 0
  if fxN s f 0x24 = 0 then
    forEach good s fun s i =>
      let sg : Int := if 0 < iarm then 1 else if iarm < 0 then -1 else 0
      let x := (if avg = 0 then (fsV f 5 [qw v]).toInt else divQ v (max 1 nh * avg)) + mulQ (lvI s f 0x48) (avg - cbsVc s f i) * sg
      let d := (fsDiv (65536 * clampI 0 one28 x) one28).toNat
      windowWrite s f.e (0x200 + 16 * i) (BitVec.ofNat 32 (3 * 2 ^ 30 + min 65535 d))
  else
    let order := cbsSort s f good
    let order := if 0 < iarm then order else order.reverse
    let full : Nat := if avg ≤ 0 then 0 else (clampI 0 nh (v / avg)).toNat
    let frac := if avg ≤ 0 then 0 else (fsDiv (clampI 0 avg (v - avg * full) * (2 * period s)) avg).toNat
    forEach (upto order.length) s fun s k =>
      let i := order.getD k 0
      if k < full then cbsLeg s f i 0 1 0x7FFF 0x7FFF
      else if k = full then cbsLeg s f i 0 1 frac 0x7FFF
      else cbsLeg s f i 0 2 0x7FFF 0x7FFF

/-- NH < NACT of an arm, with event 0x1801 at a change (R338). -/
def cbsShort (s : State) (f : FsAt) (arm : Nat) : State :=
  let nh := ((cbsCells s f arm).filter (cbsHealthy s f)).length
  let now := decide (nh < fxN s f 0x20)
  let was := lvBit s f 0x104 (1 + arm)
  let s := lvBitSet s f 0x104 (1 + arm) now
  if now = was then s else fsEvent s f 0x1801 1 [pw arm, pw nh]

/-- The energy of an arm: half the squares of its healthy cells' voltages, so that NACT cells at VCREF in both arms have
NACT × VCREF² together (R336; assumption log 77, DEDUCED). -/
def cbsEnergy (s : State) (f : FsAt) (arm : Nat) : Int :=
  fsDiv (((cbsCells s f arm).filter (cbsHealthy s f)).foldl (fun n i => n + mulQ (cbsVc s f i) (cbsVc s f i)) 0) 2

/-- The output of the circulating-current loop: its reference is a DC part, made of the energy sum's error, and a fundamental part, made
of the difference of the arm energies; with C2SUP a further part, made of the circulating current, takes out its second harmonic (R336). The
controllers' dynamics within EBW and CCBW are free values. -/
def cbsVz (s : State) (f : FsAt) (ctx : List Word) : Int :=
  let cur (arm : Nat) : Int := (fsV f 9 [em s f (fxN s f 0x10 + 4 * arm)]).toInt
  let icirc := fsDiv (cur 0 + cur 1) 2
  let sum := (fxN s f 0x20 : Int) * mulQ (lvI s f 0x44) (lvI s f 0x44) - (cbsEnergy s f 0 + cbsEnergy s f 1)
  let diff := cbsEnergy s f 0 - cbsEnergy s f 1
  let ref := (fsV f 6 (qw sum :: ctx)).toInt + (fsV f 7 (qw diff :: ctx)).toInt
  (fsV f 2 (qw (ref - icirc) :: ctx)).toInt + (if lvN s f 0x4C = 1 then (fsV f 8 (qw icirc :: ctx)).toInt else 0)

/-- One tick of the segment. -/
def cbsTick (s : State) (f : FsAt) : State :=
  let s := takeLive s f 0x40 16 cbsRanges 0x104 0 0x1802
  let s := cbsShort (cbsShort s f 0) f 1
  let s := setRequest (lvSet s f 0x80 (lv s f 0x104)) f.e 1 (lvBit s f 0x104 1 || lvBit s f 0x104 2)
  let ph := fxN s f 4
  let inj := if fxN s f 0x0C = 0 then 0 else (em s f (fxN s f 0x0C)).toInt
  let vx := (em s f (fxN s f 8 + 4 * ph)).toInt + (if ph = 0 then inj else fsDiv (-inj) 2)
  let ctx := fxWords s f 14 ++ lvWords s f 0x100 64 ++ [s.tick.count.setWidth 32]
  let vdc := (fsV f 1 [em s f (fxN s f 0x14)]).toInt
  let vz := cbsVz s f ctx
  let s := lvSet s f 0x100 (fsV f 3 (qw vz :: ctx))
  cbsArm (cbsArm s f 0 (fsDiv vdc 2 - vx - vz)) f 1 (fsDiv vdc 2 + vx - vz)

end Sys2Proof.Machine
end

