-- ==== Sys2Proof/Machine/Gfs.lean ====
section
/-! DEFINITION. The grid function set (ch. 05). STEP_START of its step runs `gfsTick`; the detection commands take the
row of R183 that holds. What the tracker measures and what the current loops answer is `Config.fsValue` within the bounds of the chapter;
conversion, decomposition of the current, references, limits, classes, counters, states, timers, virtual impedance, outputs, monitor words
and events are computed.
The monitor words are written in every tick from the internal state, which stands at and above 0xC0 in a layout of the model
(assumption log 16, DESIGN CHOICE): 0x150 state, 0x154 UPRE, 0x158 frequency, 0x15C status bits, 0x160 phase measured last, 0x164 ticks
since the last phase jump, 0x168 its size, 0x16C and 0x170 K and KNEG in force, 0x174–0x180 integrators of the current loops,
0x184–0x18C VOUT of the tick before, 0x190 phase of V−, 0x194 and 0x198 the negative-sequence reference, 0x19C–0x1A4 the phase voltages
measured last, 0x1A8 id, 0x1AC iq, 0x1B0 |i−|, 0x1B4 PAVAIL, 0x1B8 angle error, 0x1BC |V+|, 0x1C0 |V−|, 0x1C4–0x1CC VOUT, 0x1D0 the code
of the tick before, 0x1D4 the rest of the ramp, 0x1E0 and 0x1E4 the positive-sequence current, 0x1E8–0x1F0 the phase voltages, 0x1F4 and
0x1F8 the current in the +θ frame, 0x1FC and 0x1DC that in the −θ frame, 0x120 whether the tick before was one of ZERO. -/

namespace Sys2Proof.Machine

/-- The live ranges of R194. -/
def gfsRanges : List Live :=
  [⟨4, true, -295279001, 295279001⟩, ⟨8, true, -295279001, 295279001⟩, ⟨12, true, -53687091, 53687091⟩,
   ⟨16, true, -53687091, 53687091⟩, ⟨20, true, 0, 1610612736⟩, ⟨24, true, 0, 1610612736⟩, ⟨28, false, 10, 10000⟩,
   ⟨32, false, 0, 10000⟩, ⟨36, false, 5, 100⟩, ⟨40, true, 241591911, 295279001⟩, ⟨44, true, 0, 53687091⟩]

/-- A state of the ride-through set LOW, ZERO, HIGH. -/
def gfsDip (st : Nat) : Bool := 1 ≤ st && st ≤ 3

/-- The ride-through state (R183). -/
def gfsState (s : State) (f : FsAt) : Nat := lvN s f 0x150

/-- The behaviour code of the polder's mode (R168). -/
def gfsCode (s : State) (f : FsAt) : Nat := fxN s f 0x24 / 4 ^ fsMode s f % 4

/-- Input voltages and currents in pu (R166). -/
def gfsV (s : State) (f : FsAt) (k : Nat) : Int := fsScale (em s f (fxN s f 0x08 + 4 * k)).toInt (fxI s f 0x28)
def gfsI (s : State) (f : FsAt) (k : Nat) : Int := fsScale (em s f (fxN s f 0x0C + 4 * k)).toInt (fxI s f 0x2C)

/-- A measured phase voltage, in pu of the rated phase peak, from the line voltages (R168). -/
def gfsPhaseV (s : State) (f : FsAt) (k : Nat) : Int :=
  fsDiv ((gfsV s f k - gfsV s f ((k + 2) % 3)) * rootThree) (3 * 2 ^ 60)

/-- Nine times the square of |vαβ|, of the three line voltages. -/
def gfsSq9 (s : State) (f : FsAt) : Int :=
  let a := gfsV s f 0
  let b := gfsV s f 1
  let c := gfsV s f 2
  4 * (a * a + b * b + c * c - a * b - b * c - c * a)

/-- All that the free values of a tick may depend on. -/
def gfsCtx (s : State) (f : FsAt) : List Word :=
  fxWords s f 56 ++ lvWords s f 0 128 ++ rdWords s (engBase f.e + fxN s f 0x08 % 0x20000) 3 ++
    rdWords s (engBase f.e + fxN s f 0x0C % 0x20000) 3 ++ [em s f (fxN s f 0x1C), em s f (fxN s f 0x1C + 4)]

/-- The last used point of a profile at or before `t` (in 10 ns), and the first used point after it (R185). -/
def profPoints (t : Nat) : List (Nat × Int) → Option (Nat × Int) → Option (Nat × Int) × Option (Nat × Int)
  | [], l => (l, none)
  | q :: r, l => if q.1 = 0xFFFFFFFF then (l, none) else if q.1 * 100 ≤ t then profPoints t r (some q) else (l, some q)

/-- `n` points of a fixed block from an offset. -/
def profList (s : State) (f : FsAt) (o : Nat) : Nat → List (Nat × Int)
  | 0 => []
  | n + 1 => (fxN s f o, fxI s f (o + 4)) :: profList s f (o + 8) n

/-- The boundary at `t` as a fraction: numerator and positive denominator. -/
def profAt (t : Nat) (ps : List (Nat × Int)) : Int × Int :=
  match profPoints t ps none with
  | (some p, some q) =>
    if p.1 < q.1 then (p.2 * (100 * (q.1 - p.1 : Int)) + (q.2 - p.2) * ((t : Int) - 100 * p.1), 100 * (q.1 - p.1 : Int))
    else (p.2, 1)
  | (some p, none) => (p.2, 1)
  | (none, some q) => (q.2, 1)
  | (none, none) => (0, 1)

/-- |V+| violates the profile at the timer's time (R185). -/
def gfsViolated (s : State) (f : FsAt) : Bool :=
  let t := lvL s f 0xE8
  let v := lvI s f 0x1BC
  let l := profAt t (profList s f 0x80 8)
  let h := profAt t (profList s f 0xC0 4)
  decide (v * l.2 < l.1) || decide (h.1 < v * h.2)

/-- The largest d current beside a q current and a negative-sequence current (R176, R177). -/
def gfsRoom (imax iq i2 : Int) : Int := fsRootDown (max 0 (max 0 (imax - i2) * max 0 (imax - i2) - iq * iq))

/-- The largest |i−| beside a positive-sequence current in NORMAL and RECOVER: `n` with n + √(d² + q²) ≤ IMAX (R176). -/
def gfsRest (imax d q : Int) : Int :=
  let r := fsRootDown (d * d + q * q)
  max 0 (imax - (if r * r = d * d + q * q then r else r + 1))

/-- R176: the references after limiting, and whether one was cut. -/
def gfsLimit (s : State) (f : FsAt) (st : Nat) (id iq i2 : Int) : Int × Int × Int × Bool :=
  let imax := fxI s f 0x40
  if gfsDip st then
    let q := clampI (-(fxI s f 0x44)) (fxI s f 0x44) iq
    let n := min i2 (imax - absI q)
    let r := gfsRoom imax q n
    let d := clampI (-r) r id
    (d, q, n, decide ((d, q, n) ≠ (id, iq, i2)))
  else
    let d := clampI (-imax) imax id
    let r := fsRootDown (imax * imax - d * d)
    let q := clampI (-r) r iq
    let n := min i2 (gfsRest imax d q)
    (d, q, n, decide ((d, q, n) ≠ (id, iq, i2)))

/-- U' = max(|V+|, 0.5 pu), and the NORMAL references (R174). -/
def gfsU (s : State) (f : FsAt) : Int := max (lvI s f 0x1BC) 134217728
def gfsIdStar (s : State) (f : FsAt) : Int := divQ (lvI s f 0x44) (gfsU s f)
def gfsIqStar (s : State) (f : FsAt) : Int := divQ (lvI s f 0x48) (gfsU s f)

/-- The ramp of R187 is complete; in grid-forming behaviour there is no ramp (R192, assumption log 17, DEDUCED). -/
def gfsRampDone (s : State) (f : FsAt) : Bool := gfsCode s f == 2 || lvI s f 0x11C == gfsIdStar s f

/-- One tick of the ramp: at most RRAMP × Ts toward id*; the rest of the step below one unit is kept (R187). -/
def gfsRamp (s : State) (f : FsAt) : State :=
  let acc := lvL s f 0x1D4 + lvN s f 0x5C * fxN s f 0x00 * 268435456
  let d : Int := (acc / 10000000000 : Nat)
  let r := lvI s f 0x11C
  lvSetL (lvSetI s f 0x11C (r + clampI (-d) d (gfsIdStar s f - r))) f 0x1D4 (acc % 10000000000)

/-- The references before R176: id, iq, |i−|. In HIGH iq follows the formula of R186 alone, also where iq_e makes it positive (assumption log
83, DEDUCED). In TRIPREQ they are zero before the limit, which then cuts nothing: ILIM is 0 (assumption log 63, DESIGN CHOICE). -/
def gfsWanted (s : State) (f : FsAt) : Int × Int × Int :=
  let st := gfsState s f
  let i2n := fsRoot (lvI s f 0x4C * lvI s f 0x4C + lvI s f 0x50 * lvI s f 0x50)
  if gfsCode s f = 0 ∨ st = 5 then (0, 0, 0)
  else if gfsDip st then
    let n := lvN s f 0x118
    let uf := if n * fxN s f 0x00 ≤ 1000000 then fsDiv (lvL s f 0x110) (max 1 n) else lvI s f 0x1BC
    (if st = 2 then 0 else lvI s f 0x10C, lvI s f 0x108 + mulQ (lvI s f 0x16C) (lvI s f 0x154 - uf), mulQ (lvI s f 0x170) (lvI s f 0x1C0))
  else (if st = 4 ∧ !gfsRampDone s f then lvI s f 0x11C else gfsIdStar s f, gfsIqStar s f, i2n)

/-- The negative-sequence reference of magnitude `n`: along (I2D, I2Q) in NORMAL and RECOVER, a quarter turn behind V− in LOW, ZERO and
HIGH (R174, R186, R187). -/
def gfsNeg (s : State) (f : FsAt) (n : Int) : Int × Int :=
  if gfsDip (gfsState s f) then
    let a := angle12 (lv s f 0x190) (-3)
    (mulQ n (fsCos a), mulQ n (fsSin a))
  else
    let full := max 1 (fsRoot (lvI s f 0x4C * lvI s f 0x4C + lvI s f 0x50 * lvI s f 0x50))
    (fsDiv (lvI s f 0x4C * n) full, fsDiv (lvI s f 0x50 * n) full)

/-- The request outputs of R167. -/
def gfsRequests (s : State) (f : FsAt) : State :=
  let st := gfsState s f
  setRequest (setRequest (setRequest (setRequest s f.e 0 (gfsDip st)) f.e 1 (st == 5)) f.e 2 (st == 4)) f.e 3 (lvBit s f 0x15C 0)

/-- The REP pair at REPIN, Q1.31 taken to Q4.28 (assumption log 64). -/
def gfsRep (s : State) (f : FsAt) (k : Nat) : Int := if fxN s f 0x1C = 0 then 0 else fsDiv (em s f (fxN s f 0x1C + 4 * k)).toInt 8

/-- The voltage references in the stationary frame before the REP pair: E at δ behind the virtual impedance in code 0b10 (R190), else what
the current loops give. -/
def gfsVector (s : State) (f : FsAt) (ctx : List Word) : Int × Int :=
  if gfsCode s f = 2 then
    let e := lvI s f 0x130
    let a := angle12 (lv s f 0x12C) 0
    let rl := mulQ (fxI s f 0x78) (max 0 (lvI s f 0x144 - fxI s f 0x74))
    let r := fxI s f 0x70 + rl
    let x := fxI s f 0x6C + 5 * rl
    let ia := lvI s f 0x1E0
    let ib := lvI s f 0x1E4
    (mulQ e (fsCos a) - (mulQ r ia - mulQ x ib), mulQ e (fsSin a) - (mulQ r ib + mulQ x ia))
  else ((fsV f 10 ctx).toInt, (fsV f 11 ctx).toInt)

/-- VOUT of the tick, by phase (R167, R168, R190–R192). The first tick of a code 0b01 after 0b10 gives the last voltage again; the first
tick of code 0b10 moves it by no more than the grid voltage has moved. -/
def gfsVolt (s : State) (f : FsAt) (k : Nat) : Int :=
  let code := gfsCode s f
  let prev := lvN s f 0x1D0
  let last := lvI s f (0x184 + 4 * k)
  let ctx := gfsCtx s f
  if code = 0 ∨ (code = 2 ∧ gfsState s f = 5) then gfsPhaseV s f k
  else if code = 1 ∧ prev = 2 then last
  else
    let v := gfsVector s f ctx
    let x := fsPhase (v.1 + gfsRep s f 0) (v.2 + gfsRep s f 1) k
    let move := absI (gfsPhaseV s f k - lvI s f (0x19C + 4 * k))
    if code = 2 ∧ prev ≠ 2 then clampI (last - move) (last + move) x else x

/-- The monitor words (R195). -/
def gfsShow (s : State) (f : FsAt) : State :=
  let put (s : State) (c : Nat × Nat) : State := lvSet s f c.1 (lv s f c.2)
  let s := forEach [(0x80, 0x15C), (0x84, 0x150), (0x8C, 0x154), (0x90, 0x1BC), (0x94, 0x1C0), (0x98, 0x158), (0x9C, 0x1A8), (0xA0, 0x1AC),
    (0xA4, 0x1B0), (0xA8, 0x1B4), (0xAC, 0x1B8)] s put
  let s := lvSetN s f 0x88 (lvL s f 0xE8 / 100)
  forEach [0xB0, 0xB4, 0xB8, 0xBC] s fun s o => lvSet s f o 0

/-- |i−| of the measured current. -/
def gfsNegMag (s : State) (f : FsAt) : Int := fsRoot (lvI s f 0x1FC * lvI s f 0x1FC + lvI s f 0x1DC * lvI s f 0x1DC)

/-- References, limits, PAVAIL, outputs and monitor words of the tick, for the state as it stands (R167, R174–R177, R186–R192). In
grid-forming behaviour the present id, iq and |i−| are those of the measured current (assumption log 83, DEDUCED). -/
def gfsOut (s : State) (f : FsAt) : State :=
  let st := gfsState s f
  let w := gfsWanted s f
  let lim := gfsLimit s f st w.1 w.2.1 w.2.2
  let forming := gfsCode s f == 2
  let s := lvBitSet s f 0x15C 1 (!forming && lim.2.2.2)
  let id := if forming then lvI s f 0x1F4 else lim.1
  let iq := if forming then lvI s f 0x1F8 else lim.2.1
  let i2 := if forming then gfsNegMag s f else lim.2.2.1
  let room := if st = 5 then 0 else gfsRoom (fxI s f 0x40) iq i2
  let neg := if forming then (0, 0) else gfsNeg s f i2
  let s := lvSetI (lvSetI (lvSetI (lvSetI (lvSetI s f 0x1A8 id) f 0x1AC iq) f 0x1B0 i2) f 0x194 neg.1) f 0x198 neg.2
  let s := lvSetI s f 0x1B4 (mulQ (lvI s f 0x1BC) room)
  let vs := (upto 3).map (gfsVolt s f)
  let s := forEach (upto 3) s fun s k => emSet (lvSetI s f (0x1C4 + 4 * k) (vs.getD k 0)) f (fxN s f 0x10 + 4 * k) (qw (vs.getD k 0))
  let s := emSet s f (fxN s f 0x18) (lv s f 0x1B4)
  let s := emSet s f (fxN s f 0x14) (lv s f 0x13C)
  let s := emSet s f (fxN s f 0x14 + 4) (if lvBit s f 0x15C 0 && st != 2 then fsV f 16 (gfsCtx s f) ||| 1 else 0)
  gfsShow (gfsRequests s f) f

/-- The measured current in two frames, at +θ and at −θ: each takes out of the other the double-frequency term that it causes, and its d
and q go through a first-order low pass at DFC. From the first comes the positive-sequence current in the stationary frame (R190). -/
def gfsCurrent (s : State) (f : FsAt) : State :=
  let ctx := gfsCtx s f
  let th := angle12 (lv s f 0x13C) 0
  let i := fsVector (gfsI s f 0) (gfsI s f 1) (gfsI s f 2)
  let p := (lvI s f 0x1F4, lvI s f 0x1F8)
  let n := (lvI s f 0x1FC, lvI s f 0x1DC)
  let lag (k : Nat) (old new : Int) : Int := fsLag f k ctx old new (4 * halfPi * fxN s f 0x34 * fxN s f 0x00) (2 ^ 60 * 10 ^ 8)
  let ip := fsTurn i (-th)
  let np := fsTurn n (-2 * th)
  let ineg := fsTurn i th
  let pn := fsTurn p (2 * th)
  let p := (lag 18 p.1 (ip.1 - np.1), lag 19 p.2 (ip.2 - np.2))
  let n := (lag 20 n.1 (ineg.1 - pn.1), lag 21 n.2 (ineg.2 - pn.2))
  let s := lvSetI (lvSetI (lvSetI (lvSetI s f 0x1F4 p.1) f 0x1F8 p.2) f 0x1FC n.1) f 0x1DC n.2
  let v := fsTurn (lvI s f 0x1F4, lvI s f 0x1F8) th
  let s := lvSetI (lvSetI s f 0x1E0 v.1) f 0x1E4 v.2
  lvSetI s f 0x144 (fsRoot (lvI s f 0x1E0 * lvI s f 0x1E0 + lvI s f 0x1E4 * lvI s f 0x1E4))

/-- The positive-sequence voltage in the stationary frame: |V+| at θ. -/
def gfsVpos (s : State) (f : FsAt) : Int × Int :=
  (mulQ (lvI s f 0x1BC) (fsCos (angle12 (lv s f 0x13C) 0)), mulQ (lvI s f 0x1BC) (fsSin (angle12 (lv s f 0x13C) 0)))

/-- Grid-forming update of the tick (R190); on entry to a code 0b10 mode ω, δ and E start from the tracker (R191); a change
from one mode of code 0b10 to another is no such entry: VOUT goes on as it was (assumption log 83, DEDUCED). -/
def gfsForming (s : State) (f : FsAt) : State :=
  let code := gfsCode s f
  let s := lvBitSet s f 0x15C 7 (code == 2)
  if code ≠ 2 then lvBitSet s f 0x15C 2 false
  else
    let fn : Int := fxN s f 0x04
    let ts : Int := fxN s f 0x00
    let wg := fsDiv ((lvN s f 0x158 : Int) * one28) (fn * 1000)
    let s :=
      if lvN s f 0x1D0 ≠ 2 then lvSetI (lvSet (lvSetI s f 0x128 wg) f 0x12C (lv s f 0x13C)) f 0x130 (lvI s f 0x1BC)
      else
        let v := gfsVpos s f
        let pe := mulQ v.1 (lvI s f 0x1E0) + mulQ v.2 (lvI s f 0x1E4)
        let qe := mulQ v.1 (lvI s f 0x1E4) - mulQ v.2 (lvI s f 0x1E0)
        let h : Int := lvN s f 0x60
        let dp : Int := lvN s f 0x64
        let w := lvI s f 0x128
        let x := lvI s f 0x44 - pe
        let w := if 0 < h then w + fsDiv (ts * (x - dp * (w - wg))) (200000 * h) else wg + fsDiv x (max 1 dp)
        let w := clampI 255013684 281857228 w
        let e := clampI 214748365 322122547 (lvI s f 0x68 + mulQ (lvI s f 0x6C) (lvI s f 0x48 - qe))
        let s := lvSetI (lvSetI s f 0x128 w) f 0x130 e
        lvSet s f 0x12C (lv s f 0x12C + wordOfInt (fsDiv (w * fn * ts * 16) 100000000))
    lvBitSet s f 0x15C 2 (decide (0 < mulQ (fxI s f 0x78) (max 0 (lvI s f 0x144 - fxI s f 0x74))))

/-- REQ3 changes to 0: event 0x1401 (R170, R197). -/
def gfsUnlock (s : State) (f : FsAt) : State :=
  if lvBit s f 0x15C 0 then
    setRequest (fsEvent (lvBitSet s f 0x15C 0 false) f 0x1401 0 [lv s f 0x158, lv s f 0x1B8]) f.e 3 false
  else s

/-- How far θ moves in a tick at the frequency held, with 2^32 to one turn. -/
def gfsAdvance (s : State) (f : FsAt) : Int := fsDiv ((lvN s f 0x158 * fxN s f 0x00 : Nat) * 4294967296) 100000000000

/-- What the tracker has seen of the phase: how long ago it jumped, and how far (R171). A tick in which the measured phase does not move
at a frequency of the range is a jump; jumps in consecutive ticks add. -/
def gfsJump (s : State) (f : FsAt) (m : Word) : State :=
  let fn := fxN s f 0x04
  let ts : Int := fxN s f 0x00
  let adv := (m - lv s f 0x160).toInt
  let ok := decide ((fn - 5 : Nat) * ts * 42949672960 ≤ adv * 1000000000) && decide (adv * 1000000000 ≤ (fn + 5 : Nat) * ts * 42949672960)
  let j := absI (adv - gfsAdvance s f)
  let s := if ok then s else lvSetI s f 0x168 (min 2147483647 (if lvN s f 0x164 = 0 then lvI s f 0x168 + j else j))
  lvSet (lvRun s f 0x164 ok) f 0x160 m

/-- The largest angle error that R171 leaves the tracker: 2° once 10 ms (40 ms after a jump above 60°) have passed; before that, a lock
does not end through a jump of up to 60°. -/
def gfsErrTop (s : State) (f : FsAt) : Int :=
  let sure := decide (100 ≤ fxN s f 0x30) && decide (40265318 ≤ lvI s f 0x1BC)
  let t := lvN s f 0x164 * fxN s f 0x00
  let small := decide (lvI s f 0x168 * 360 ≤ 60 * 4294967296)
  if sure && (decide (4000000 ≤ t) || (small && decide (1000000 ≤ t))) then 23860929
  else if sure && small && lvBit s f 0x15C 0 && decide (99 ≤ lvN s f 0xF4) then 119304647
  else 2147483647

/-- Tracker and decomposition of the tick (R169–R173). In the first tick after ZERO θ is the extrapolated one, and the angle error is the
difference to the phase that has come back (R172). UPRE takes the tick's |V+| before the tick is classed (assumption log 63). -/
def gfsTrack (s : State) (f : FsAt) : State :=
  let ctx := gfsCtx s f
  let zero := gfsState s f == 2
  let fn := fxN s f 0x04
  let lo := (fn - 5) * 1000
  let hi := (fn + 5) * 1000
  let s := lvSetI (lvSetI s f 0x1BC (absI (fsV f 2 ctx).toInt)) f 0x1C0 (absI (fsV f 3 ctx).toInt)
  let s := lvSet s f 0x190 (fsV f 8 ctx)
  let s :=
    if zero then
      let th := lv s f 0x13C + wordOfInt (gfsAdvance s f)
      lvSetN (lvSet (lvSet s f 0x13C th) f 0x160 th) f 0x120 1
    else
      let th := lv s f 0x13C + wordOfInt (gfsAdvance s f)
      let s := gfsJump s f (fsV f 6 ctx)
      let top := gfsErrTop s f
      let err := if lvN s f 0x120 = 1 then (lv s f 0x160 - th).toInt else fsIn f 7 ctx (-top) top
      let s := lvSetN s f 0x120 0
      let keep := lvBit s f 0x15C 0 && decide (lvI s f 0x168 * 360 ≤ 60 * 4294967296) && decide (40265318 ≤ lvI s f 0x1BC) &&
        decide (100 ≤ fxN s f 0x30) && decide (lvN s f 0x164 * fxN s f 0x00 < 1000000)
      let fr := fsIn f 4 ctx (if keep then lo + 1 else lo) (if keep then hi - 1 else hi)
      lvSetI (lvSetN (lvSet s f 0x13C (lv s f 0x160 - wordOfInt err)) f 0x158 fr.toNat) f 0x1B8 err
  let lim := lvN s f 0x158 == lo || lvN s f 0x158 == hi
  let err := absI (lvI s f 0x1B8)
  let s := lvBitSet s f 0x15C 5 lim
  let s :=
    if zero then s
    else
      let s := lvRun s f 0xF0 (!lim && decide (err * 360 < 5 * 4294967296))
      let s := lvRun s f 0xF4 (decide (10 * 4294967296 < err * 360))
      let s := if decide (60 * 4294967296 < err * 360) then fsEvent s f 0x1405 1 [lv s f 0x1B8] else s
      if lim then gfsUnlock s f else s
  let s := lvRun s f 0xF8 lim
  let s := if lim then s else lvSetN s f 0xFC 0
  if gfsState s f = 0 then lvSetI s f 0x154 (fsLag f 5 ctx (lvI s f 0x154) (lvI s f 0x1BC) (fxN s f 0x00) 100000000) else s

/-- The reference line voltage: a balanced set of amplitude UPRE at θ (R180); vab leads phase a by 30°. -/
def gfsHat (s : State) (f : FsAt) (k : Nat) : Int := mulQ (lvI s f 0x154) (fsCos (angle12 (lv s f 0x13C) (1 - 4 * (k : Int))))

/-- A low detection on the acquisition path, on the comparator path (R181). -/
def gfsAcqDet (s : State) (f : FsAt) : Bool := decide (fxN s f 0x4C ≤ lvN s f 0xC8)
def gfsCmpDet (s : State) (f : FsAt) : Bool := nbit (fxN s f 0x20) 15 && decide (fxN s f 0x50 ≤ lvN s f 0xD4)

/-- The classes of the tick and the counts of R181, R183 (R179, R180); which path made a low detection. -/
def gfsClass (s : State) (f : FsAt) : State :=
  let q := gfsSq9 s f
  let low := (upto 3).any fun k => decide (absI (gfsV s f k) < absI (gfsHat s f k) - fxI s f 0x48)
  let zero := decide (q < 9 * (fxI s f 0x54 * fxI s f 0x54))
  let high := decide (9 * (fxI s f 0x58 * fxI s f 0x58) < q)
  let sel := fxN s f 0x20
  let cmpLow := nbit sel 15 && !(nbit s.cmpLast (nbits sel 14 10) || nbit s.cmpLast (nbits sel 9 5) || nbit s.cmpLast (nbits sel 4 0))
  let zx := 50 * fxI s f 0x54 + one28
  let band := decide (fxI s f 0x5C ≤ lvI s f 0x1BC) && decide (lvI s f 0x1BC ≤ fxI s f 0x60)
  let s := lvSetI s f 0x138 (fsRoot (fsDiv q 9))
  let s := lvRun (lvRun (lvRun (lvRun s f 0xC8 low) f 0xCC zero) f 0xD0 high) f 0xD4 cmpLow
  let s := lvRun s f 0xD8 (decide (9 * (zx * zx) ≤ 2500 * q))
  let s := lvRun (lvRun s f 0xDC (band && !low && !zero && !high)) f 0xE0 band
  if gfsAcqDet s f || gfsCmpDet s f then lvBitSet (lvBitSet s f 0x15C 3 (gfsCmpDet s f)) f 0x15C 4 (gfsAcqDet s f) else s

/-- Timers of the tick: PROFT (R184), the violation count of every state (R185), the mean of R186, the ramp of R187. -/
def gfsTimers (s : State) (f : FsAt) : State :=
  let st := gfsState s f
  let s := if gfsDip st || st == 4 then lvSetL s f 0xE8 (lvL s f 0xE8 + fxN s f 0x00) else s
  let s := lvRun s f 0xE4 (gfsViolated s f)
  let s := if gfsDip st then
      lvSetN (lvSetL s f 0x110 (lvL s f 0x110 + lvN s f 0x138)) f 0x118 (satInc 4294967295 (lvN s f 0x118) 1) else s
  if st = 4 then gfsRamp s f else s

/-- The integrators of the current loops: cleared in idle, loaded on entry to code 0b01 from 0b10, moved by the loops in code 0b01 (R168,
R191). -/
def gfsLoops (s : State) (f : FsAt) : State :=
  let ctx := gfsCtx s f
  match gfsCode s f with
  | 0 => forEach (upto 4) s fun s k => lvSet s f (0x174 + 4 * k) 0
  | 1 => forEach (upto 4) s fun s k => lvSet s f (0x174 + 4 * k) (fsV f (12 + k) ctx)
  | _ => s

/-- What a tick takes over from the one before: K and KNEG, which act from the tick after a take (R186), the outputs, the code. -/
def gfsBegin (s : State) (f : FsAt) : State :=
  let s := if lvN s f 0xC0 = 0 then lvSetI (lvSetN s f 0xC0 1) f 0x154 one28 else s
  let s := lvSet (lvSet s f 0x16C (lv s f 0x54)) f 0x170 (lv s f 0x58)
  let s := forEach (upto 3) s fun s k => lvSet s f (0x184 + 4 * k) (lv s f (0x1C4 + 4 * k))
  lvSetN (lvSet (lvSet s f 0x148 (lv s f 0x1AC)) f 0x14C (lv s f 0x1A8)) f 0x134 0

/-- What it leaves to the next. -/
def gfsEnd (s : State) (f : FsAt) : State :=
  forEach (upto 3) (lvSetN s f 0xC4 (gfsCode s f)) fun s k => lvSetI s f (0x1E8 + 4 * k) (gfsPhaseV s f k)

/-- One tick of the segment. -/
def gfsTick (s : State) (f : FsAt) : State :=
  let s := takeLive (gfsBegin s f) f 0x40 16 gfsRanges 0x15C 6 0x1407
  let s := lvSetN s f 0x1D0 (lvN s f 0xC4)
  let s := forEach (upto 3) s fun s k => lvSet s f (0x19C + 4 * k) (lv s f (0x1E8 + 4 * k))
  let s := gfsTimers (gfsClass (gfsTrack s f) f) f
  let s := gfsLoops (gfsForming (gfsCurrent s f) f) f
  let s := lvRun s f 0x100 (lvBit s f 0x15C 2)
  let s := if lvBit s f 0x15C 2 then s else lvSetN s f 0x104 0
  gfsEnd (gfsOut s f) f

/-! ## The state table (R181, R183) -/

def gfsLowDet (s : State) (f : FsAt) : Bool := gfsAcqDet s f || gfsCmpDet s f
def gfsZeroDet (s : State) (f : FsAt) : Bool := decide (fxN s f 0x4C ≤ lvN s f 0xCC)
def gfsHighDet (s : State) (f : FsAt) : Bool := decide (fxN s f 0x4C ≤ lvN s f 0xD0)

/-- A condition that held in this tick has held for TRET (R183). -/
def gfsRetFor (s : State) (f : FsAt) (o : Nat) : Bool := lvN s f o != 0 && decide (fxN s f 0x64 * 100 ≤ lvN s f o * fxN s f 0x00)

/-- The state after the first row of R183 that holds. -/
def gfsRow (s : State) (f : FsAt) : Nat :=
  let st := gfsState s f
  if st = 5 then (if gfsCode s f = 0 ∧ gfsRetFor s f 0xE0 then 0 else 5)
  else if gfsDip st ∧ fxN s f 0x68 ≤ lvN s f 0xE4 then 5
  else if gfsZeroDet s f then 2
  else if gfsHighDet s f then 3
  else if st ≠ 2 ∧ gfsLowDet s f then 1
  else if st = 2 ∧ fxN s f 0x4C ≤ lvN s f 0xD8 then 1
  else if gfsDip st ∧ gfsRetFor s f 0xDC then 4
  else if st = 4 ∧ gfsRampDone s f then 0
  else st

/-- Enter a state: what the timer, the references and the recorder take from the change (R184, R186, R187, R197). The mean of R186 starts
on entry from NORMAL or RECOVER and goes on among LOW, ZERO and HIGH; iq_e, id_e and the value at entry to RECOVER are the references
that the tick before applied (assumption log 63). -/
def gfsEnter (s : State) (f : FsAt) (new : Nat) : State :=
  let old := gfsState s f
  if new = old then s
  else
    let s := if old = 0 && gfsDip new then lvSet (lvSet (lvSetL s f 0xE8 0) f 0x108 (lv s f 0x148)) f 0x10C (lv s f 0x14C) else s
    let s := if gfsDip old && !gfsDip new then lvSetN s f 0x124 (lvL s f 0xE8 / 100) else s
    let s := lvSetN s f 0x150 new
    let s := if gfsDip new && !gfsDip old then
        let s := lvSetN (lvSetL s f 0x110 (lvN s f 0x138)) f 0x118 1
        fsEvent s f 0x1402 0 [pw new, lv s f 0x1BC, Config.causeWord 0x1402 (nbits (lvN s f 0x15C) 4 3)] else s
    let s := if new = 4 then lvSetL (lvSet s f 0x11C (lv s f 0x14C)) f 0x1D4 0 else s
    let s := if new = 0 then fsEvent (lvSetL s f 0xE8 0) f 0x1403 0 [lv s f 0x124] else s
    let s := if new = 5 then fsEvent s f 0x1404 0 [pw (lvL s f 0xE8 / 100), lv s f 0x1BC] else s
    gfsOut s f

/-- Evaluate the table once in the tick. -/
def gfsTable (s : State) (f : FsAt) : State := lvSetN (gfsEnter s f (gfsRow s f)) f 0x134 1

/-- The table has not been evaluated in this tick. -/
def gfsOpen (s : State) (f : FsAt) : Bool := lvN s f 0x134 == 0

/-- GFS_LOW_DETECTION: a low detection (R181). -/
def execGfsLowDetection (i : Fin 256) (s : State) : Host.Outcome State Fault Refusal :=
  .next (fsEach s i 1 fun s f => if gfsLowDet s f && gfsOpen s f then gfsTable s f else s)

/-- GFS_ZERO_DETECTION. -/
def execGfsZeroDetection (i : Fin 256) (s : State) : Host.Outcome State Fault Refusal :=
  .next (fsEach s i 1 fun s f => if gfsZeroDet s f && gfsOpen s f then gfsTable s f else s)

/-- GFS_HIGH_DETECTION. -/
def execGfsHighDetection (i : Fin 256) (s : State) : Host.Outcome State Fault Refusal :=
  .next (fsEach s i 1 fun s f => if gfsHighDet s f && gfsOpen s f then gfsTable s f else s)

/-- GFS_PROFILE_TRIP: row 3 of R183. -/
def execGfsProfileTrip (i : Fin 256) (s : State) : Host.Outcome State Fault Refusal :=
  .next (fsEach s i 1 fun s f =>
    if gfsDip (gfsState s f) && decide (fxN s f 0x68 ≤ lvN s f 0xE4) && gfsOpen s f then gfsTable s f else s)

/-- GFS_ZERO_EXIT: row 7 of R183. -/
def execGfsZeroExit (i : Fin 256) (s : State) : Host.Outcome State Fault Refusal :=
  .next (fsEach s i 1 fun s f =>
    if gfsState s f == 2 && decide (fxN s f 0x4C ≤ lvN s f 0xD8) && gfsOpen s f then gfsTable s f else s)

/-- GFS_RECOVERY_CONFIRMED: rows 8 and 1 of R183. -/
def execGfsRecoveryConfirmed (i : Fin 256) (s : State) : Host.Outcome State Fault Refusal :=
  .next (fsEach s i 1 fun s f =>
    if ((gfsDip (gfsState s f) && gfsRetFor s f 0xDC) || (gfsState s f == 5 && gfsCode s f == 0 && gfsRetFor s f 0xE0))
        && gfsOpen s f then gfsTable s f else s)

/-- GFS_RECOVER_COMPLETE: row 9 of R183; also in the tick of the entry to RECOVER (R193). -/
def execGfsRecoverComplete (i : Fin 256) (s : State) : Host.Outcome State Fault Refusal :=
  .next (fsEach s i 1 fun s f => if gfsState s f == 4 && gfsRampDone s f then gfsTable s f else s)

/-- GFS_TRACKER_LOCK: REQ3 becomes 1 after 2 nominal periods (R170); in ZERO it keeps its value (R172). -/
def execGfsTrackerLock (i : Fin 256) (s : State) : Host.Outcome State Fault Refusal :=
  .next (fsEach s i 1 fun s f =>
    if gfsState s f != 2 && decide (200000000 ≤ lvN s f 0xF0 * fxN s f 0x00 * fxN s f 0x04) then
      gfsOut (lvBitSet s f 0x15C 0 true) f
    else s)

/-- GFS_TRACKER_UNLOCK: REQ3 becomes 0 after 100 ticks above 10 degrees (R170). -/
def execGfsTrackerUnlock (i : Fin 256) (s : State) : Host.Outcome State Fault Refusal :=
  .next (fsEach s i 1 fun s f =>
    if gfsState s f != 2 && decide (100 ≤ lvN s f 0xF4) then gfsOut (gfsUnlock s f) f else s)

/-- GFS_FREQ_LIMIT_HELD: event 0x1406, once while the frequency stays at the limit (R197). -/
def execGfsFreqLimitHeld (i : Fin 256) (s : State) : Host.Outcome State Fault Refusal :=
  .next (fsEach s i 1 fun s f =>
    if lvN s f 0xFC == 0 && decide (200000000 ≤ lvN s f 0xF8 * fxN s f 0x00 * fxN s f 0x04) then
      fsEvent (lvSetN s f 0xFC 1) f 0x1406 1 [lv s f 0x158]
    else s)

/-- GFS_VILIM_LONG: event 0x1408, once while VILIM stays set (R197). -/
def execGfsVilimLong (i : Fin 256) (s : State) : Host.Outcome State Fault Refusal :=
  .next (fsEach s i 1 fun s f =>
    if lvN s f 0x104 == 0 && decide (100000000 ≤ lvN s f 0x100 * fxN s f 0x00) then
      fsEvent (lvSetN s f 0x104 1) f 0x1408 0 [lv s f 0x144]
    else s)

end Sys2Proof.Machine
end

