-- ==== Sys2Proof/Machine/Ifs.lean ====
section
/-! DEFINITION. The islanding function set (ch. 06). STEP_START of its step runs `ifsTick`; the evaluation and window
commands take the rows of R219 that wait for them. In a tick that publishes, every row waits for the publication, which comes first (R219).
The monitor words are written in every tick from the internal state, which stands at and above 0x140 in a layout of the model
(assumption log 16, DESIGN CHOICE): 0x1A4 a tick was lost, 0x1B0 state, 0x1B4 JCOUNT, 0x1B8 NJUMP, 0x1BC NVALID, 0x1C0 EVCNT, 0x1C4 AINJ,
0x1C8 IRMS, 0x1CC ROCOF, 0x1D0 CAUSE, 0x1D4 status bits, 0x1E0 and 0x1E8 the sums of the present chip, from 0x200 the baseline currents,
from 0x240 and 0x2C0 the sums of LEARN, from 0x340 ZBASE, from 0x380 ZLAST, 0x1A8 the chips since the last window's end, 0x1AC that end in
1,024 ticks, 0x1D8 and 0x1DC LW and the shift there, 0x1F0 a running digest of all that has entered the histories. The means of the last
chips and the history of FREQ, which these words cannot hold, stand in State.fsChips and State.fsHist by the instance block's address; the
digest lets the state signature of R115 meet them (assumption log 19). -/

namespace Sys2Proof.Machine

/-- The live ranges of R226 for a nominal frequency; CPHASE is limited below NUNITS, RWIN to even values and PASSEN to its four bits by
`ifsTake`. -/
def ifsRanges (fn : Nat) : List Live :=
  let n : Int := 1000 * (fn : Int)
  [⟨8, false, 1, 1023⟩, ⟨16, false, 100, 5000⟩, ⟨20, false, 20, 500⟩, ⟨24, false, 20, 300⟩,
   ⟨28, false, n - 5000, n⟩, ⟨32, false, n, n + 5000⟩, ⟨36, false, 0, 10000⟩, ⟨40, true, 134217728, 255013683⟩,
   ⟨44, true, 281857229, 348966092⟩, ⟨48, false, 0, 10000⟩]

/-- Ten bits of the sequence of R204 after `m` steps; bit 0 is b(m). -/
def prbs : Nat → Nat
  | 0 => 1
  | m + 1 => prbs m / 2 + 512 * ((prbs m / 8 + prbs m) % 2)

/-- The chip c(m): +1 or −1. -/
def chip (m : Nat) : Int := if prbs m % 2 = 1 then 1 else -1

/-- The next `n` chips from ten bits of the sequence. -/
def chipRun : Nat → Nat → List Int
  | 0, _ => []
  | n + 1, b => (if b % 2 = 1 then 1 else -1) :: chipRun n (b / 2 + 512 * ((b / 8 + b) % 2))

/-- The response window and the code shift (R213). -/
def ifsLw (s : State) (f : FsAt) : Nat := 1023 / max 1 (lvN s f 0x48)
def ifsShift (s : State) (f : FsAt) : Nat := lvN s f 0x44 * ifsLw s f

/-- The state of R219. -/
def ifsState (s : State) (f : FsAt) : Nat := lvN s f 0x1B0

/-- The GFS words at GFSIN (R200). -/
def ifsIn (s : State) (f : FsAt) (k : Nat) : Word := em s f (fxN s f 0x10 + 8 * k)
def ifsGfsState (s : State) (f : FsAt) : Nat := (ifsIn s f 0).toNat
def ifsVpos (s : State) (f : FsAt) : Int := (ifsIn s f 1).toInt
def ifsFreq (s : State) (f : FsAt) : Nat := (ifsIn s f 2).toNat

/-- Three times vα and iα of the tick, from the scaled inputs (R206), as the rule's formula has them: no factor √3 takes vα from the base of the
line voltages to that of the phase voltages, which R199's base impedance has (assumption log 66, DESIGN CHOICE). -/
def ifsV3 (s : State) (f : FsAt) : Int :=
  let v (k : Nat) : Int := fsScale (em s f (fxN s f 0x08 + 4 * k)).toInt (fxI s f 0x18)
  v 0 - v 2
def ifsI3 (s : State) (f : FsAt) : Int :=
  let i (k : Nat) : Int := fsScale (em s f (fxN s f 0x0C + 4 * k)).toInt (fxI s f 0x1C)
  2 * i 0 - i 1 - i 2

/-- The IFS is active in the polder's mode (R203). -/
def ifsEnabled (s : State) (f : FsAt) : Bool := nbit (fxN s f 0x20) (fsMode s f)

/-- FREQ and VPOS lie inside their windows (R217, R218). -/
def ifsFreqIn (s : State) (f : FsAt) : Bool := decide (lvN s f 0x5C ≤ ifsFreq s f) && decide (ifsFreq s f ≤ lvN s f 0x60)
def ifsVoltIn (s : State) (f : FsAt) : Bool := decide (lvI s f 0x68 ≤ ifsVpos s f) && decide (ifsVpos s f ≤ lvI s f 0x6C)

/-- The key of a placed segment's histories: its engine and its instance block. -/
def histKey (f : FsAt) : Nat := f.e * 131072 + f.pl.live % 131072

/-- The digest of the histories takes in a value. -/
def ifsDigest (s : State) (f : FsAt) (x : Int) : State := lvSet s f 0x1F0 (wordOfInt ((lvN s f 0x1F0 : Int) * 65599 + x))

/-- The IFS injects in LEARN, CONNECTED and SUSPECT (R220). -/
def ifsInjects (s : State) (f : FsAt) : Bool := let st := ifsState s f; 1 ≤ st && st ≤ 3

/-- The monitor words (R227). -/
def ifsShow (s : State) (f : FsAt) : State :=
  let put (s : State) (c : Nat × Nat) : State := lvSet s f c.1 (lv s f c.2)
  let s := forEach [(0x80, 0x1D4), (0x84, 0x1B0), (0x88, 0x1B4), (0x8C, 0x1B8), (0x90, 0x1BC), (0x94, 0x1C0), (0x98, 0x1C4), (0x9C, 0x1C8),
    (0xA0, 0x1CC), (0xA4, 0x1D0)] s put
  let s := lvSetN (lvSetN s f 0xA8 (ifsLw s f)) f 0xAC (ifsShift s f)
  let s := forEach [0xB0, 0xB4, 0xB8, 0xBC] s fun s o => lvSet s f o 0
  forEach (upto 32) s fun s k => put s (0xC0 + 4 * k, 0x340 + 4 * k)

/-- Outputs and monitor words for the state as it stands (R201, R205, R220, R227). -/
def ifsOut (s : State) (f : FsAt) : State :=
  let st := ifsState s f
  let inj := ifsInjects s f && ifsEnabled s f
  let g := (fsTickNo s f / 4) % 1023
  let c := chip ((g + 1023 - ifsShift s f % 1023) % 1023)
  let s := emSet s f (fxN s f 0x14) (if inj then qw (c * lvI s f 0x1C4) else 0)
  let base := lvN s f 0x198 == 1
  let s := lvBitSet (lvBitSet s f 0x1D4 0 inj) f 0x1D4 1 base
  let s := lvBitSet s f 0x1D4 9 (lv s f 0x1C4 == fx s f 0x28)
  let s := setRequest (setRequest (setRequest (setRequest s f.e 0 (st == 4)) f.e 1 (st == 3)) f.e 2 inj) f.e 3
    ((st == 2 || st == 3) && base)
  ifsShow s f

/-- Clear every word of a table of `n` words. -/
def lvZero (s : State) (f : FsAt) (o n : Nat) : State := forEach (upto n) s fun s k => lvSet s f (o + 4 * k) 0

/-- Enter a state (R219, R220, R229). -/
def ifsEnter (s : State) (f : FsAt) (new cause : Nat) : State :=
  let old := ifsState s f
  let s := lvSetN (lvSetN s f 0x1B0 new) f 0x164 1
  let s := if new = 1 then
      let s := lvZero (lvZero (lvZero (lvZero s f 0x340 16) f 0x200 16) f 0x240 64) f 0x17C 1
      let s := lvSetN (lvSetN (lvSetN (lvSetN s f 0x1B4 0) f 0x170 0) f 0x180 1) f 0x184 0
      lvBitSet (lvSetN s f 0x198 0) f 0x1D4 2 false else s
  let s := if new = 4 then lvSetN s f 0x1D0 cause else s
  let s :=
    if new = old then s
    else if new = 2 then fsEvent s f 0x1501 0 [lv s f 0x1C4, lv s f 0x1BC]
    else if new = 3 then fsEvent s f 0x1502 0 [lv s f 0x1B8, Config.causeWord 0x1502 (lvN s f 0x170)]
    else if new = 4 then fsEvent s f 0x1503 0 [pw cause, lv s f 0x1B4, lv s f 0x1B8]
    else if new = 5 then fsEvent s f 0x1508 0 []
    else s
  ifsOut s f

/-- Rows 1–5 of R219: the row's state and row number, when one holds. -/
def ifsRows1to5 (s : State) (f : FsAt) : Option (Nat × Nat) :=
  let st := ifsState s f
  if st = 4 then
    (if lvBit s f 0x168 0 && ifsEnabled s f && ifsGfsState s f == 0 && ifsFreqIn s f && ifsVoltIn s f then some (1, 1) else some (4, 2))
  else if !ifsEnabled s f then some (0, 3)
  else if ifsGfsState s f = 5 then some (5, 4)
  else if st = 0 ∨ st = 5 then some (1, 5)
  else none

/-- Row 7 of R219: the frequency window, the voltage window. -/
def ifsFreqViol (s : State) (f : FsAt) : Bool :=
  lvBit s f 0x1D4 5 && decide (lvN s f 0x64 * 100000 ≤ lvN s f 0x174 * fxN s f 0x00)
def ifsVoltViol (s : State) (f : FsAt) : Bool :=
  lvBit s f 0x1D4 6 && decide (lvN s f 0x70 * 100000 ≤ lvN s f 0x178 * fxN s f 0x00)

/-- Rows 1–5, where one applies in this tick. -/
def ifsApply1to5 (s : State) (f : FsAt) : State :=
  match ifsRows1to5 s f with
  | some (new, row) =>
    let s := if row = 1 then fsEvent s f 0x1504 0 [] else s
    if row = 2 ∨ (row = 3 ∧ ifsState s f = 0) ∨ (row = 4 ∧ ifsState s f = 5) then lvSetN s f 0x164 1
    else ifsEnter s f new 0
  | none => s

/-- The passive detectors of the tick (R215–R218). RWIN / 2 is a whole number of ticks, rounded down (assumption log 66). -/
def ifsPassive (s : State) (f : FsAt) : State :=
  let gs := ifsGfsState s f
  let en := lvN s f 0x74
  let half := lvN s f 0x54 * 100000 / (2 * max 1 (fxN s f 0x00))
  let h := ((2 * ifsFreq s f + bit (gs == 0)) :: cellGet [] s.fsHist (histKey f)).take (2 * half)
  let s := ifsDigest { s with fsHist := cellSet [] s.fsHist (histKey f) h } f (2 * ifsFreq s f + bit (gs == 0) : Nat)
  let full := h.length == 2 * half && decide (0 < half)
  let d : Int := ((h.take half).foldl (fun n x => n + x / 2) 0 : Nat) - ((h.drop half).foldl (fun n x => n + x / 2) 0 : Nat)
  let den : Int := (half * lvN s f 0x54 : Nat)
  let s := if full then lvSetI s f 0x1CC (fsDiv (d * 2000) (max 1 den)) else s
  let roc := nbit en 0 && full && (h.all fun x => x % 2 == 1) && decide ((lvN s f 0x50 : Int) * den ≤ absI (d * 2000))
  let vs := nbit en 1 && gs == 0 && decide ((lvN s f 0x58 : Int) * 4294967296 ≤ absI ((ifsIn s f 3).toInt * 3600))
  let s := lvBitSet (lvBitSet s f 0x1D4 3 roc) f 0x1D4 4 vs
  let s := if roc || vs then
      lvSetN (lvSetN (lvBitSet s f 0x1D4 2 true) f 0x16C 0) f 0x170 (lvN s f 0x170 ||| (bit roc + 2 * bit vs))
    else lvSetN s f 0x16C (satInc 4294967295 (lvN s f 0x16C) 1)
  let fw := nbit en 2 && lvN s f 0x64 != 0 && gs != 2 && !ifsFreqIn s f
  let vw := nbit en 3 && lvN s f 0x70 != 0 && gs == 0 && !ifsVoltIn s f
  let s := lvBitSet (lvBitSet s f 0x1D4 5 fw) f 0x1D4 6 vw
  lvRun (lvRun s f 0x174 fw) f 0x178 vw

/-- The chips of a segment, newest first. -/
def chipsOf (s : State) (f : FsAt) : List (Int × Int) := cellGet [] s.fsChips (histKey f)

/-- The tick enters its chip; the sums of the four ticks are twelve times the means of R206. The last 1,279 chips are kept: those of a
window and of the 1,024 ticks up to its publication. -/
def ifsChip (s : State) (f : FsAt) : State :=
  let t := fsTickNo s f
  let s := if t % 4 = 0 then lvSetL (lvSetL s f 0x1E0 0) f 0x1E8 0 else s
  let v := signed 64 (lvL s f 0x1E0) + ifsV3 s f
  let i := signed 64 (lvL s f 0x1E8) + ifsI3 s f
  let s := lvSetL (lvSetL s f 0x1E0 (unsigned 64 v)) f 0x1E8 (unsigned 64 i)
  if t % 4 = 3 then
    let s := ifsDigest s f (31 * v + i)
    lvSetN { s with fsChips := cellSet [] s.fsChips (histKey f) (((v, i) :: chipsOf s f).take 1279) } f 0x1A8 (lvN s f 0x1A8 + 1)
  else s

/-- What the tick before adds to the window (R210): `0x144` counts its ticks with injection, `0x148` those with GFS STATE NORMAL (R212). A
tick that was lost, or a tick number that does not follow, starts both anew, and so does the wrap of the tick word for the windows after it.
At a window's end LW and the shift are those that its ticks had. -/
def ifsWindowTick (s : State) (f : FsAt) : State :=
  let t := fsTickNo s f
  let next := decide ((lvN s f 0x18C + 1) % 4294967296 = t) && lvN s f 0x1A4 == 0
  let s := lvRun (lvRun s f 0x144 (lvBit s f 0x1D4 0 && next)) f 0x148 (lvN s f 0x194 == 1 && next)
  let s := lvSetN (lvSetN (lvSetN s f 0x18C t) f 0x194 (bit (ifsGfsState s f == 0))) f 0x1A4 0
  let s := if t % 1024 = 0 then
      let s := lvSetN (lvSetN (lvSetN s f 0x14C (lvN s f 0x144)) f 0x150 (lvN s f 0x148)) f 0x154 1
      let s := lvSetN (lvSetN (lvSetN s f 0x158 0) f 0x1A8 0) f 0x1AC (t / 1024)
      lvSetN (lvSetN s f 0x1D8 (ifsLw s f)) f 0x1DC (ifsShift s f) else s
  if t = 0 then lvSetN (lvSetN s f 0x144 0) f 0x148 0 else s

/-- One more clamp of the take, where the value differs from the live one. -/
def ifsClamp (s : State) (f : FsAt) (o v : Nat) : State :=
  if lvN s f o = v then s
  else fsEvent (lvBitSet (lvSetN s f (0x40 + o) v) f 0x1D4 10 true) f 0x1507 0 [pw o]

/-- The take (R226): CPHASE below NUNITS, an odd RWIN as the next even value below; of PASSEN only bits [3:0] are read (assumption
log 66). -/
def ifsTake (s : State) (f : FsAt) : State :=
  if lv s f 0 = lv s f 0x40 then s
  else
    let s := takeLive s f 0x40 16 (ifsRanges (fxN s f 0x04)) 0x1D4 10 0x1507
    let s := ifsClamp s f 4 (min (lvN s f 4) (min 1022 (lvN s f 0x48 - 1)))
    if lvN s f 0x54 % 2 = 1 ∧ lvN s f 0x54 = lvN s f 0x14 then ifsClamp s f 0x14 (lvN s f 0x54 - 1) else s

/-- The tick publishes the evaluation of the window that ended 1,023 ticks before (R203, R207). -/
def ifsPublishes (s : State) (f : FsAt) : Bool :=
  fsTickNo s f % 1024 == 1023 && lvN s f 0x158 == 1 && lvN s f 0x1AC == fsTickNo s f / 1024 && ifsEnabled s f

/-- One tick of the segment. -/
def ifsTick (s : State) (f : FsAt) : State :=
  let s := if lvN s f 0x140 = 0 then
      { lvSetI (lvSetN s f 0x140 1) f 0x1C4 (fsDiv (fxI s f 0x24) 4) with
        fsHist := cellSet [] s.fsHist (histKey f) [], fsChips := cellSet [] s.fsChips (histKey f) [] } else s
  let s := ifsWindowTick s f
  let ph := lv s f 0x44
  let nu := lv s f 0x48
  let re := lv s f 0x4C
  let s := ifsTake s f
  let shift := lv s f 0x44 != ph || lv s f 0x48 != nu
  let s := lvSetN s f 0x168 (bit (lv s f 0x4C != re) + 2 * bit shift)
  let s := if shift then lvSetN s f 0x144 0 else s
  let s := ifsPassive (lvSetN (ifsChip s f) f 0x164 0) f
  let s :=
    if ifsPublishes s f then s
    else
      let s := ifsApply1to5 s f
      if lvN s f 0x164 = 1 then s
      else if lvBit s f 0x168 1 then ifsEnter s f 1 0
      else if ifsFreqViol s f || ifsVoltViol s f then s
      else if ifsState s f = 2 ∧ lvBit s f 0x1D4 2 then lvSetN (ifsEnter s f 3 0) f 0x164 0
      else s
  ifsOut s f

/-- IFS_EVALUATION_POINT: the window closes at the edge at which the count became a multiple of 1,024 (R207); what
discards its evaluation is known here (R210). -/
def execIfsEvaluationPoint (i : Fin 256) (s : State) : Host.Outcome State Fault Refusal :=
  .next (fsEach s i 2 fun s f =>
    if lvN s f 0x154 = 1 then
      let s := lvSetN (lvSetN s f 0x154 0) f 0x158 1
      lvSetN (lvSetN s f 0x15C (bit (decide (lvN s f 0x14C < 4092)))) f 0x160 (bit (decide (4092 ≤ lvN s f 0x150)))
    else s)

/-! ## The estimate (R205, R207, R208) -/

/-- The bin frequencies in Hz. -/
def ifsBins : List Nat := [75, 93, 116, 145, 180, 224, 279, 347, 432, 538, 669, 833, 1037, 1291, 1607, 2000]

/-- The sum of products of two lists. -/
def dotI : List Int → List Int → Int
  | a :: l, b :: m => a * b + dotI l m
  | _, _ => 0

/-- The code as the chips of a window meet it, newest first: c(a), c(a − 1), … -/
def codeBack (a : Nat) : List Int :=
  let l := chipRun 1023 1
  (l.take (a % 1023 + 1)).reverse ++ (l.drop (a % 1023 + 1)).reverse

/-- The correlations rv(l) and ri(l) of the lags below LW, twelve times too large, in Q4.28, with the LW and the shift of the window's end. The
window's newest chip is the last before the evaluation point. -/
def ifsCorr (s : State) (f : FsAt) : List (Int × Int) :=
  let win := (chipsOf s f).drop (lvN s f 0x1A8)
  let e := (fsTickNo s f - 1023) / 4
  let d := codeBack (e + 2 * 1023 - 1 - lvN s f 0x1DC % 1023)
  let vs := win.map Prod.fst
  let is := win.map Prod.snd
  (upto (lvN s f 0x1D8)).map fun l => let c := d.drop l ++ d.take l; (dotI c vs, dotI c is)

/-- The magnitude of the sum over the lags of r(l) · e^(−j2π·fb·l·Tc), in 2^-56. -/
def ifsMag (ts fb : Nat) (r : List Int) : Nat :=
  let a (l : Nat) : Int := -((fb * l * ts * 48 * 4294967296 / 100000000 : Nat) : Int)
  let re := dotI r ((upto r.length).map fun l => fsCos (a l))
  let im := dotI r ((upto r.length).map fun l => fsSin (a l))
  isqrtGo 96 (re * re + im * im).toNat 0

/-- The estimate of a bin: |Î(fb)|, of which one chip's mean is taken, and Z(fb), in Q4.28. Where no current correlates, Z is free. -/
structure BinEst where
  i : Nat
  z : Nat
  deriving DecidableEq, Repr

/-- The estimates of the 16 bins. -/
def ifsEst (s : State) (f : FsAt) : List BinEst :=
  let r := ifsCorr s f
  let ts := fxN s f 0x00
  ifsBins.map fun fb =>
    let v := ifsMag ts fb (r.map Prod.fst)
    let i := ifsMag ts fb (r.map Prod.snd)
    { i := Nat.min (i / (12 * 1023 * 268435456)) 4294967295
      z := if i = 0 then (fsV f 3 [pw fb]).toNat / 2 else (clampI 0 2147483647 (fsDiv ((v : Int) * one28) i)).toNat }

/-- IRMS: the RMS of the projection of iα on the shifts of the own code below LW (R205). Two shifts of the code correlate with −1, a shift
with itself with 1,023. -/
def ifsIrms (s : State) (f : FsAt) : Int :=
  let r := (ifsCorr s f).map Prod.snd
  let sum := r.foldl (· + ·) 0
  let k : Int := 1024 - (lvN s f 0x1D8 : Int)
  fsRoot (fsDiv (dotI r r * k + sum * sum) (1023 * 1024 * 144 * k))

/-- The estimate of bin `b`. -/
def binOf (es : List BinEst) (b : Nat) : BinEst := es.getD b { i := 0, z := 0 }

/-! ## Publication (R207–R212) -/

/-- The bin's current reaches IFLOOR times its reference (R209): the baseline current where the bin has one in CONNECTED and SUSPECT, else
the mean over the bins (assumption log 66). -/
def ifsBinOk (s : State) (f : FsAt) (es : List BinEst) (base : Bool) (sum b : Nat) : Bool :=
  let i := (binOf es b).i
  if base && lvN s f (0x340 + 4 * b) != 0 then decide (fxN s f 0x40 * lvN s f (0x200 + 4 * b) ≤ i * 2147483648)
  else decide (fxN s f 0x40 * sum ≤ 16 * i * 2147483648)

/-- A valid bin for the count of R210 and R211: with a baseline, one without a baseline value counts as invalid
(R212). -/
def ifsBinCounts (s : State) (f : FsAt) (es : List BinEst) (base : Bool) (sum b : Nat) : Bool :=
  ifsBinOk s f es base sum b && (!base || lvN s f (0x340 + 4 * b) != 0)

/-- The bin's impedance is at least JUMP times its baseline (R211). -/
def ifsBinJump (s : State) (f : FsAt) (es : List BinEst) (b : Nat) : Bool :=
  lvN s f (0x340 + 4 * b) != 0 && decide (fxN s f 0x34 * lvN s f (0x340 + 4 * b) ≤ (binOf es b).z * 268435456)

/-- The baseline takes an evaluation (R212). A bin that was invalid in LEARN takes Z and |I| whole at its first valid update, no step of
BTAU (assumption log 66, DESIGN CHOICE). -/
def ifsBaseline (s : State) (f : FsAt) (es : List BinEst) (sum : Nat) : State :=
  let st := ifsState s f
  if st = 1 then
    let s := forEach (upto 16) s fun s b =>
      if ifsBinOk s f es false sum b then
        lvSetL (lvSetL s f (0x240 + 8 * b) (lvL s f (0x240 + 8 * b) + (binOf es b).z)) f (0x2C0 + 8 * b) (lvL s f (0x2C0 + 8 * b) + (binOf es b).i)
      else lvSetN s f 0x184 (nbitSet (lvN s f 0x184) b true)
    lvSetN s f 0x17C (lvN s f 0x17C + 1)
  else if st = 2 then
    forEach (upto 16) s fun s b =>
      if ifsBinOk s f es true sum b then
        let z0 := lvI s f (0x340 + 4 * b)
        let i0 : Int := lvN s f (0x200 + 4 * b)
        let x := binOf es b
        if z0 = 0 then lvSetN (lvSetN s f (0x340 + 4 * b) x.z) f (0x200 + 4 * b) x.i
        else lvSetI (lvSetN s f (0x200 + 4 * b) (i0 + fsDiv ((x.i : Int) - i0) (max 1 (fxI s f 0x30))).toNat) f (0x340 + 4 * b)
          (z0 + fsDiv ((x.z : Int) - z0) (max 1 (fxI s f 0x30)))
      else s
  else s

/-- The baseline of LEARN becomes valid: the means of the bins that were valid throughout (R212). -/
def ifsBaseDone (s : State) (f : FsAt) : State :=
  let n : Int := max 1 (lvI s f 0x17C)
  let s := forEach (upto 16) s fun s b =>
    if lvBit s f 0x184 b then s
    else lvSetN (lvSetN s f (0x340 + 4 * b) (fsDiv (lvL s f (0x240 + 8 * b)) n).toNat) f (0x200 + 4 * b) (fsDiv (lvL s f (0x2C0 + 8 * b)) n).toNat
  lvSetN s f 0x198 1

/-- AINJ at the first usable evaluation after an entry to LEARN (R205); the second part says whether it changed. -/
def ifsAdjust (s : State) (f : FsAt) (disc : Bool) : State × Bool :=
  let irms := ifsIrms s f
  let s := lvSetI s f 0x1C8 irms
  if disc || lvN s f 0x180 != 1 || ifsState s f != 1 then (s, false)
  else
    let s := lvSetN s f 0x180 0
    let want := fxI s f 0x24
    if want < 5 * absI (irms - want) then
      (lvSetN (lvSetI s f 0x1C4 (min (fxI s f 0x28) (fsDiv (lvI s f 0x1C4 * want) (max 1 irms)))) f 0x144 0, true)
    else (s, false)

/-- Rows 6–12 of R219 after a fresh evaluation; a take that moved the shift comes after rows 8 and 9 (R224). Where both windows have been
violated for their times, CAUSE is the frequency window (assumption log 66). -/
def ifsRows6to12 (s : State) (f : FsAt) (disc jump : Bool) : State :=
  let st := ifsState s f
  let fast := lvBit s f 0x1D4 2
  let cs := st == 2 || st == 3
  let r8 := cs && jump && decide (fxN s f 0x3C ≤ lvN s f 0x1B4)
  let r9 := cs && jump && fast
  let isl (s : State) : State := ifsEnter s f 4 (if r8 then 1 else if nbit (lvN s f 0x170) 0 then 2 else 3)
  if lvN s f 0x164 = 1 then s
  else if lvBit s f 0x168 1 then (if r8 || r9 then isl s else ifsEnter s f 1 0)
  else if ifsFreqViol s f then ifsEnter s f 4 4
  else if ifsVoltViol s f then ifsEnter s f 4 5
  else if r8 || r9 then isl s
  else if st = 2 ∧ (jump ∨ fast) then ifsEnter s f 3 0
  else if st = 3 ∧ !disc ∧ !jump ∧ !fast then ifsEnter s f 2 0
  else if st = 1 ∧ fxN s f 0x2C ≤ lvN s f 0x17C then ifsEnter (ifsBaseDone s f) f 2 0
  else s

/-- Publish the estimate (R207–R212), then take the rows of R219. -/
def ifsPublish (s : State) (f : FsAt) : State :=
  let st := ifsState s f
  let base := st == 2 || st == 3
  let es := ifsEst s f
  let sum := es.foldl (fun n b => n + b.i) 0
  let nv := ((upto 16).filter fun b => ifsBinCounts s f es base sum b).length
  let nj := ((upto 16).filter fun b => ifsBinCounts s f es base sum b && ifsBinJump s f es b).length
  let few := decide (nv < fxN s f 0x38)
  let disc := lvN s f 0x15C == 1 || few
  let jump := base && !disc && decide (fxN s f 0x38 ≤ nj)
  let s := forEach (upto 16) s fun s b =>
    lvSetN s f (0x380 + 4 * b) (if ifsBinCounts s f es base sum b then (binOf es b).z else 0)
  let s := lvSetN (lvSetN (lvSetN s f 0x1B8 nj) f 0x1BC nv) f 0x1C0 ((lvN s f 0x1C0 + 1) % 4294967296)
  let s := lvBitSet (lvBitSet s f 0x1D4 7 disc) f 0x1D4 8 few
  let s := lvSetN s f 0x158 0
  let s := if disc then s else lvSetN s f 0x1B4 (if jump then satInc 4294967295 (lvN s f 0x1B4) 1 else 0)
  let s := lvRun s f 0x188 (disc && few)
  let s := if lvN s f 0x188 = 8 then fsEvent s f 0x1505 1 [lv s f 0x1BC] else s
  let adj := ifsAdjust s f disc
  let s := if !disc && lvN s f 0x160 == 1 && !jump && !adj.2 then ifsBaseline adj.1 f es sum else adj.1
  let weak := lv s f 0x1C4 == fx s f 0x28 && decide (2 * lvI s f 0x1C8 < fxI s f 0x24)
  let s := if weak && lvN s f 0x19C == 0 then fsEvent s f 0x1506 1 [lv s f 0x1C8] else s
  let s := ifsApply1to5 (lvSetN s f 0x19C (bit weak)) f
  ifsOut (ifsRows6to12 s f disc jump) f

/-- IFS_EVALUATION_PUBLISH: in the last tick before the next evaluation point; none outside ENMASK (R203). -/
def execIfsEvaluationPublish (i : Fin 256) (s : State) : Host.Outcome State Fault Refusal :=
  .next (fsEach s i 2 fun s f => if ifsPublishes s f then ifsPublish s f else s)

/-- IFS_FAST_CLEAR: 2,048 ticks after the last trigger (R216). -/
def execIfsFastClear (i : Fin 256) (s : State) : Host.Outcome State Fault Refusal :=
  .next (fsEach s i 2 fun s f =>
    if 2048 ≤ lvN s f 0x16C then ifsShow (lvSetN (lvBitSet s f 0x1D4 2 false) f 0x170 0) f else s)

/-- Row 7 of R219 for one window; a take that moved the shift comes first (row 6). -/
def ifsWindow (s : State) (f : FsAt) (viol : Bool) (cause : Nat) : State :=
  let st := ifsState s f
  if viol && lvN s f 0x164 == 0 && (1 ≤ st && st ≤ 3) && !ifsPublishes s f then
    (if lvBit s f 0x168 1 then ifsEnter s f 1 0 else ifsEnter s f 4 cause)
  else s

/-- IFS_FREQ_WINDOW_VIOLATION. -/
def execIfsFreqWindowViolation (i : Fin 256) (s : State) : Host.Outcome State Fault Refusal :=
  .next (fsEach s i 2 fun s f => ifsWindow s f (ifsFreqViol s f) 4)

/-- IFS_VOLTAGE_WINDOW_VIOLATION. -/
def execIfsVoltageWindowViolation (i : Fin 256) (s : State) : Host.Outcome State Fault Refusal :=
  .next (fsEach s i 2 fun s f => ifsWindow s f (ifsVoltViol s f) 5)

end Sys2Proof.Machine
end

