-- ==== Sys2Proof/Machine/Mfs.lean ====
section
/-! DEFINITION. The machine function set (ch. 07, R258–R271). STEP_START of its step runs `mfsTick`. The gains of the current and speed
loops and the rated speed are `Config.fsValue` of fixed words (assumption log 67); conversion, back EMF, tracker, blend, torque and current
references, current loops, cross-coupling, modulation and outputs are computed. The monitor words are written in every tick from the internal
state, which stands at and above 0x100 in a layout of the model (assumption log 16, DESIGN CHOICE): 0x104 the code of the tick before,
0x108 the applied angle, 0x10C its last step, 0x110 the source, 0x114–0x128 the tracker, 0x12C–0x138 runs, 0x13C idfw, 0x140 the
mechanical angle, 0x14C all references are 0 for want of an angle, 0x150 a mismatch is noted, 0x160 the blend, 0x170 status bits, 0x174 T*,
0x178 and 0x17C id* and iq*, 0x180 and 0x184 id and iq, 0x188 ω, 0x18C m, 0x190 ANGDIFF, 0x194 NOANG, 0x198 and 0x19C the voltage
reference in the stationary frame, 0x1A0 and 0x1A4 the currents of the tick before, 0x1A8 and 0x1AC the back EMF, 0x1B0 and 0x1B4 the
integrators of the current loops, 0x1B8 that of the speed loop, 0x1BC the filtered speed, 0x1C0 the tracker's step a tick in 2^-16. -/

namespace Sys2Proof.Machine

def mfsRanges : List Live :=
  [⟨4, true, 0, 322122547⟩, ⟨8, false, 1, 10000⟩, ⟨12, true, -348966092, 348966092⟩, ⟨16, true, -268435456, 0⟩,
   ⟨20, false, 0, 1000⟩, ⟨24, true, 0, 53687091⟩]

def mfsCode (s : State) (f : FsAt) : Nat := fxN s f 0x24 / 4 ^ fsMode s f % 4

/-- One degree per tick (R261). -/
def oneDegree : Int := 11930465

/-- The measured phase currents in pu, and the current vector in the stationary frame. -/
def mfsI (s : State) (f : FsAt) (k : Nat) : Int := fsScale (em s f (fxN s f 0x08 + 4 * k)).toInt (fxI s f 0x28)
def mfsAlpha (s : State) (f : FsAt) : Int := fsDiv (2 * mfsI s f 0 - mfsI s f 1 - mfsI s f 2) 3
def mfsBeta (s : State) (f : FsAt) : Int := fsDiv ((mfsI s f 1 - mfsI s f 2) * rootThree) (3 * 2 ^ 60)

/-- The DC-link voltage in pu. -/
def mfsVdc (s : State) (f : FsAt) : Int := fsScale (em s f (fxN s f 0x0C)).toInt (fxI s f 0x2C)

/-- How far the electrical angle moves in a tick at rated speed, with 2^32 to one turn: the fixed block does not give the rated speed
(assumption log 67). -/
def mfsRated (s : State) (f : FsAt) : Int := max 1 ((fsV f 1 (fxWords s f 32)).toNat : Int)

/-- All that the free values of a tick may depend on. -/
def mfsCtx (s : State) (f : FsAt) : List Word := fxWords s f 32 ++ lvWords s f 0x40 112 ++ [qw (mfsAlpha s f), qw (mfsBeta s f)]

/-- The encoder angle, while its validity word is non-zero (R261). -/
def mfsEnc (s : State) (f : FsAt) : Option Word :=
  let a := fxN s f 0x10
  if a ≠ 0 ∧ em s f (a + 4) ≠ 0 then some (BitVec.ofNat 32 (fxN s f 0x04 * (em s f a).toNat) + fx s f 0x34) else none

/-- The sensorless angle, while the tracker is valid. -/
def mfsSl (s : State) (f : FsAt) : Option Word := if lvBit s f 0x170 4 then some (lv s f 0x11C) else none

/-- The selected source: 1 encoder, 2 sensorless, with its angle (R261). -/
def mfsSelect (s : State) (f : FsAt) : Option (Nat × Word) :=
  match fxN s f 0x30 with
  | 0 => (mfsEnc s f).map fun a => (1, a)
  | 1 => (mfsSl s f).map fun a => (2, a)
  | _ => match mfsEnc s f with
    | some a => some (1, a)
    | none => (mfsSl s f).map fun a => (2, a)

/-- The back EMF in the stationary frame: v* − RS × i − LQ × di/dt, with the reference of the tick before (R261). -/
def mfsEmf (s : State) (f : FsAt) : State :=
  let a := mfsAlpha s f
  let b := mfsBeta s f
  let emf (v i old : Int) : Int :=
    v - mulQ (fxI s f 0x38) i - fsDiv (mulQ (fxI s f 0x40) (i - old) * 2 ^ 32 * 2 ^ 60) (4 * halfPi * mfsRated s f)
  let s := lvSetI (lvSetI s f 0x1A8 (emf (lvI s f 0x198) a (lvI s f 0x1A0))) f 0x1AC (emf (lvI s f 0x19C) b (lvI s f 0x1A4))
  lvSetI (lvSetI s f 0x1A0 a) f 0x1A4 b

/-- The angle at which the tracker sees the rotor: 90° behind the back EMF in the direction of rotation, 90° ahead of it against that
direction; where there is no back EMF, free. -/
def mfsSeen (s : State) (f : FsAt) : Word :=
  let x := lvI s f 0x1A8
  let y := lvI s f 0x1AC
  if x = 0 ∧ y = 0 then fsV f 2 (fxWords s f 32)
  else if lvI s f 0x120 < 0 then wordOfInt (fsAngle (-y) x) else wordOfInt (fsAngle y (-x))

/-- The phase-locked loop of the sensorless tracker, with natural frequency OBSBW and damping 0.707: θsl, ωsl and the angle error (R261). -/
def mfsPll (s : State) (f : FsAt) : State :=
  let step := signed 64 (lvL s f 0x1C0)
  let th := lv s f 0x11C + wordOfInt (fsDiv step 65536)
  let err := (mfsSeen s f - th).toInt
  let step := step + loopK2 (fxI s f 0x54) (fxI s f 0x00) (65536 * err)
  let s := lvSetL (lvSet s f 0x11C (th + wordOfInt (loopK1 (fxI s f 0x54) (fxI s f 0x00) err))) f 0x1C0 (unsigned 64 step)
  lvSetI (lvSetI s f 0x120 (fsDiv (step * one28) (65536 * mfsRated s f))) f 0x124 err

/-- The sensorless tracker of the tick and the comparison of both sources (R261). -/
def mfsTracker (s : State) (f : FsAt) : State :=
  let s := mfsPll (mfsEmf s f) f
  let w := absI (lvI s f 0x120)
  let err := absI (lvI s f 0x124) * 360
  let s := lvRun s f 0x114 (decide (fxI s f 0x58 ≤ w) && decide (err < 5 * 4294967296))
  let s := lvRun s f 0x118 (decide (15 * 4294967296 < err))
  let d : Word := match mfsEnc s f, mfsSl s f with
    | some a, some b => a - b
    | _, _ => 0
  let far := decide (20 * 4294967296 < absI d.toInt * 360)
  let s := lvRun (lvSet s f 0x190 d) f 0x128 far
  if far then s else lvSetN s f 0x150 0

/-- Applied angle, blend, extrapolation and mechanical angle (R261, R262, R266). -/
def mfsAngle (s : State) (f : FsAt) : State :=
  let code := mfsCode s f
  let was := lvN s f 0x110
  let th := lv s f 0x108
  let next := th + lv s f 0x10C
  match mfsSelect s f with
  | some (src, a) =>
    let coasting := was == 0 && lvN s f 0x194 != 0 && lvN s f 0x14C == 0
    let off : Int :=
      if was = src then lvI s f 0x160 else if was ≠ 0 || coasting then (next - a).toInt else 0
    let off := off - clampI (-oneDegree) oneDegree off
    let new := a + wordOfInt off
    let step := if was = 0 && !coasting then (0 : Word) else new - th
    let s := lvSet (lvSet (lvSetI s f 0x160 off) f 0x108 new) f 0x10C step
    let s := lvBitSet (lvSetN s f 0x110 src) f 0x170 3 (decide (off ≠ 0))
    let s := if was = 0 then (if src = 1 then lvSet s f 0x140 (em s f (fxN s f 0x10)) else s)
      else lvSet s f 0x140 (lv s f 0x140 + wordOfInt (fsDiv step.toInt (max 1 (fxI s f 0x04))))
    lvSetN (lvSetN s f 0x194 0) f 0x14C 0
  | none =>
    let s := lvBitSet (lvSetN s f 0x110 0) f 0x170 3 false
    if code = 1 ∨ code = 2 then lvSetN (lvSet s f 0x108 next) f 0x194 (satInc 65535 (lvN s f 0x194) 1)
    else lvSetN (lvSetN s f 0x194 0) f 0x14C 0

/-- The speed of the applied angle in pu, and the same through the filter of R265, whose corner is 4 × SBW. -/
def mfsSpeed (s : State) (f : FsAt) : State :=
  let w := fsDiv ((lv s f 0x10C).toInt * one28) (mfsRated s f)
  let tau := 100000000 * 2 ^ 60 / (16 * halfPi * max 1 (fxI s f 0x5C))
  let s := lvSetI s f 0x1BC (fsLag f 5 (mfsCtx s f) (lvI s f 0x1BC) w (fxI s f 0x00) tau)
  lvSetI s f 0x188 w

/-- The modulation m = |v*| / (VDC / 2) in Q4.28, of the reference of the tick before (R263); free where there is no voltage. -/
def mfsMod (s : State) (f : FsAt) : Int :=
  let v := fsRoot (lvI s f 0x198 * lvI s f 0x198 + lvI s f 0x19C * lvI s f 0x19C)
  if mfsVdc s f ≤ 0 then absI (fsV f 6 (mfsCtx s f)).toInt else divQ (2 * v) (mfsVdc s f)

/-- The torque reference after the limits of R263, with whether step 1, step 2 and step 3 cut it. -/
def mfsTorque (s : State) (f : FsAt) (want : Int) : Int × Bool × Bool × Bool :=
  let tlim := lvI s f 0x44
  let w := absI (lvI s f 0x188)
  let cap := if fxN s f 0x18 = 0 then tlim
    else divQ (max 0 ((em s f (fxN s f 0x18)).toInt + lvI s f 0x58)) (max 26843546 w)
  let t1 := clampI (-tlim) tlim want
  let t2 := clampI (-cap) cap t1
  let rate := fsDiv (lvI s f 0x48 * fxI s f 0x00 * one28) 10000000000
  let p := lvI s f 0x174
  let lim := min tlim cap
  let t3 := clampI (-lim) lim (p + clampI (-rate) rate (t2 - p))
  (t3, decide (t1 ≠ want), decide (t2 ≠ t1), decide (t3 ≠ t2))

/-- What the speed loop asks (R265): a proportional part and an integrator, whose gains are set from H and SBW without a formula
(assumption log 67). On entry from code 0b01 it gives the last T*. -/
def mfsSpeedLoop (s : State) (f : FsAt) : Int :=
  let g := [fx s f 0x00, fx s f 0x5C, fx s f 0x60]
  if lvN s f 0x104 = 1 then lvI s f 0x174 else lvI s f 0x1B8 + mulQ (fsV f 7 g).toInt (lvI s f 0x4C - lvI s f 0x1BC)

/-- The speed loop's integrator: loaded with the last T* on entry to code 0b10 from 0b01; it stops while T* is cut. -/
def mfsIntegrate (s : State) (f : FsAt) (last : Int) (cut : Bool) : State :=
  let g := [fx s f 0x00, fx s f 0x5C, fx s f 0x60]
  if mfsCode s f ≠ 2 then lvSet s f 0x1B8 0
  else if lvN s f 0x104 = 1 then lvSetI s f 0x1B8 last
  else if cut then s
  else lvSetI s f 0x1B8 (lvI s f 0x1B8 + fsDiv ((fsV f 8 g).toInt * (lvI s f 0x4C - lvI s f 0x1BC)) (2 ^ 40))

/-- The currents measured in the frame of the applied angle (R263). -/
def mfsPark (s : State) (f : FsAt) : State :=
  let a := angle12 (lv s f 0x108) 0
  let x := mfsAlpha s f
  let y := mfsBeta s f
  lvSetI (lvSetI s f 0x180 (mulQ x (fsCos a) + mulQ y (fsSin a))) f 0x184 (mulQ y (fsCos a) - mulQ x (fsSin a))

/-- What a current loop's gains are set from: tick, resistance, bandwidth, and the inductance of its axis. -/
def mfsGains (s : State) (f : FsAt) (l : Nat) : List Word := [fx s f 0x00, fx s f 0x38, fx s f 0x48, fx s f l]

/-- The errors of the current loops, d and q. -/
def mfsErrs (s : State) (f : FsAt) : Int × Int := (lvI s f 0x178 - lvI s f 0x180, lvI s f 0x17C - lvI s f 0x184)

/-- The integrators of the current loops take the tick's errors (R263). -/
def mfsLoops (s : State) (f : FsAt) : State :=
  let e := mfsErrs s f
  let add (i e : Int) (l : Nat) : Int := i + fsDiv ((fsV f 12 (mfsGains s f l)).toInt * e) (2 ^ 40)
  lvSetI (lvSetI s f 0x1B0 (add (lvI s f 0x1B0) e.1 0x3C)) f 0x1B4 (add (lvI s f 0x1B4) e.2 0x40)

/-- The voltage reference in the stationary frame: 0 without an angle in idle and after 64 ticks without one; the back EMF in idle; else
the current loops, with the cross-coupling of R263. -/
def mfsVector (s : State) (f : FsAt) : Int × Int :=
  let a := angle12 (lv s f 0x108) 0
  let w := lvI s f 0x188
  if lvN s f 0x14C = 1 ∨ (mfsCode s f = 0 ∧ lvN s f 0x110 = 0) then (0, 0)
  else if mfsCode s f = 0 then
    let e := mulQ w (fxI s f 0x44)
    (mulQ e (fsCos (a + 3 * 2 ^ 32)), mulQ e (fsSin (a + 3 * 2 ^ 32)))
  else
    let e := mfsErrs s f
    let d := lvI s f 0x1B0 + mulQ (fsV f 11 (mfsGains s f 0x3C)).toInt e.1 - mulQ w (mulQ (fxI s f 0x40) (lvI s f 0x184))
    let q := lvI s f 0x1B4 + mulQ (fsV f 11 (mfsGains s f 0x40)).toInt e.2 + mulQ w (mulQ (fxI s f 0x3C) (lvI s f 0x180) + fxI s f 0x44)
    (mulQ d (fsCos a) - mulQ q (fsSin a), mulQ d (fsSin a) + mulQ q (fsCos a))

/-- The monitor words (R268). -/
def mfsShow (s : State) (f : FsAt) : State :=
  let s := forEach [(0x80, 0x170), (0x84, 0x174), (0x88, 0x178), (0x8C, 0x17C), (0x90, 0x180), (0x94, 0x184), (0x98, 0x188), (0x9C, 0x18C),
    (0xA0, 0x190), (0xA4, 0x194)] s fun s c => lvSet s f c.1 (lv s f c.2)
  forEach (upto 22) s fun s k => lvSet s f (0xA8 + 4 * k) 0

/-- Status bits, outputs and monitor words (R260, R263, R266, R268). -/
def mfsOut (s : State) (f : FsAt) : State :=
  let valid := lvN s f 0x110 != 0
  let v := mfsVector s f
  let s := lvSetI (lvSetI s f 0x198 v.1) f 0x19C v.2
  let s := forEach (upto 3) s fun s k => emSet s f (fxN s f 0x1C + 4 * k) (qw (fsPhase v.1 v.2 k))
  let s := emSet (emSet s f (fxN s f 0x20) (lv s f 0x140)) f (fxN s f 0x20 + 4) (if valid then fsV f 16 (mfsCtx s f) ||| 1 else 0)
  let fw := decide (lvI s f 0x178 < 0)
  let s := lvBitSet (lvBitSet (lvBitSet s f 0x170 0 valid) f 0x170 1 (lvN s f 0x110 == 1)) f 0x170 2 (lvN s f 0x110 == 2)
  let s := lvBitSet s f 0x170 7 fw
  let s := setRequest (setRequest (setRequest (setRequest s f.e 0 (lvBit s f 0x170 5 || lvBit s f 0x170 6)) f.e 1 (!valid)) f.e 2 fw) f.e 3 valid
  mfsShow s f

/-- All references 0, the integrators cleared (R260, R266). -/
def mfsClear (s : State) (f : FsAt) : State :=
  let s := forEach [0x174, 0x178, 0x17C, 0x13C, 0x1B0, 0x1B4, 0x1B8] s fun s o => lvSet s f o 0
  lvBitSet (lvBitSet s f 0x170 5 false) f 0x170 6 false

/-- The references of the tick (R263, R265). A cut of T* by the rate limit shows in ILIM (assumption log 21, DEDUCED). -/
def mfsRefs (s : State) (f : FsAt) : State :=
  let code := mfsCode s f
  let ctx := mfsCtx s f
  let s := mfsPark (mfsSpeed s f) f
  let m := mfsMod s f
  let s := lvBitSet (lvSetI s f 0x18C (m * 8)) f 0x170 9 (decide (one28 < m))
  let s := lvRun s f 0x134 (decide (one28 < m))
  let s := if one28 < m then s else lvSetN s f 0x138 0
  let s :=
    if code = 0 ∨ lvN s f 0x14C = 1 then mfsClear s f
    else
      let last := lvI s f 0x174
      let want := if code = 1 then (em s f (fxN s f 0x14)).toInt else mfsSpeedLoop s f
      let t := mfsTorque s f want
      let s := mfsIntegrate s f last (t.2.1 || t.2.2.1)
      let fwd := fsDiv (lvI s f 0x54 * fxI s f 0x00 * (8 * m - fxI s f 0x50)) 800000000
      let idfw := min 0 (max (lvI s f 0x50) (lvI s f 0x13C - fwd))
      let imax := fxI s f 0x4C
      let id := max (-imax) idfw
      let psi := fxI s f 0x44 + mulQ (fxI s f 0x3C - fxI s f 0x40) id
      let iq0 := if psi = 0 then (fsV f 17 ctx).toInt else divQ t.1 psi
      let room := fsRootDown (imax * imax - id * id)
      let iq := clampI (-room) room iq0
      let s := lvSetI (lvSetI (lvSetI (lvSetI s f 0x174 t.1) f 0x13C idfw) f 0x178 id) f 0x17C iq
      let s := mfsLoops s f
      lvBitSet (lvBitSet s f 0x170 5 (t.2.1 || t.2.2.2 || decide (iq ≠ iq0))) f 0x170 6 t.2.2.1
  let s := lvRun s f 0x12C (lvBit s f 0x170 5)
  if lvBit s f 0x170 5 then s else lvSetN s f 0x130 0

/-- One tick of the segment. -/
def mfsTick (s : State) (f : FsAt) : State :=
  let s := takeLive s f 0x40 16 mfsRanges 0x170 8 0x1705
  let was := lvBit s f 0x170 0
  let s := mfsOut (mfsRefs (mfsAngle (mfsTracker s f) f) f) f
  let s := lvSetN s f 0x104 (mfsCode s f)
  if lvBit s f 0x170 0 = was then s
  else fsEvent s f 0x1702 0 [pw (bit (!was)), Config.causeWord 0x1702 (lvN s f 0x110)]

/-- MFS_SENSORLESS_VALID: after 64 good ticks (R261). -/
def execMfsSensorlessValid (i : Fin 256) (s : State) : Host.Outcome State Fault Refusal :=
  .next (fsEach s i 4 fun s f => if 64 ≤ lvN s f 0x114 then mfsShow (lvBitSet s f 0x170 4 true) f else s)

/-- MFS_SENSORLESS_INVALID: speed below WSL − 0.01 pu, or 16 ticks above 15 degrees (R261). -/
def execMfsSensorlessInvalid (i : Fin 256) (s : State) : Host.Outcome State Fault Refusal :=
  .next (fsEach s i 4 fun s f =>
    if decide (100 * absI (lvI s f 0x120) < 100 * fxI s f 0x58 - one28) || decide (16 ≤ lvN s f 0x118) then
      mfsShow (lvBitSet s f 0x170 4 false) f else s)

/-- MFS_ANGLE_MISMATCH: event 0x1703 after 100 ticks above 20 degrees, once while it lasts (R261, R271). -/
def execMfsAngleMismatch (i : Fin 256) (s : State) : Host.Outcome State Fault Refusal :=
  .next (fsEach s i 4 fun s f =>
    if lvN s f 0x150 == 0 && decide (100 ≤ lvN s f 0x128) then fsEvent (lvSetN s f 0x150 1) f 0x1703 1 [lv s f 0x190] else s)

/-- MFS_NO_ANGLE_TIMEOUT: after 64 ticks references and VOUT become 0, and event 0x1701 is recorded (R266). -/
def execMfsNoAngleTimeout (i : Fin 256) (s : State) : Host.Outcome State Fault Refusal :=
  .next (fsEach s i 4 fun s f =>
    if mfsCode s f != 0 && lvN s f 0x14C == 0 && decide (64 ≤ lvN s f 0x194) then
      let s := mfsClear (lvSetN s f 0x14C 1) f
      mfsOut (fsEvent s f 0x1701 2 [fx s f 0x30, lv s f 0x188]) f
    else s)

/-- MFS_MODULATION_HIGH: event 0x1706 after 10 ticks above 1.0, once while it lasts (R271). -/
def execMfsModulationHigh (i : Fin 256) (s : State) : Host.Outcome State Fault Refusal :=
  .next (fsEach s i 4 fun s f =>
    if lvN s f 0x138 == 0 && decide (10 ≤ lvN s f 0x134) then
      fsEvent (lvSetN s f 0x138 1) f 0x1706 1 [lv s f 0x18C, qw (mfsVdc s f)] else s)

/-- MFS_ILIM_LONG: event 0x1704 after 1 s, once while it lasts (R271). -/
def execMfsIlimLong (i : Fin 256) (s : State) : Host.Outcome State Fault Refusal :=
  .next (fsEach s i 4 fun s f =>
    if lvN s f 0x130 == 0 && decide (100000000 ≤ lvN s f 0x12C * fxN s f 0x00) then
      let im := fsRoot (lvI s f 0x180 * lvI s f 0x180 + lvI s f 0x184 * lvI s f 0x184)
      fsEvent (lvSetN s f 0x130 1) f 0x1704 0 [qw im] else s)

end Sys2Proof.Machine
end

