-- ==== Sys2Proof/Machine/Rep.lean ====
section
/-! DEFINITION. The repetitive controller (R149–R156). The order of the words of its fixed block, which R149 names
without offsets, is the model's: N, base of W, phase pair, error word, output word (assumption log 25, DESIGN CHOICE). -/

namespace Sys2Proof.Machine

def repRanges : List Live :=
  [⟨4, true, 0, 1073741824⟩, ⟨8, true, 0, 134217728⟩, ⟨12, false, 0, 1073741824⟩, ⟨16, true, 0, 2147483647⟩,
   ⟨20, false, 0, 65535⟩, ⟨28, false, 0, 2⟩]

/-- The number of phase bits below the index, s = 32 − log2(N) (R150). -/
def repShift (n : Nat) : Nat := if n = 256 then 24 else if n = 512 then 23 else if n = 1024 then 22 else 21

/-- A mode freezes learning by its role or by FRZMASK (R153). -/
def repFreezes (s : State) (f : FsAt) (m : Nat) : Bool :=
  (getReg s (imgRole f.pl.polder)).toNat / 4 ^ m % 4 != 0 || lvBit s f 0x38 m

/-- What the tick knows of the previous mode (R153): LASTFRZ says whether it froze learning in its last tick; 0x50 holds the mode of the
last tick plus 1, 0x54 whether that tick was frozen (assumption log 65). -/
def repMode (s : State) (f : FsAt) (frz : Bool) : State :=
  let m := fsMode s f + 1
  let s := if lvN s f 0x50 = 0 ∨ lvN s f 0x50 = m then s else lvSet s f 0x4C (lv s f 0x54)
  lvSetN (lvSetN s f 0x50 m) f 0x54 (bit frz)

def repW (s : State) (f : FsAt) (j : Nat) : Int := (em s f (fxN s f 4 + 4 * j)).toInt

/-- The update of one passed point (R151). -/
def repLearn (s : State) (f : FsAt) (e : Int) (j : Nat) : State :=
  let w := repW s f j
  emSet s f (fxN s f 4 + 4 * j) (qw (w + shiftQ (lvI s f 0x24 * e) 31 true - shiftQ (lvI s f 0x28 * w) 31 true))

/-- One tick of the segment. OUTSAT is judged on u, before FADE and FRZOUT; FADE stays as it is in a freeze with another FRZOUT than 1,
and rises to 64 outside of one (assumption log 65). -/
def repTick (s : State) (f : FsAt) : State :=
  let s := takeLive s f 0x20 8 repRanges 0x44 6 0
  let n := fxN s f 0
  let sh := repShift n
  let phi := (em s f (fxN s f 8)).toNat
  let valid := em s f (fxN s f 8 + 4) != 0
  let i := phi / 2 ^ sh
  let prev := lvN s f 0x40
  let c := (i + n - prev % n) % n
  let frz := repFreezes s f (fsMode s f)
  let s := repMode s f frz
  let resume := lvN s f 0x4C != 0 && decide (fsTicksIn s f < lvN s f 0x34)
  let learn := !frz && valid && decide (c ≤ 8) && !resume
  let s := if learn then forEach (upto c) s fun s k => repLearn s f (em s f (fxN s f 12)).toInt ((prev + 1 + k) % n) else s
  let s := lvSetN s f 0x40 i
  let psi := (phi + lvN s f 0x2C) % 4294967296
  let p := psi / 2 ^ sh
  let r : Int := (psi % 2 ^ sh * 2 ^ (31 - sh) : Nat)
  let raw := repW s f p + shiftQ ((repW s f ((p + 1) % n) - repW s f p) * r) 31 true
  let lim := lvI s f 0x30
  let u := clampI (-lim) lim raw
  let out := lvN s f 0x3C
  let fade := lvN s f 0x48
  let fade := if frz && out == 1 then fade - 1 else if frz then fade else min 64 (fade + 1)
  let s := lvSetN s f 0x48 fade
  let u' := if out = 1 then fsDiv (u * fade) 64 else if out = 2 ∧ frz then 0 else u
  let st := bit learn + 2 * bit frz + 4 * bit (decide (8 < c)) + 8 * bit (!valid) + 16 * bit resume +
    32 * bit (decide (lim ≤ absI u)) + 64 * bit (lvBit s f 0x44 6)
  emSet (lvSetN s f 0x44 st) f (fxN s f 16) (qw u')

end Sys2Proof.Machine
end

