-- ==== Sys2Proof/Machine/Tfs.lean ====
section
/-! DEFINITION. The tracking function set (ch. 07, R230–R248, R272–R275). STEP_START of its step runs `tfsTick`.
The monitor words are written in every tick from the internal state, which stands at and above 0x300 in a layout of the model (assumption
log 16, DESIGN CHOICE). PV: a record of 96 bytes for each string (`pvRec`: 0, 8, 16 the running sums, 24 and 28 the last means, 32 VREF
before a sweep, 36 the sweep tick, 40 ticks since the last sweep's end, 44 the last step, 48 updates in shade, 52 the time of a request,
60 VREF, 64, 72, 80 the sums of a bin, 84 and 88 the best bin, 92 mean power), 0xF40 its flags, 0xFC4 sweeping, 0xFC8 pending, 0xFCC PTOT,
0xFD0 status bits. Turbine: 0x304 the last phase, 0x308 and 0x30C runs, 0x310–0x338 the adaptation cycle, 0x33C KOPTNOW, 0x340 status
bits, 0x344 and 0x348 the estimates, 0x34C the torque reference. -/

namespace Sys2Proof.Machine

/-- A signed 64-bit number in two words of the block. -/
def lvS (s : State) (f : FsAt) (o : Nat) : Int := signed 64 (lvL s f o)
def lvSetS (s : State) (f : FsAt) (o : Nat) (i : Int) : State := lvSetL s f o (unsigned 64 i)

/-! ## PV (R233–R241) -/

def pvRanges : List Live :=
  [⟨8, false, 10, 3600⟩, ⟨16, true, 42949673, 1073741824⟩, ⟨20, true, 0, 268435456⟩]

def pvN (s : State) (f : FsAt) : Nat := min 32 (fxN s f 0x08)
def pvV (s : State) (f : FsAt) (k : Nat) : Int := fsScale (em s f (fxN s f 0x0C + 4 * k)).toInt (fxI s f 0x18)
def pvI (s : State) (f : FsAt) (k : Nat) : Int := fsScale (em s f (fxN s f 0x10 + 4 * k)).toInt (fxI s f 0x1C)
def pvOn (s : State) (f : FsAt) (k : Nat) : Bool := lvBit s f 0x44 k
def pvSweeping (s : State) (f : FsAt) (k : Nat) : Bool := lvBit s f 0xFC4 k
def pvModeOk (s : State) (f : FsAt) : Bool := nbit (fxN s f 0x44) (fsMode s f)
/-- The internal record of a string, its flag word (0–1: what its next update or tick does, 2: best bin known, 3: first
request still to come, 4: a sweep has ended) and its monitor words. -/
def pvRec (k : Nat) : Nat := 0x300 + 96 * k
def pvFlag (k : Nat) : Nat := 0xF40 + 4 * k
def pvMon (k : Nat) : Nat := 0x100 + 16 * k
/-- The number of ticks of a sweep (R237). -/
def pvNsw (s : State) (f : FsAt) : Nat := 4000000 / max 1 (fxN s f 0x04)
def pvEnabled (s : State) (f : FsAt) : List Nat := (upto (pvN s f)).filter (pvOn s f)

/-- Ask for a sweep; one that is pending is not repeated (R239). -/
def pvRequest (s : State) (f : FsAt) (k : Nat) (key : Nat) : State :=
  if lvBit s f 0xFC8 k then s
  else lvSetL (lvBitSet s f 0xFC8 k true) f (pvRec k + 52) key

/-- Abort a running sweep: VREF returns in the next tick, which is taken as the one whose step notices the condition (assumption log 78,
DESIGN CHOICE), and the request goes to the head (R241). -/
def pvAbort (s : State) (f : FsAt) (cause k : Nat) : State :=
  if pvSweeping s f k then
    let s := lvBitSet s f 0xFC4 k false
    let s := lvSetN s f (pvFlag k) (lvN s f (pvFlag k) / 4 * 4 + 2)
    let s := if pvOn s f k then lvSetL (lvBitSet s f 0xFC8 k true) f (pvRec k + 52) 0 else s
    fsEvent s f 0x1602 0 [pw k, Config.causeWord 0x1602 cause]
  else s

/-- Close the present bin of a sweep: keep it when its mean power is the highest so far (R237, R238). -/
def pvCloseBin (s : State) (f : FsAt) (k : Nat) : State :=
  let r := pvRec k
  let n : Int := lvN s f (r + 80)
  if n = 0 then s
  else
    let p := fsDiv (lvS s f (r + 72)) n
    let v := fsDiv (lvS s f (r + 64)) n
    let s := if !lvBit s f (pvFlag k) 2 || decide (lvI s f (r + 84) < p) then
        lvBitSet (lvSetI (lvSetI s f (r + 84) p) f (r + 88) v) f (pvFlag k) 2 true else s
    lvSetN (lvSetL (lvSetL s f (r + 64) 0) f (r + 72) 0) f (r + 80) 0

/-- One tick of a string. -/
def pvString (s : State) (f : FsAt) (k : Nat) : State :=
  let r := pvRec k
  let v := pvV s f k
  let i := pvI s f k
  let p := mulQ v i
  let s := lvSetS (lvSetS (lvSetS s f r (lvS s f r + v)) f (r + 8) (lvS s f (r + 8) + i)) f (r + 16) (lvS s f (r + 16) + p)
  let s := if lvN s f (pvFlag k) % 4 = 2 then lvSetN (lvSet s f (pvRec k + 60) (lv s f (r + 32))) f (pvFlag k) (lvN s f (pvFlag k) - 2) else s
  let s :=
    if pvSweeping s f k then
      let j := lvN s f (r + 36)
      let nsw := pvNsw s f
      if j < nsw then
        let s := if 64 * j / nsw = 64 * (j - 1) / nsw then s else pvCloseBin s f k
        let s := lvSetS (lvSetS s f (r + 64) (lvS s f (r + 64) + v)) f (r + 72) (lvS s f (r + 72) + p)
        let s := lvSetN (lvSetN s f (r + 80) (lvN s f (r + 80) + 1)) f (r + 36) (j + 1)
        lvSetI s f (pvRec k + 60) (fxI s f 0x28 - fsDiv ((fxI s f 0x28 - fxI s f 0x24) * (j : Int)) nsw)
      else s
    else lvSetN s f (r + 40) (satInc 4294967295 (lvN s f (r + 40)) 1)
  let s := if pvOn s f k then s else lvSet s f (pvRec k + 60) (fx s f 0x28)
  emSet s f (fxN s f 0x14 + 4 * k) (lv s f (pvRec k + 60))

/-- The monitor words of a PV placed segment (R273). -/
def pvShow (s : State) (f : FsAt) : State :=
  let put (s : State) (c : Nat × Nat) : State := lvSet s f c.1 (lv s f c.2)
  let s := forEach [(0x80, 0xFD0), (0x84, 0xFC4), (0x88, 0xFC8), (0x8C, 0xFCC)] s put
  forEach (upto (pvN s f)) s fun s k => forEach [(0, 24), (4, 28), (8, 60), (12, 44)] s fun s c => put s (pvMon k + c.1, pvRec k + c.2)

/-- Status, monitor words and request outputs of a PV placed segment (R232, R273). -/
def pvOut (s : State) (f : FsAt) : State :=
  let s := forEach (upto (pvN s f)) s fun s k => emSet s f (fxN s f 0x14 + 4 * k) (lv s f (pvRec k + 60))
  let curt := lvBit s f 0xFD0 1
  let s := lvBitSet s f 0xFD0 0 (lv s f 0xFC4 != 0)
  let s := lvBitSet s f 0xFD0 2 (lv s f 0xFC8 != 0 && !pvModeOk s f)
  let tracks := !curt && (pvEnabled s f).any fun k => !pvSweeping s f k
  let s := pvShow s f
  setRequest (setRequest (setRequest (setRequest s f.e 0 (lv s f 0xFC4 != 0)) f.e 1 curt) f.e 2 false) f.e 3 tracks

/-- One tick of a PV placed segment. A pending request of a string that is disabled is dropped (assumption log 78, DESIGN CHOICE). -/
def pvTick (s : State) (f : FsAt) : State :=
  let s := if lvN s f 0xF00 = 0 then
      forEach (upto (pvN s f)) (lvSetN s f 0xF00 1) fun s k => lvSetN (lvSet s f (pvRec k + 60) (fx s f 0x28)) f (pvFlag k) 8
    else s
  let swreq := lv s f 0x4C
  let s := takeLive s f 0x40 16 pvRanges 0xFD0 3 0x1603
  let s := lvSetL s f 0xF18 (lvL s f 0xF18 + 1)
  let s := if lv s f 0x4C = swreq then s else forEach (pvEnabled s f) s fun s k => pvRequest s f k (lvL s f 0xF18)
  let all := lvN s f 0xF10 == 1
  let mode := !pvModeOk s f
  let s := forEach (upto (pvN s f)) s fun s k =>
    if mode then pvAbort s f 0 k else if !pvOn s f k then pvAbort s f 1 k else if all then pvAbort s f 2 k else s
  let s := lvSetN s f 0xF10 0
  let s := forEach (upto (pvN s f)) s fun s k =>
    if pvOn s f k then s else lvBitSet s f 0xFC8 k false
  let s := forEach (upto (pvN s f)) s fun s k => pvString s f k
  let s := lvSetN s f 0xF04 (bit (fsTickNo s f % max 1 (fxN s f 0x20) == 0))
  pvOut s f

/-- The sign of a number. -/
def signI (i : Int) : Int := if 0 < i then 1 else if i < 0 then -1 else 0

/-- The step of R235 for new means; 24 and 28 of the record hold the previous ones. -/
def pvStep (s : State) (f : FsAt) (k : Nat) (vbar ibar : Int) : Int :=
  let r := pvRec k
  let dv := vbar - lvI s f (r + 24)
  let di := ibar - lvI s f (r + 28)
  let smin := fxI s f 0x2C
  if absI dv < fxI s f 0x3C then
    (if absI di < fxI s f 0x40 then 0 else if 0 < di then smin else -smin)
  else
    let g := ibar + fsDiv (vbar * di) dv
    if absI g < fxI s f 0x38 then 0
    else signI g * min (fxI s f 0x30) (max smin (mulQ (fxI s f 0x34) (absI g)))

/-- One string in an update tick (R235, R236, R239). -/
def pvUpdateString (s : State) (f : FsAt) (ptot : Int) (curt above : Bool) (k : Nat) : State :=
  let r := pvRec k
  let n : Int := max 1 (fxI s f 0x20)
  let vbar := fsDiv (lvS s f r) n
  let ibar := fsDiv (lvS s f (r + 8)) n
  let fl := lvN s f (pvFlag k)
  let free := pvOn s f k && !pvSweeping s f k
  let step : Int :=
    if !free || fl % 4 == 1 then 0
    else if curt then (if above then fxI s f 0x2C else 0)
    else pvStep s f k vbar ibar
  let s := lvSetI s f (r + 44) step
  let s := if free then lvSetI s f (r + 60) (min (fxI s f 0x28) (max (fxI s f 0x24) (lvI s f (r + 60) + step))) else s
  let s := lvSetI (lvSetI s f (r + 24) vbar) f (r + 28) ibar
  let s := lvSetL (lvSetL s f r 0) f (r + 8) 0
  let s := if fl % 4 = 1 then lvSetN s f (pvFlag k) (fl - 1) else s
  let low := free && decide (lvI s f (r + 92) * 2147483648 < (2147483648 - lvI s f 0x50) * ptot)
  let s := lvRun s f (r + 48) low
  if low && decide (8 ≤ lvN s f (r + 48)) && (fl / 16 % 2 == 0 || decide (1000000000 ≤ lvN s f (r + 40) * fxN s f 0x04)) then
    pvRequest s f k (lvL s f 0xF18) else s

/-- The pending string that starts next: the earliest request, then the lower index (R240). -/
def pvFirst (s : State) (f : FsAt) : Option Nat :=
  ((upto (pvN s f)).filter fun k => lvBit s f 0xFC8 k && pvOn s f k && !pvSweeping s f k).foldl
    (fun b k => match b with
      | none => some k
      | some j => if lvL s f (pvRec k + 52) < lvL s f (pvRec j + 52) then some k else some j) none

/-- Start pending sweeps while there is room (R240). -/
def pvStart (s : State) (f : FsAt) : Nat → State
  | 0 => s
  | n + 1 =>
    let s := pvStart s f n
    let run := ((upto (pvN s f)).filter (pvSweeping s f)).length
    match pvFirst s f with
    | some k =>
      if run < max 1 ((pvEnabled s f).length / 8) then
        let r := pvRec k
        let s := lvBitSet (lvBitSet s f 0xFC8 k false) f 0xFC4 k true
        let s := lvSet (lvSetN s f (r + 36) 0) f (r + 32) (lv s f (r + 60))
        lvBitSet (lvSetN (lvSetL (lvSetL s f (r + 64) 0) f (r + 72) 0) f (r + 80) 0) f (pvFlag k) 2 false
      else s
    | none => s

/-- The update of R234–R240. -/
def pvUpdate (s : State) (f : FsAt) : State :=
  let n : Int := max 1 (fxI s f 0x20)
  let s := lvSetN s f 0xF04 0
  let s := forEach (upto (pvN s f)) s fun s k =>
    let r := pvRec k
    let s := if pvSweeping s f k then s else lvSetI s f (r + 92) (fsDiv (lvS s f (r + 16)) n)
    let s := lvSetI s f (0xFC0) (fsDiv (lvS s f (r + 16)) n)
    let s := if pvOn s f k then lvSetS s f 0xF28 (lvS s f 0xF28 + lvI s f 0xFC0) else s
    lvSetL s f (r + 16) 0
  let ptot := fsDiv (lvS s f 0xF28) (max 1 ((pvEnabled s f).length : Int))
  let s := lvSetI (lvSetL s f 0xF28 0) f 0xFCC ptot
  let plim := lvI s f 0x54
  let above := decide (plim < ptot)
  let curt := above || (lvBit s f 0xFD0 1 && decide (100 * plim - one28 ≤ 100 * ptot))
  let s := lvBitSet s f 0xFD0 1 curt
  let s := forEach (upto (pvN s f)) s fun s k => pvUpdateString s f ptot curt above k
  let s := if pvModeOk s f && !curt then pvStart s f 32 else s
  pvOut s f

/-- TFS_UPDATE_TICK: the update of an update tick (R234). -/
def execTfsUpdateTick (i : Fin 256) (s : State) : Host.Outcome State Fault Refusal :=
  .next (fsEach s i 3 fun s f => if fxN s f 0 == 0 && lvN s f 0xF04 == 1 then pvUpdate s f else s)

/-- TFS_SWEEP_REQUEST: SWINT after the end of the last sweep; at first, at k × SWINT / NSTR (R239). -/
def execTfsSweepRequest (i : Fin 256) (k : Fin 32) (s : State) : Host.Outcome State Fault Refusal :=
  .next (fsEach s i 3 fun s f =>
    let t := lvN s f (pvRec k + 40) * fxN s f 0x04
    let due := !pvSweeping s f k && if lvBit s f (pvFlag k) 3 then decide (k.val * lvN s f 0x48 * 100000000 ≤ t * max 1 (pvN s f))
               else decide (lvN s f 0x48 * 100000000 ≤ t)
    if fxN s f 0 == 0 && decide (k.val < pvN s f) && pvOn s f k && due then
      pvOut (pvRequest (lvBitSet s f (pvFlag k) 3 false) f k (lvL s f 0xF18)) f
    else s)

/-- TFS_SWEEP_END: after the last sweep tick the best bin is chosen (R238). -/
def execTfsSweepEnd (i : Fin 256) (k : Fin 32) (s : State) : Host.Outcome State Fault Refusal :=
  .next (fsEach s i 3 fun s f =>
    let r := pvRec k
    if fxN s f 0 == 0 && pvSweeping s f k && decide (pvNsw s f ≤ lvN s f (r + 36)) then
      let s := pvCloseBin s f k
      let pg := lvI s f (r + 84)
      let moved := lvBit s f (pvFlag k) 2 && decide (lvI s f (r + 92) * (2147483648 + fxI s f 0x48) < pg * 2147483648)
      let s := lvSet s f (pvRec k + 60) (lv s f (if moved then r + 88 else r + 32))
      let s := lvSetN (lvBitSet s f 0xFC4 k false) f (pvFlag k) 17
      let s := lvSetN s f (r + 40) 0
      pvOut (fsEvent s f 0x1601 0 [pw k, qw pg, pw (bit moved)]) f
    else s)

/-! ## Turbine (R243–R248) -/

def wtRanges : List Live :=
  [⟨4, true, 53687092, 536870912⟩, ⟨8, true, 53687092, 536870912⟩, ⟨12, true, 53687092, 536870912⟩, ⟨16, false, 0, 1⟩,
   ⟨20, false, 10, 600⟩, ⟨24, true, 10737419, 107374182⟩, ⟨28, true, 0, 322122547⟩]

/-- Restart the adaptation cycle (R247, R248). -/
def wtRestart (s : State) (f : FsAt) : State :=
  let s := lvSetL (lvSetL (lvSetL s f 0x310 0) f 0x318 0) f 0x320 0
  lvSetN (lvSetL (lvSetL s f 0x328 0) f 0x330 0) f 0x338 0

/-- The take, with the clamps that tie KMAX and KOPT to KMIN (R272). An adapted KOPT stays in the new band (R247). -/
def wtTake (s : State) (f : FsAt) : State :=
  let k0 := lv s f 0x44
  let taken := lv s f 0 != lv s f 0x40
  let s := takeLive s f 0x40 16 wtRanges 0x340 4 0x1603
  if !taken then s
  else
    let s := if lvI s f 0x4C < lvI s f 0x48 then
        fsEvent (lvBitSet (lvSet s f 0x4C (lv s f 0x48)) f 0x340 4 true) f 0x1603 0 [12] else s
    let k := clampI (lvI s f 0x48) (lvI s f 0x4C) (lvI s f 0x44)
    let s := if k = lvI s f 0x44 then s else fsEvent (lvBitSet (lvSetI s f 0x44 k) f 0x340 4 true) f 0x1603 0 [4]
    if lv s f 0x44 = k0 then
      let n := clampI (lvI s f 0x48) (lvI s f 0x4C) (lvI s f 0x33C)
      if n = lvI s f 0x33C then s else fsEvent (lvSetI s f 0x33C n) f 0x1604 0 [qw n]
    else wtRestart (lvSet s f 0x33C (lv s f 0x44)) f

/-- KOPT as it acts in this tick of a cycle (R247). -/
def wtKopt (s : State) (f : FsAt) : Int :=
  let k := lvI s f 0x33C
  if lvN s f 0x50 ≠ 1 then k
  else
    let d := fsDiv (k * lvI s f 0x58) 2147483648
    if 2 * lvL s f 0x310 * fxN s f 0x04 < lvN s f 0x54 * 100000000 then k + d else k - d

/-- The observer gains L1 and L2, which are set from OBSBW: the chapter gives no formula for them (assumption log 67). In Q4.28 and in
Q16.16. -/
def wtGain1 (s : State) (f : FsAt) : Int := (fsV f 5 [fx s f 0x20, fx s f 0x04, fx s f 0x1C]).toInt
def wtGain2 (s : State) (f : FsAt) : Int := (fsV f 6 [fx s f 0x20, fx s f 0x04, fx s f 0x1C]).toInt

/-- The observer (R244, R245). -/
def wtObserve (s : State) (f : FsAt) : State :=
  let ts : Int := fxN s f 0x04
  let tg := (em s f (fxN s f 0x0C)).toInt
  let h : Int := max 1 (fxI s f 0x1C)
  let phi := em s f (fxN s f 0x08)
  let valid := em s f (fxN s f 0x08 + 4) != 0
  let wp := lvI s f 0x344 + fsDiv (ts * (lvI s f 0x348 - tg)) (200000 * h)
  let wm := fsDiv ((phi - lv s f 0x304).toInt * 6000000000000) (16 * ts * max 1 (fxI s f 0x18))
  let e := wm - wp
  let s := if valid then
      lvSetI (lvSetI s f 0x344 (wp + mulQ (wtGain1 s f) e)) f 0x348 (lvI s f 0x348 + fsDiv (wtGain2 s f * e) 65536)
    else lvSetI s f 0x344 wp
  let s := lvBitSet (lvSet s f 0x304 phi) f 0x340 5 (!valid)
  lvRun (lvRun s f 0x308 (!valid)) f 0x30C valid

/-- The torque law (R246). -/
def wtTorque (s : State) (f : FsAt) : State :=
  let w := lvI s f 0x344
  let cut := if lvBit s f 0x340 0 then decide (w < fxI s f 0x24) else decide (w < fxI s f 0x24 - fxI s f 0x28)
  let s := lvBitSet s f 0x340 0 cut
  if lvBit s f 0x340 1 then lvBitSet s f 0x340 2 false
  else if cut then lvBitSet (lvSet s f 0x34C 0) f 0x340 2 false
  else
    let want := mulQ (wtKopt s f) (mulQ w w)
    let top := min (fxI s f 0x2C) (lvI s f 0x5C)
    let t1 := min top want
    let rate := fsDiv (fxI s f 0x30 * fxI s f 0x04 * one28) 10000000000
    let p := lvI s f 0x34C
    let t2 := p + clampI (-rate) rate (t1 - p)
    let s := lvBitSet s f 0x340 2 (decide (t2 ≠ want))
    lvSetN (lvSetI s f 0x34C t2) f 0x338 (lvN s f 0x338 ||| bit (decide (top < want)))

/-- The sums of the adaptation cycle (R247, R248). -/
def wtAdapt (s : State) (f : FsAt) : State :=
  if lvN s f 0x50 ≠ 1 then wtRestart s f
  else
    let w := lvI s f 0x344
    let ok := nbit (fxN s f 0x34) (fsMode s f) && !lvBit s f 0x340 0 && !lvBit s f 0x340 1
    let s := if ok then s else lvSetN s f 0x338 1
    let o := if 2 * lvL s f 0x310 * fxN s f 0x04 < lvN s f 0x54 * 100000000 then 0x318 else 0x328
    let s := lvSetS s f o (lvS s f o + mulQ (lvI s f 0x348) w)
    let s := lvSetS s f (o + 8) (lvS s f (o + 8) + mulQ w (mulQ w w))
    lvSetL s f 0x310 (lvL s f 0x310 + 1)

/-- Outputs and monitor words of a turbine placed segment (R232, R246, R273). REQ3 stays 0 until the observer has left the lost state, also
while the pair is valid again (assumption log 78, DESIGN CHOICE). -/
def wtOut (s : State) (f : FsAt) : State :=
  let s := lvBitSet s f 0x340 3 (lvN s f 0x50 == 1)
  let s := forEach [(0x80, 0x340), (0x84, 0x344), (0x88, 0x348), (0x8C, 0x34C), (0x90, 0x33C)] s fun s c => lvSet s f c.1 (lv s f c.2)
  let s := emSet (emSet s f (fxN s f 0x10) (lv s f 0x34C)) f (fxN s f 0x14) (lv s f 0x344)
  setRequest (setRequest (setRequest (setRequest s f.e 0 (lvBit s f 0x340 0)) f.e 1 (lvBit s f 0x340 1)) f.e 2
    (lvBit s f 0x340 2)) f.e 3 (!lvBit s f 0x340 5 && !lvBit s f 0x340 1)

/-- One tick of a turbine placed segment. -/
def wtTick (s : State) (f : FsAt) : State :=
  let s := if lvN s f 0x300 = 0 then lvBitSet (lvSet (lvSetN s f 0x300 1) f 0x33C (lv s f 0x44)) f 0x340 0 true else s
  wtOut (wtAdapt (wtTorque (wtObserve (wtTake s f) f) f) f) f

/-- TFS_OBSERVER_LOST: the angle pair stayed invalid for AMAXLOSS (R245). -/
def execTfsObserverLost (i : Fin 256) (s : State) : Host.Outcome State Fault Refusal :=
  .next (fsEach s i 3 fun s f =>
    if fxN s f 0 == 1 && !lvBit s f 0x340 1 && lvN s f 0x308 != 0 && decide (fxN s f 0x38 * 100000 ≤ lvN s f 0x308 * fxN s f 0x04) then
      wtOut (fsEvent (lvBitSet s f 0x340 1 true) f 0x1605 1 [lv s f 0x344]) f
    else s)

/-- TFS_OBSERVER_REGAINED: after 64 consecutive valid ticks (R245). -/
def execTfsObserverRegained (i : Fin 256) (s : State) : Host.Outcome State Fault Refusal :=
  .next (fsEach s i 3 fun s f =>
    if fxN s f 0 == 1 && lvBit s f 0x340 1 && decide (64 ≤ lvN s f 0x30C) then wtOut (lvBitSet s f 0x340 1 false) f else s)

/-- The better half of a cycle that counts: 1 the first, 2 the second, 0 neither (R247, R248). -/
def wtBetter (s : State) (f : FsAt) : Nat :=
  let a := lvS s f 0x318 * lvS s f 0x330
  let b := lvS s f 0x328 * lvS s f 0x320
  if lvN s f 0x338 ≠ 0 then 0 else if 1005 * b < 1000 * a then 1 else if 1005 * a < 1000 * b then 2 else 0

/-- TFS_ADAPT_CYCLE_END: after ADINT, KOPT moves by the factor 1 ± ADSTEP toward the better half, within [KMIN, KMAX]
(R247). -/
def execTfsAdaptCycleEnd (i : Fin 256) (s : State) : Host.Outcome State Fault Refusal :=
  .next (fsEach s i 3 fun s f =>
    if fxN s f 0 == 1 && lvN s f 0x50 == 1 && decide (lvN s f 0x54 * 100000000 ≤ lvL s f 0x310 * fxN s f 0x04) then
      let k := lvI s f 0x33C
      let d := fsDiv (k * lvI s f 0x58) 2147483648
      let n := match wtBetter s f with
        | 1 => k + d
        | 2 => k - d
        | _ => k
      let n := clampI (lvI s f 0x48) (lvI s f 0x4C) n
      let s := lvSetI s f 0x33C n
      let s := if n ≠ k ∧ (n = lvI s f 0x48 ∨ n = lvI s f 0x4C) then fsEvent s f 0x1604 0 [qw n] else s
      wtRestart s f
    else s)

/-- One tick of a TFS placed segment (R230). -/
def tfsTick (s : State) (f : FsAt) : State := if fxN s f 0 = 0 then pvTick s f else wtTick s f

end Sys2Proof.Machine
end

