-- ==== Sys2Proof/Machine/FsAll.lean ====
section
/-! DEFINITION. The ROM segments together: one tick of the placed segment that starts at a step (R143), what tick loss
does to them (R196, R228, R241, R270), what a state transfer copies beside memory. -/

namespace Sys2Proof.Machine

/-- One tick of the placed segment that starts at word `seg` of engine `e`, where one does. -/
def fsStep (s : State) (e seg : Nat) : State :=
  match fsAt s e seg with
  | none => s
  | some f =>
    match f.pl.segId with
    | 1 => gfsTick s f
    | 2 => ifsTick s f
    | 3 => tfsTick s f
    | 4 => mfsTick s f
    | 5 => cbsTick s f
    | 6 => repTick s f
    | _ => s

/-- The engine cycles that a tick of a placed segment costs, at every tempo, in every state of it (R156, R164, R198, R231, R258,
R335). -/
def fsCost (s : State) (f : FsAt) : Nat :=
  match f.pl.segId with
  | 1 => 2450
  | 2 => 3100
  | 3 => if fxN s f 0 = 0 then 240 + 110 * fxN s f 8 else 950
  | 4 => 1850
  | 5 => 2000 + 120 * ((cbsCells s f 0).length + (cbsCells s f 1).length)
  | 6 => 160
  | _ => 0

/-- The placed segment that starts at a step runs, and its cycles are counted (R56). -/
def fsRun (s : State) (e seg : Nat) : State :=
  match fsAt s e seg with
  | none => s
  | some f =>
    let s := fsStep s e seg
    setEng s e { getEng s e with cycles := (getEng s e).cycles + fsCost s f }

/-- Tick loss: windows of the IFS are lost, sweeps of the TFS are aborted, the sensorless count starts anew. -/
def fsTickLost (s : State) : State :=
  forEach ((upto s.img.insts.length).flatMap fun i => fsRuns s i) s fun s f =>
    match f.pl.segId with
    | 2 => lvSetN s f 0x1A4 1
    | 3 => if fxN s f 0 = 0 then lvSetN s f 0xF10 1 else s
    | 4 => lvBitSet (lvSetN s f 0x114 0) f 0x170 4 false
    | _ => s

/-- The histories of an IFS go with its state area from one engine to another (R116). -/
def copyHist (s : State) (src dst : Nat) : State :=
  let h := s.img.insts.foldl (fun h x => cellSet [] h (dst * 131072 + x.live % 131072) (cellGet [] h (src * 131072 + x.live % 131072))) s.fsHist
  let c := s.img.insts.foldl (fun h x => cellSet [] h (dst * 131072 + x.live % 131072) (cellGet [] h (src * 131072 + x.live % 131072))) s.fsChips
  { s with fsHist := h, fsChips := c }

end Sys2Proof.Machine
end

