-- ==== Sys2Proof/Machine/Sequencer.lean ====
section
/-! DEFINITION. The sequencer (R57–R61), host writes to data memory (R87–R91), set-point latches (R131–R142) and
redundant placement (R114–R128). -/

namespace Sys2Proof.Machine

/-! ## Step lists (R59, R60) -/

/-- The entries of a cluster in list order: by ascending polder, then the end of the list (R60). -/
def clusterSteps (s : State) (k : Nat) : List DWord :=
  ((upto 8).flatMap fun p => cellGet [] s.img.steps (8 * k + p)) ++ [BitVec.ofNat 64 (3 * 2 ^ 56)]

/-- An engine may run the group steps: a present member, or the spare in a tick after a mismatch (R120, R123). -/
def runsGroup (s : State) (e : Nat) : Bool :=
  match groupOf s e with
  | some (k, _) =>
    let g := getGroup s k
    g.members.contains e || (g.restoring && g.spare == some e)
  | none => false

/-- A migration tick runs the migration segments in place of the step list (R458). -/
def migSteps (s : State) (e : Nat) : Option (List Nat) :=
  match (cellGet polImgReset s.img.pol (resPol s (resEngine e))).migrating with
  | some sub => some (((sub.migrate.getD []).filter fun m => m.1 == e).map fun m => m.2)
  | none => none

/-- A step of the engine's cluster is due for it in this tick (R59). -/
def stepDue (s : State) (e : Nat) (d : DWord) : Bool :=
  let p := resPol s (resEngine e)
  stepEng d == e % 16 && stepPol d == p && stepKind d != 3 && nbit (stepModes d) (curMode s p) &&
    s.tick.count.toNat % stepDiv d == stepPhase d && (stepKind d != 1 || runsGroup s e)

/-- The next due step of an engine from index `i`: its index, KIND and segment start. -/
def nextDue (s : State) (e i : Nat) : Option (Nat × Nat × Nat) :=
  match migSteps s e with
  | some segs => (segs[i]?).map fun g => (i, 0, g)
  | none =>
    let l := clusterSteps s (clusterOf e)
    ((upto l.length).find? fun j => decide (i ≤ j) && stepDue s e (l.getD j 0)).map fun j =>
      (j, stepKind (l.getD j 0), stepSeg (l.getD j 0))

/-- A group step of the engine is still due from index `i` on; in a migration tick a migration segment. -/
def groupStepLeft (s : State) (e i : Nat) : Bool :=
  match migSteps s e with
  | some segs => decide (i < segs.length)
  | none =>
    let l := clusterSteps s (clusterOf e)
    (upto l.length).any fun j => decide (i ≤ j) && stepKind (l.getD j 0) == 1 && stepDue s e (l.getD j 0)

/-- The engine has run its last step of the tick. -/
def stepsOver (s : State) (e : Nat) : Bool := (getEng s e).running.isNone && (nextDue s e (getEng s e).nextStep).isNone

/-- The engine's group still waits for its state transfer (R116). -/
def waitsTransfer (s : State) (e : Nat) : Bool :=
  match groupOf s e with
  | some (k, _) => (getGroup s k).xfer.isSome
  | none => false

/-- The placed segment of a step does its tick, `ecc` met at a location (R112): in a word of its copy, as a fetch that fails ends the step,
of which nothing is left (assumption log 84, DESIGN CHOICE: the spec does not say which of its results come before that word); in data
memory, as a load that gives 0. A migration segment is no placed one (R458). -/
def placedTick (s : State) (e seg : Nat) (err : Option (Nat × Ecc)) : State :=
  if (migSteps s e).isSome || (fsAt s e seg).isNone then s
  else match err with
    | none => fsRun s e seg
    | some (loc, k) =>
      if 32768 ≤ loc then
        let s := eccMeet s e (32768 + 4096 * execBank s e + loc % 4096) k true
        if eccBad k then setEng s e { getEng s e with atEnd := true } else fsRun s e seg
      else
        let a := dmWord e loc
        let w := rdWord s a
        let s := eccMeet s e loc k true
        if eccBad k then
          let t := fsRun (wrWord s a 0) e seg
          if rdWord t a = 0 then wrWord t a w else t
        else fsRun s e seg

/-- The location of a memory error of a step as ENG.ECC has it: a word of data memory below 32,768, from there on a word of the bank that
the engine executes. -/
def tableErr (loc : Nat) (k : Ecc) : Option (Nat × Ecc) := if 32768 ≤ loc ∧ k ≠ .clean then some (loc - 32768, k) else none

/-- STEP_START: the next due step starts: registers cleared (R93), the first word fetched; `loc` is the location at which a fetch of the
step, or a load of the placed ROM segment that does its tick, meets `ecc` (R112). -/
def execStepStart (e : Fin 256) (loc : Fin 36864) (ecc : Ecc) (s : State) : Host.Outcome State Fault Refusal :=
  .next <|
    let x := getEng s e
    let p := resPol s (resEngine e)
    if !s.dev.tickRun || s.clk.gateC || s.flt.hold || inReset s p || x.running.isSome || waitsTransfer s e then s
    else
      match nextDue s e x.nextStep with
      | none => setEng s e { x with done := true }
      | some (i, kind, seg) =>
        let x := { x with cur := engRegsReset, nxt := engRegsReset, running := some ⟨i, p, kind, seg⟩, nextStep := i + 1
                          wp := seg, reps := [], atEnd := false, stall := none, wordFlags := 0, nextReqs := [], nextLines := 0
                          cycles := x.cycles + (if x.stepEnded then 4 else 0)
                          fetchErr := tableErr loc.val ecc }
        let s := setB (setEng s e x) (engStat e) engStat_Busy true
        if (migSteps s e).isSome || (fsAt s e seg).isNone then fetchCheck s e
        else placedTick (setEng s e { getEng s e with fetchErr := none }) e seg (if ecc = .clean then none else some (loc.val, ecc))

/-! ## Set-point latches (R131–R138) -/

def latDst (s : DWord) (k : Nat) : Nat := 16 * k + nbits s.toNat 60 57
def latDstWord (d : DWord) : Nat := nbits d.toNat 56 42
def latSrcWord (d : DWord) : Nat := nbits d.toNat 41 27
def latSrcStep (d : DWord) : Nat := nbits d.toNat 26 15
def latSrcEng (d : DWord) : Nat := nbits d.toNat 7 0

def getLatch (s : State) (k : Nat) : LatchSt := cellGet latchReset s.latches k
def setLatch (s : State) (k : Nat) (l : LatchSt) : State := { s with latches := cellSet latchReset s.latches k l }

/-- The source step of an entry, and its divisor. -/
def latStep (s : State) (d : DWord) : DWord := (clusterSteps s (clusterOf (latSrcEng d))).getD (latSrcStep d) 0

/-- The placement group of the entry's source step: only a KIND 0b01 step is a group's (R114, R138). -/
def latGroup (s : State) (d : DWord) : Option (Nat × Group) := if stepKind (latStep s d) = 1 then groupOf s (latSrcEng d) else none

/-- Step `i` of engine `e` is the entry's source step, or the same step on another member of its group (R134, R138). -/
def latSource (s : State) (d : DWord) (e i : Nat) : Bool :=
  (latSrcEng d == e && latSrcStep d == i) ||
    ((latGroup s d).isSome && (groupOf s e).map (fun g => g.1) == (latGroup s d).map (fun g => g.1) &&
      ((clusterSteps s (clusterOf e)).getD i 0).toNat / 256 == (latStep s d).toNat / 256)

/-- The captures of a step that ends (R134): `late` when it ends after the cut-off. In a placement group a late end on any engine that runs
the source step blocks the latch, and is recorded once (assumption log 81, DESIGN CHOICE: R138 takes any member of the majority). -/
def captureLatches (s : State) (e i : Nat) (late : Bool) : State :=
  forEach s.img.latches s fun s c =>
    if latSource s c.2 e i then
      if late then
        (if !(getLatch s c.1).late then
          notice (setLatch s c.1 { getLatch s c.1 with late := true }) 0x0350 (resPol s (resEngine e)) [pw (c.1 / 64), pw (c.1 % 64)]
        else s)
      else
        let l := getLatch s c.1
        setLatch s c.1 { l with caps := cellPut l.caps e (rdWord s (dmWord e (latSrcWord c.2))) }
    else s

/-- The applied value with ramp index `k` (R136) of values of `w` bits. -/
def rampValue (w : Nat) (ramp : Bool) (a b : Nat) (k d : Nat) : Nat :=
  let x := signed w a
  let y := signed w b
  if ramp then unsigned w (x + ((y - x) * ((k : Int) + 1)).tdiv (d : Int)) else b % 2 ^ w

/-- The applied word of a latch (R136, R137). -/
def latchValue (d : DWord) (l : LatchSt) (div : Nat) : Word :=
  let ramp := nbit d.toNat 61
  let v (w a b : Nat) : Nat := rampValue w ramp a b l.k div
  if nbit d.toNat 62 then
    BitVec.ofNat 32 (v 16 (l.s.toNat / 65536) (l.tg.toNat / 65536) * 65536 + v 16 l.s.toNat l.tg.toNat)
  else BitVec.ofNat 32 (v 32 l.s.toNat l.tg.toNat)

/-- What a latch captured, for its source at this edge: none when the source step was late (R134), or its group's vote failed
(R138). -/
def latchCaught (s : State) (d : DWord) (l : LatchSt) : Option Word :=
  if l.late then none
  else match latGroup s d with
  | some (k, _) => (getGroup s k).maj.findSome? fun e => cellFind l.caps e
  | none => cellFind l.caps (latSrcEng d)

/-- One latch at the edge: a valid capture sets S, Tg and k; then the pair is written and k advances (R135, R139). -/
def latchEdge (s : State) (c : Nat × DWord) : State :=
  let d := c.2
  let e := latDst d (c.1 / 64)
  let l := getLatch s c.1
  let failed := !l.caps.isEmpty && (match latGroup s d with
    | some (k, _) => (getGroup s k).voteFailed
    | none => false)
  let s := if failed then notice s 0x0351 (resPol s (resEngine (latSrcEng d))) [pw (c.1 / 64), pw (c.1 % 64)] else s
  let caught := if failed then none else latchCaught s d l
  let l := { l with caps := [], late := false }
  let l := match caught with
    | some w => { l with s := if l.active then l.applied else rdWord s (dmWord e (latDstWord d)), tg := w, k := 0, active := true }
    | none => l
  if !l.active || inReset s (resPol s (resEngine e)) then setLatch s c.1 l
  else
    let div := stepDiv (latStep s d)
    let v := latchValue d l div
    let s := deliver (deliver s e (latDstWord d) v) e (latDstWord d + 1) l.tg
    setLatch s c.1 { l with applied := v, k := min (div - 1) (l.k + 1) }

/-! ## The state signature (R115) -/

/-- CRC-32C over `n` bytes of memory from `a`. -/
def crcMem (s : State) (a : Nat) : Nat → Nat → Nat
  | 0, c => c
  | n + 1, c => crcMem s (a + 1) n (crcFold 0x82F63B78 c (rdByte s a).toNat)

/-- The signature of an engine's state area. -/
def signature (s : State) (e : Nat) (g : Group) : Word :=
  BitVec.ofNat 32 (0xFFFFFFFF ^^^ crcMem s (engBase e + 32 * g.base) (32 * g.len) 0xFFFFFFFF)

/-- The group whose state area an engine signs: in a migration tick the group of the new sub-image (R458). -/
def sigGroup (s : State) (e : Nat) : Option Group :=
  match (cellGet polImgReset s.img.pol (resPol s (resEngine e))).migrating with
  | some sub => sub.groups.find? fun g => g.members.contains e || g.spare == some e
  | none => (groupOf s e).map fun c => c.2

/-- The words of an engine's enabled taps (R113); a disabled tap gives 0 (R157). -/
def tapWords (s : State) (e : Nat) : List Word :=
  (upto 4).map fun k =>
    if getB s (engTap e k) engTap_En then rdWord s (dmWord e (getF s (engTap e k) engTap_Word)) else 0

/-- What the trace taps of an engine hold after its last step of the tick (R113, R157); taken once a tick. -/
def snapTaps (s : State) (e : Nat) : State :=
  setEng s e { getEng s e with tapSnap := some ((getEng s e).tapSnap.getD (tapWords s e)) }

/-- SEGMENT_END: the word with END has run its final repetition; `late` when the step ends after the commit cut-off
(R95, R97, R115, R134); after the engine's last step its taps are taken (R113). -/
def execSegmentEnd (e : Fin 256) (late : Bool) (s : State) : Host.Outcome State Fault Refusal :=
  .next <|
    let x := getEng s e
    match x.running with
    | none => s
    | some r =>
      if s.clk.gateC || s.flt.hold || (!x.atEnd && ((migSteps s e).isSome || (fsAt s e r.seg).isNone)) then s
      else
        let s := setB (setEng s e { x with running := none, stall := none, stepEnded := true }) (engStat e) engStat_Busy false
        let s := if r.kind = 1 ∨ (migSteps s e).isNone then captureLatches s e r.idx late else s
        let s := if stepsOver s e then snapTaps s e else s
        match sigGroup s e with
        | some g =>
          if (r.kind = 1 ∨ (migSteps s e).isSome) ∧ groupStepLeft s e (r.idx + 1) = false ∧ g.len ≠ 0 then
            let x := getEng s e
            setEng s e { x with sig := some (signature s e g), cycles := x.cycles + g.len + 8 }
          else s
        | none => s

/-! ## Host writes to data memory (R87–R90) -/

/-- Whether a data-memory address of an engine lies in its group's state area (R90). -/
def inStateArea (s : State) (e a : Nat) : Option Group :=
  match groupOf s e with
  | some (_, g) => if 32 * g.base ≤ a % 0x100000 ∧ a % 0x100000 < 32 * (g.base + g.len) then some g else none
  | none => none

/-- One word of a host write takes place: in every member and the spare for a word of a state area (R90). -/
def putHostWord (s : State) (e a : Nat) (v : Word) : State :=
  match inStateArea s e a with
  | some g => forEach (g.members ++ g.spare.toList) s fun s d => wrWord s (engBase d + a % 0x100000) v
  | none => wrWord s a v

/-- The words of a host write, from an address on. -/
def putHostWords (s : State) (e : Nat) : Nat → List Word → State
  | _, [] => s
  | a, v :: t => putHostWords (putHostWord s e a v) e (a + 4) t

/-- A word of the write lies in a state area. -/
def hitsState (s : State) (e : Nat) (w : HostWrite) : Bool := (upto w.words.length).any fun i => (inStateArea s e (w.addr + 4 * i)).isSome

/-- The engines whose data memory a host write changes (R90). -/
def writeReach (s : State) (e : Nat) (w : HostWrite) : List Nat :=
  if hitsState s e w then (match groupOf s e with
    | some (_, g) => g.members ++ g.spare.toList
    | none => [e])
  else [e]

/-- A host write takes place. Engines that have run their last step of the tick take their taps before it (R113). -/
def applyHostWrite (s : State) (e : Nat) (w : HostWrite) : State :=
  let s := forEach ((writeReach s e w).filter (stepsOver s)) s snapTaps
  putHostWords s e w.addr w.words

/-- Whether every engine that a write would reach has run its last step of the tick. -/
def canApply (s : State) (e : Nat) (w : HostWrite) : Bool := (writeReach s e w).all (stepsOver s)

/-- The waiting host writes of an engine: 16 in its queue, the rest held back (R89). -/
def waitWrites (s : State) (e : Nat) (l : List HostWrite) : State := setEng s e { getEng s e with queue := l.take 16, held := l.drop 16 }

/-- Drain waiting writes in arrival order, as far as they may (R89). -/
def drainList (s : State) (e : Nat) (force : Bool) : List HostWrite → State
  | [] => waitWrites s e []
  | w :: t => if force || canApply s e w then drainList (applyHostWrite s e w) e force t else waitWrites s e (w :: t)

/-- HOST_WRITE_QUEUE_DRAIN: after the engine's last step of the tick (R89); the taps see memory before it (R113). -/
def execHostWriteQueueDrain (e : Fin 256) (s : State) : Host.Outcome State Fault Refusal :=
  .next <|
    let x := getEng s e
    if stepsOver s e then drainList (snapTaps s e) e false (x.queue ++ x.held) else s

/-! ## Placement groups (R116–R128) -/

/-- The PLACE registers of a group's engines from its present state (R129). -/
def showGroup (s : State) (k : Nat) (g : Group) : State :=
  let gs := getGroup s k
  let reduced := decide (gs.retired ≠ [])
  let s := forEach (g.members ++ g.spare.toList) s fun s e =>
    setB (setB s (engPlace e) engPlace_Retired (gs.retired.contains e)) (engPlace e) engPlace_Reduced reduced
  let s := forEach (upto gs.members.length) s fun s i => match gs.members[i]? with
    | some e => setF s (engPlace e) engPlace_Role (if g.triple then 1 else 2)
    | none => s
  match gs.spare with
  | some e => setF (setF s (engPlace e) engPlace_Role 3) (engPlace e) engPlace_Member 2
  | none => s

/-- What one engine gives the voter (R117, R119). -/
structure Ballot where
  e : Nat
  ok : Bool
  outs : Cells Word
  reqs : List Bool
  sig : Option Word
  deriving DecidableEq, Repr

def ballot (s : State) (e : Nat) : Ballot :=
  let x := getEng s e
  { e := e, ok := !x.overtopped && !x.eccFault, outs := x.vouts, sig := x.sig
    reqs := (upto 4).map fun n => (cellFind x.reqLane n).getD (getFbit s (engStat e) engStat_Req n) }

/-- Bit-exact agreement; a member with a fault disagrees with every other (R117, R119). -/
def agree (a b : Ballot) : Bool := a.ok && b.ok && a.outs == b.outs && a.reqs == b.reqs && a.sig == b.sig

/-- The ballots of the majority: at least two that agree. -/
def majority (l : List Ballot) : List Ballot :=
  match l.find? fun a => l.any fun b => a.e != b.e && agree a b with
  | some a => l.filter fun b => a.e == b.e || agree a b
  | none => []

/-- The majority's outputs apply (R117). -/
def applyBallot (s : State) (g : Group) (b : Ballot) : State :=
  let s := { s with win := b.outs.foldl (fun m c => cellSet 0 m c.1 c.2) s.win }
  let es := g.members ++ g.spare.toList
  forEach es s fun s e => setF s (engStat e) engStat_Req ((upto 4).foldl (fun n i => n + bit (b.reqs.getD i false) * 2 ^ i) 0)

/-- The group loses an engine: a spare takes a computing member's place (R120, R124). -/
def retireEngine (s : State) (k : Nat) (g : Group) (e : Nat) : State :=
  let gs := getGroup s k
  let x := getEng s e
  let s := setEng s e { x with eccRetired := x.eccFault }
  let i := getF s (engPlace e) engPlace_Member
  let s := match g.triple, gs.members.contains e, gs.spare with
    | false, true, some c => setF s (engPlace c) engPlace_Member i
    | _, _, _ => s
  let gs' : GroupSt :=
    if g.triple then { gs with members := gs.members.filter (· != e), retired := gs.retired ++ [e] }
    else match gs.members.contains e, gs.spare with
      | true, some c => { gs with members := gs.members.map (fun m => if m = e then c else m), spare := none, retired := gs.retired ++ [e] }
      | _, _ => { gs with spare := none, retired := gs.retired ++ [e] }
  showGroup (setGroup s k gs') k g

/-- The outputs of a group are held: class-2 event (R121, R125). -/
def holdGroup (s : State) (k : Nat) (g : Group) (code : Nat) : State :=
  let gs := getGroup s k
  faultDue (setGroup s k { gs with restoring := false, agreed := false, voteFailed := true, maj := [] }) code 2 g.polder [pw g.id]

/-- The vote at the edge that ends a tick in which the group's steps were due (R117–R125). -/
def voteGroup (s : State) (k : Nat) (g : Group) : State :=
  let gs := getGroup s k
  let bs := (if gs.restoring then gs.members ++ gs.spare.toList else gs.members).map (ballot s)
  let m := majority bs
  match m.head? with
  | none =>
    if g.triple then holdGroup s k g 0x0411
    else if gs.restoring || gs.spare.isNone then holdGroup s k g 0x0422
    else
      let s := setGroup s k { gs with restoring := true, xfer := some .restore, agreed := false, voteFailed := true, maj := [] }
      faultDue s 0x0420 1 g.polder [pw g.id]
  | some b =>
    let s := applyBallot s g b
    let out := bs.filter fun c => !m.contains c
    let s := setGroup s k { gs with restoring := false, agreed := true, voteFailed := false, maj := m.map fun c => c.e }
    forEach out s fun s c =>
      faultDue (retireEngine s k g c.e) (if g.triple then 0x0410 else 0x0421) 1 g.polder [pw g.id, pw c.e]

/-- The group's steps were due in the ending tick (R117). -/
def groupDue (s : State) (g : Group) : Bool :=
  g.members.any fun e => (clusterSteps s (clusterOf e)).any fun d =>
    stepEng d == e % 16 && stepPol d == g.polder && stepKind d == 1 && nbit (stepModes d) (curMode s g.polder) &&
      s.tick.count.toNat % stepDiv d == stepPhase d

/-- The initial data-memory words of an engine in a sub-image, with the parameters that overlay them (R573). -/
def initWords (s : State) (p e : Nat) (sub : SubImage) : List (Nat × Word) :=
  (sub.dmem.filter fun d => d.1 == e).flatMap (fun d => d.2) ++
    ((s.img.params.filter fun b => b.polder == p).flatMap fun b => b.values.filterMap fun x => if x.1 = e then some x.2 else none)

/-- A data-memory word of an engine lies in one of its delivery areas (R88). -/
def inArea (s : State) (e w : Nat) : Bool := s.img.areas.any fun a => a.eng == e && decide (a.lo ≤ w) && decide (w < a.hi)

/-- Reload an engine's data memory outside its delivery areas and the system words (R127). -/
def reloadOutside (s : State) (e : Nat) : State :=
  let p := resPol s (resEngine e)
  let b := engBase e
  let m := s.mem.filter fun c => decide (c.1 < b) || decide (b + 0x1FF00 ≤ c.1) || inArea s e ((c.1 - b) / 4)
  let s := { s with mem := m }
  match runSub s p with
  | some sub => forEach (initWords s p e sub) s fun s x =>
      if inArea s e x.1 || decide (0x1FF00 ≤ 4 * x.1) then s else wrWord s (dmWord e x.1) x.2
  | none => s

/-- What transfer the tick that starts must do (R116, R122, R127). -/
def nextTransfer (s : State) (k : Nat) (g : Group) (due : Bool) : State :=
  let gs := getGroup s k
  if gs.xfer.isSome then s
  else match gs.readmit with
    | some e =>
      let s := setGroup s k { gs with xfer := some (.seed e), readmit := none }
      if (getEng s e).eccRetired then setEng (reloadOutside s e) e { getEng (reloadOutside s e) e with eccRetired := false } else s
    | none => if due && !g.triple && gs.spare.isSome && gs.agreed then setGroup s k { gs with xfer := some .shadow } else s

/-- A group at the edge. Its request outputs change the condition sources. -/
def groupEdge (s : State) (g : Group) : State :=
  let k := g.polder * 256 + g.id
  if inReset s g.polder then s
  else
    let due := groupDue s g
    let s := if due then voteGroup s k g else setGroup s k { getGroup s k with voteFailed := false, maj := [] }
    latchConds (nextTransfer s k g due) g.polder

/-- Copy the state area of an engine to another of its group. -/
def copyState (s : State) (g : Group) (src dst : Nat) : State :=
  copyHist (wrWords s (engBase dst + 32 * g.base) (rdWords s (engBase src + 32 * g.base) (8 * g.len))) src dst

/-- The re-admitted engine joins its group: as spare, or as member (R127). -/
def joinGroup (s : State) (k : Nat) (g : Group) (e : Nat) : State :=
  let gs := getGroup s k
  let gs : GroupSt := { gs with retired := gs.retired.filter (· != e) }
  let s :=
    if g.triple then setGroup s k { gs with members := gs.members ++ [e] }
    else setGroup s k { gs with spare := some e, members := gs.members }
  notice (showGroup s k g) 0x0430 g.polder [pw g.id, pw e]

/-- The region clock of an engine in MHz. -/
def engMHz (s : State) (e : Nat) : Nat := fvMHz s / tempoDiv (getF s (tickRtempo (regionOf e)) tickRtempo_Tempo)

/-- The engines of a group wait for its state transfer: at most 1.0 µs (R116), counted in ENG.CYCLAST (R129). How long it takes is
not stated. -/
def countTransfer (s : State) (g : Group) : State :=
  let n := (Config.freeWord s.free).toNat
  forEach (g.members ++ g.spare.toList) (nextFree s) fun s e =>
    setEng s e { getEng s e with cycles := (getEng s e).cycles + n % (engMHz s e + 1) }

/-- STATE_TRANSFER_DONE: the shadow copy, restore or seeding of group `id` of polder `p` ends (R116, R122, R123, R127). -/
def execStateTransferDone (p : Fin 8) (id : Fin 256) (s : State) : Host.Outcome State Fault Refusal :=
  .next <|
    let k := p.val * 256 + id.val
    let gs := getGroup s k
    match s.img.groups.find? fun g => g.polder == p.val && g.id == id.val, gs.xfer with
    | some g, some x =>
      let s := countTransfer (setGroup s k { gs with xfer := none }) g
      match x, gs.spare with
      | .shadow, some c => (match gs.members.head? with
        | some m => copyState s g m c
        | none => s)
      | .restore, some c => forEach gs.members s fun s m => copyState s g c m
      | .seed e, _ =>
        let healthy := gs.members.filter (· != e)
        let low := healthy.foldl (fun m d => min m d) (healthy.headD e)
        joinGroup (copyState s g low e) k g e
      | _, _ => s
    | _, _ => s

/-- A re-admission is under way: its seed runs. -/
def seeding (gs : GroupSt) : Bool := match gs.xfer with
  | some (.seed _) => true
  | _ => false

/-- A write of 0xA5 to ENG.PLACE.READMIT (R127): no effect on an engine that is not retired, nor while a re-admission of its group waits or
its seed runs (assumption log 81, DESIGN CHOICE). -/
def readmitWrite (s : State) (e v : Nat) : State :=
  if v = 0xA5 ∧ getB s (engPlace e) engPlace_Retired then
    match groupOf s e with
    | some (k, _) =>
      let gs := getGroup s k
      if gs.readmit.isSome || seeding gs then s else setGroup s k { gs with readmit := some e }
    | none => s
  else s

/-! ## Engines at the edge (R56–R58, R109) -/

/-- The step belongs to a placed table (R58): a group step, or the migration segment of a member of a group (R458). -/
def placedStep (s : State) (e : Nat) (r : Running) : Bool := r.kind == 1 || ((migSteps s e).isSome && (sigGroup s e).isSome)

/-- Overtopping (R57, R58): the engine stops and its outputs of the ending tick are discarded. A migration step that overtops
starts a polder reset in place of the takeover (R460). An engine that a hold has stopped (R470) does not overtop. -/
def overtop (s : State) (e : Nat) : State :=
  let x := getEng s e
  match x.running with
  | none => s
  | some r =>
    let p := resPol s (resEngine e)
    let t := setB (setEng s e { x with running := none, stall := none, overtopped := !s.flt.hold, outs := [], nextReqs := [], nextLines := 0 })
      (engStat e) engStat_Busy false
    if s.flt.hold then t
    else
      let cls := if placedStep s e r then 1 else 2
      let t := faultDue (countF (raiseEsf t e esfOvt) (tickOvtcnt p) tickOvtcnt_Count 1) 0x0320 cls p [pw e, pw r.idx, pw x.cycles]
      if (migSteps s e).isSome then faultDue (requestReset t p .migration) 0x0114 2 p [pw p, pw e] else t

/-- The outputs of steps outside groups apply (R51, R284). -/
def mergeOuts (s : State) (e : Nat) : State :=
  { s with win := (getEng s e).outs.foldl (fun m c => cellSet 0 m c.1 c.2) s.win }

/-- The cycles of a tick at an engine's region tempo and the committed profile. -/
def tickCycles (s : State) (e : Nat) : Nat :=
  fvMHz s * period s / (100 * tempoDiv (getF s (tickRtempo (regionOf e)) tickRtempo_Tempo))

/-- Measured freeboard in 0.1 %, its warning, the cycle registers (R56). -/
def measure (s : State) (e : Nat) : State :=
  let c := (getEng s e).cycles
  let t := max 1 (tickCycles s e)
  let fb := (t - min t c) * 1000 / t
  let k := clusterOf e
  let s := setF s (engCyclast e) engCyclast_Cyc (min 0xFFFFF c)
  let s := setF s (engCycmax e) engCycmax_Cyc (max (getF s (engCycmax e) engCycmax_Cyc) (min 0xFFFFF c))
  let s := if fb < getF s (tickFbmin k) tickFbmin_Min then
      setF (setF s (tickFbmin k) tickFbmin_Min fb) (tickFbmin k) tickFbmin_Engine (e % 16) else s
  if fb < getF s tickFbwarn tickFbwarn_Level ∧ !s.tick.fbNoted.contains k then
    notice { s with tick := { s.tick with fbNoted := s.tick.fbNoted ++ [k] } } 0x0321 0 [pw k, pw (e % 16), pw fb]
  else s

/-- Flags of the ending tick (R109). -/
def flagSummary (s : State) (e : Nat) : State :=
  let x := getEng s e
  let s := setF s (engEtick e) engEtick_Flags x.setFlags
  if x.newFlags = 0 then s else notice s 0x0401 (resPol s (resEngine e)) [pw e, pw x.newFlags]

/-- The engine is ready for the new tick; what its queue still holds is applied between the ticks (R89, R90). -/
def newTick (s : State) (e : Nat) : State :=
  let s := drainList s e true ((getEng s e).queue ++ (getEng s e).held)
  let x := getEng s e
  setEng s e { x with nextStep := 0, done := false, stepEnded := false, cycles := 0, setFlags := 0, newFlags := 0, wordFlags := 0
                      outs := [], vouts := [], reqLane := [], nextReqs := [], lines := 0, nextLines := 0, eccFault := false, overtopped := false, sig := none
                      fetchErr := none, tapSnap := none }

/-- The system words of an engine (R61, R87). -/
def systemWords (s : State) (e : Nat) : State :=
  let p := resPol s (resEngine e)
  let m := tickMode p
  let mode := getF s m tickMode_Tim * 65536 + getF s m tickMode_Prev * 16 + getF s m tickMode_Cur
  let b := engBase e + 0x1FF00
  let s := wrWord s b (BitVec.ofNat 32 mode)
  let s := wrWord s (b + 4) (s.tick.count.setWidth 32)
  let s := wrWord s (b + 8) (BitVec.ofNat 32 (p * 256 + e))
  wrWord s (b + 12) (getReg s (engPlace e) &&& 0xFF)

end Sys2Proof.Machine
end

