-- ==== Sys2Proof/Machine/Acq.lean ====
section
/-! DEFINITION. Converter groups and their slots (R341–R354, R359–R361): results, deliveries, calibration, the checks of
an ACQ set. -/

namespace Sys2Proof.Machine

def getGrp (s : State) (g : Nat) : Grp := cellGet grpReset s.grps g
def setGrp (s : State) (g : Nat) (x : Grp) : State := { s with grps := cellSet grpReset s.grps g x }
def getCmp (s : State) (c : Nat) : Cmp := cellGet cmpReset s.cmps c
def setCmp (s : State) (c : Nat) (x : Cmp) : State := { s with cmps := cellSet cmpReset s.cmps c x }

/-! ## Slots (R350–R353) -/

def slotOsr (s : State) (g j : Nat) : Nat := 2 ^ getF s (acqSlot g j) acqSlot_Osrc
def slotOn (s : State) (g j : Nat) : Bool := getB s (acqSlot g j) acqSlot_En
def slotChan (s : State) (g j : Nat) : Nat := getF s (acqSlot g j) acqSlot_Chan
def slotGain (s : State) (g j : Nat) : Nat := getF s (acqSlot g j) acqSlot_Gain
def slotStart (s : State) (g j : Nat) : Nat := getF s (acqSlot g j) acqSlot_Start
def slotPol (s : State) (g j : Nat) : Nat := resPol s (resSlot g j)

/-- A quotient rounded half up. -/
def roundDiv (n d : Int) : Int := (2 * n + d) / (2 * d)

/-- The result of a slot × 2^18, rounded half up (R351). -/
def slotValue (tri : Bool) (codes : List Int) : Word :=
  let osr := codes.length
  let wt (k : Nat) : Nat := if tri then min (k + 1) (osr - k) else 1
  let num : Int := (upto osr).foldl (fun n k => n + codes.getD k 0 * wt k) 0
  let den : Nat := (upto osr).foldl (fun n k => n + wt k) 0
  (sat32 (roundDiv (num * 262144) (max 1 den : Nat))).1

/-- A code is limited to 14 bits (R342). -/
def limitCode (c : Int) : Int := if c < -8192 then -8192 else if 8191 < c then 8191 else c

/-- The code of a conversion of `v` nV at a gain code, half way up (R342). -/
def convCode (v : Int) (gain : Nat) : Int := limitCode (roundDiv (v * 2 ^ gain * 4096) 1000000000)

/-- A code at a limit (R342). -/
def overrange (c : Int) : Bool := c == 8191 || c == -8192

/-- A code after the correction of its slice by the SCAL word: OFF in 1/16 LSB, GERR in 0.02 % (R346). -/
def corrected (scal : Word) (c : Int) : Int :=
  limitCode (roundDiv ((16 * c - signed 16 (fget scal acqScal_Off)) * (5000 + signed 8 (fget scal acqScal_Gerr))) 80000)

/-- The channel and gain of a slot. -/
def slotInput (s : State) (g j : Nat) : Nat × Nat := (slotChan s g j, slotGain s g j)

/-- The discarded positions of a slot: none where it starts at the position `free` after an enabled slot on the same input, else 2 (R350). -/
def slotDisc (s : State) (g j free : Nat) (inp : Nat × Nat) : Nat := if slotStart s g j = free ∧ inp = slotInput s g j then 0 else 2

/-- Insert by START. -/
def insertSlot (s : State) (g j : Nat) : List Nat → List Nat
  | [] => [j]
  | k :: t => if slotStart s g j < slotStart s g k then j :: k :: t else k :: insertSlot s g j t

/-- The enabled slots of a group by START. -/
def slotsByStart (s : State) (g : Nat) : List Nat :=
  ((upto 32).filter (slotOn s g)).foldl (fun l j => insertSlot s g j l) []

/-- The first used position of slot `j`, in the slots of its group from position `free` on. -/
def slotFirst (s : State) (g j : Nat) : Nat → Nat × Nat → List Nat → Nat
  | _, _, [] => 0
  | free, inp, k :: t =>
    let used := slotStart s g k + slotDisc s g k free inp
    if k = j then used else slotFirst s g j (used + slotOsr s g k) (slotInput s g k) t

/-- The codes of a slot's used conversions of these voltages in nV: the active slice of interleave position k mod 4 takes position k, and
its correction applies (R341, R342, R346). Whether one is an overrange, before its correction or after. -/
def slotCodes (s : State) (g j : Nat) (vs : List Int) : List Int × Bool :=
  let first := slotFirst s g j 0 (128, 0) (slotsByStart s g)
  let raw := vs.map fun v => convCode v (slotGain s g j)
  let slice (k : Nat) : Nat := (getGrp s g).active.getD ((first + k) % 4) 0
  let fixed := (upto raw.length).map fun k => corrected (getReg s (acqScal g (slice k))) (raw.getD k 0)
  (fixed, raw.any overrange || fixed.any overrange)

/-- The status word (R353). -/
def slotStatus (s : State) (g : Nat) (ovr : Bool) : Word :=
  let inv := getB s (acqGstat g) acqGstat_Invalid || (getGrp s g).calibrating
  BitVec.ofNat 32 (bit inv * 2 ^ 31 + bit (getB s (acqGstat g) acqGstat_Degr) * 2 ^ 30 + bit ovr * 2 ^ 29 + s.tick.count.toNat % 256)

/-- A culvert delivery (R353): only while the page is OWNED by the slot's polder. -/
def slotToCulvert (s : State) (g j page w : Nat) (l : List Word) : State :=
  let p := slotPol s g j
  let s := beatsPass s p 1
  let fl := (getReg s (culvFlag page)).toNat
  if nbits fl 1 0 = 1 ∧ nbits fl 4 2 = p then markUsed (wrWords s (pageBase page + 4 * w) l) page p
  else
    let s := setB s (acqSstat g j) acqSstat_Cref true
    let x := getGrp s g
    if x.cref.contains j then s
    else notice (setGrp s g { x with cref := x.cref ++ [j] }) 0x0804 p [pw g, pw j, pw page]

/-- The deliveries of a slot (R353). -/
def slotDeliver (s : State) (g j : Nat) (v st : Word) : State :=
  forEach (upto 4) s fun s d =>
    let a := acqDest g j d
    let t := getF s a acqDest_Target
    let l := if getB s a acqDest_Statw then [v, st] else [v]
    if !getB s a acqDest_En then s
    else if getB s a acqDest_Kind then slotToCulvert s g j (t / 32768) (t % 1024) l
    else
      let s := deliver s (t / 524288) (t % 32768) v
      if getB s a acqDest_Statw then deliver s (t / 524288) (t % 32768 + 1) st else s

/-! ## The cross-check and the DAC check (R359–R361) -/

/-- What one conversion shows (R359): a miss, a false, or that it decides nothing. -/
structure Verdict where
  miss : Bool
  wrong : Bool
  decisive : Bool
  deriving DecidableEq, Repr

/-- A threshold code in converter codes. -/
def thrCode (n : Nat) : Int := ((n : Int) - 512) * 16

def verdict (hi lo m : Int) (c : Int × Bool) : Verdict :=
  let out := decide (hi + m < c.1) || decide (c.1 < lo - m)
  let inn := decide (lo + m ≤ c.1) && decide (c.1 ≤ hi - m)
  { miss := out && !c.2, wrong := inn && c.2, decisive := out || inn }

/-- A slot's conversions against the comparator that names it (R359, R360). -/
def crossCheck (s : State) (c : Nat) (codes : List (Int × Bool)) : State :=
  let hi := thrCode (getF s (cmpThr c) cmpThr_Hi)
  let lo := thrCode (getF s (cmpThr c) cmpThr_Lo)
  let vs := codes.map (verdict hi lo (getF s (cmpXcfg c) cmpXcfg_Xmarg * 16))
  let miss := vs.any fun v => v.miss
  let wrong := vs.any fun v => v.wrong
  if miss || wrong then
    let s := if miss then setB s (cmpStat c) cmpStat_Xmiss true else s
    let s := if wrong then setB s (cmpStat c) cmpStat_Xfalse true else s
    let s := countF s (cmpStat c) cmpStat_Xcnt 1
    setCmp s c { getCmp s c with run := (getCmp s c).run + 1 }
  else if vs.any fun v => v.decisive then setCmp s c { getCmp s c with run := 0 }
  else s

/-- COMPARATOR_SUSPECT: XN consecutive mismatch ticks (R360). -/
def execComparatorSuspect (c : Fin 32) (s : State) : Host.Outcome State Fault Refusal :=
  .next (if getB s (cmpXcfg c) cmpXcfg_Xen && decide (getF s (cmpXcfg c) cmpXcfg_Xn ≤ (getCmp s c).run) && !getB s (cmpStat c) cmpStat_Suspect then
    let s := setB s (cmpStat c) cmpStat_Suspect true
    event s 0x0902 1 (resPol s (resCmp c)) [pw c, pw (getF s (cmpStat c) cmpStat_Xmiss), pw (getF s (cmpStat c) cmpStat_Xfalse)]
  else s)

/-- The conversions of a threshold DAC (R361). -/
def dacCheck (s : State) (high : Bool) (codes : List Int) : State :=
  let c := getF s cmpDacsel cmpDacsel_Sel
  let want := thrCode (if high then getF s (cmpThr c) cmpThr_Hi else getF s (cmpThr c) cmpThr_Lo)
  let tol : Int := getF s cmpDacsel cmpDacsel_Xdac * 16
  match codes.find? fun k => decide (tol < k - want) || decide (k - want < -tol) with
  | some k =>
    let s := setB s (cmpStat c) cmpStat_Xdac true
    if (getCmp s c).dacNoted then s
    else event (setCmp s c { getCmp s c with dacNoted := true }) 0x0903 1 (resPol s (resCmp c)) [pw c, wordOfInt want, wordOfInt k]
  | none => s

/-- SLOT_RESULT_READY: the voltages in nV that the slot's used conversions see, each with the raw output of its input's comparator 30 ns
after it (R342, R350–R353, R359–R361). -/
def execSlotResultReady (g : Fin 8) (j : Fin 32) (volts : List (BitVec 40 × Bool)) (s : State) : Host.Outcome State Fault Refusal :=
  .next <|
    let osr := slotOsr s g j
    if !s.dev.tickRun || !s.tick.whole || !slotOn s g j || !getB s (acqGctl g) acqGctl_En || volts.length ≠ osr then s
    else
      let p := slotPol s g j
      let cal := (getGrp s g).calibrating
      let (ints, atLimit) := slotCodes s g j (volts.map fun v => v.1.toInt)
      let ks : List (Int × Bool) := ints.zip (volts.map fun v => v.2)
      let ovr := !cal && atLimit
      let v := if cal then 0 else slotValue (getB s (acqSlot g j) acqSlot_Filt) ints
      let s := if ovr then setB s (acqSstat g j) acqSstat_Ovr true else s
      let x := getGrp s g
      let s := if ovr && !x.ovr.contains j.val then
          notice (setGrp s g { x with ovr := x.ovr ++ [j.val] }) 0x0803 p [pw g, pw j] else s
      let s := if inReset s p then s
        else setF (slotDeliver s g j v (slotStatus s g ovr)) (acqSstat g j) acqSstat_Last (v.toNat / 65536)
      if cal then s
      else
        let s := forEach (upto 32) s fun s c =>
          if getB s (cmpXcfg c) cmpXcfg_Xen && getF s (cmpXcfg c) cmpXcfg_Xgrp == g.val && getF s (cmpXcfg c) cmpXcfg_Xslot == j.val
          then crossCheck s c ks else s
        if slotGain s g j = 0 ∧ slotChan s g j = 86 then dacCheck s true ints
        else if slotGain s g j = 0 ∧ slotChan s g j = 87 then dacCheck s false ints
        else s

/-! ## Calibration (R345–R349) -/

/-- The estimates of a calibration: OFF in 1/16 LSB, the mean of ZERO; GERR in 0.02 %, which brings REFP − REFN to 3.2 V; SKEW in 0.2 ps
(R343, R346; assumption log 76, DEDUCED). -/
def estimates (c : SliceCal) : Int × Int × Int :=
  let sum (l : List (BitVec 14)) : Int := l.foldl (fun n w => n + w.toInt) 0
  let np : Int := c.refp.length
  let nn : Int := c.refn.length
  let d := sum c.refp * nn - sum c.refn * np
  (if c.zero.isEmpty then Config.calValue 0 c else roundDiv (16 * sum c.zero) c.zero.length,
   if d ≤ 0 then Config.calValue 1 c else roundDiv (65536000 * (np * nn) - 5000 * d) d, Config.calValue 2 c)

/-- Estimates as a SCAL word, each within its field. -/
def estWord (e : Int × Int × Int) : Word :=
  let f (n : Nat) (x : Int) : Nat := unsigned n (max (-(2 ^ (n - 1))) (min (2 ^ (n - 1) - 1) x))
  fset (fset (fset 0 acqScal_Off (f 16 e.1)) acqScal_Gerr (f 8 e.2.1)) acqScal_Skew (f 8 e.2.2)

/-- An estimate beyond the limits of R347: 64 LSB, 2 %, 15 ps. -/
def estimateBad (e : Int × Int × Int) : Bool :=
  decide (1024 < e.1) || decide (e.1 < -1024) || decide (100 < e.2.1) || decide (e.2.1 < -100) || decide (75 < e.2.2) || decide (e.2.2 < -75)

/-- Slice `i` is retired (R347). -/
def retireSlice (s : State) (g i : Nat) (est : Word) : State :=
  let a := acqGstat g
  let s := setB (setFbit s a acqGstat_Retired i true) a acqGstat_Degr true
  event s 0x0801 1 0 [pw g, pw i, est]

/-- The spare takes the place of active slice `i`, which becomes the spare. -/
def swapSlice (s : State) (g i : Nat) : State :=
  let sp := getF s (acqGstat g) acqGstat_Spare
  let x := getGrp s g
  setF (setGrp s g { x with active := x.active.map (fun a => if a = i then sp else a), ticks := 0 }) (acqGstat g) acqGstat_Spare i

/-- The group has no spare for a failing slice: it becomes invalid (R348). -/
def groupInvalid (s : State) (g i : Nat) : State :=
  if getB s (acqGstat g) acqGstat_Invalid then s else event (setB s (acqGstat g) acqGstat_Invalid true) 0x0802 2 0 [pw g, pw i]

/-- The spare, unless it is retired, replaces active slice `i`, which is retired; else the group becomes invalid (R347, R348). -/
def replaceSlice (s : State) (g i : Nat) (est : Word) : State :=
  if getFbit s (acqGstat g) acqGstat_Retired (getF s (acqGstat g) acqGstat_Spare) then groupInvalid s g i
  else retireSlice (swapSlice s g i) g i est

/-- CALIBRATION_SWAP: the spare, with what it has converted as spare, enters service or is retired (R345–R347). -/
def execCalibrationSwap (g : Fin 8) (est : SliceCal) (s : State) : Host.Outcome State Fault Refusal :=
  .next <|
    let a := acqGstat g
    let c := acqGctl g
    let sp := getF s a acqGstat_Spare
    if !(s.dev.tickRun && getB s c acqGctl_En && getB s c acqGctl_Calen && getB s a acqGstat_Calrdy && !getB s a acqGstat_Degr
        && decide (getF s c acqGctl_Calt ≤ (getGrp s g).ticks)) then s
    else
      let e := estimates est
      let s := setReg s (acqScal g sp) (estWord e)
      if estimateBad e then retireSlice s g sp (estWord e) else swapSlice s g ((sp + 1) % 5)

/-- SLICE_MONITOR_FAIL: an active slice fails 16 monitor conversions in a row; `est` is what they show (R348). -/
def execSliceMonitorFail (g : Fin 8) (slice : Fin 5) (est : BitVec 32) (s : State) : Host.Outcome State Fault Refusal :=
  .next <|
    let a := acqGstat g
    let x := getGrp s g
    if !getB s (acqGctl g) acqGctl_En || x.calibrating || !x.active.contains slice.val then s
    else if (x.replace.map fun r => r.1) = some slice.val then s
    else if getB s a acqGstat_Degr || x.replace.isSome then groupInvalid s g slice
    else setGrp s g { x with replace := some (slice.val, est) }

/-- The initial calibration of slice `i` (R347, R349): an active slice that it retires gives way to the spare. -/
def calibrateSlice (s : State) (g i : Nat) (c : SliceCal) : State :=
  let e := estimates c
  let s := setReg s (acqScal g i) (estWord e)
  if !estimateBad e then s
  else if getF s (acqGstat g) acqGstat_Spare = i then retireSlice s g i (estWord e)
  else replaceSlice s g i (estWord e)

/-- ACQ_CALIBRATION_DONE: the 2 ms of initial calibration end; the spare's estimate counts first, so that a retired one enters service
nowhere (R347, R349). -/
def execAcqCalibrationDone (g : GroupCal) (s : State) : Host.Outcome State Fault Refusal :=
  .next <|
    let k := g.group.val
    let x := getGrp s k
    if x.calibrating then
      let s := setB (setGrp s k { x with calibrating := false, ticks := 0 }) (acqGstat k) acqGstat_Calrdy true
      let sp := getF s (acqGstat k) acqGstat_Spare
      let s := forEach (sp :: (upto 5).filter (· != sp)) s fun s i => calibrateSlice s k i (g.slices.getD i ⟨[], [], [], []⟩)
      notice s 0x0805 0 [pw k]
    else s

/-- A commit of GCTL (R349). -/
def grpCommit (s : State) (g : Nat) (old : Word) : State :=
  let en := getB s (acqGctl g) acqGctl_En
  if en && fget old acqGctl_En == 0 then
    setB (setGrp s g { getGrp s g with calibrating := true, ticks := 0 }) (acqGstat g) acqGstat_Calrdy false
  else if !en then setGrp s g { getGrp s g with calibrating := false } else s

/-- A group at the T0 edge: a replacement takes place unless the spare has been retired since, the tick's notices end (R348). -/
def grpEdge (s : State) (g : Nat) : State :=
  let x := getGrp s g
  let s := setGrp s g { x with ticks := if getB s (acqGctl g) acqGctl_En then x.ticks + 1 else x.ticks, replace := none, ovr := [], cref := [] }
  match x.replace with
  | some (i, est) => if x.active.contains i then replaceSlice s g i est else s
  | none => s

/-! ## Checks of an ACQ set (R350, R354) -/

/-- The slots of a group from position `free` on, after a slot on this input: no position shared, each ends in time,
each result ready in time (R350, R352, R354). -/
def slotsFit (s : State) (g per : Nat) : Nat → Nat × Nat → List Nat → Bool
  | _, _, [] => true
  | free, inp, j :: t =>
    let fin := slotStart s g j + slotDisc s g j free inp + slotOsr s g j
    decide (free ≤ slotStart s g j) && decide (fin + 2 ≤ per) && decide (fin + 45 ≤ per) && slotsFit s g per fin (slotInput s g j) t

/-- No group breaks the position and time checks under a period in 10 ns. -/
def groupsFit (s : State) (per : Nat) : Bool :=
  (upto 8).all fun g => slotsFit s g per 0 (128, 0) (slotsByStart s g)

/-- An engine word, and the next where a status word follows, lie in one delivery area. -/
def areaHolds (s : State) (e w n : Nat) : Bool := s.img.areas.any fun a => a.eng == e && decide (a.lo ≤ w) && decide (w + n ≤ a.hi)

/-- A destination is legal for a polder. -/
def destOk (s : State) (p a : Nat) : Bool :=
  let t := getF s a acqDest_Target
  let n := if getB s a acqDest_Statw then 2 else 1
  if !getB s a acqDest_En then true
  else if getB s a acqDest_Kind then decide (t % 1024 + n ≤ 1024)
  else resPol s (resEngine (t / 524288)) == p && areaHolds s (t / 524288) (t % 32768) n

/-- The channel, gain and filter of a slot are legal. -/
def slotOk (s : State) (g j : Nat) : Bool :=
  let ch := slotChan s g j
  decide (ch < 88) && (decide (ch < 64) || slotGain s g j == 0) && !(getB s (acqSlot g j) acqSlot_Filt && decide (slotOsr s g j < 4))

/-- The checks of R354 on an ACQ set of polder `p`, the state holding its values. -/
def acqSetOk (s : State) (p : Nat) : Bool :=
  groupsFit s (period s) &&
    (upto 8).all fun g => decide (100 ≤ getF s (acqGctl g) acqGctl_Calt) && (upto 32).all fun j =>
      slotPol s g j != p || (slotOk s g j && (upto 4).all fun d => destOk s p (acqDest g j d))

/-- The checks of R359 and R365 on a CMP set of polder `p`, the state holding its values. -/
def cmpSetOk (s : State) (p : Nat) : Bool :=
  (upto 32).all fun c => resPol s (resCmp c) != p ||
    (decide (getF s (cmpThr c) cmpThr_Lo ≤ getF s (cmpThr c) cmpThr_Hi) && getF s (cmpCtl c) cmpCtl_Clr != 3 &&
      (getF s (cmpCtl c) cmpCtl_Clr != 2 || resPol s (resCarrier (getF s (cmpCtl c) cmpCtl_Carsel)) == p) &&
      getF s (cmpXcfg c) cmpXcfg_Xmarg != 0 && getF s (cmpXcfg c) cmpXcfg_Xn != 0 &&
      (!getB s (cmpXcfg c) cmpXcfg_Xen ||
        (let g := getF s (cmpXcfg c) cmpXcfg_Xgrp
         let j := getF s (cmpXcfg c) cmpXcfg_Xslot
         slotPol s g j == p && slotChan s g j == c && slotGain s g j == 0 && decide (slotOsr s g j ≤ 8))))

end Sys2Proof.Machine
end

