-- ==== Sys2Proof/Machine/Enc.lean ====
section
/-! DEFINITION. The quadrature encoders (R249–R257). -/

namespace Sys2Proof.Machine

def getEnc (s : State) (n : Nat) : Enc := cellGet encReset s.enc n
def setEnc (s : State) (n : Nat) (x : Enc) : State := { s with enc := cellSet encReset s.enc n x }

def encPol (s : State) (n : Nat) : Nat := resPol s (resEnc n)
def encOn (s : State) (n : Nat) : Bool := getB s (encCtl n) encCtl_En

/-- COUNT + CORR, wrapping. -/
def encPos (s : State) (n : Nat) : Word := getReg s (encCount n) + getReg s (encCorr n)

/-- Counts per revolution. -/
def cprOf (s : State) (n : Nat) : Nat := max 1 (getF s (encCpr n) encCpr_Cpr)

/-- The glitch filter accepts a new level after FILT samples in a row at it (R249). -/
def encAccepts (s : State) (n : Nat) (samples : BitVec 8) : Bool := decide (getF s (encCtl n) encCtl_Filt ≤ samples.toNat)

/-- A transition of line B or A counts up where A leads: the level B takes is A's, the level A takes is not B's. -/
def encUp (x : Enc) (lineB level : Bool) : Bool := if lineB then level == x.lineA else level != x.lineB

/-- ENC_COUNT: line A or B comes to `level` and stays there for so many samples. A level that the filter accepts is a transition: up where A
leads B, down where B leads A, the other way round with DIR (R249, R250). -/
def execEncCount (n : Fin 4) (lineB level : Bool) (samples : BitVec 8) (s : State) : Host.Outcome State Fault Refusal :=
  .next <|
    let x := getEnc s n
    if !encAccepts s n samples || level == (if lineB then x.lineB else x.lineA) then s
    else
      let up := encUp x lineB level != getB s (encCtl n) encCtl_Dir
      let t := setEnc s n (if lineB then { x with lineB := level } else { x with lineA := level })
      if encOn s n then setReg t (encCount n) (if up then getReg s (encCount n) + 1 else getReg s (encCount n) - 1) else t

/-- ENC_DOUBLE_EVENT: both lines change in one sample, and both new levels stay for so many samples (R249, R251); the third double event
within 64 ticks sets DEGR (R252). -/
def execEncDoubleEvent (n : Fin 4) (samples : BitVec 8) (s : State) : Host.Outcome State Fault Refusal :=
  .next (if !encAccepts s n samples then s
  else
    let x := getEnc s n
    let x := { x with lineA := !x.lineA, lineB := !x.lineB }
    if !encOn s n then setEnc s n x
    else
    let now := s.tick.count.toNat
    let recent := (x.recent.filter fun t => decide (now < t + 64)) ++ [now]
    let s := setEnc s n { x with doubles := x.doubles + 1, recent := recent }
    let s := countF (setB s (encStat n) encStat_Double true) (encDblcnt n) encDblcnt_Count 1
    if 3 ≤ recent.length ∧ !getB s (encStat n) encStat_Degr then
      event (setB s (encStat n) encStat_Degr true) 0x0C02 1 (encPol s n) [pw n, pw (getF s (encDblcnt n) encDblcnt_Count)]
    else s)

/-- ENC_INDEX_EDGE: the index line comes to a new level and stays there for so many samples (R249); an edge in the sample of a double
event is not used (R253). -/
def execEncIndexEdge (n : Fin 4) (withDouble : Bool) (samples : BitVec 8) (s : State) : Host.Outcome State Fault Refusal :=
  .next (if !encOn s n || withDouble || !encAccepts s n samples || getF s (encCtl n) encCtl_Zmode != 1 then s
  else if !getB s (encStat n) encStat_Zseen then
    setB (setReg s (encZref n) (encPos s n)) (encStat n) encStat_Zseen true
  else
    let off := (encPos s n - getReg s (encZref n)).toInt % (cprOf s n : Int)
    if off = 0 then s else notice s 0x0C03 (encPol s n) [pw n, wordOfInt off])

/-- A value of 48 bits, wrapping: counts in 2^-16. -/
def wrapCounts (i : Int) : Int := signed 48 (unsigned 48 i)

/-- The observer starts at the present count (R254). -/
def encRestart (s : State) (n : Nat) : State :=
  setB (setEnc s n { getEnc s n with theta := 65536 * (encPos s n).toInt, omega := 0, run := 0 }) (encStat n) encStat_Lock false

/-- The angle of a position in 2^-16 counts (R253). -/
def encAngle (s : State) (n : Nat) (pos : Int) : Word :=
  let c : Int := cprOf s n
  wordOfInt ((wrapCounts (pos - 65536 * (getReg s (encZref n)).toInt)) % (65536 * c) * 65536 / c)

/-- The validity word (R253). -/
def encValid (s : State) (n : Nat) (double : Bool) : Word :=
  let a := encStat n
  if getB s a encStat_Degr || !encOn s n || (getF s (encCtl n) encCtl_Zmode == 1 && !getB s a encStat_Zseen) then 0
  else if double then (if getB s a encStat_Lock then 2 else 0)
  else 1

/-- ENC_OBSERVER_LOCK: 64 consecutive ticks with |e| ≤ 2 counts (R254). -/
def execEncObserverLock (n : Fin 4) (s : State) : Host.Outcome State Fault Refusal :=
  .next (if encOn s n && decide (64 ≤ (getEnc s n).run) then setB s (encStat n) encStat_Lock true else s)

/-- K1 · e = 1.414 · ωn · T · e and K2 · e = (ωn · T)² · e, with ωn = 2π · OBW (R254). -/
def encK1 (s : State) (n : Nat) (e : Int) : Int := loopK1 (getF s (encCtl n) encCtl_Obw) (period s) e
def encK2 (s : State) (n : Nat) (e : Int) : Int := loopK2 (getF s (encCtl n) encCtl_Obw) (period s) e

/-- The notice of the double events of a tick, once (R275). -/
def encNotice (s : State) (n : Nat) : State :=
  if (getEnc s n).doubles = 0 then s else notice s 0x0C01 (encPol s n) [pw n, pw (getEnc s n).doubles]

/-- An encoder at the T0 edge: notice of the tick's double events (R275), correction (R251), observer (R254), delivery (R255). -/
def encEdge (s : State) (n : Nat) : State :=
  let x := getEnc s n
  if !encOn s n && (runSub s (encPol s n)).isNone && x.doubles == 0 then s
  else
    let s := encNotice s n
    let double := decide (x.doubles ≠ 0)
    let step : Int := if x.omega ≥ 65536 then 2 else if x.omega ≤ -65536 then -2 else 0
    let s := setReg s (encCorr n) (getReg s (encCorr n) + wordOfInt (step * x.doubles))
    let tp := wrapCounts (x.theta + x.omega)
    let e := wrapCounts (65536 * (encPos s n).toInt - tp)
    let small := decide (e ≤ 131072) && decide (-131072 ≤ e)
    let big := decide (1048576 < e) || decide (e < -1048576)
    let x := { x with doubles := 0, run := if small then x.run + 1 else 0
                      theta := if double then tp else wrapCounts (tp + encK1 s n e)
                      omega := if double then x.omega else wrapCounts (x.omega + encK2 s n e) }
    let s := setEnc s n x
    let s := if big && getB s (encStat n) encStat_Lock then
        notice (setB s (encStat n) encStat_Lock false) 0x0C04 (encPol s n) [pw n, wordOfInt (e / 65536)] else s
    match runSub s (encPol s n) with
    | some sub => forEach (sub.encDest.filter fun d => d.1 == n) s fun s d =>
        let ang := if double then encAngle s n tp else encAngle s n (65536 * (encPos s n).toInt)
        let s := deliverLate s d.2.1 d.2.2 ang
        let s := deliverLate s d.2.1 (d.2.2 + 1) (encValid s n double)
        let s := deliverLate s d.2.1 (d.2.2 + 2) (encPos s n)
        deliverLate s d.2.1 (d.2.2 + 3) (wordOfInt (x.omega * 65536 / (cprOf s n : Int)))
    | none => s

/-- The latch edge of comparator `c` captures the encoders that name it (R256). -/
def encCapture (s : State) (c : Nat) : State :=
  forEach (upto 4) s fun s n =>
    let a := encStat n
    if getB s (encCapctl n) encCapctl_Capen && getF s (encCapctl n) encCapctl_Capsel == c then
      let s := if getB s a encStat_Capv then setB s a encStat_Capovr true else setB s a encStat_Capv true
      nextFree (setReg (setReg s (encCapcnt n) (encPos s n)) (encCaptime n) ((nowTime s).setWidth 32))
    else s

/-- After a commit (R254): enabling the encoder and a new OBW restart the observer. -/
def encCommit (s : State) (n : Nat) (old : Word) : State :=
  let new := getReg s (encCtl n)
  if (fget new encCtl_En = 1 ∧ fget old encCtl_En = 0) ∨ fget new encCtl_Obw ≠ fget old encCtl_Obw then encRestart s n else s

/-- A polder reset of the owner (R257). The double events of the tick that ends there are noticed before they are cleared. -/
def encPolderReset (s : State) (n : Nat) : State :=
  let s := encNotice s n
  let z := getF s (encStat n) encStat_Zseen
  let s := setF (resetReg s (encStat n)) (encStat n) encStat_Zseen z
  let s := resetReg (resetReg (resetReg s (encDblcnt n)) (encCapcnt n)) (encCaptime n)
  encRestart (setEnc s n { getEnc s n with doubles := 0, recent := [] }) n

end Sys2Proof.Machine
end

