-- ==== Sys2Proof/Machine/RlmCore.lean ====
section
/-! DEFINITION. Ralma frames: routes, credits, sending (R517–R523, R529). -/

namespace Sys2Proof.Machine

def getRPort (s : State) (n : Nat) : RPort := cellGet rportReset s.rlm.ports n
def setRPort (s : State) (n : Nat) (x : RPort) : State :=
  { s with rlm := { s.rlm with ports := cellSet rportReset s.rlm.ports n x } }

def rState (s : State) (n : Nat) : Nat := getF s (rlmPstat n) rlmPstat_State
def rSetState (s : State) (n st : Nat) : State := setF s (rlmPstat n) rlmPstat_State st
def rUp (s : State) (n : Nat) : Bool := rState s n == 5

/-- The ports in UP. -/
def upPorts (s : State) : List Nat := (upto 8).filter (rUp s)

/-- The credit units that a frame takes (R521). -/
def frameUnits (f : RFrame) : Nat := (12 + f.data.length + 63) / 64

/-- The weight of a polder on virtual channel 4 or 5 (R522). -/
def vcWeight (s : State) (vc p : Nat) : Nat := getF s (rlmVcw p) (if vc = 4 then rlmVcw_W4 else rlmVcw_W5)

/-- The key of the credits that a frame takes: its channel, or its pool. -/
def creditKey (f : RFrame) : Nat := if f.vc = 4 ∨ f.vc = 5 then 8 * f.vc + 8 + f.pol else f.vc

/-- All the units of a key on a link: the partner's UNITS of the channel, or the share of a polder's pool in them (R521, R522). -/
def creditAll (s : State) (units : List Nat) (k : Nat) : Nat :=
  if k < 8 then units.getD k 0
  else
    let vc := k / 8 - 1
    let sum := ((upto 8).map (vcWeight s vc)).sum
    if sum = 0 then 0 else units.getD vc 0 * vcWeight s vc (k % 8) / sum

/-- The units of a key that frames have taken and the receiver has not returned. -/
def creditOut (l : List (Nat × Nat × Nat)) (k : Nat) : Nat := ((l.filter fun o => o.2.1 == k).map fun o => o.2.2).sum

/-- The credit of a key on port n. -/
def creditOf (s : State) (n k : Nat) : Nat :=
  let x := getRPort s n
  creditAll s x.units k - creditOut x.owed k

/-- A dropped frame (R522, R529). -/
def rDrop (s : State) (n dst : Nat) : State :=
  let s := countF s (rlmPerr n) rlmPerr_Drop 1
  if s.rlm.dropNoted then s
  else notice { s with rlm := { s.rlm with dropNoted := true } } 0x100C 0 [pw n, pw dst]

/-- The link carries the frame's virtual channel, and safe messages only where both sides set SAFE (R515). -/
def linkCarries (s : State) (n : Nat) (f : RFrame) : Bool :=
  getFbit s (rlmPstat n) rlmPstat_Vcs f.vc && (f.type != 0x0B || getB s (rlmPstat n) rlmPstat_Safeok)

/-- A frame starts: it takes its units. -/
def launch (s : State) (n : Nat) (f : RFrame) : State :=
  let x := getRPort s n
  let x := { x with owed := x.owed ++ [(f.vc, creditKey f, frameUnits f)], lastSafe := if f.vc < 2 then f.vc else x.lastSafe }
  let s := setRPort s n x
  { s with rlm := { s.rlm with sent := s.rlm.sent ++ [(n, f)] } }

/-- Send a frame on a port in UP, or let it wait for credit; a frame of a polder without a pool is dropped. -/
def sendOn (s : State) (n : Nat) (f : RFrame) : State :=
  let x := getRPort s n
  let k := creditKey f
  if !rUp s n || !linkCarries s n f then s
  else if (f.vc = 4 ∨ f.vc = 5) ∧ vcWeight s f.vc f.pol = 0 then countF s (rlmPerr n) rlmPerr_Drop 1
  else if frameUnits f ≤ creditOf s n k ∧ ¬ (x.wait.any fun g => creditKey g == k) then launch s n f
  else setRPort s n { x with wait := x.wait ++ [f] }

/-! ## The order of the frames that wait (R520, R522) -/

/-- The first frame that waits with a key, where its units are there. -/
def readyFrame (s : State) (n k : Nat) : Option RFrame :=
  match (getRPort s n).wait.find? fun f => creditKey f == k with
  | some f => if frameUnits f ≤ creditOf s n k then some f else none
  | none => none

/-- A deficit rotation over queues (key, weight): from the queue at `turn`, the first whose ready frame its deficit pays for. A queue that is
reached gains its weight; one with nothing ready loses what it has saved. The answer: the queue, the turn, the deficits. -/
def rotate (queues : List (Nat × Nat)) (ready : Nat → Option Nat) : Nat → Nat → Cells Nat → Option Nat × Nat × Cells Nat
  | 0, turn, d => (none, turn, d)
  | fuel + 1, turn, d =>
    let k := (queues.getD turn (0, 0)).1
    let next := (turn + 1) % queues.length
    let gain (d : Cells Nat) : Cells Nat :=
      let q := queues.getD next (0, 0)
      cellSet 0 d q.1 (cellGet 0 d q.1 + q.2)
    match ready k with
    | some u => if u ≤ cellGet 0 d k then (some k, turn, cellSet 0 d k (cellGet 0 d k - u)) else rotate queues ready fuel next (gain d)
    | none => rotate queues ready fuel next (gain (cellSet 0 d k 0))

/-- A rotation of a port, where a queue of it is ready. A frame takes at most 5 units, and every queue served has a weight. -/
def rotatePort (x : RPort) (r : Nat) (queues : List (Nat × Nat)) (ready : Nat → Option Nat) : Option (Nat × RPort) :=
  if queues.any fun q => (ready q.1).isSome then
    match rotate queues ready (6 * queues.length + 1) (cellGet 0 x.turn r) x.deficit with
    | (some k, t, d) => some (k, { x with turn := cellSet 0 x.turn r t, deficit := d })
    | (none, _, _) => none
  else none

/-- The pools of virtual channel 4 or 5, with their weights: the pool served next. -/
def poolTurn (s : State) (n vc : Nat) (x : RPort) : Option (Nat × RPort) :=
  let queues := ((upto 8).map fun p => (8 * vc + 8 + p, vcWeight s vc p)).filter fun q => 0 < q.2
  rotatePort x vc queues fun k => (readyFrame s n k).map frameUnits

/-- The frame of virtual channels 4–7 that is served next, and the port's rotations after it: weights 4, 4, 1, 1. -/
def weightedNext (s : State) (n : Nat) : Option (RFrame × RPort) :=
  let x := getRPort s n
  let pick (vc : Nat) : Option Nat := if vc < 6 then (poolTurn s n vc x).map fun y => y.1 else some vc
  let frame (vc : Nat) : Option RFrame := (pick vc).bind fun k => readyFrame s n k
  match rotatePort x 0 [(4, 4), (5, 4), (6, 1), (7, 1)] fun vc => (frame vc).map frameUnits with
  | some (vc, y) =>
    let z := if vc < 6 then ((poolTurn s n vc y).map fun v => v.2).getD y else y
    (frame vc).map fun f => (f, z)
  | none => none

/-- The next frame of a port (R520): the safety channels in rotation, time, control, then the rest by their weights. -/
def nextFrame (s : State) (n : Nat) : Option (RFrame × RPort) :=
  let x := getRPort s n
  match (readyFrame s n (1 - x.lastSafe)).orElse fun _ => (readyFrame s n x.lastSafe).orElse fun _ =>
      (readyFrame s n 2).orElse fun _ => readyFrame s n 3 with
  | some f => some (f, x)
  | none => weightedNext s n

/-- At most so many frames that wait start, in their order. -/
def drainSome (n : Nat) : Nat → State → State
  | 0, s => s
  | k + 1, s =>
    match nextFrame s n with
    | some (f, x) => drainSome n k (launch (setRPort s n { x with wait := x.wait.erase f }) n f)
    | none => s

/-- The frames that waited for credit start as far as there is some (R520). -/
def drainWait (s : State) (n : Nat) : State := drainSome n (getRPort s n).wait.length s

/-- A NEG frame goes out in NEG and SWITCH, before credits exist. -/
def sendRaw (s : State) (n : Nat) (f : RFrame) : State := { s with rlm := { s.rlm with sent := s.rlm.sent ++ [(n, f)] } }

/-- A new command's sends. -/
def freshSent (s : State) : State := { s with rlm := { s.rlm with sent := [] } }

/-- The next SEQ of a type (R517). -/
def nextSeq (s : State) (type : Nat) : State × Nat :=
  let q := cellGet 0 s.rlm.seqs type
  ({ s with rlm := { s.rlm with seqs := cellSet 0 s.rlm.seqs type ((q + 1) % 16384) } }, q)

/-- A link frame of this node. -/
def sendLink (s : State) (n vc type : Nat) (data : List Nat) : State :=
  let q := nextSeq s type
  sendOn q.1 n { dst := 0, src := getF s rlmNode rlmNode_Addr, vc := vc, type := type, pol := 0
                 ttl := getF s rlmRootcfg rlmRootcfg_Ttl, seq := q.2, data := data }

/-- The ports to which a routed frame of a channel goes for a destination (R529): the static mask, else the learned one,
else the parent port; RT1 has no learned entries and no parent. -/
def routePorts (s : State) (vc dst : Nat) (arrival : Option Nat) : List Nat :=
  let a := rlmRt0 (if vc = 1 then 1 else 0) (dst % 4096)
  let mask := if getB s a rlmRt0_Static then getF s a rlmRt0_Mask else if vc = 1 then 0 else cellGet 0 s.rlm.learned (dst % 4096)
  let l := if mask = 0 then (if vc = 1 then [] else s.rlm.parent.toList) else (upto 8).filter (nbit mask)
  l.filter fun n => some n != arrival

/-- The node holds an address. Without one it sends link frames and JOIN only (R526). -/
def addressed (s : State) : Bool := getB s rlmNode rlmNode_Addrv

/-- Send a routed frame of this node. -/
def sendRouted (s : State) (f : RFrame) : State :=
  if addressed s then forEach (routePorts s f.vc f.dst none) s fun s n => sendOn s n f else s

/-- Keep a response for repeats of its request: the last 16 of a source and channel (R536). The first number is the frame's
type; no numbers stand for a request that still runs. -/
def keepResponse (s : State) (src vc seq : Nat) (resp : List Nat) : State :=
  let k := 8 * src + vc
  let l := (cellGet [] s.rlm.kept k).filter fun x => x.1 != seq
  { s with rlm := { s.rlm with kept := cellSet [] s.rlm.kept k ((l ++ [(seq, resp)]).drop (l.length + 1 - 16)) } }

/-- Answer a request frame: the response has its channel, POL and SEQ (R535). -/
def answerFrame (s : State) (src vc pol seq type : Nat) (data : List Nat) : State :=
  sendRouted (keepResponse s src vc seq (type :: data)) { dst := src, src := getF s rlmNode rlmNode_Addr, vc := vc, type := type, pol := pol
                                                          ttl := getF s rlmRootcfg rlmRootcfg_Ttl, seq := seq, data := data }

/-- A routed frame of this node with the next SEQ of its type. -/
def sendNew (s : State) (dst vc type pol : Nat) (data : List Nat) : State :=
  let q := nextSeq s type
  sendRouted q.1 { dst := dst, src := getF s rlmNode rlmNode_Addr, vc := vc, type := type, pol := pol
                   ttl := getF s rlmRootcfg rlmRootcfg_Ttl, seq := q.2, data := data }

/-- A stored record goes out as an EVENT frame (R537). -/
def sendEvent (s : State) (l : List Word) : State :=
  if getB s rlmEvdst rlmEvdst_En then sendNew s (getF s rlmEvdst rlmEvdst_Node) 6 0x14 0 (l.flatMap wordBytes) else s

/-! ## Frames received (R517–R519, R521) -/

/-- The fields of the two header words (R517). -/
def hdrDst (h : DWord) : Nat := nbits h.toNat 63 52
def hdrSrc (h : DWord) : Nat := nbits h.toNat 51 40
def hdrVc (h : DWord) : Nat := nbits h.toNat 39 37
def hdrType (h : DWord) : Nat := nbits h.toNat 36 32
def hdrLen (h : DWord) : Nat := nbits h.toNat 31 23
def hdrPol (h : DWord) : Nat := nbits h.toNat 22 20
def hdrTtl (h : DWord) : Nat := nbits h.toNat 19 14
def hdrSeq (h : DWord) : Nat := nbits h.toNat 13 0

/-- The header of a frame that this node sends (R517). -/
def frameHeader (f : RFrame) : DWord :=
  BitVec.ofNat 64 ((f.dst % 4096) * 2 ^ 52 + (f.src % 4096) * 2 ^ 40 + (f.vc % 8) * 2 ^ 37 + (f.type % 32) * 2 ^ 32 +
    (f.data.length % 512) * 2 ^ 23 + (f.pol % 8) * 2 ^ 20 + (f.ttl % 64) * 2 ^ 14 + f.seq % 16384)

/-- The frame that header words and payload spell. -/
def headerFrame (h : DWord) (data : List Nat) : RFrame :=
  { dst := hdrDst h, src := hdrSrc h, vc := hdrVc h, type := hdrType h, pol := hdrPol h, ttl := hdrTtl h, seq := hdrSeq h, data := data }

/-- The CRC-32C over header and payload (R518). -/
def frameCrc (h : DWord) (data : List Nat) : Word := BitVec.ofNat 32 (crc32c (beBytes 8 h.toNat ++ data))

/-- The types, with the virtual channels that R519 gives for them. -/
def typeVcs (t : Nat) : List Nat :=
  if t = 0x01 ∨ t = 0x02 ∨ t = 0x03 ∨ t = 0x04 ∨ t = 0x05 then [7]
  else if t = 0x06 ∨ t = 0x07 ∨ t = 0x08 ∨ t = 0x09 then [2]
  else if t = 0x0B then [0, 1]
  else if t = 0x0C ∨ t = 0x0D ∨ t = 0x0E then [3]
  else if t = 0x10 ∨ t = 0x11 ∨ t = 0x12 ∨ t = 0x13 then [4, 5]
  else if t = 0x14 then [6]
  else []

/-- The CRC, the length and the type of a frame are as R517–R519 have them. -/
def frameFormed (h : DWord) (data : List Nat) (crc : Word) : Bool :=
  frameCrc h data == crc && decide (hdrLen h ≤ 256) && hdrLen h == data.length && (typeVcs (hdrType h)).contains (hdrVc h)

/-- The receiver notes the units of a frame that it has forwarded or consumed (R521). -/
def noteUnits (s : State) (n vc u : Nat) : State :=
  let x := getRPort s n
  setRPort s n { x with ret := cellSet 0 x.ret vc (cellGet 0 x.ret vc + u) }

/-- A frame arrives on a port in UP: its units are noted for return, an invalid one is counted (R518). The answer: it is valid. -/
def arrive (s : State) (n : Nat) (h : DWord) (data : List Nat) (crc : Word) : State × Bool :=
  let s := freshSent s
  if !rUp s n then (s, false)
  else
    let s := noteUnits s n (hdrVc h) ((12 + data.length + 63) / 64)
    if frameFormed h data crc && getFbit s (rlmPstat n) rlmPstat_Vcs (hdrVc h) then (s, true)
    else (countF s (rlmPerr n) rlmPerr_Crcerr 1, false)

/-- The same, for a command that stands for a frame of one type. -/
def arriveAs (s : State) (n type : Nat) (h : DWord) (data : List Nat) (crc : Word) : State × Bool :=
  if hdrType h = type then arrive s n h data crc else (freshSent s, false)

/-- A routed frame is for this node (R529). -/
def isMine (s : State) (h : DWord) : Bool := addressed s && getF s rlmNode rlmNode_Addr == hdrDst h

/-- The same, for a routed frame that this node consumes. -/
def arriveMine (s : State) (n type : Nat) (h : DWord) (data : List Nat) (crc : Word) : State × Bool :=
  if isMine s h then arriveAs s n type h data crc else (freshSent s, false)

/-- A routed frame arrives on port n: consumed, forwarded or dropped (R529). -/
def forwardFrame (s : State) (n : Nat) (h : DWord) (f : RFrame) : State :=
  if isMine s h then s
  else
    let l := routePorts s f.vc f.dst (some n)
    if f.ttl ≤ 1 ∨ l = [] then rDrop s n f.dst
    else forEach l s fun s m => sendOn s m { f with ttl := f.ttl - 1 }

end Sys2Proof.Machine
end

