-- ==== Sys2Proof/Machine/Keep.lean ====
section
/-! DEFINITION. The keep domain and the event recorder (ch. 18, R417). -/

namespace Sys2Proof.Machine

def mainOn (s : State) : Bool := getB s keepStat keepStat_Mainon

/-- A crystal period in 1/64 ns: 30,517.578125 ns (R556). -/
def crystalStep : Nat := 1953125

/-- The clock's present time: that of the last supply sample and a free number of crystal periods inside the millisecond, which holds 32.768
of them (R556). -/
def clockNow (s : State) : Nat := (s.keep.rtc + crystalStep * (Config.freeOffset s.free % 33)) / 64

/-- The crystal periods of a millisecond: the clock, and the part of a period that is left over. -/
def clockRun (k : Keep) : Keep :=
  let x := k.xtal + 4096
  { k with rtc := k.rtc + crystalStep * (x / 125), xtal := x % 125 }

/-- The time of a record: fabric time, or the clock with the main supplies off, and whether the clock has not been set (R562). -/
def recordTime (s : State) : DWord × Bool :=
  if mainOn s then (nowTime s, false) else (BitVec.ofNat 64 (clockNow s), !getB s keepStat keepStat_Rtcvalid)

/-- An event of the keep domain: with the main supplies off it waits in the keep domain's own queue. -/
def keepEvent (s : State) (code cls : Nat) (params : List Word) : State :=
  if mainOn s then event s code cls 0 params
  else
    let t := recordTime s
    nextFree (enqueueKeep s { code := code, cls := cls, scope := 0, params := params, time := t.1, timeq := t.2 })

/-! ## Writing records (R417, R562–R566) -/

/-- The words of a record. -/
def recordWords (seq : Word) (e : Event) (keep : Bool) : List Word :=
  let flags := e.cls % 8 + 8 * (e.scope % 8) + 64 * bit keep + 128 * bit e.timeq
  let body := [seq, pw (e.code % 65536 + 65536 * flags), e.time.setWidth 32, (e.time >>> 32).setWidth 32] ++
    (e.params ++ List.replicate 10 0).take 10
  body ++ [pw (crc32 (body.flatMap wordBytes)), 0]

/-- So many slots have been written; half the rated endurance is noted once (R566). -/
def countWrites (s : State) (k : Nat) : State :=
  let old := s.recorder.total
  let s := { s with recorder := { s.recorder with total := old + k } }
  if (old + k) / 65536 > 5000000000 ∧ ¬ (old / 65536 > 5000000000) then keepEvent s 0x0F03 1 [pw (old + k), pw ((old + k) / 4294967296)] else s

/-- Write one record in the next slot; the oldest is given up when all slots hold records (R563). -/
def writeRecord (s : State) (e : Event) (fromKeep : Bool) : State :=
  let r := s.recorder
  let seq := r.head + 1
  let tail := if seq - r.tail = 65536 then r.tail + 1 else r.tail
  let l := recordWords seq e (fromKeep || !mainOn s)
  let s := { s with recorder := { r with mram := cellSet [] r.mram (seq.toNat % 65536) l, head := seq, tail := tail } }
  countWrites (if mainOn s then sendEvent s l else s) 1

/-- The next queue in rotation that holds events. -/
def nextQueue (r : Recorder) : Option Nat :=
  ((upto 8).map fun i => (r.rot + i) % 8).find? fun p => !(cellGet [] r.queues p).isEmpty

/-- Write the next record: ahead of the rotation, from the keep domain's queue, or in rotation. -/
def recordNext (s : State) : State :=
  let r := s.recorder
  match r.ahead, r.keepQ with
  | e :: t, _ => writeRecord { s with recorder := { r with ahead := t } } e false
  | [], e :: t => writeRecord { s with recorder := { r with keepQ := t } } e true
  | [], [] =>
    match nextQueue r with
    | some p =>
      match cellGet [] r.queues p with
      | e :: t => writeRecord { s with recorder := { r with queues := cellSet [] r.queues p t, rot := (p + 1) % 8 } } e false
      | [] => s
    | none => s

/-- RECORD_WRITE: the recorder writes the next queued record, where the store, at `vst` mV, lets a record start (R417,
R551). -/
def execRecordWrite (vst : BitVec 16) (s : State) : Host.Outcome State Fault Refusal :=
  .next (if s.recorder.scanning || !s.keep.alive || decide (vst.toNat < 2400) then s else recordNext (freshSent s))

/-- The number of events that wait. -/
def waiting (s : State) : Nat :=
  s.recorder.ahead.length + s.recorder.keepQ.length + (s.recorder.queues.map fun q => q.2.length).sum

/-- Write every record that waits (R561). -/
def flushRecords (s : State) : State := forEach (upto (waiting s)) s fun s _ => recordNext s

/-- The recorder at a T0 edge: what the ended tick dropped is recorded ahead of the rotation (R417). -/
def recorderEdge (s : State) : State :=
  let t := nowTime s
  let lost := s.recorder.dropped.map fun d =>
    ({ code := 0x0504, cls := 0, scope := d.1, params := [pw d.1, pw d.2], time := t } : Event)
  nextFree { s with recorder := { s.recorder with placed := [], dropped := [], ahead := s.recorder.ahead ++ lost } }

/-! ## The scan (R564) -/

/-- A slot holds a valid record (R563). -/
def slotValid (slot : Nat) (l : List Word) : Bool :=
  l.length == 16 && (l.getD 0 0).toNat % 65536 == slot && l.getD 14 0 == pw (crc32 ((l.take 14).flatMap wordBytes))

/-- `a` is not older than `b`. -/
def notOlder (a b : Word) : Bool := a == b || newerMark a b

/-- The highest valid sequence number that is not older than the tail. -/
def scanHead (r : Recorder) : Word :=
  r.mram.foldl (fun h c =>
    let q := c.2.getD 0 0
    if slotValid c.1 c.2 && notOlder q r.tail && newerMark q h then q else h) (r.tail - 1)

/-- Empty slots between tail and head. -/
def emptySlots (r : Recorder) (head : Word) : Nat :=
  (head - r.tail + 1).toNat - (r.mram.filter fun c =>
    slotValid c.1 c.2 && notOlder (c.2.getD 0 0) r.tail && notOlder head (c.2.getD 0 0)).length

/-- RECORDER_SCAN_DONE: HEAD is known; 0x0F04 goes first, the queued events follow (R564). -/
def execRecorderScanDone (s : State) : Host.Outcome State Fault Refusal :=
  .next <|
    let r := s.recorder
    if !r.scanning then s
    else
      let h := scanHead r
      let t := recordTime s
      let e : Event := { code := 0x0F04, cls := 0, scope := 0, params := [h, r.tail, pw (emptySlots r h), pw r.lost], time := t.1, timeq := t.2 }
      nextFree { s with recorder := { r with scanning := false, head := h, lost := 0, ahead := e :: r.ahead } }

/-! ## Beacon (R559, R560) -/

/-- The codes of the four newest records, newest first. -/
def lastCodes (r : Recorder) : List Nat :=
  (upto 4).map fun i => ((cellGet [] r.mram ((r.head - pw i).toNat % 65536)).getD 1 0).toNat % 65536

/-- The frame of a transmission. -/
def beaconFrame (s : State) (kind vst : Nat) : List Nat :=
  let flags := bit (getB s keepStat keepStat_Rtcvalid) + 2 * bit (getB s keepStat keepStat_Primin) + 4 * bit (getB s keepStat keepStat_Hrun) +
    8 * bit (getB s safeStat safeStat_Degr || getReg s safeDgrem != 0) + 16 * bit (getB s safeStat safeStat_Safest)
  let body := beBytes 8 s.dev.uid.toNat ++ beBytes 2 s.keep.bseq ++ [kind, flags] ++ beBytes 8 (clockNow s) ++ beBytes 4 s.recorder.head.toNat ++
    (lastCodes s.recorder).flatMap (beBytes 2) ++ beBytes 2 vst ++ [0, 0]
  [0x55, 0x55, 0x55, 0x55, 0xD5] ++ body ++ beBytes 4 (crc32 body)

/-- A transmission starts, or is withheld for a low store. -/
def beaconStart (s : State) (kind vst : Nat) : State :=
  if 3100 ≤ vst then
    let k := { s.keep with bseq := (s.keep.bseq + 1) % 65536, bcn := some kind }
    let s := { s with keep := k }
    let s := { s with keep := { s.keep with frame := beaconFrame s kind vst } }
    keepEvent (nextFree s) 0x0F31 0 [pw kind, pw s.keep.bseq]
  else if 2400 ≤ vst then keepEvent s 0x0F32 0 [pw kind, pw vst]
  else s

/-- A trigger; while a transmission runs it is merged into one further transmission with the lowest KIND. -/
def beaconTrigger (s : State) (kind vst : Nat) : State :=
  if !getB s keepBcfg keepBcfg_En || !s.keep.alive then s
  else if s.keep.bcn.isSome then { s with keep := { s.keep with pend := some (min kind (s.keep.pend.getD kind)) } }
  else beaconStart s kind vst

/-- BEACON_TRANSMISSION_END. -/
def execBeaconTransmissionEnd (vst : BitVec 16) (s : State) : Host.Outcome State Fault Refusal :=
  .next <|
    if s.keep.bcn.isNone then s
    else
      let p := s.keep.pend
      let s := { s with keep := { s.keep with bcn := none, pend := none } }
      match p with
      | some k => beaconStart s k vst.toNat
      | none => s

/-- BEACON_PERIODIC: BCNINT minutes have passed with the main supplies off. -/
def execBeaconPeriodic (vst : BitVec 16) (s : State) : Host.Outcome State Fault Refusal :=
  .next (if mainOn s || getF s keepBcfg keepBcfg_Bcnint == 0 then s else beaconTrigger s 2 vst.toNat)

/-- The TEST key (R560). -/
def beaconTest (s : State) : State := beaconTrigger s 5 (getF s keepVmon keepVmon_Vst)

/-- A comparator wake edge (R558). -/
def wakeEdge (s : State) (c : Nat) : State :=
  let s := nextFree (enqueueKeep s { code := 0x0F10, cls := 0, scope := 0, params := [pw c], time := nowTime s })
  if getB s keepBcfg keepBcfg_Wakeb then beaconTrigger s 3 (getF s keepVmon keepVmon_Vst) else s

/-! ## Supplies and harvester (R550–R555) -/

/-- Housekeeping bit 26 (R571). -/
def keepHk (s : State) : State :=
  if !mainOn s then s
  else if !s.keep.vkeepOn || getB s keepStat keepStat_Primin || !getB s keepStat keepStat_St31 then
    hkBegin s 26 0x0F24 1 [getReg s keepStat, pw (getF s keepVmon keepVmon_Vst)]
  else hkEnd s 26

/-- The primary cell is switched out when VKEEP returns or after 60 s on the harvester (R552). -/
def primOut (s : State) : State :=
  if getB s keepStat keepStat_Primin && (s.keep.vkeepOn || decide (60000 ≤ s.keep.row2)) then setB s keepStat keepStat_Primin false else s

/-- PRIMARY_SWITCH_OUT. -/
def execPrimarySwitchOut (s : State) : Host.Outcome State Fault Refusal := .next (primOut s)

/-- The row of R550 that applies, and what it drives. -/
def selectSource (s : State) (vst teg : Nat) : State :=
  let row2 := !s.keep.vkeepOn && getB s keepPcfg keepPcfg_Hen && decide (1000 ≤ teg)
  let row := if s.keep.vkeepOn then 0 else if row2 then 1 else if getB s keepStat keepStat_Primin then 2 else 3
  let hmax := getF s keepPcfg keepPcfg_Hmax
  let charging := row2 && (decide (vst + 50 ≤ hmax) || (getB s keepStat keepStat_Hrun && decide (vst < hmax)))
  let s := { s with keep := { s.keep with row2 := if row2 then s.keep.row2 + 1 else 0 } }
  setF (setB s keepStat keepStat_Hrun charging) keepStat keepStat_Src row

/-- KEEP_SUPPLY_SAMPLE: the supply monitor's sample of each millisecond, in mV; the TEG in 10 µV (R550–R552). -/
def execKeepSupplySample (vkeep vst vprim teg : BitVec 16) (s : State) : Host.Outcome State Fault Refusal :=
  .next <|
    if !s.keep.alive then s
    else if vst.toNat < 2100 then { s with keep := { s.keep with alive := false } }
    else
      let on := if s.keep.vkeepOn then decide (2900 ≤ vkeep.toNat) else decide (3000 ≤ vkeep.toNat)
      let off := if mainOn s then 0 else s.keep.offMs + 1
      let s := { s with keep := { clockRun s.keep with vkeepOn := on, vkeep := vkeep.toNat, vprim := vprim.toNat, offMs := off } }
      let s := setF (setF s keepVmon keepVmon_Vst vst.toNat) keepVmon keepVmon_Tegoc teg.toNat
      let s := setB (setB s keepStat keepStat_St31 (decide (3100 ≤ vst.toNat))) keepStat keepStat_St24 (decide (2400 ≤ vst.toNat))
      let s :=
        if getB s keepPcfg keepPcfg_Primen && !on && decide (vst.toNat < 2200) && !getB s keepStat keepStat_Primin then
          keepEvent (setB s keepStat keepStat_Primin true) 0x0F22 1 [pw vst.toNat, pw vprim.toNat]
        else s
      let s :=
        if getB s keepStat keepStat_Primin then
          let ms := s.keep.primMs + 1
          let s := { s with keep := { s.keep with primMs := ms % 1000 } }
          if ms = 1000 then countF s keepPrimtime keepPrimtime_Sec 1 else s
        else s
      keepHk (primOut (selectSource s vst.toNat teg.toNat))

/-- COLD_START_DONE: the cold-start stage has brought the keep domain up (R554). -/
def execColdStartDone (teg : BitVec 16) (s : State) : Host.Outcome State Fault Refusal :=
  .next (if s.keep.alive && s.recorder.scanning then keepEvent s 0x0F40 0 [pw teg.toNat] else s)

/-- MPP_MEASURE: the harvester measures VOC and regulates its input (R555). -/
def execMppMeasure (voc : BitVec 16) (s : State) : Host.Outcome State Fault Refusal :=
  .next <|
    if s.keep.alive && !s.keep.vkeepOn && getB s keepPcfg keepPcfg_Hen && decide (1000 ≤ voc.toNat) then
      let s := setF s keepVmon keepVmon_Tegoc voc.toNat
      { s with keep := { s.keep with vreg := voc.toNat * getF s keepPcfg keepPcfg_Mppk / 256 } }
    else s

/-- KEEP_MEASUREMENT: MEASINT seconds have passed with the main supplies off (R561). -/
def execKeepMeasurement (vst vkeep vprim teg temp : BitVec 16) (s : State) : Host.Outcome State Fault Refusal :=
  .next <|
    if !s.keep.alive || mainOn s || getF s keepBcfg keepBcfg_Measint == 0 || decide (vst.toNat < 2400) then s
    else keepEvent s 0x0F30 0 [pw vst.toNat, pw vkeep.toNat, pw vprim.toNat, pw teg.toNat, pw temp.toNat]

/-! ## Clock and tamper inputs (R556, R557) -/

/-- The clock takes a time. -/
def setClock (s : State) (t : Nat) : State := setB { s with keep := { s.keep with rtc := 64 * t } } keepStat keepStat_Rtcvalid true

/-- Fabric time has become valid: the clock takes it at once (R556). -/
def clockTakes (s : State) : State := if s.keep.alive && mainOn s then nextFree (setClock s (nowTime s).toNat) else s

/-- RTC_FABRIC_SYNC: at a whole second of valid fabric time the clock takes it (R556). -/
def execRtcFabricSync (s : State) : Host.Outcome State Fault Refusal :=
  .next (if getB s rlmTstat rlmTstat_Tvalid then clockTakes s else s)

/-- RTCCMD SET by polder 0, while no valid fabric time sets the clock (R556). -/
def rtcSet (s : State) : State :=
  if getB s rlmTstat rlmTstat_Tvalid then s
  else setClock s ((getReg s (keepRtcsetlo 0)).toNat + 4294967296 * (getReg s (keepRtcsetlo 1)).toNat)

/-- One tamper input at a sample: filtered level, latch, event (R557). -/
def tamperInput (levels vst : Nat) (s : State) (i : Nat) : State :=
  let b := nbit levels i
  if b != nbit s.keep.tampPrev i then s
  else
    let s := setFbit s keepTstat keepTstat_Level i b
    if getFbit s keepTcfg keepTcfg_En i && b != getFbit s keepTcfg keepTcfg_Pol i && !getFbit s keepTstat keepTstat_Latch i then
      let t := clockNow s
      let s := nextFree (setFbit { s with keep := { s.keep with tampTime := cellSet 0 s.keep.tampTime i t } } keepTstat keepTstat_Latch i true)
      let s := if 2400 ≤ vst then keepEvent s 0x0F11 1 [pw i, pw t, pw (t / 4294967296)] else s
      if getB s keepBcfg keepBcfg_Tampb then beaconTrigger s 4 vst else s
    else s

/-- TAMPER_SAMPLE: the inputs' levels, every 15.625 ms (R557). -/
def execTamperSample (levels : BitVec 4) (vst : BitVec 16) (s : State) : Host.Outcome State Fault Refusal :=
  .next <|
    if !s.keep.alive then s
    else
      let s := forEach (upto 4) s (tamperInput levels.toNat vst.toNat)
      { s with keep := { s.keep with tampPrev := levels.toNat } }

/-! ## Reading (R567) -/

/-- A write of RDSEL copies a slot into the polder's read buffer. -/
def rdselWrite (s : State) (p : Nat) (seq : Word) : State :=
  let r := s.recorder
  let l := (cellGet [] r.mram (seq.toNat % 65536) ++ List.replicate 16 0).take 16
  let ok := notOlder seq r.tail && notOlder r.head seq && slotValid (seq.toNat % 65536) l && l.getD 0 0 == seq
  let scope := (l.getD 1 0).toNat / 2 ^ 19 % 8
  let mine := p == 0 || (ok && scope == p)
  let s := setReg s (banked keepRdsel p) seq
  let s := setB (setB s (banked keepRdstat p) keepRdstat_Ok ok) (banked keepRdstat p) keepRdstat_Hidden (ok && p != 0 && scope != p)
  forEach (upto 16) s fun s k => setReg s (banked (keepRdw k) p) (if k = 0 ∨ mine then l.getD k 0 else 0)

/-! ## Clearing (R568, R569) -/

/-- A fresh nonce. -/
def newNonce (s : State) : State :=
  nextFree (nextFree (setReg (setReg s (keepNoncelo 0) (Config.freeWord s.free)) (keepNoncelo 1) (Config.freeWord (s.free + 1))))

/-- LOCK: the recorder key is fixed (R568). -/
def keyLock (s : State) : State :=
  if s.recorder.key.isSome then s
  else
    let s := setB s keepKeystat keepKeystat_Locked true
    { s with recorder := { s.recorder with key := some ((upto 8).map fun k => getReg s (keepKeyprg k)) } }

/-- The message that the token authenticates. -/
def clearMessage (s : State) : List Nat :=
  beBytesOf [(s.dev.uid >>> 32).setWidth 32, s.dev.uid.setWidth 32, getReg s keepClrhead, getReg s (keepNoncelo 1), getReg s (keepNoncelo 0)]

/-- The reason to refuse a clear, in the order of R569; 0 accepts it. -/
def clearReason (s : State) : Nat :=
  let r := s.recorder
  let h := getReg s keepClrhead
  match r.key with
  | none => 3
  | some k =>
    if !mainOn s then 4
    else if beBytesOf ((upto 8).map fun i => getReg s (keepClrtok i)) ≠ hmac256 (beBytesOf k) (clearMessage s) then 1
    else if !(notOlder h r.tail && notOlder r.head h) then 2
    else 0

/-- CLEAR. -/
def clearCmd (s : State) : State :=
  let why := clearReason s
  let r := s.recorder
  let h := getReg s keepClrhead
  let s :=
    if why = 0 then
      keepEvent { s with recorder := { r with tail := h + 1, clearing := some ((r.clearing.map fun c => c.1).getD r.tail, h) } } 0x0F01 0 [r.tail, h, getReg s (keepNoncelo 0)]
    else keepEvent (setB s keepKeystat keepKeystat_Clrref true) 0x0F02 1 [pw why]
  newNonce s

/-- CLEAR_ZEROING_DONE: the cleared slots are zero, one slot write each. -/
def execClearZeroingDone (s : State) : Host.Outcome State Fault Refusal :=
  .next <|
    match s.recorder.clearing with
    | some (a, b) =>
      let m := s.recorder.mram.filter fun c => !(notOlder (c.2.getD 0 0) a && notOlder b (c.2.getD 0 0))
      countWrites { s with recorder := { s.recorder with mram := m, clearing := none } } (b - a + 1).toNat
    | none => s

/-! ## Settings and resets -/

/-- A KEEP set is legal (R570). -/
def keepSetOk (s : State) : Bool :=
  let k := getF s keepPcfg keepPcfg_Mppk
  decide (3100 ≤ getF s keepPcfg keepPcfg_Hmax) && decide (getF s keepPcfg keepPcfg_Hmax ≤ 3500) && decide (77 ≤ k) && decide (k ≤ 179) && getF s keepPcfg keepPcfg_Mppint != 0

/-- The main supplies are lost (R561): records first, where the store lets them start (R551), then the event, then the last gasp. -/
def keepMainLost (s : State) (mon : Word) (vst : Nat) : State :=
  let s := if s.recorder.scanning || decide (vst < 2400) then s else flushRecords s
  let s := setB s keepStat keepStat_Mainon false
  let s := { s with keep := { s.keep with offMs := 0 } }
  let s := keepEvent s 0x0F20 0 [mon, pw vst]
  if getB s keepBcfg keepBcfg_Lgasp then beaconTrigger s 1 vst else s

/-- The main supplies return (R561). -/
def keepMainBack (s : State) : State := keepEvent (setB s keepStat keepStat_Mainon true) 0x0F21 0 [pw (s.keep.offMs / 1000)]

/-- The keep domain at power-on reset: everything outside MRAM and OTP starts anew (R551, R570). -/
def keepPowerOn (s : State) : State :=
  let r := s.recorder
  let s := resetRegs s 0x60140000 0x60150000
  let s := { s with regs := s.regs.filter fun c => decide (c.1 < bankStride) || decide (c.1 % bankStride < 0x60140000) || decide (0x60150000 ≤ c.1 % bankStride) }
  let s := setB s keepKeystat keepKeystat_Locked r.key.isSome
  let s := { s with keep := { keepReset with bseq := s.keep.bseq } }
  { s with recorder := { recReset with mram := r.mram, tail := r.tail, total := r.total, key := r.key } }

end Sys2Proof.Machine
end

