-- ==== Sys2Proof/Machine/Cmp.lean ====
section
/-! DEFINITION. Window comparators: raw output, latch, deliveries (R355–R358, R361). -/

namespace Sys2Proof.Machine

/-- A comparator's latch edge (R357). -/
def cmpLatchEdge (s : State) (c : Nat) : State :=
  let s := setB s (cmpStat c) cmpStat_Latch true
  let s := encCapture (comparatorTrip (latchAllConds s) c) c
  let x := getCmp s c
  let s := if getB s (cmpCtl c) cmpCtl_Int && !x.noted then
      notice (setCmp s c { x with noted := true }) 0x0901 (resPol s (resCmp c)) [pw c]
    else s
  if getB s (cmpCtl c) cmpCtl_Wake then wakeEdge s c else s

/-- A threshold code in nV (R355). -/
def thrNv (n : Nat) : Int := ((n : Int) - 512) * 3906250

/-- The raw output of a comparator at `v` nV (R355): outside beyond a threshold, inside within the hysteresis, else as before. -/
def rawOutput (s : State) (c : Nat) (v : Int) : Bool :=
  let hi := thrNv (getF s (cmpThr c) cmpThr_Hi)
  let lo := thrNv (getF s (cmpThr c) cmpThr_Lo)
  let h : Int := getF s (cmpCtl c) cmpCtl_Hyst * 2000000
  if hi < v ∨ v < lo then true else if lo + h < v ∧ v < hi - h then false else getB s (cmpStat c) cmpStat_Now

/-- COMPARATOR_RAW_CHANGE: the input of an enabled comparator has come to `v` nV and stayed there for its propagation time (R355, R356). -/
def execComparatorRawChange (c : Fin 32) (v : BitVec 40) (s : State) : Host.Outcome State Fault Refusal :=
  .next <|
    if !getB s (cmpCtl c) cmpCtl_En then s
    else
      let outside := rawOutput s c v.toInt
      let s := setB s (cmpStat c) cmpStat_Now outside
      if outside && !getB s (cmpStat c) cmpStat_Latch then cmpLatchEdge s c else s

/-- A software clear (R356): a comparator that is outside keeps its latch. -/
def cmpClear (s : State) (c : Nat) : State :=
  if getB s (cmpStat c) cmpStat_Now then s else setB s (cmpStat c) cmpStat_Latch false

/-- The comparators at an edge: LATCHED and NOW are delivered, then the latches with CLR 0b01 are cleared (R356, R358); SEL
advances (R361). -/
def cmpEdge (s : State) : State :=
  let word (p : Nat) (f : Fld) : Word :=
    (upto 32).foldl (fun w c => if resPol s (resCmp c) = p ∧ getB s (cmpStat c) f then w ||| pw (2 ^ c) else w) 0
  let all : Nat := (upto 32).foldl (fun n c => n + getF s (cmpStat c) cmpStat_Latch * 2 ^ c) 0
  let s := { s with cmpLast := all }
  let s := forEach (upto 8) s fun s' p => match runSub s p with
    | some sub => forEach sub.cmpDest s' fun s' d =>
        deliverLate (deliverLate s' d.1 d.2 (word p cmpStat_Latch)) d.1 (d.2 + 1) (word p cmpStat_Now)
    | none => s'
  let s := forEach (upto 32) s fun s c =>
    let s := setCmp s c { getCmp s c with noted := false, dacNoted := false }
    if getF s (cmpCtl c) cmpCtl_Clr = 1 then cmpClear s c else s
  if getB s cmpDacsel cmpDacsel_Auto then setF s cmpDacsel cmpDacsel_Sel ((getF s cmpDacsel cmpDacsel_Sel + 1) % 32) else s

/-- After a commit: a disabled comparator has its raw output inside. -/
def cmpCommit (s : State) (c : Nat) : State :=
  if getB s (cmpCtl c) cmpCtl_En then s else setB s (cmpStat c) cmpStat_Now false

end Sys2Proof.Machine
end

