-- ==== Sys2Proof/Machine/Rlm.lean ====
section
/-! DEFINITION. Ralma links, root election, addresses, routing, fabric time and tick alignment (R511–R534, R537). -/

namespace Sys2Proof.Machine

def ownUid (s : State) : Nat := s.dev.uid.toNat
def isRoot (s : State) : Bool := getB s rlmNode rlmNode_Root
def isParent (s : State) (n : Nat) : Bool := s.rlm.parent == some n

/-! ## Root election (R524–R526) -/

/-- One claim is better than another (R524). -/
def betterClaim (a b : Claim) : Bool :=
  if a.prio ≠ b.prio then decide (b.prio < a.prio)
  else if a.root ≠ b.root then decide (a.root < b.root)
  else if a.epoch ≠ b.epoch then decide (0 < signed 16 (a.epoch + 65536 - b.epoch))
  else decide (a.dist < b.dist)

/-- The node's own claim. -/
def ownClaim (s : State) : Claim :=
  { prio := getF s rlmRootcfg rlmRootcfg_Prio, root := ownUid s, epoch := s.rlm.epoch, dist := 0 }

/-- The port of the best claim; none where the best claim is the node's own. -/
def bestClaim (s : State) : Claim × Option Nat :=
  (upPorts s).foldl (fun b n => match (getRPort s n).claim with
    | some c => if betterClaim c b.1 then (c, some n) else b
    | none => b) (ownClaim s, none)

/-- The node takes an address. -/
def takeAddress (s : State) (a : Nat) : State :=
  let s := { s with rlm := { s.rlm with prev := some a } }
  let same := getB s rlmNode rlmNode_Addrv && getF s rlmNode rlmNode_Addr == a
  let s := setF (setB s rlmNode rlmNode_Addrv true) rlmNode rlmNode_Addr a
  if same then s else notice s 0x1006 0 [pw a]

/-- TBASE such that the coming edge meets its target (R533). -/
def ownTbase (s : State) : Nat :=
  unsigned 64 ((s.time : Int) - (s.tick.count.toNat * period s * 10 : Nat))

/-- TVALID: when it becomes 0b1 the clock of the keep domain takes fabric time (R556). -/
def timeValid (s : State) : State :=
  if getB s rlmTstat rlmTstat_Tvalid then s else clockTakes (setB s rlmTstat rlmTstat_Tvalid true)

/-- The node becomes root: it takes its own address (R526), its time from the clock when none has been set since the reset (R532), and without
an earlier FOLLOW a TBASE that its own edges meet (R533). -/
def becomeRoot (s : State) : State :=
  let a := if getB s rlmRootcfg rlmRootcfg_Pinen then getF s rlmRootcfg rlmRootcfg_Pin else 0
  let s := setB s rlmNode rlmNode_Root true
  let s := if s.rlm.timed then s else { s with time := clockNow s, rlm := { s.rlm with timed := true } }
  let s := if s.rlm.follow.isSome then s else set64 s (rlmTbaselo 0) (ownTbase s)
  let s := setB (timeValid s) rlmTstat rlmTstat_Holdover false
  let s := { s with rlm := { s.rlm with allocs := [(a, { uid := ownUid s, group := 0, phase := none })], groups := [], steer := 0 } }
  takeAddress s a

/-- The node is root no longer: it has no address until the root gives one; its time is valid if an exchange has been completed. -/
def leaveRoot (s : State) : State :=
  let s := setB (setB s rlmNode rlmNode_Root false) rlmNode rlmNode_Addrv false
  let s := setB s rlmTstat rlmTstat_Tvalid s.rlm.exchanged
  { s with rlm := { s.rlm with allocs := [], groups := [] } }

/-- The CLAIM payload (R524). -/
def claimBytes (prio dist epoch root : Nat) : List Nat := beBytes 1 prio ++ beBytes 1 dist ++ beBytes 2 epoch ++ beBytes 8 root

/-- CLAIM on every port in UP. -/
def sendClaims (s : State) : State :=
  let c := s.rlm.best
  forEach (upPorts s) s fun s n => sendLink s n 7 0x03 (claimBytes c.prio c.dist c.epoch c.root)

/-- Choose the best claim and the parent port; claims are sent when the best has changed (R524). -/
def elect (s : State) : State :=
  let (c, p) := bestClaim s
  let changed := s.rlm.best != c
  let s := { s with rlm := { s.rlm with best := c, parent := p } }
  let s := forEach (upto 8) s fun s n => setB s (rlmPstat n) rlmPstat_Parent (p == some n)
  let s :=
    if get64 s (rlmRootlo 0) = c.root then s
    else notice (set64 s (rlmRootlo 0) c.root) 0x1005 0 [pw c.root, pw (c.root / 4294967296)]
  let s := match p with
    | none => if isRoot s then s else becomeRoot s
    | some _ => if isRoot s then leaveRoot s else s
  if changed then sendClaims s else s

/-- A node is settled (R524). -/
def settled (s : State) : Bool :=
  (upPorts s).all fun n => match (getRPort s n).claim with
    | some c => c.root == s.rlm.best.root
    | none => false

/-! ## Links (R513–R516) -/

/-- The rates this node offers on a port. -/
def ownOffer (s : State) (n : Nat) : Nat :=
  getF s (rlmPcfg n) rlmPcfg_Offer &&& getF s (rlmPstat n) rlmPstat_Cap &&& (getRPort s n).mods

/-- The agreed rate: the highest code set in both offers. -/
def commonRate (a b : Nat) : Option Nat := [3, 2, 1, 0].find? fun r => nbit a r && nbit b r

/-- The receive buffers a DTN9256 advertises (R521). -/
def ownUnits : List Nat := [32, 32, 32, 32, 256, 256, 64, 64]

/-- The bytes of a NEG payload (R515). -/
def negBytes (uid offer vcs : Nat) (safe ack : Bool) (units : List Nat) : List Nat :=
  beBytes 8 uid ++ [offer, vcs, bit safe + 2 * bit ack, 0] ++ units.flatMap (beBytes 2) ++ [0, 0, 0, 0]

/-- The NEG payload of this node. -/
def negPayload (s : State) (n : Nat) : List Nat :=
  negBytes (ownUid s) (ownOffer s n) (getF s (rlmPcfg n) rlmPcfg_Vcmask) (getB s (rlmPcfg n) rlmPcfg_Safe) (getRPort s n).ack ownUnits

/-- A port leaves UP: learned routes and the claim of the port go (R527). -/
def leaveUp (s : State) (n : Nat) (cause : Word) : State :=
  if !rUp s n then s
  else
    let s := { s with rlm := { s.rlm with learned := s.rlm.learned.filter fun c => c.2 != 2 ^ n } }
    let x := getRPort s n
    let s := setRPort s n { x with claim := none, wait := [], owed := [], ret := [], turn := [], deficit := [] }
    let s := event (rSetState s n 0) 0x1002 1 0 [pw n, cause]
    elect s

/-- A port returns to step 1. -/
def portDown (s : State) (n : Nat) : State :=
  let s := rSetState s n 0
  setF (setB (setF s (rlmPstat n) rlmPstat_Rate 0) (rlmPstat n) rlmPstat_Safeok false) (rlmPstat n) rlmPstat_Vcs 0

/-- A port enters UP. -/
def enterUp (s : State) (n : Nat) : State :=
  let x := getRPort s n
  let s := rSetState (setRPort s n { x with noted := false, owed := [], ret := [], wait := [], turn := [], deficit := [], claim := none }) n 5
  notice s 0x1001 0 [pw n, pw (getF s (rlmPstat n) rlmPstat_Rate), pw (getF s (rlmPstat n) rlmPstat_Vcs)]

/-- Whether step 4 ends: a NEG with ACK received, the own NEG sent with ACK, a common rate, virtual channels 4 and 7. -/
def negotiated (s : State) (n : Nat) : State :=
  let x := getRPort s n
  let vcs := getF s (rlmPcfg n) rlmPcfg_Vcmask &&& x.vcs
  match commonRate (ownOffer s n) x.offer with
  | some r =>
    if rState s n = 3 ∧ x.pAck ∧ x.ackSent ∧ nbit vcs 4 ∧ nbit vcs 7 then
      let s := setF (setF s (rlmPstat n) rlmPstat_Rate r) (rlmPstat n) rlmPstat_Vcs vcs
      let s := setB s (rlmPstat n) rlmPstat_Safeok (getB s (rlmPcfg n) rlmPcfg_Safe && x.safe)
      if r = 0 then enterUp s n else rSetState (setRPort s n { x with pAck := false, lock := false }) n 4
    else s
  | none => s

/-- RLM_MODULE_PRESENT: a module has been present for 100 ms on a port in DOWN (R514). An inserted module sets CAP. -/
def execRlmModulePresent (n : Fin 8) (s : State) : Host.Outcome State Fault Refusal :=
  .next <|
    if !mainRuns s then s
    else
      let new := !getFbit s (rlmModdiag n) rlmModdiag_Stat 0
      let s := if new then
          setF (setFbit (setRPort s n { getRPort s n with noted := false }) (rlmModdiag n) rlmModdiag_Stat 0 true) (rlmPstat n) rlmPstat_Cap 0xF
        else s
      if getB s (rlmPcfg n) rlmPcfg_En && !getB s (rlmPcfg n) rlmPcfg_Mode && rState s n == 0 then rSetState s n 1 else s

/-- The port goes on with the module's rates. -/
def moduleRead (s : State) (n : Nat) (ok : Bool) (rates : Nat) (diag : Bool) : State :=
  let s := setF s (rlmModdiag n) rlmModdiag_Stat (1 + 2 * bit ok + 4 * bit (ok && diag))
  let s := rSetState (setRPort s n { getRPort s n with mods := if ok then rates else 1 }) n 2
  let s := setF s (rlmPstat n) rlmPstat_Rate 0
  if ok then s else event s 0x1004 1 0 [pw n]

/-- RLM_MODULE_READ_DONE: the module was read: byte 0, the rate codes that its compliance codes declare up to its nominal rate,
byte 92 (R513). -/
def execRlmModuleReadDone (n : Fin 8) (ident : BitVec 8) (rates : BitVec 4) (byte92 : BitVec 8) (s : State) : Host.Outcome State Fault Refusal :=
  .next (if rState s n = 1 then moduleRead s n (ident == 0x03) rates.toNat (nbit byte92.toNat 6) else s)

/-- RMODn_TXDIS is high (R513, R514): no module, or step 1 or 2 of the bring-up. -/
def txDisabled (s : State) (n : Nat) : Bool := !getFbit s (rlmModdiag n) rlmModdiag_Stat 0 || decide (rState s n < 2)

/-- NEG begins, the flags of the episode cleared; nothing is agreed. -/
def startNeg (s : State) (n : Nat) : State :=
  let s := setF (setB (setF s (rlmPstat n) rlmPstat_Rate 0) (rlmPstat n) rlmPstat_Safeok false) (rlmPstat n) rlmPstat_Vcs 0
  rSetState (setRPort s n { getRPort s n with ack := false, ackSent := false, pAck := false, lock := false }) n 3

/-- RLM_SYNC_ACQUIRED: step 3 ends (R514). -/
def execRlmSyncAcquired (n : Fin 8) (s : State) : Host.Outcome State Fault Refusal :=
  .next (if rState s n = 2 then startNeg s n else s)

/-- NEG_SEND: a NEG goes out in NEG and SWITCH (R514, R515). -/
def execNegSend (n : Fin 8) (s : State) : Host.Outcome State Fault Refusal :=
  .next <|
    if rState s n = 3 ∨ rState s n = 4 then
      let s := freshSent s
      let data := negPayload s n
      let (s, q) := nextSeq s 0x02
      let s := sendRaw s n { dst := 0, src := getF s rlmNode rlmNode_Addr, vc := 7, type := 0x02, pol := 0
                             ttl := getF s rlmRootcfg rlmRootcfg_Ttl, seq := q, data := data }
      let x := getRPort s n
      negotiated (setRPort s n { x with ackSent := x.ackSent || x.ack }) n
    else s

/-- What a NEG in step 4 says is noted; the step may end. -/
def noteNeg (s : State) (n offer vcs : Nat) (safe ack : Bool) (units : List Nat) : State :=
  let x := getRPort s n
  negotiated (setRPort s n { x with ack := true, pAck := x.pAck || ack, offer := offer, vcs := vcs, safe := safe, units := units }) n

/-- NEG_RECEIVED: a NEG with the given fields arrives, at rate 0 or at the agreed rate (R514, R515). One that is invalid is counted (R518). -/
def execNegReceived (n : Fin 8) (rate0 : Bool) (hdr : BitVec 64) (uid : BitVec 64) (offer : BitVec 8) (vcs : BitVec 8) (safe ack : Bool)
    (units : List (BitVec 16)) (crc : BitVec 32) (s : State) : Host.Outcome State Fault Refusal :=
  .next <|
    let st := rState s n
    let us := units.map (·.toNat)
    let s := freshSent s
    if (st ≠ 3 ∧ st ≠ 4 ∧ st ≠ 5) ∨ hdrType hdr ≠ 0x02 then s
    else if !frameFormed hdr (negBytes uid.toNat offer.toNat vcs.toNat safe ack us) crc then countF s (rlmPerr n) rlmPerr_Crcerr 1
    else if st = 3 then (if rate0 then noteNeg s n offer.toNat vcs.toNat safe ack us else s)
    else if rate0 then noteNeg (startNeg (leaveUp s n (Config.causeWord 0x1002 0)) n) n offer.toNat vcs.toNat safe ack us
    else if st = 4 then
      let x := getRPort s n
      if ack && x.lock then enterUp (setRPort s n { x with pAck := true }) n else setRPort s n { x with pAck := x.pAck || ack }
    else s

/-- RLM_RATE_LOCK: lock at the agreed rate; with an acknowledged NEG the link is UP (R514). -/
def execRlmRateLock (n : Fin 8) (s : State) : Host.Outcome State Fault Refusal :=
  .next <|
    if rState s n = 4 then
      let x := getRPort s n
      if x.pAck then enterUp (setRPort s n { x with lock := true }) n else setRPort s n { x with lock := true }
    else s

/-- RLM_BRINGUP_TIMEOUT: the present step of the port times out (R514). -/
def execRlmBringupTimeout (n : Fin 8) (s : State) : Host.Outcome State Fault Refusal :=
  .next <|
    let x := getRPort s n
    match rState s n with
    | 1 => moduleRead s n false 1 false
    | 2 => if x.noted then portDown s n else notice (portDown (setRPort s n { x with noted := true }) n) 0x1003 0 [pw n, pw 3]
    | 3 => if x.noted then portDown s n else notice (portDown (setRPort s n { x with noted := true }) n) 0x1003 0 [pw n, pw 4]
    | 4 =>
      let r := getF s (rlmPstat n) rlmPstat_Rate
      let s := setF s (rlmPstat n) rlmPstat_Cap (getF s (rlmPstat n) rlmPstat_Cap % 2 ^ r)
      rSetState (setF (setF (setB s (rlmPstat n) rlmPstat_Safeok false) (rlmPstat n) rlmPstat_Rate 0) (rlmPstat n) rlmPstat_Vcs 0) n 2
    | _ => s

/-- LINK_DOWN: the link in UP goes down; `cause` is its parameter word, whose codes the spec does not list (R516). -/
def execLinkDown (n : Fin 8) (cause : BitVec 32) (s : State) : Host.Outcome State Fault Refusal :=
  .next (if rUp s n then portDown (leaveUp s n cause) n else s)

/-- MODULE_ABSENT: RMODn_ABS goes high (R513). -/
def execModuleAbsent (n : Fin 8) (s : State) : Host.Outcome State Fault Refusal :=
  .next <|
    let s := setReg s (rlmModdiag n) 0
    let s := leaveUp s n (Config.causeWord 0x1002 1)
    let s := if getB s (rlmPcfg n) rlmPcfg_Mode then s else portDown s n
    if getB s (rlmPcfg n) rlmPcfg_En then event s 0x1004 1 0 [pw n] else s

/-- MODULE_DIAG_READ: temperature in °C and receive power in 0.1 µW (R513). -/
def execModuleDiagRead (n : Fin 8) (temp : BitVec 8) (rxp : BitVec 16) (s : State) : Host.Outcome State Fault Refusal :=
  .next <|
    if getFbit s (rlmModdiag n) rlmModdiag_Stat 2 then
      setF (setF s (rlmModdiag n) rlmModdiag_Temp temp.toNat) (rlmModdiag n) rlmModdiag_Rxp rxp.toNat
    else s

/-- What the commit of the port configuration does (R514, R546). -/
def rlmPortCommit (s : State) (n : Nat) : State :=
  if !getB s (rlmPcfg n) rlmPcfg_En then
    let s := setF (portDown (leaveUp s n (Config.causeWord 0x1002 2)) n) (rlmPstat n) rlmPstat_Cap 0xF
    setRPort s n { getRPort s n with noted := false }
  else if getB s (rlmPcfg n) rlmPcfg_Mode then
    if rState s n = 6 then s else rSetState (portDown (leaveUp s n (Config.causeWord 0x1002 3)) n) n 6
  else if rState s n = 6 then portDown s n
  else s

/-- The commit of the Ralma block: ports, own priority. -/
def rlmCommit (s : State) : State := elect (forEach (upto 8) s rlmPortCommit)

/-! ## Credits (R521) -/

/-- Units come back for a channel: for the frames in the order in which they took them. -/
def giveBack (vc : Nat) : Nat → List (Nat × Nat × Nat) → List (Nat × Nat × Nat)
  | _, [] => []
  | 0, l => l
  | u + 1, (v, k, m) :: t =>
    if v ≠ vc then (v, k, m) :: giveBack vc (u + 1) t
    else if u + 1 < m then (v, k, m - (u + 1)) :: t
    else giveBack vc (u + 1 - m) t

/-- The payload of a LINK frame (R519). -/
def linkBytes (units : List Nat) : List Nat := units.flatMap (beBytes 2)

/-- LINK: a LINK frame returns credits (R521). -/
def execLink (n : Fin 8) (hdr : BitVec 64) (units : List (BitVec 16)) (crc : BitVec 32) (s : State) : Host.Outcome State Fault Refusal :=
  .next <|
    let us := units.map (·.toNat)
    let (s, ok) := arriveAs s n 0x01 hdr (linkBytes us) crc
    if !ok then s
    else
      let x := getRPort s n
      drainWait (setRPort s n { x with owed := (upto 8).foldl (fun l vc => giveBack vc (us.getD vc 0) l) x.owed }) n

/-- LINK_SEND: a LINK frame with the units forwarded or consumed since the last (R516, R521). -/
def execLinkSend (n : Fin 8) (s : State) : Host.Outcome State Fault Refusal :=
  .next <|
    let s := freshSent s
    if rUp s n then
      let x := getRPort s n
      sendLink (setRPort s n { x with ret := [] }) n 7 0x01 (linkBytes ((upto 8).map (cellGet 0 x.ret)))
    else s

/-! ## Claims -/

/-- CLAIM: a claim arrives (R524). -/
def execClaim (n : Fin 8) (hdr : BitVec 64) (prio dist : BitVec 8) (epoch : BitVec 16) (root : BitVec 64) (crc : BitVec 32) (s : State) :
    Host.Outcome State Fault Refusal :=
  .next <|
    let (s, ok) := arriveAs s n 0x03 hdr (claimBytes prio.toNat dist.toNat epoch.toNat root.toNat) crc
    if ok then
      let c : Claim := { prio := prio.toNat, root := root.toNat, epoch := epoch.toNat, dist := min 255 (dist.toNat + 1) }
      elect (setRPort s n { getRPort s n with claim := some c })
    else s

/-- CLAIM_SEND: every 10 ms the root advances EPOCH, and the best claim is sent (R524). -/
def execClaimSend (s : State) : Host.Outcome State Fault Refusal :=
  .next <|
    if !mainRuns s then s
    else
      let s := freshSent s
      let s := if isRoot s then { s with rlm := { s.rlm with epoch := (s.rlm.epoch + 1) % 65536 } } else s
      let before := s.rlm.best
      let s := elect s
      if s.rlm.best = before then sendClaims s else s

/-- CLAIM_DISCARD: the EPOCH of a port's claim has not advanced for 50 ms (R524). -/
def execClaimDiscard (n : Fin 8) (s : State) : Host.Outcome State Fault Refusal :=
  .next (if mainRuns s then elect (setRPort (freshSent s) n { getRPort s n with claim := none }) else s)

/-! ## Addresses (R526–R528) -/

/-- The lowest number below `top` that a list does not hold. -/
def lowestFree (top : Nat) (l : List Nat) : Option Nat := (upto top).find? fun a => !l.contains a

/-- The address that the root gives a UID that wants `want`: without a wish the lowest that no other UID holds. -/
def grantAddr (s : State) (uid want : Nat) : Option Nat :=
  let allocs := s.rlm.allocs
  if want < 4096 then
    match cellFind allocs want with
    | some a => if a.uid = uid then some want else none
    | none => some want
  else lowestFree 4096 ((allocs.filter fun c => c.2.uid != uid).map fun c => c.1)

/-- The CPHASE that the root gives in a group. -/
def grantPhase (s : State) (uid group nunits wantph : Nat) : Option Nat :=
  let used := s.rlm.allocs.filterMap fun c => if c.2.group = group ∧ c.2.uid ≠ uid then c.2.phase else none
  if wantph < nunits ∧ ¬ used.contains wantph then some wantph else lowestFree nunits used

/-- What the root answers to a JOIN: ADDR, STATUS, CPHASE, NUNITS. -/
def assignFor (s : State) (uid want group nunits wantph : Nat) : State × (Nat × Nat × Nat × Nat) :=
  match grantAddr s uid want with
  | none => (s, (0xFFFF, 1, 0xFFFF, nunits))
  | some a =>
    let groups := if group = 0 ∨ (cellFind s.rlm.groups group).isSome then s.rlm.groups else cellPut s.rlm.groups group nunits
    let nu := if group = 0 then nunits else cellGet nunits groups group
    let ph := if group = 0 then none else grantPhase s uid group nu wantph
    let allocs := cellPut (s.rlm.allocs.filter fun c => c.2.uid != uid) a { uid := uid, group := group, phase := ph }
    ({ s with rlm := { s.rlm with groups := groups, allocs := allocs } },
      (a, if group ≠ 0 ∧ ph.isNone then 2 else 0, ph.getD 0xFFFF, nu))

/-- The node takes what an ASSIGN gives it. -/
def takeAssign (s : State) (want addr status phase nunits : Nat) : State :=
  if addr < 4096 ∧ status ≠ 1 then
    let s := if isRoot s then s else takeAddress s addr
    if getF s rlmGrpcfg rlmGrpcfg_Group = 0 then s
    else
      let s := setF (setF s rlmGrpstat rlmGrpstat_Nunits nunits) rlmGrpstat rlmGrpstat_Cphase phase
      let s := setB s rlmGrpstat rlmGrpstat_Mism (nunits != getF s rlmGrpcfg rlmGrpcfg_Nunits)
      let s := setB s rlmGrpstat rlmGrpstat_Valid (status != 2)
      if status = 2 then event s 0x1013 1 0 [pw (getF s rlmGrpcfg rlmGrpcfg_Group)] else s
  else
    let s := setB { s with rlm := { s.rlm with prev := none } } rlmNode rlmNode_Addrv false
    event s 0x1007 1 0 [pw want]

/-- The address a node asks for (R526). -/
def wantAddr (s : State) : Nat :=
  if getB s rlmRootcfg rlmRootcfg_Pinen then getF s rlmRootcfg rlmRootcfg_Pin else s.rlm.prev.getD 0xFFFF

/-- A learned route. -/
def learn (s : State) (addr n : Nat) : State :=
  if addr < 4096 then { s with rlm := { s.rlm with learned := cellPut s.rlm.learned addr (2 ^ n) } } else s

/-- The JOIN payload. -/
def joinBytes (uid want group nunits wantph : Nat) : List Nat :=
  beBytes 8 uid ++ beBytes 2 want ++ beBytes 2 group ++ beBytes 2 nunits ++ beBytes 2 wantph

/-- The ASSIGN payload. -/
def assignBytes (uid addr status phase nunits : Nat) : List Nat :=
  beBytes 8 uid ++ beBytes 2 addr ++ [status, 0] ++ beBytes 2 phase ++ beBytes 2 nunits

/-- JOIN: a JOIN arrives; the root answers it, another node forwards it on its parent port (R526–R528). -/
def execJoin (n : Fin 8) (hdr : BitVec 64) (uid : BitVec 64) (want group nunits wantph : BitVec 16) (crc : BitVec 32) (s : State) :
    Host.Outcome State Fault Refusal :=
  .next <|
    let (s, ok) := arriveAs s n 0x04 hdr (joinBytes uid.toNat want.toNat group.toNat nunits.toNat wantph.toNat) crc
    if !ok then s
    else if isRoot s then
      let (s, addr, status, phase, nu) := assignFor s uid.toNat want.toNat group.toNat nunits.toNat wantph.toNat
      sendLink (learn s addr n) n 7 0x05 (assignBytes uid.toNat addr status phase nu)
    else
      match s.rlm.parent with
      | some p =>
        if p = n.val then s
        else
          let s := { s with rlm := { s.rlm with joins := cellPut s.rlm.joins uid.toNat (n.val + 8 * s.time) } }
          sendLink s p 7 0x04 (joinBytes uid.toNat want.toNat group.toNat nunits.toNat wantph.toNat)
      | none => s

/-- JOIN_SEND: a settled node that is not the root asks for its address; the root serves its own group (R526, R528). -/
def execJoinSend (s : State) : Host.Outcome State Fault Refusal :=
  .next <|
    let s := freshSent s
    let group := getF s rlmGrpcfg rlmGrpcfg_Group
    let nunits := getF s rlmGrpcfg rlmGrpcfg_Nunits
    let phase := getF s rlmGrpstat rlmGrpstat_Cphase
    match s.rlm.parent with
    | some p => if settled s then sendLink s p 7 0x04 (joinBytes (ownUid s) (wantAddr s) group nunits phase) else s
    | none =>
      if isRoot s && group != 0 then
        let a := getF s rlmNode rlmNode_Addr
        let (s, _, status, phase, nu) := assignFor s (ownUid s) a group nunits phase
        takeAssign s a a status phase nu
      else s

/-- ASSIGN: an ASSIGN arrives; it is this node's, or goes down on the port its JOIN came from (R526, R527). -/
def execAssign (n : Fin 8) (hdr : BitVec 64) (uid : BitVec 64) (addr : BitVec 16) (status : BitVec 8) (phase nunits : BitVec 16) (crc : BitVec 32)
    (s : State) : Host.Outcome State Fault Refusal :=
  .next <|
    let (s, ok) := arriveAs s n 0x05 hdr (assignBytes uid.toNat addr.toNat status.toNat phase.toNat nunits.toNat) crc
    if !ok then s
    else if uid.toNat = ownUid s then
      if isRoot s then s else takeAssign s (wantAddr s) addr.toNat status.toNat phase.toNat nunits.toNat
    else match cellFind s.rlm.joins uid.toNat with
      | some v =>
        if s.time ≤ v / 8 + 100000000 then
          sendLink (learn s addr.toNat (v % 8)) (v % 8) 7 0x05
            (assignBytes uid.toNat addr.toNat status.toNat phase.toNat nunits.toNat)
        else s
      | none => s

/-- ALLOCATION_FREE: no JOIN of the address's holder for 10 s (R526, R527). -/
def execAllocationFree (addr : Fin 4096) (s : State) : Host.Outcome State Fault Refusal :=
  .next <|
    if isRoot s && getF s rlmNode rlmNode_Addr == addr.val then s
    else { s with rlm := { s.rlm with allocs := cellDel s.rlm.allocs addr, learned := cellDel s.rlm.learned addr } }

/-! ## Routed frames (R529) -/

/-- ROUTED_FRAME_FORWARD: a frame arrives on port n; a routed one goes on, or is this node's (R529). -/
def execRoutedFrameForward (n : Fin 8) (hdr : BitVec 64) (data : List (BitVec 8)) (crc : BitVec 32) (s : State) : Host.Outcome State Fault Refusal :=
  .next <|
    let l := data.map (·.toNat)
    let (s, ok) := arrive s n hdr l crc
    if ok && decide (0x0B ≤ hdrType hdr) then forwardFrame s n hdr (headerFrame hdr l) else s

/-- EVENT_FRAME_DROP: the oldest EVENT frame on a port has found no credit for 1 ms (R537). -/
def execEventFrameDrop (n : Fin 8) (s : State) : Host.Outcome State Fault Refusal :=
  .next <|
    let x := getRPort s n
    match x.wait.find? fun f => f.type == 0x14 && f.src == getF s rlmNode rlmNode_Addr with
    | some f => countF (setRPort s n { x with wait := x.wait.erase f }) rlmEvdst rlmEvdst_Drop 1
    | none => s

/-! ## Fabric time (R531–R533) -/

/-- Half of an integer; the spec does not say which way an odd one is rounded. -/
def halve (i : Int) : Int := if i % 2 = 0 then i / 2 else i / 2 + (if Config.roundUp i 2 then 1 else 0)

/-- The FOLLOW payload (R531). -/
def followBytes (t1 tbase per root valid : Nat) : List Nat := beBytes 8 t1 ++ beBytes 8 tbase ++ beBytes 2 per ++ beBytes 8 root ++ beBytes 1 valid

/-- TIME_EXCHANGE_START: the master of a link sends SYNC and FOLLOW (R531). -/
def execTimeExchangeStart (n : Fin 8) (s : State) : Host.Outcome State Fault Refusal :=
  .next <|
    let s := freshSent s
    if rUp s n && !isParent s n then
      let t := (nowTime s).toNat
      let s := sendLink (nextFree s) n 2 0x06 []
      sendLink s n 2 0x07 (followBytes t (get64 s (rlmTbaselo 0)) (period s) s.rlm.best.root (bit (getB s rlmTstat rlmTstat_Tvalid)))
    else s

/-- SYNC: the slave captures t2 (R531). -/
def execSync (n : Fin 8) (hdr : BitVec 64) (crc : BitVec 32) (s : State) : Host.Outcome State Fault Refusal :=
  .next <|
    let (s, ok) := arriveAs s n 0x06 hdr [] crc
    if ok && isParent s n then nextFree { s with rlm := { s.rlm with t2 := (nowTime s).toNat } } else s

/-- FOLLOW: the slave takes t1, TBASE, PERIOD and the root, and sends DREQ (R531, R533). A FOLLOW is valid with VALID set
and the root that this node names. -/
def execFollow (n : Fin 8) (hdr : BitVec 64) (t1 tbase : BitVec 64) (per : BitVec 16) (root : BitVec 64) (valid : BitVec 8) (crc : BitVec 32)
    (s : State) : Host.Outcome State Fault Refusal :=
  .next <|
    let (s, ok) := arriveAs s n 0x07 hdr (followBytes t1.toNat tbase.toNat per.toNat root.toNat valid.toNat) crc
    if ok && isParent s n && valid != 0 && root.toNat == s.rlm.best.root then
      let s := set64 s (rlmTbaselo 0) tbase.toNat
      let s := { s with rlm := { s.rlm with t1 := t1.toNat, t3 := (nowTime s).toNat, follow := some (tbase.toNat, per.toNat, root.toNat) } }
      sendLink (nextFree s) n 2 0x08 []
    else s

/-- DREQ: the master captures t4 and returns it (R531). -/
def execDreq (n : Fin 8) (hdr : BitVec 64) (crc : BitVec 32) (s : State) : Host.Outcome State Fault Refusal :=
  .next <|
    let (s, ok) := arriveAs s n 0x08 hdr [] crc
    if ok && !isParent s n then
      let t := (nowTime s).toNat
      sendLink (nextFree s) n 2 0x09 (beBytes 8 t)
    else s

/-- The parameters of 0x1009; the codes of its kinds are not listed. -/
def stepped (s : State) (kind : Nat) (amount : Int) : State := notice s 0x1009 0 [Config.causeWord 0x1009 kind, wordOfInt amount]

/-- DRESP: the slave computes delay and offset, and steers or steps its time (R531, R532). -/
def execDresp (n : Fin 8) (hdr : BitVec 64) (t4 : BitVec 64) (crc : BitVec 32) (s : State) : Host.Outcome State Fault Refusal :=
  .next <|
    let (s, ok) := arriveAs s n 0x09 hdr (beBytes 8 t4.toNat) crc
    if ok && isParent s n && s.rlm.follow.isSome then
      let up : Int := (s.rlm.t2 : Int) - s.rlm.t1
      let down : Int := (t4.toNat : Int) - s.rlm.t3
      let d := halve (up + down)
      let o := halve (up - down - signed 16 (getF s (rlmPdly n) rlmPdly_Asym))
      let s := setF s (rlmPdly n) rlmPdly_Ldly (unsigned 16 d)
      let s := setB { s with rlm := { s.rlm with exchanged := true, timed := true } } rlmTstat rlmTstat_Holdover false
      if o.natAbs ≤ 1000 * getF s rlmTctl rlmTctl_Stepth then timeValid { s with rlm := { s.rlm with steer := o } }
      else timeValid (stepped { s with time := unsigned 64 ((s.time : Int) - o), rlm := { s.rlm with steer := 0 } } 0 (-o))
    else s

/-- HOLDOVER_ENTRY: no valid FOLLOW on the parent port for 48 ms (R532). -/
def execHoldoverEntry (s : State) : Host.Outcome State Fault Refusal :=
  .next <|
    match s.rlm.parent with
    | some p => if getB s rlmTstat rlmTstat_Holdover then s else event (setB s rlmTstat rlmTstat_Holdover true) 0x1008 1 0 [pw p]
    | none => s

/-- TCTL.SET at the root: fabric time is set, and TBASE moves with it (R532). -/
def tctlSet (s : State) : State :=
  if isRoot s then
    let step : Int := (get64 s (rlmTsetlo 0) : Int) - (nowTime s).toNat
    let s := { s with time := unsigned 64 ((s.time : Int) + step) }
    stepped (set64 s (rlmTbaselo 0) (unsigned 64 ((get64 s (rlmTbaselo 0) : Int) + step))) 1 step
  else s

/-! ## Tick alignment (R534) -/

/-- The error of the present edge against its target. -/
def edgeError (s : State) : Int :=
  signed 64 (unsigned 64 ((s.time : Int) - (get64 s (rlmTbaselo 0) + s.tick.count.toNat * period s * 10 : Nat)))

/-- The period of FOLLOW differs from the committed one. -/
def periodMismatch (s : State) : Option Nat :=
  match s.rlm.parent, s.rlm.follow with
  | some _, some (_, q, _) => if q = period s then none else some q
  | _, _ => none

/-- Every polder is in mode 0. -/
def allSafe (s : State) : Bool := (upto 8).all fun p => curMode s p == 0

/-- Tick alignment at an edge, after the count: the state and the trim of the tick that starts. -/
def alignEdge (s : State) : State :=
  let s := { s with tick := { s.tick with trim := 0 } }
  let al := getF s rlmTstat rlmTstat_Align
  if !getB s rlmTctl rlmTctl_Disc || !getB s rlmTstat rlmTstat_Tvalid then
    { setF s rlmTstat rlmTstat_Align 0 with rlm := { s.rlm with goodRun := 0, badRun := 0 } }
  else match periodMismatch s with
  | some q =>
    let s := { setF s rlmTstat rlmTstat_Align 3 with rlm := { s.rlm with goodRun := 0, badRun := 0 } }
    if al = 3 then s else event s 0x100B 1 0 [pw (period s), pw q]
  | none =>
    let e := edgeError s
    let s := setF s rlmTstat rlmTstat_Terr (unsigned 16 (satS 16 e))
    if allSafe s && decide (getF s rlmTctl rlmTctl_Tstept * 10 < e.natAbs) then
      let per := 10 * period s
      let off : Int := (s.time : Int) + per - get64 s (rlmTbaselo 0)
      let n := (-((-off) / (per : Int))).toNat
      let long : Int := (n * per : Nat) - off
      let s := { s with tick := { s.tick with trim := long }, rlm := { s.rlm with stepTo := some n, goodRun := 0, badRun := 0 } }
      stepped (setF s rlmTstat rlmTstat_Align 1) 2 long
    else
      let t := 2 * halve (-(clampI (-20) 20 e))
      let small := decide (e.natAbs ≤ 50)
      let s := { s with tick := { s.tick with trim := clampI (-20) 20 t } }
      let s := { s with rlm := { s.rlm with goodRun := if small then s.rlm.goodRun + 1 else 0, badRun := if small then 0 else s.rlm.badRun + 1 } }
      if al = 2 then s else setF s rlmTstat rlmTstat_Align 1

/-- ALIGN_LOCKED: 64 edges within 50 ns (R534). -/
def execAlignLocked (s : State) : Host.Outcome State Fault Refusal :=
  .next (if getF s rlmTstat rlmTstat_Align = 1 ∧ 64 ≤ s.rlm.goodRun then setF s rlmTstat rlmTstat_Align 2 else s)

/-- ALIGN_LOST: a LOCKED node's error has exceeded 50 ns for 64 ticks (R534). -/
def execAlignLost (s : State) : Host.Outcome State Fault Refusal :=
  .next <|
    if getF s rlmTstat rlmTstat_Align = 2 ∧ 64 ≤ s.rlm.badRun then
      event (setF s rlmTstat rlmTstat_Align 1) 0x100A 1 0 [wordOfInt (signed 16 (getF s rlmTstat rlmTstat_Terr))]
    else s

end Sys2Proof.Machine
end

