-- ==== Sys2Proof/Machine/Duplex.lean ====
section
/-! DEFINITION. Duplex pairs (R538–R545), Ethernet ports (R546), and what a commit of the Ralma block must satisfy. -/

namespace Sys2Proof.Machine

/-! ## Roles and scores -/

def paired (s : State) (p : Nat) : Bool := getB s rlmDupcfg rlmDupcfg_En && getFbit s rlmDupcfg rlmDupcfg_Mask p

/-- ROLE as R540 codes it: 0 OFF, 1 STANDBY, 2 ACTIVE, 3 REQ. -/
def dupRole (s : State) (p : Nat) : Nat := getF s (rlmDupst p) rlmDupst_Role

def dupPorts (s : State) : List Nat := [getF s rlmDupcfg rlmDupcfg_Porta, getF s rlmDupcfg rlmDupcfg_Portb]

/-- The retired engines of a polder. -/
def retiredOf (s : State) (p : Nat) : Nat :=
  ((s.img.groups.filter fun g => g.polder == p).map fun g => (getGroup s (p * 256 + g.id)).retired.length).sum

/-- The cells of a polder's ports that are absent, lost or bypassed. -/
def badCells (s : State) (p : Nat) : Nat :=
  ((portsOf s p).map fun n => ((upto (getF s (clnkPcfg n) clnkPcfg_Nexp)).filter fun i =>
    [0, 3, 4].contains (getF s (clnkCellinfo (24 * n + i)) clnkCellinfo_State)).length).sum

/-- SCORE (R541). -/
def dupScore (s : State) (p : Nat) : Nat :=
  let r := dupRole s p
  if inReset s p || getB s (fltSum p) fltSum_Modehold || (s.flt.held.any fun h => affects h p && decide (2 ≤ h.cls)) ||
      getF s rlmTstat rlmTstat_Align != 2 || ((r == 1 || r == 3) && decide (64 ≤ getF s (rlmDupst p) rlmDupst_Mirmiss)) then 0
  else
    let f := (s.flt.held.filter fun h => h.scope == p && h.cls == 1).length
    max 1 (0xFFFF - 0x400 * retiredOf s p - 0x100 * badCells s p - 0x40 * f)

/-- The HEART word of a polder. -/
def heartWord (s : State) (p : Nat) : Nat :=
  dupRole s p * 2 ^ 30 + bit (getB s (rlmDupst p) rlmDupst_Yield) * 2 ^ 29 + getF s (rlmDupst p) rlmDupst_Score

/-- Bring SCORE and YIELD up to date; YIELD stays until the unit leaves ACTIVE. -/
def dupShow (s : State) (p : Nat) : State :=
  let sc := if paired s p then dupScore s p else 0
  let s := setF s (rlmDupst p) rlmDupst_Score sc
  setB s (rlmDupst p) rlmDupst_Yield (dupRole s p == 2 && (sc == 0 || getB s (rlmDupst p) rlmDupst_Yield))

/-- DPX_ACTp is high (R539); with the main dies held it is low (R636). -/
def dpxAct (s : State) (p : Nat) : Bool := mainRuns s && (dupRole s p == 2 || dupRole s p == 0)

/-- The HEART payload (R540). -/
def heartBytes (tick : Nat) (ws : List Nat) : List Nat := beBytes 4 tick ++ ws.flatMap (beBytes 4)

/-- A frame of the pair to the partner, on port n. -/
def sendPartner (s : State) (n vc type pol : Nat) (data : List Nat) (seq : Nat) : State :=
  sendOn s n { dst := getF s rlmDupcfg rlmDupcfg_Partner, src := getF s rlmNode rlmNode_Addr, vc := vc, type := type, pol := pol
               ttl := getF s rlmRootcfg rlmRootcfg_Ttl, seq := seq, data := data }

/-- HEART_SEND: through PORTA and PORTB (R540); none after tick loss (R547), none without an address (R526). -/
def execHeartSend (s : State) : Host.Outcome State Fault Refusal :=
  .next <|
    let s := freshSent s
    if getB s rlmDupcfg rlmDupcfg_En && s.dev.tickRun && addressed s then
      let s := forEach (upto 8) s dupShow
      let data := heartBytes s.tick.count.toNat ((upto 8).map (heartWord s))
      let (s, q) := nextSeq s 0x0C
      let s := forEach (dupPorts s) s fun s n => sendPartner s n 3 0x0C 0 data q
      { s with rlm := { s.rlm with reqSent := (upto 8).filter fun p => dupRole s p == 3 } }
    else s

/-- HEART: the partner's HEART of tick `tick` arrives on port n, before the commit cut-off (`onTime`) or after it (R540). -/
def execHeart (n : Fin 8) (hdr : BitVec 64) (tick : BitVec 32) (ws : List (BitVec 32)) (crc : BitVec 32) (onTime : Bool) (s : State) :
    Host.Outcome State Fault Refusal :=
  .next <|
    let (s, ok) := arriveMine s n 0x0C hdr (heartBytes tick.toNat (ws.map (·.toNat))) crc
    if ok && getB s rlmDupcfg rlmDupcfg_En && (dupPorts s).contains n.val && hdrSrc hdr == getF s rlmDupcfg rlmDupcfg_Partner then
      let isA := getF s rlmDupcfg rlmDupcfg_Porta == n.val
      let s := setFbit s rlmDuppath rlmDuppath_Ok (if isA then 0 else 1) true
      let s := { s with rlm := if isA then { s.rlm with missA := 0 } else { s.rlm with missB := 0 } }
      if onTime && tick == s.tick.count.setWidth 32 then { s with rlm := { s.rlm with heart := some ws } } else s
    else s

/-- DUPLEX_PATH_LOST: no HEART on a path for 8 ticks (R540). -/
def execDuplexPathLost (portB : Bool) (s : State) : Host.Outcome State Fault Refusal :=
  .next <|
    let miss := if portB then s.rlm.missB else s.rlm.missA
    if getB s rlmDupcfg rlmDupcfg_En && decide (8 ≤ miss) && getFbit s rlmDuppath rlmDuppath_Ok (bit portB) then
      event (setFbit s rlmDuppath rlmDuppath_Ok (bit portB) false) 0x100E 1 0
        [pw (getF s rlmDupcfg (if portB then rlmDupcfg_Portb else rlmDupcfg_Porta))]
    else s

/-- What R542 reads of a HEART word: role, YIELD, SCORE. -/
def hRole (w : Word) : Nat := nbits w.toNat 31 30
def hYield (w : Word) : Bool := nbit w.toNat 29
def hScore (w : Word) : Nat := w.toNat % 65536

/-- The partner wins: a higher SCORE, or the lower UID at equal SCORE. -/
def partnerWins (s : State) (own other : Nat) : Bool :=
  decide (own < other) || (own == other && decide (Config.partnerUid (getF s rlmDupcfg rlmDupcfg_Partner) < ownUid s))

/-- The first row of R542 that holds, with the new role: the partner's word in the HEART of the ending tick, its word in the
last HEART before, ticks without a HEART so far, own SCORE. -/
def dupRow (s : State) (p : Nat) (now before : Option Word) (own : Nat) : Option (Nat × Nat) :=
  let r := dupRole s p
  let is (c : Nat) : Bool := (now.map hRole) == some c
  let ps := ((now.orElse fun _ => before).map hScore).getD 0
  if r = 1 ∧ now.isNone ∧ before.map hRole = some 2 ∧ 0 < own then some (1, 2)
  else if r = 1 ∧ is 2 ∧ ((now.map hYield) = some true ∨ ps = 0) ∧ 0 < own then some (2, 2)
  else if r = 1 ∧ (is 1 ∨ (now.isNone ∧ 63 ≤ s.rlm.absent)) ∧ 0 < own ∧ (getB s rlmDupcfg rlmDupcfg_Pref ∨ ps = 0) then some (3, 3)
  else if r = 3 ∧ is 2 then some (4, 1)
  else if r = 3 ∧ is 3 ∧ partnerWins s own ps then some (5, 1)
  else if r = 3 ∧ s.rlm.reqSent.contains p ∧ (is 1 ∨ is 0 ∨ now.isNone) then some (6, 2)
  else if r = 2 ∧ is 2 ∧ partnerWins s own ps then some (7, 1)
  else if r = 2 ∧ is 2 ∧ 0 < ps ∧ getB s (rlmDupst p) rlmDupst_Yield then some (8, 1)
  else none

/-- One paired polder at the cut-off. -/
def dupPolder (s : State) (p : Nat) : State :=
  let s := dupShow s p
  if !paired s p then s
  else
    let now := s.rlm.heart.map fun l => l.getD p 0
    let before := s.rlm.last.map fun l => l.getD p 0
    let own := getF s (rlmDupst p) rlmDupst_Score
    let s := setB s (rlmDupst p) rlmDupst_Pabs now.isNone
    match dupRow s p now before own with
    | some (row, new) =>
      let s := { s with rlm := { s.rlm with roles := cellPut s.rlm.roles p (new + 4 * row) } }
      if row = 1 then event s 0x100F 1 p [pw p, pw own]
      else if row = 7 then event s 0x1010 2 p [pw p, pw ((now.map hScore).getD 0)]
      else s
    | none =>
      if dupRole s p = 1 ∧ now.isNone ∧ own = 0 then
        if s.rlm.absNoted.contains p then s
        else event { s with rlm := { s.rlm with absNoted := s.rlm.absNoted ++ [p] } } 0x100F 1 p [pw p, pw own]
      else { s with rlm := { s.rlm with absNoted := s.rlm.absNoted.filter (· != p) } }

/-! ## Mirror ranges (R544) -/

/-- A mirror range: engine, first word, words; none where the engine position names no engine. -/
def mirRange (s : State) (p k : Nat) : Option (Nat × Nat × Nat) :=
  if getB s (rlmMir p k) rlmMir_En then
    (engineAt s p (getF s (rlmMir p k) rlmMir_Eng)).map fun e => (e, getF s (rlmMir p k) rlmMir_Word, getF s (rlmMir p k) rlmMir_Lenm1 + 1)
  else none

/-- The MIRROR payload (R544). -/
def mirBytes (tick k off : Nat) (l : List Word) : List Nat := beBytes 4 tick ++ [k % 256, 0] ++ beBytes 2 off ++ l.flatMap wordBytes

/-- The frames of one range: at most 60 words each. -/
def mirFrames (s : State) (p k : Nat) : List (List Nat) :=
  match mirRange s p k with
  | some (e, w, n) => (upto ((n + 59) / 60)).map fun i =>
      let l := rdWords s (dmWord e (w + 60 * i)) (min 60 (n - 60 * i))
      mirBytes s.tick.count.toNat k (60 * i) l
  | none => []

/-- MIRROR_SEND: the unit ACTIVE in polder p sends its mirror ranges (R544). -/
def execMirrorSend (p : Fin 8) (s : State) : Host.Outcome State Fault Refusal :=
  .next <|
    let s := freshSent s
    if dupRole s p = 2 ∧ s.dev.tickRun ∧ addressed s then
      let n := getF s rlmDupcfg (if getFbit s rlmDuppath rlmDuppath_Ok 0 then rlmDupcfg_Porta else rlmDupcfg_Portb)
      forEach ((upto 8).flatMap (mirFrames s p)) s fun s d =>
        let (s, q) := nextSeq s 0x0D
        sendPartner s n 3 0x0D p d q
    else s

/-- MIRROR: a MIRROR frame arrives: its POL field names the polder (R544). -/
def execMirror (n : Fin 8) (hdr : BitVec 64) (tick : BitVec 32) (k : BitVec 8) (off : BitVec 16) (data : List (BitVec 32)) (crc : BitVec 32)
    (s : State) : Host.Outcome State Fault Refusal :=
  .next <|
    let p := hdrPol hdr
    let (s, ok) := arriveMine s n 0x0D hdr (mirBytes tick.toNat k.toNat off.toNat data) crc
    if ok && paired s p && (dupRole s p == 1 || dupRole s p == 3) && hdrSrc hdr == getF s rlmDupcfg rlmDupcfg_Partner then
      { s with rlm := { s.rlm with mirror := s.rlm.mirror ++ [(tick.toNat, p, k.toNat, off.toNat, data)] } }
    else s

/-- A range's words of a tick, where every one has arrived. -/
def mirWords (s : State) (t p k n : Nat) : Option (List Word) :=
  let fs := s.rlm.mirror.filter fun f => f.1 == t && f.2.1 == p && f.2.2.1 == k
  let word (i : Nat) : Option Word := fs.findSome? fun f => if f.2.2.2.1 ≤ i then f.2.2.2.2[i - f.2.2.2.1]? else none
  (upto n).mapM word

/-- A standby polder at the cut-off of tick n + 1: the mirror of tick n is complete, or the tick counts as missed. -/
def mirCutoff (s : State) (p : Nat) : State :=
  if !paired s p || !(dupRole s p == 1 || dupRole s p == 3) then s
  else
    let t := (s.tick.count.toNat + 4294967295) % 4294967296
    let rs := (upto 8).filterMap fun k => (mirRange s p k).map fun r => (k, r)
    let got := rs.mapM fun r => (mirWords s t p r.1 r.2.2.2).map fun l => (r.2.1, r.2.2.1, l)
    match got with
    | some l =>
      setF { s with rlm := { s.rlm with mirWrites := s.rlm.mirWrites ++ l } } (rlmDupst p) rlmDupst_Mirmiss 0
    | none => countF s (rlmDupst p) rlmDupst_Mirmiss 1

/-- The duplex pair at the commit cut-off (R542, R544). -/
def dupCutoff (s : State) : State :=
  let s := forEach (upto 8) s fun s p => mirCutoff (dupPolder s p) p
  let r := s.rlm
  let last := match r.heart with
    | some l => some l
    | none => r.last
  { s with rlm := { r with last := last, absent := if r.heart.isSome then 0 else r.absent + 1 } }

/-- A role that takes effect (R539): event 0x100D; leaving ACTIVE clears YIELD. -/
def dupApply (s : State) (p : Nat) : State :=
  let old := dupRole s p
  let rr := match cellFind s.rlm.roles p with
    | some v => (v % 4, v / 4)
    | none => (old, 0)
  let new := if !paired s p then 0 else if old = 0 then 1 else rr.1
  let row := if paired s p ∧ old ≠ 0 then rr.2 else 0
  if new = old then s
  else
    let s := setF s (rlmDupst p) rlmDupst_Role new
    let s := if new = 2 then s else setB s (rlmDupst p) rlmDupst_Yield false
    notice s 0x100D p [pw p, pw old, pw new, pw row]

/-- The mirror writes of the edge (R544, R90): `n` is the tick that ends. -/
def mirEdge (s : State) (n : Nat) : State :=
  let ws := s.rlm.mirWrites
  let s := { s with rlm := { s.rlm with mirWrites := [], mirror := s.rlm.mirror.filter fun f => f.1 == n % 4294967296 } }
  forEach ws s fun s w => applyHostWrite s w.1 { addr := dmWord w.1 w.2.1, words := w.2.2 }

/-- The duplex pair at an edge: roles, path counters. -/
def dupEdge (s : State) : State :=
  let s := forEach (upto 8) s dupApply
  { s with rlm := { s.rlm with roles := [], heart := none, missA := s.rlm.missA + 1, missB := s.rlm.missB + 1 } }

/-! ## Ethernet (R546) -/

def getEth (s : State) (e : Nat) : Eth := cellGet ethReset s.eth e
def setEth (s : State) (e : Nat) (x : Eth) : State := { s with eth := cellSet ethReset s.eth e x }

/-- The port runs Ethernet, and its polder is not in reset. -/
def ethOn (s : State) (e : Nat) : Bool := rState s e == 6 && !inReset s (getF s (rlmEthcfg e) rlmEthcfg_Polder)

/-- Slots of a ring (0 receive, 1 transmit), the address of slot i. -/
def ringSlots (s : State) (e j : Nat) : Nat := 2 ^ getF s (rlmRxring e j) rlmRxring_Nlog
def ringSlot (s : State) (e j i : Nat) : Nat := 0x70000000 + 2048 * (getF s (rlmRxring e j) rlmRxring_Base + i % ringSlots s e j)

/-- A frame is addressed to this port. -/
def ethMine (s : State) (e : Nat) (l : List Nat) : Bool :=
  let d := beNat (l.take 6)
  let mac := getF s (rlmEthmachi e) rlmEthmachi_Mac * 4294967296 + (getReg s (rlmEthmaclo e)).toNat
  d == mac || d == 0xFFFFFFFFFFFF || (getB s (rlmEthcfg e) rlmEthcfg_Mcast && nbit (l.headD 0) 0) || getB s (rlmEthcfg e) rlmEthcfg_Promisc

/-- Bytes into memory. -/
def wrBytes (s : State) : Nat → List Nat → State
  | _, [] => s
  | a, b :: t => wrBytes (wrByte s a (BitVec.ofNat 8 b)) (a + 1) t

/-- The FCS of IEEE 802.3, as its bytes are sent. -/
def ethFcs (l : List Nat) : List Nat := wordBytes (BitVec.ofNat 32 (crc32 l))

/-- ETHERNET_RX_FRAME: a frame arrives; `fcs` is what follows it, the byte received first in bits [7:0]. -/
def execEthernetRxFrame (e : Fin 2) (data : List (BitVec 8)) (fcs : BitVec 32) (s : State) : Host.Outcome State Fault Refusal :=
  .next <|
    let l := data.map (·.toNat)
    if !ethOn s e then s
    else if ethFcs l != wordBytes fcs || decide (l.length < 60) || decide (1518 < l.length) then countF s (rlmEthcnt e) rlmEthcnt_Rxerr 1
    else if !ethMine s e l then s
    else
      let x := getEth s e
      let a := ringSlot s e 0 x.rx
      if nbit (rdWord s a).toNat 31 then countF s (rlmEthcnt e) rlmEthcnt_Rxdrop 1
      else
        let s := setEth s e { x with rx := (x.rx + 1) % ringSlots s e 0 }
        wrWord (wrBytes s (a + 4) l) a (pw (2 ^ 31 + l.length))

/-- ETHERNET_TX_SLOT: the next transmit slot is FULL: it is sent with its FCS, and FULL cleared. -/
def execEthernetTxSlot (e : Fin 2) (s : State) : Host.Outcome State Fault Refusal :=
  .next <|
    let x := getEth s e
    let a := ringSlot s e 1 x.tx
    let w := (rdWord s a).toNat
    if ethOn s e && nbit w 31 then
      let l := (upto (w % 2048)).map fun i => (rdByte s (a + 4 + i)).toNat
      wrWord (setEth s e { x with tx := (x.tx + 1) % ringSlots s e 1, sent := l ++ ethFcs l }) a (pw (w - 2 ^ 31))
    else s

/-! ## What a set of the Ralma block must satisfy (R70, R546, R544, field ranges of R548) -/

/-- A ring lies in one memory segment of the polder. -/
def ringOk (s : State) (e j : Nat) : Bool :=
  let n := getF s (rlmRxring e j) rlmRxring_Nlog
  let b := 2048 * getF s (rlmRxring e j) rlmRxring_Base
  let pol := getF s (rlmEthcfg e) rlmEthcfg_Polder
  let last := b + 2048 * 2 ^ n - 1
  decide (1 ≤ n) && decide (n ≤ 6) && (!getB s (rlmPcfg e) rlmPcfg_Mode ||
    (decide (last < 0x2000000) && b / 0x20000 == last / 0x20000 && resPol s (1024 + b / 0x20000) == pol))

/-- The bytes of polder p's ranges, where each is the polder's. -/
def mirOk (s : State) (p : Nat) : Bool :=
  let gb (n : Nat) : Nat := match getF s (rlmPstat n) rlmPstat_Rate with
    | 0 => 1
    | 1 => 10
    | _ => 25
  let slow := (dupPorts s).foldl (fun m n => min m (gb n)) 25
  let ks := (upto 8).filter fun k => getB s (rlmMir p k) rlmMir_En
  let bytes := (ks.map fun k => 4 * (getF s (rlmMir p k) rlmMir_Lenm1 + 1)).sum
  (ks.all fun k => match mirRange s p k with
    | some (_, w, n) => decide (w + n ≤ 0x8000)
    | none => false) && decide (16 * bytes ≤ slow * 10 * period s)

/-- The set of polder p is acceptable, judged on the state it leads to. -/
def rlmSetOk (s : State) (p : Nat) : Bool :=
  mirOk s p &&
  (p != 0 ||
    ((upto 8).all (fun n => decide (n < 2) || !getB s (rlmPcfg n) rlmPcfg_Mode) &&
     (upto 2).all (fun e => ringOk s e 0 && ringOk s e 1) &&
     (!getB s rlmDupcfg rlmDupcfg_En || getF s rlmDupcfg rlmDupcfg_Porta != getF s rlmDupcfg rlmDupcfg_Portb) &&
     decide (1 ≤ getF s rlmRootcfg rlmRootcfg_Ttl) && decide (1 ≤ getF s rlmTctl rlmTctl_Stepth) &&
     decide (1 ≤ getF s rlmGrpcfg rlmGrpcfg_Nunits) && decide (getF s rlmGrpcfg rlmGrpcfg_Nunits ≤ 1023)))

end Sys2Proof.Machine
end

