-- ==== Sys2Proof/Machine/FsCheck.lean ====
section
/-! DEFINITION. The placed ROM segments of a sub-image (R143–R147): binding words and the CRC of a copy (R144), ranges of the fixed block
(R145, R165, R199, R233, R243, R259, R335), where the block and its inputs and outputs lie, who shares an engine (R200, R232, R258), the latch
pairs of an islanding set (R200). -/

namespace Sys2Proof.Machine

/-! ## Tables, steps, latches of a sub-image -/

/-- The table words of an engine in a sub-image. -/
def tableOf (u : SubImage) (e : Nat) : List (BitVec 128) := (u.tables.filter fun t => t.1 == e).flatMap fun t => t.2

/-- The step entries with their clusters. -/
def allSteps (u : SubImage) : List (Nat × DWord) := u.steps.flatMap fun c => c.2.map fun d => (c.1, d)

/-- The engine that a step names. -/
def stepEngine (c : Nat × DWord) : Nat := 16 * c.1 + nbits c.2.toNat 3 0

/-- The latch entries with their numbers. -/
def allLatches (u : SubImage) : List (Nat × DWord) :=
  u.latches.flatMap fun r => (upto r.2.length).map fun i => (r.1 + i, r.2.getD i 0)

/-- All different. -/
def distinct : List Nat → Bool
  | [] => true
  | a :: t => !t.contains a && distinct t

/-- The group that a placed segment names. -/
def placedGroup (u : SubImage) (x : Placed) : Option Group := if x.group = 255 then none else u.groups.find? fun g => g.id == x.group

/-- The engines that hold a placed segment's copy and block. -/
def placedEngines (u : SubImage) (x : Placed) : List Nat :=
  match placedGroup u x with
  | some g => g.members ++ g.spare.toList
  | none => [x.engine]

/-! ## Binding words and the copy (R144) -/

/-- The engine address of the fixed block: the table bank lies at 0x0002_0000 (R84). -/
def fixedAddr (x : Placed) : Nat := 0x20000 + x.fixed

/-- The low 16 bits of a table word: IMM16 of its X slot. -/
def setImm (w : BitVec 128) (imm : Nat) : BitVec 128 := (w >>> 16 <<< 16) ||| BitVec.ofNat 128 (imm % 65536)

/-- Set a word of a table, where it exists. -/
def putTable : List (BitVec 128) → Nat → (BitVec 128 → BitVec 128) → List (BitVec 128)
  | [], _, _ => []
  | w :: t, 0, f => f w :: t
  | w :: t, n + 1, f => w :: putTable t n f

/-- The loader writes the IMM16 fields of the four binding words: MOVI and MOVH of g31 with the live block's address, then of g30 with the
fixed block's. -/
def bindWords (x : Placed) (t : List (BitVec 128)) : List (BitVec 128) :=
  let imms := [x.live % 65536, x.live / 65536, fixedAddr x % 65536, fixedAddr x / 65536]
  (upto 4).foldl (fun t k => putTable t (x.seg + k) fun w => setImm w (imms.getD k 0)) t

/-- The table words that the loader writes for an engine. -/
def bankTable (u : SubImage) (e : Nat) : List (BitVec 128) :=
  (u.insts.filter fun x => (placedEngines u x).contains e).foldl (fun t x => bindWords x t) (tableOf u e)

/-- The bytes of a table word, in little-endian order (R84). -/
def tableBytes (w : BitVec 128) : List Nat := (upto 16).map fun i => w.toNat / 256 ^ i % 256

/-- The copy on an engine has the CRC of the ROM segment's header, its IMM16 fields taken as 0. -/
def copyOk (u : SubImage) (x : Placed) (e : Nat) : Bool :=
  let copy := ((tableOf u e).drop x.seg).take (Config.romWords x.segId)
  let bare := (upto 4).foldl (fun t k => putTable t k fun w => setImm w 0) copy
  copy.length == Config.romWords x.segId && crc32c (bare.flatMap tableBytes) == Config.romCrc x.segId

/-! ## Fixed blocks (R145) -/

/-- Offset and range of each bounded word of a GFS (R165). -/
def gfsFixed : List (Nat × Int × Int) := [
  (0x0, 1000, 5000), (0x28, 1, 2147483647), (0x2c, 1, 2147483647), (0x30, 20, 200), (0x34, 20, 200), (0x38, 100, 2000),
  (0x3c, 13421773, 134217728), (0x40, 134217728, 402653184), (0x48, 13421773, 80530636), (0x4c, 1, 50), (0x50, 1, 10),
  (0x54, 5368710, 40265318), (0x58, 281857229, 348966092), (0x5c, 228170138, 263066746), (0x60, 273804166, 308700774),
  (0x64, 0, 100000), (0x68, 1, 500), (0x6c, 0, 134217728), (0x70, 0, 53687091), (0x78, 0, 2013265920), (0x7c, 0, 0)]

/-- An IFS (R199). -/
def ifsFixed : List (Nat × Int × Int) := [
  (0x0, 1000, 2000), (0x24, 268436, 2684354), (0x28, 268436, 5368709), (0x2c, 4, 32), (0x30, 16, 1024),
  (0x34, 402653184, 2147483648), (0x38, 1, 16), (0x3c, 1, 4), (0x40, 21474837, 536870912)] ++
  (upto 15).map fun i => (0x44 + 4 * i, 0, 0)

/-- A PV instance of the TFS (R233). -/
def pvFixed : List (Nat × Int × Int) := [
  (0x0, 0, 0), (0x4, 1000, 5000), (0x8, 1, 32), (0x18, 1, 2147483647), (0x1c, 1, 2147483647), (0x20, 10, 2000),
  (0x24, 80530637, 241591910), (0x28, 161061274, 268435456), (0x2c, 134218, 2684354), (0x30, 1342178, 13421772),
  (0x34, 2684355, 268435456), (0x38, 0, 13421772), (0x3c, 26844, 1342177), (0x40, 134218, 5368709), (0x48, 10737419, 214748364)]

/-- A turbine (R243). -/
def turbFixed : List (Nat × Int × Int) := [
  (0x0, 1, 1), (0x4, 1000, 5000), (0x18, 1000, 2000000), (0x1c, 500, 20000), (0x20, 1, 50), (0x24, 26843546, 187904819),
  (0x28, 0, 26843545), (0x2c, 134217728, 322122547), (0x30, 1, 1000), (0x38, 1, 100)]

/-- An MFS (R259). -/
def mfsFixed : List (Nat × Int × Int) := [
  (0x0, 1000, 5000), (0x4, 1, 200), (0x28, 1, 2147483647), (0x2c, 1, 2147483647), (0x30, 0, 2), (0x38, 0, 26843545),
  (0x3c, 13421773, 536870912), (0x40, 13421773, 536870912), (0x44, 134217728, 402653184), (0x48, 50, 1000),
  (0x4c, 134217728, 402653184), (0x50, 1717986919, 2104533975), (0x54, 5, 200), (0x58, 5368710, 53687091), (0x5c, 1, 20),
  (0x60, 500, 20000)] ++ (upto 7).map fun i => (0x64 + 4 * i, 0, 0)

/-- A CBS (R335). -/
def cbsFixed : List (Nat × Int × Int) := [
  (0x0, 1000, 5000), (0x4, 0, 2), (0x20, 1, 96), (0x24, 0, 1), (0x28, 1, 2147483647), (0x2c, 1, 50), (0x30, 50, 1000),
  (0x34, 5368710, 80530636)]

/-- A placed segment as the checks see it: its copy on one engine. -/
structure Copy1 where
  u : SubImage
  x : Placed
  e : Nat

/-- A word of a fixed block, in the table of the engine. -/
def fixedNat (c : Copy1) (o : Nat) : Nat :=
  ((tableOf c.u c.e).getD ((c.x.fixed + o) / 16) 0).toNat / 2 ^ (32 * ((c.x.fixed + o) / 4 % 4)) % 4294967296
def fixedWord (c : Copy1) (o : Nat) : Int := signed 32 (fixedNat c o)

/-- Every bounded word lies in its range. -/
def inRanges (c : Copy1) (l : List (Nat × Int × Int)) : Bool :=
  l.all fun r => decide (r.2.1 ≤ fixedWord c r.1) && decide (fixedWord c r.1 ≤ r.2.2)

/-- The points of a profile, by T and U (R185): T starts at 0 and does not fall, unused points come last, U in its range. -/
def profileOk (c : Copy1) (base n : Nat) (lo hi : Int) : Bool :=
  let t (i : Nat) : Nat := fixedNat c (base + 8 * i)
  let w (i : Nat) : Int := fixedWord c (base + 8 * i + 4)
  t 0 == 0 && ((upto (n - 1)).all fun i => decide (t i ≤ t (i + 1))) &&
    (upto n).all fun i => t i == 0xFFFFFFFF || (decide (lo ≤ w i) && decide (w i ≤ hi))

/-- `n` words at the address in word `o` lie in one delivery area of the engine. -/
def inDelivery (c : Copy1) (o n : Nat) : Bool :=
  let a := fixedNat c o
  a % 4 == 0 && c.u.areas.any fun r => r.eng == c.e && decide (r.lo ≤ a / 4) && decide (a / 4 + n ≤ r.hi)

/-- The address in word `o` is an angle pair that an encoder delivers to the engine's polder in its placement (R255, R259). -/
def fromEncoder (c : Copy1) (o : Nat) : Bool :=
  let a := fixedNat c o
  a % 4 == 0 && c.u.encDest.any fun d => (placedEngines c.u c.x).contains d.2.1 && d.2.2 == a / 4

/-- `n` words at the address in word `o` lie in the engine's own data memory below the system words. -/
def inOwn (c : Copy1) (o n : Nat) : Bool :=
  let a := fixedNat c o
  a % 4 == 0 && decide (a + 4 * n ≤ 0x1FF00)

/-- No mode has the reserved code 0b11 in a MODEMAP word (R168, R260). -/
def modesOk (c : Copy1) (o : Nat) : Bool := (upto 16).all fun m => fixedNat c o / 4 ^ m % 4 != 3

/-- The port bytes of UPORTS and LPORTS name ports of the polder, or none (R335). -/
def portsOk (m : Cells Nat) (c : Copy1) : Bool :=
  (upto 8).all fun k =>
    let n := fixedNat c (0x18 + 4 * (k / 4)) / 256 ^ (k % 4) % 256
    n == 255 || (decide (n < 48) && cellGet 0 m (resPort n) == c.u.polder)

/-- Whether a placed segment's fixed values and addresses are those that its chapter allows, for an image compiled for a tick of TSCHED. TGIN,
TREFIN and VREFIN must be words of the engine's own data memory, in which delivery areas lie too (R243 gives TGIN no range: assumption log
78, DESIGN CHOICE). -/
def fixedOk (m : Cells Nat) (c : Copy1) : Bool :=
  let w := fixedWord c
  let ts (o : Nat) : Bool := w o == (c.u.tsched : Int)
  let hz := w 4 == 50 || w 4 == 60
  let none' (o : Nat) : Bool := fixedNat c o == 0
  match c.x.segId with
  | 1 => inRanges c gfsFixed && ts 0 && hz && decide (0 ≤ w 0x44) && decide (w 0x44 ≤ w 0x40) && decide (134217728 ≤ w 0x74) &&
      decide (w 0x74 ≤ w 0x40) && decide (w 0x60 < w 0x58) && profileOk c 0x80 8 0 268435456 && profileOk c 0xC0 4 268435456 402653184 &&
      inDelivery c 8 3 && inDelivery c 0xC 3 && inOwn c 0x10 3 && inOwn c 0x14 2 && inOwn c 0x18 1 && (none' 0x1C || inOwn c 0x1C 2) && modesOk c 0x24
  | 2 => inRanges c ifsFixed && ts 0 && hz && inDelivery c 8 3 && inDelivery c 0xC 3 && inDelivery c 0x10 8 && inOwn c 0x14 1 && decide (fixedNat c 0x20 < 65536)
  | 3 =>
    if w 0 = 0 then
      inRanges c pvFixed && ts 4 && decide (w 0x24 + 26843546 ≤ w 0x28) && decide (w 0x2c ≤ w 0x30) && inDelivery c 0xC (fixedNat c 8) &&
        inDelivery c 0x10 (fixedNat c 8) && inOwn c 0x14 (fixedNat c 8) && decide (fixedNat c 0x44 < 65536)
    else inRanges c turbFixed && ts 4 && inDelivery c 8 2 && inOwn c 0xC 1 && inOwn c 0x10 1 && inOwn c 0x14 1 && decide (fixedNat c 0x34 < 65536)
  | 4 => inRanges c mfsFixed && ts 0 && inDelivery c 8 3 && inDelivery c 0xC 1 && (none' 0x10 || (inDelivery c 0x10 2 && fromEncoder c 0x10)) && inOwn c 0x14 1 &&
      (none' 0x18 || inDelivery c 0x18 1) && inOwn c 0x1C 3 && inOwn c 0x20 2 && modesOk c 0x24
  | 5 => inRanges c cbsFixed && ts 0 && inOwn c 8 3 && (none' 0xC || inOwn c 0xC 1) && inDelivery c 0x10 2 && inDelivery c 0x14 1 && portsOk m c
  | 6 => [256, 512, 1024, 2048].contains (w 0) && (c.x.group == 255 || decide (w 0 ≤ 1024)) && inOwn c 4 (w 0).toNat && inOwn c 8 2 && inOwn c 0xC 1 &&
      inOwn c 0x10 1
  | _ => false

/-! ## Placement (R143, R147) -/

/-- The bytes of a placed segment's block (R149, R163, R198, R230, R258, R335). -/
def blockLen (id : Nat) : Nat :=
  match id with
  | 1 => 512
  | 2 => 6144
  | 3 => 4096
  | 4 => 1024
  | 5 => 1024
  | _ => 128

/-- A range of data memory lies in the group's state area, or in the engine's own data memory where there is no group. -/
def inPlace (u : SubImage) (x : Placed) (a n : Nat) : Bool :=
  match placedGroup u x with
  | some g => decide (32 * g.base ≤ a) && decide (a + n ≤ 32 * (g.base + g.len))
  | none => decide (a + n ≤ 0x1FF00)

/-- The least placement strength, and where the block lies; the memory of a REP is part of its state. -/
def placeOk (u : SubImage) (x : Placed) : Bool :=
  (x.group == 255 || (placedGroup u x).any fun g => g.members.head? == some x.engine) && (x.segId == 3 || x.segId == 6 || x.group != 255) &&
    x.live % 4 == 0 && x.fixed % 4 == 0 && inPlace u x x.live (blockLen x.segId) &&
    (x.segId != 6 || inPlace u x (fixedNat ⟨u, x, x.engine⟩ 4) (4 * fixedNat ⟨u, x, x.engine⟩ 0))

/-- Two placed segments have an engine in common. -/
def sharesEngine (u : SubImage) (x y : Placed) : Bool := (placedEngines u x).any (placedEngines u y).contains

/-- Placed segment number `i` shares no engine with those it must not: an IFS or MFS with another function set's, a TFS with any other
of a function set (R200, R232, R258). -/
def sharingOk (u : SubImage) (i : Nat) (x : Placed) : Bool :=
  (upto u.insts.length).all fun j => match u.insts[j]? with
    | some y => j == i || y.segId == 6 || !sharesEngine u x y ||
        (x.segId != 3 && !((x.segId == 2 || x.segId == 4) && y.segId != x.segId))
    | none => true

/-! ## The latch pairs of an islanding set (R200) -/

/-- Latch entry `c` feeds the pair at word `w` of one of the engines from word `src` of placed segment `y`, in hold mode, through the
step of `y` with D = 1. -/
def feedsFrom (steps : Nat → List DWord) (es : List Nat) (w : Nat) (u : SubImage) (y : Placed) (src : Nat) (c : Nat × DWord) : Bool :=
  let d := c.2.toNat
  let eng := nbits d 7 0
  nbit d 63 && !nbit d 62 && !nbit d 61 && es.contains (16 * (c.1 / 64) + nbits d 60 57) && nbits d 56 42 == w && nbits d 41 27 == src &&
    (placedEngines u y).contains eng && match (steps (eng / 16))[nbits d 26 15]? with
      | some st => nbits st.toNat 3 0 == eng % 16 && stepSeg st == y.seg && stepDiv st == 1
      | none => false

/-- The slots (32 × group + number) that REGS makes deliver to a word of an engine (R353). -/
def slotsTo (u : SubImage) (e w : Nat) : List Nat :=
  u.regs.flatMap fun r =>
    let t := fget r.2 acqDest_Target
    if fget r.2 acqDest_En = 1 ∧ fget r.2 acqDest_Kind = 0 ∧ t / 524288 = e ∧ t % 32768 = w then
      ((upto 1024).filter fun i => r.1 == acqDest (i / 128) (i / 4 % 32) (i % 4)).map fun i => i / 4
    else []

/-- The slots that deliver to a word of a placement: a delivery to one member goes to all (R353). -/
def slotsOf (u : SubImage) (x : Placed) (w : Nat) : List Nat := (placedEngines u x).flatMap fun e => slotsTo u e w

/-- Three words of one placed segment come from the slots from which those of another come (R199; assumption log 74, DEDUCED). -/
def sameSlots (a b : Copy1) (o : Nat) : Bool :=
  (upto 3).all fun k =>
    let l := slotsOf a.u a.x (fixedNat a o / 4 + k)
    !l.isEmpty && l.all (slotsOf b.u b.x (fixedNat b o / 4 + k)).contains

/-- The four pairs of an IFS come from one GFS of the polder, which has the same TS, FN, scales and slots (R199, R200). -/
def ifsFed (u : SubImage) (steps : Nat → List DWord) (x : Placed) : Bool :=
  let c : Copy1 := ⟨u, x, x.engine⟩
  u.insts.any fun y =>
    let g : Copy1 := ⟨u, y, y.engine⟩
    y.segId == 1 && fixedNat c 0 == fixedNat g 0 && fixedNat c 4 == fixedNat g 4 && fixedNat c 0x18 == fixedNat g 0x28 &&
      fixedNat c 0x1C == fixedNat g 0x2C && sameSlots c g 8 && sameSlots c g 0xC &&
      (upto 4).all fun k => (allLatches u).any
        (feedsFrom steps (placedEngines u x) (fixedNat c 0x10 / 4 + 2 * k) u y ((y.live + [0x84, 0x90, 0x98, 0xAC].getD k 0) / 4))

/-- The checks of placed segment number `i`. -/
def placedOk (m : Cells Nat) (u : SubImage) (steps : Nat → List DWord) (i : Nat) (x : Placed) : Bool :=
  placeOk u x && sharingOk u i x && (placedEngines u x).all (fun e => copyOk u x e && fixedOk m ⟨u, x, e⟩) && (x.segId != 2 || ifsFed u steps x)

end Sys2Proof.Machine
end

