-- ==== Sys2Proof/Machine/Regs.lean ====
section
/-! DEFINITION. Registers by address: which polder's resource a register belongs to (R12, R21), which bits are staged
(R10, R68). -/

namespace Sys2Proof.Machine

/-- The block number of a register address: the index of its 64 KiB in R28; 255 for an engine's registers. -/
def blockNo (a : Nat) : Nat := if 0x60000000 ≤ a then (a - 0x60000000) / 0x10000 else 255

/-- The block code of a block number, as events carry it (R463, R73). -/
def blockCode (b : Nat) : Nat :=
  match b with
  | 0 => 0x01
  | 1 => 0x02
  | 2 => 0x03
  | 3 => 0x01
  | 4 => 0x05
  | 5 => 0x06
  | 6 => 0x07
  | 8 => 0x08
  | 9 => 0x09
  | 10 => 0x0A
  | 11 => 0x0B
  | 12 => 0x0C
  | 13 => 0x0D
  | 14 => 0x0E
  | 15 => 0x10
  | 16 => 0x11
  | 17 => 0x11
  | 18 => 0x11
  | 19 => 0x11
  | 20 => 0x0F
  | 22 => 0x12
  | _ => 0

/-- The key of what a polder's staged values of a block wait for. -/
def metaKey (blk pol : Nat) : Nat := 8 * blk + pol

/-- The blocks with a COMMIT register: those with ws fields, and IMG (R68, R73). -/
def commitBlocks : List Nat := [1, 2, 3, 4, 5, 6, 8, 9, 10, 11, 12, 13, 14, 15, 16, 17, 18, 19, 20]

/-- The polder that owns what a register with "own" fields belongs to: a resource's polder, or the polder that the register's
index names; none where the register has no owner. -/
def regOwner (s : State) (a : Nat) : Option Nat :=
  match regAt a with
  | none => none
  | some (_, path) =>
    let i := path.headD 0
    let o := a % 0x10000
    match blockNo a with
    | 255 => some (resPol s (resEngine ((a - 0x50000000) / 0x100000)))
    | 2 => if 0x80 ≤ o ∧ ¬ (o = 0x180) then some i else none
    | 6 => if o < 0x800 then some (resPol s (resSlu i)) else none
    | 8 => if path.length ≥ 2 ∧ o % 0x1000 < 0x800 then some (resPol s (resSlot i (path.getD 1 0))) else none
    | 9 => if o < 0x400 then some (resPol s (resCmp i)) else none
    | 10 => if o < 0x200 then some (resPol s (resCarrier i))
      else if 0x400 ≤ o ∧ o < 0x900 then some (resPol s (resPair i))
      else if 0x4000 ≤ o ∧ o < 0x6000 then some (resPol s (resPort (i / 24)))
      else none
    | 11 => if o < 0x600 then some (resPol s (resPort i))
      else if 0x800 ≤ o ∧ o < 0x820 then some i
      else if 0x1000 ≤ o ∧ o < 0x7000 then some (resPol s (resPort (i / 24)))
      else none
    | 12 => if o < 0x400 then some (resPol s (resEnc i)) else none
    | 13 => if o < 0x40 ∨ (0x100 ≤ o ∧ o < 0x180) then some i else none
    | 15 => if 0x890 ≤ o ∧ o < 0xA00 then some i else none
    | 16 => if 0x10 ≤ o ∧ o < 0x200 then some (resPol s (resSqSel 0 i)) else none
    | 17 => if 0x10 ≤ o ∧ o < 0x200 then some (resPol s (resSqSel 1 i)) else none
    | 18 => if 0x10 ≤ o ∧ o < 0x200 then some (resPol s (resSqSel 2 i)) else none
    | 19 => if 0x10 ≤ o ∧ o < 0x200 then some (resPol s (resSqSel 3 i)) else none
    | _ => none

/-- A right that polder `p` has on a register (R12, R403). -/
def hasRight (s : State) (p a : Nat) (r : Rights) : Bool :=
  match r with
  | .any => true
  | .sys => p == 0
  | .own => regOwner s a == some p

/-- The bits of the fields of a register that a test names. -/
def fieldsMask (fs : List FieldDesc) (t : FieldDesc → Bool) : Word :=
  (fs.filter t).foldl (fun w f => w ||| fldMask f.fld) 0

/-- The fields of the register at an address. -/
def regFields (a : Nat) : List FieldDesc :=
  match regAt a with
  | some (d, _) => d.fields
  | none => []

/-- The staged bits of a register that polder `p` may write. -/
def wsMask (s : State) (p a : Nat) : Word := fieldsMask (regFields a) fun f => f.acc == .ws && hasRight s p a f.rights

/-- Some bits of a register take new values. -/
def setBits (s : State) (a : Nat) (mask val : Word) : State := setReg s a ((getReg s a &&& ~~~ mask) ||| (val &&& mask))

/-- Staged values take effect. -/
def applyVals (s : State) (l : List Staged) : State := forEach l s fun s v => setBits s v.addr v.mask v.val

/-- A set holds a staged value of a register. -/
def touches (l : List Staged) (a : Nat) : Bool := l.any fun v => v.addr == a

end Sys2Proof.Machine
end

