-- ==== Sys2Proof/Machine/SegTrace.lean ====
section
/-! DEFINITION. What the loader knows of a segment: which slots are legal (R98), which registers and accumulators a slot writes, and which
words of the output window a segment stores to (R118, R283), whether it may reach the culvert (R85, R414). A base register is followed through MOV, MOVI, MOVH and the additions; one
that is loaded or otherwise computed is not known, as R85 has it of the compiler (assumption log 62, DEDUCED). -/

namespace Sys2Proof.Machine

/-! ## Slots (R98) -/

/-- A slot holds no reserved opcode or form and no non-zero reserved field. -/
def slotLegal (i b : Nat) : Bool := (decodeSlot 0 i b .clean false).isSome

/-- The general registers that a slot writes. -/
def slotGprs (i b : Nat) : List Nat :=
  let op := nbits b 27 23
  let l := match i with
    | 2 =>
      (if op = 1 ∨ op = 5 ∨ op = 6 then [nbits b 22 18] else if op = 3 then [nbits b 22 18, nbits b 22 18 + 1] else []) ++
        (if op ≠ 0 ∧ nbits b 12 11 = 1 then [nbits b 17 13] else [])
    | 3 => if op = 0 ∨ op = 0x12 ∨ op = 0x14 ∨ op = 0x15 then [] else [nbits b 22 18]
    | _ => if op = 0xC then [nbits b 15 11] else []
  l.filter (· != 0)

/-- The accumulator that an M slot writes. -/
def slotAcc (b : Nat) : Option Nat :=
  let op := nbits b 27 23
  if op = 0 ∨ op = 0xC then none else some (nbits b 22 21)

/-! ## L accesses -/

/-- A segment as it is followed: the registers whose values are known or not (one not listed holds 0, R93), the repeat blocks, the word. -/
structure Follow where
  g : Cells (Option Word)
  reps : List Rep
  wp : Nat
  deriving DecidableEq, Repr

/-- The value of a register, where it is known. -/
def followReg (x : Follow) (r : Fin 32) : Option Word := if r.val = 0 then some 0 else (cellFind x.g r.val).getD (some 0)

/-- Two known values combined. -/
def bothKnown (a b : Option Word) (f : Int → Int → Int) : Option Word :=
  match a, b with
  | some a, some b => some (qwSat (f a.toInt b.toInt))
  | _, _ => none
where
  /-- sat32 of R104. -/
  qwSat (i : Int) : Word := (sat32 i).1

/-- The value that an X slot gives its register, where it is known. -/
def followValue (x : Follow) (c : Instr) : Option Word :=
  match c with
  | .mov _ _ ga _ => followReg x ga
  | .movi _ _ imm _ => some (imm.signExtend 32)
  | .movh _ gd imm _ => (followReg x gd).map fun w => (w &&& 0xFFFF) ||| (imm.setWidth 32 <<< 16)
  | .addi _ _ ga imm _ => bothKnown (followReg x ga) (some (BitVec.ofInt 32 imm.toInt)) (· + ·)
  | .add _ _ ga gb _ => bothKnown (followReg x ga) (followReg x gb) (· + ·)
  | .sub _ _ ga gb _ => bothKnown (followReg x ga) (followReg x gb) (· - ·)
  | .addw _ _ ga gb _ => (followReg x ga).bind fun a => (followReg x gb).map fun b => a + b
  | .subw _ _ ga gb _ => (followReg x ga).bind fun a => (followReg x gb).map fun b => a - b
  | _ => none

/-- The register after the post-modify of mode 0b01 (R100). -/
def movedBase (x : Follow) (gb : Fin 32) (off : BitVec 11) : Option Word :=
  (followReg x gb).map fun w => w + BitVec.ofInt 32 (4 * off.toInt)

/-- The address of an L access, where it is known. -/
def storeAddr (x : Follow) (am : Fin 4) (gb : Fin 32) (off : BitVec 11) : Option Nat :=
  match am.val with
  | 0 => (movedBase x gb off).map BitVec.toNat
  | 1 => (followReg x gb).map BitVec.toNat
  | _ => none

/-- The window words of `n` words stored from an address. -/
def windowWords (a : Option Nat) (n : Nat) : List Nat :=
  match a with
  | some a => if 0x3000000 ≤ a ∧ a < 0x3004A00 then (upto n).map fun i => (a - 0x3000000) / 4 + i else []
  | none => []

/-- An access of an L slot: whether it stores, its words, its address where it is known (R85). -/
structure LAcc where
  store : Bool
  words : Nat
  addr : Option Nat
  deriving DecidableEq, Repr

/-- The access that an L slot makes. -/
def slotAccess (x : Follow) (c : Instr) : List LAcc :=
  match c with
  | .ldw _ _ gb am off _ _ => [⟨false, 1, storeAddr x am gb off⟩]
  | .ldh _ _ gb am off _ _ => [⟨false, 1, storeAddr x am gb off⟩]
  | .ldhu _ _ gb am off _ _ => [⟨false, 1, storeAddr x am gb off⟩]
  | .ldd _ _ gb am off _ _ => [⟨false, 2, storeAddr x am gb off⟩]
  | .stw _ _ gb am off _ => [⟨true, 1, storeAddr x am gb off⟩]
  | .sth _ _ gb am off _ => [⟨true, 1, storeAddr x am gb off⟩]
  | .std _ _ gb am off _ => [⟨true, 2, storeAddr x am gb off⟩]
  | _ => []

/-- What a slot does to the registers: its values, else unknown ones. -/
def slotFollow (x : Follow) (i b : Nat) (g : Cells (Option Word)) : Cells (Option Word) :=
  match decodeSlot 0 i b .clean false with
  | some c =>
    let base := slotField 32 b 17 13
    let g := (slotGprs i b).foldl (fun g r => cellPut g r (followValue x c)) g
    if i = 2 ∧ nbits b 27 23 ≠ 0 ∧ nbits b 12 11 = 1 ∧ ¬ (slotGprs i b).dropLast.contains base.val ∧ base.val ≠ 0 then
      cellPut g base.val (movedBase x base (BitVec.ofNat 11 b)) else g
  | none => g

/-- The L accesses of a segment, from where it is followed, for at most so many words; one that is too long to follow ends with an access
that is not known. -/
def followAccesses (tab : List (BitVec 128)) : Nat → Follow → List LAcc
  | 0, _ => [⟨false, 1, none⟩]
  | n + 1, x =>
    match tab[x.wp]? with
    | none => []
    | some w =>
      let hdr := w.toNat / 2 ^ 112
      let r := closeReps (openRep hdr x.wp x.reps) x.wp
      let g := (upto 4).foldl (fun g i => slotFollow x i (slotBits w i) g) x.g
      let here := (upto 4).flatMap fun i => match decodeSlot 0 i (slotBits w i) .clean false with
        | some c => slotAccess x c
        | none => []
      here ++ (if nbit hdr 1 && r.1.isEmpty then [] else followAccesses tab n { g := g, reps := r.1, wp := r.2 })

/-- The L accesses of the segment at table word `seg`. No step is longer than the longest tick at the highest clock. -/
def segmentAccesses (tab : List (BitVec 128)) (seg : Nat) : List LAcc := followAccesses tab 300000 { g := [], reps := [], wp := seg }

/-- The words of the output window that a segment stores to (R118, R283). -/
def segmentStores (tab : List (BitVec 128)) (seg : Nat) : List Nat :=
  (segmentAccesses tab seg).flatMap fun a => if a.store then windowWords a.addr a.words else []

/-- A segment may reach the culvert: an access to it, or one whose target the compiler does not know (R85, R414). -/
def segmentCulvert (tab : List (BitVec 128)) (seg : Nat) : Bool :=
  (segmentAccesses tab seg).any fun a => match a.addr with
    | some a => decide (0x2000000 ≤ a) && decide (a < 0x3000000)
    | none => true

end Sys2Proof.Machine
end

