-- ==== Sys2Proof/Machine/Access.lean ====
section
/-! DEFINITION. One access of a host or a sluice outside the register blocks: address decode, form, rights, page state
(R402), and what each window does with it (R23–R27, R37, R83, R86–R91, R407). -/

namespace Sys2Proof.Machine

/-- An access to a reserved address (R27, R45). -/
def unmapped (s : State) (p : Nat) (write : Bool) (addr : Nat) : State :=
  let hi := sysUnmapHi
  let s := countF s hi sysUnmapHi_Count 1
  let s := if getB s hi sysUnmapHi_Valid then s
    else
      let w : Word := fset (fset (fset (fset (getReg s hi) sysUnmapHi_Valid 1) sysUnmapHi_Write (bit write)) sysUnmapHi_Polder p)
        sysUnmapHi_Addr (addr / 2 ^ 32)
      setReg (setReg s hi w) sysUnmapLo (BitVec.ofNat 32 addr)
  notice s 0x0101 0 [pw addr, pw (bit write * 4096 + p * 256 + addr / 2 ^ 32 % 256)]

/-- Where an address lies (R23, R86): registers, or a window with its owner where it has one. -/
inductive Place
  | rom | sqWin (port : Nat) | culvert (page : Nat) | dmem (e : Nat) | table (e : Nat) | register | shared | lane | seq | reserved
  deriving DecidableEq, Repr

/-- Decode an address (R23, R24, R86). -/
def placeOf (a : Nat) : Place :=
  if a < 0x40000 then .rom
  else if 0x10000000 ≤ a ∧ a < 0x20000000 then .sqWin 0
  else if 0x20000000 ≤ a ∧ a < 0x30000000 then .sqWin 1
  else if 0x40000000 ≤ a ∧ a < 0x41000000 then .culvert ((a - 0x40000000) / 4096)
  else if 0x50000000 ≤ a ∧ a < 0x60000000 then
    let e := (a - 0x50000000) / 0x100000
    let o := a % 0x100000
    if o < 0x20000 then .dmem e else if o < 0x40000 then .table e else if o < 0x40100 then .register else .reserved
  else if 0x60000000 ≤ a ∧ a < 0x60070000 then .register
  else if 0x60080000 ≤ a ∧ a < 0x60170000 then .register
  else if 0x70000000 ≤ a ∧ a < 0x72000000 then .shared
  else if 0x72000000 ≤ a ∧ a < 0x72400000 then .lane
  else if 0x73000000 ≤ a ∧ a < 0x73100000 then .seq
  else if 0x80000000 ≤ a ∧ a < 0x90000000 then .sqWin 2
  else if 0x90000000 ≤ a ∧ a < 0xA0000000 then .sqWin 3
  else .reserved

/-- The polder that owns what lies at an address, for windows with the right "own" or "sys" (R23). -/
def ownerOf (s : State) (a : Nat) : Option Nat :=
  match placeOf a with
  | .sqWin n => some (resPol s (resSqSel n (getF s (sqCfg n) sqCfg_Wsel)))
  | .dmem e => some (resPol s (resEngine e))
  | .table e => some (resPol s (resEngine e))
  | .shared => some (resPol s (1024 + (a - 0x70000000) / 0x20000))
  | .lane => some (resPol s (resEngine ((a - 0x72000000) / 0x4000)))
  | .seq => some 0
  | _ => none

/-- A window that a host only reads (R23, R26, R111). -/
def readOnly : Place → Bool
  | .rom => true
  | .sqWin _ => true
  | .table _ => true
  | .lane => true
  | .seq => true
  | _ => false

/-- The form of an access outside the register blocks (R25). -/
def formOk (addr len : Nat) : Bool :=
  addr % 4 == 0 && len % 4 == 0 && decide (4 ≤ len) && decide (len ≤ 256) && (addr / 4096 == (addr + len - 1) / 4096)

/-- A word of the sequencer table window (R83). -/
def seqWord (s : State) (a : Nat) : Word :=
  let k := (a - 0x73000000) / 0x10000
  let o := a % 0x10000
  let half (d : DWord) : Word := BitVec.ofNat 32 (if o % 8 < 4 then d.toNat else d.toNat / 2 ^ 32)
  if o < 0x8000 then half ((clusterSteps s k).getD (o / 8) 0)
  else if o < 0x9000 then
    let p := (o - 0x8000) / 0x200
    if (enginesOf s p).any fun e => clusterOf e == k then half ((cellGet [] s.img.rules p).getD (o % 0x200 / 8) 0) else 0
  else if o < 0x9100 then
    BitVec.ofNat 32 (cellGet 0 s.img.cycles ((16 * k + (o - 0x9000) / 16) * 4 + o % 16 / 4))
  else 0

/-- The words of an address range where nothing but memory or tables lies. -/
def plainRead (s : State) (a n : Nat) : List Word :=
  match placeOf a with
  | .rom => (upto n).map fun i =>
      let b (k : Nat) : Byte := Config.romByte (a + 4 * i + k)
      wordOfBytes (b 0) (b 1) (b 2) (b 3)
  | .seq => (upto n).map fun i => seqWord s (a + 4 * i)
  | _ => rdWords s a n

/-- A write to engine data memory (R87–R90): system words and delivery areas refuse it; it takes place when no step runs,
else it waits, behind the 16 of a full queue (assumption log 31, DEDUCED). -/
def dmemWrite (s : State) (e a : Nat) (l : List Word) : State × AccRes :=
  let o := a % 0x100000
  let n := l.length
  if 0x1FF00 < o + 4 * n ∨ (upto n).any fun i => inArea s e (o / 4 + i) then (s, .err)
  else
    let w : HostWrite := { addr := a, words := l }
    let x := getEng s e
    let now := x.queue.isEmpty && (if hitsState s e w then canApply s e w else x.running.isNone)
    (if now then applyHostWrite s e w else waitWrites s e (x.queue ++ x.held ++ [w]), .ok [])

/-- A read of an SQ window (R598): refused, or a transaction. -/
def sqWinRead (s : State) (n a : Nat) : State × AccRes :=
  let c := sqCfg n
  let off := a % 0x10000000
  let sel := getF s c sqCfg_Wsel
  if !getB s c sqCfg_Wen || getB s c sqCfg_Role || !getB s c sqCfg_En ||
      (decide (2 ^ 24 ≤ off) && !(getB s (sqSela n sel) sqSela_Addr4 || getF s (sqSela n sel) sqSela_Mode == 4)) then
    (countF s (sqStat n) sqStat_Winerr 1, .err)
  else (s, .sq n off)

/-- An access that has its rights. -/
def windowAccess (s : State) (x : Acc) : State × AccRes :=
  match placeOf x.addr with
  | .culvert n => culvertRequest s x n
  | .dmem e =>
    if x.write then dmemWrite s e x.addr x.data
    else
      let s := eccMeet s e (eccLoc (x.addr + 4 * eccAt x.ecc (x.len / 4))) x.ecc false
      if eccBad x.ecc then (s, .err) else (s, .ok (rdWords s x.addr (x.len / 4)))
  | .table e =>
    let s := eccMeet s e (eccLoc (x.addr + 4 * eccAt x.ecc (x.len / 4))) x.ecc false
    if eccBad x.ecc then (s, .err) else (s, .ok (rdWords s x.addr (x.len / 4)))
  | .sqWin n => sqWinRead s n x.addr
  | _ => if x.write then (wrWords s x.addr x.data, .ok []) else (s, .ok (plainRead s x.addr (x.len / 4)))

/-- The place is a culvert page. -/
def isCulvert : Place → Bool
  | .culvert _ => true
  | _ => false

/-- One access outside the register blocks, through checks 2 to 5 of R402. -/
def access (s : State) (x : Acc) : State × AccRes :=
  let pl := placeOf x.addr
  if pl = .reserved then (unmapped s x.p x.write x.addr, .err)
  else if s.dev.phase = .recovery ∧ !isCulvert pl then (s, .err)
  else if pl = .register ∨ !formOk x.addr x.len ∨ (x.write ∧ x.data.length ≠ x.len / 4) then (s, .err)
  else
    match ownerOf s x.addr with
    | some o =>
      if x.who ≠ .sluice ∧ pl ≠ .seq ∧ inReset s o then (s, .err)
      else if o ≠ x.p then (breach s x.p x.who (bit x.write) 2 x.addr, .breach)
      else if x.write ∧ readOnly pl then (s, .err)
      else windowAccess s x
    | none => if x.write ∧ readOnly pl then (s, .err) else windowAccess s x

end Sys2Proof.Machine
end

