-- ==== Sys2Proof/Machine/Sluice.lean ====
section
/-! DEFINITION. The sluices (R424–R443). -/

namespace Sys2Proof.Machine

def sluPol (s : State) (c : Nat) : Nat := resPol s (resSlu c)
def sluState (s : State) (c : Nat) : Nat := getF s (sluStat c) sluStat_State
def sluSetState (s : State) (c st : Nat) : State := setF s (sluStat c) sluStat_State st

def sIdle : Nat := 0
def sWait : Nat := 1
def sRun : Nat := 2
def sPaused : Nat := 3
def sHalted : Nat := 4
def sDone : Nat := 5
def sDrain : Nat := 6

/-! ## Descriptor fields (R424) -/

def dW (d : List Word) (i : Nat) : Nat := (d.getD i 0).toNat
def dSrc (d : List Word) : Nat := dW d 0 + 2 ^ 32 * (dW d 1 % 256)
def dDst (d : List Word) : Nat := dW d 2 + 2 ^ 32 * (dW d 3 % 256)
def dSgen (d : List Word) : Nat := dW d 1 / 65536
def dDgen (d : List Word) : Nat := dW d 3 / 65536
def dC0 (d : List Word) : Nat := dW d 4 % 65536 + 1
def dC1 (d : List Word) : Nat := dW d 4 / 65536 + 1
def dC2 (d : List Word) : Nat := dW d 5 % 65536 + 1
def dEw (d : List Word) : Nat := 4 * 2 ^ nbits (dW d 5) 17 16
def dLast (d : List Word) : Bool := nbit (dW d 5) 21
def dTrigwait (d : List Word) : Bool := nbit (dW d 5) 22
def dEvt (d : List Word) : Bool := nbit (dW d 5) 23
def dNext (d : List Word) : Nat := 0x70000000 + dW d 12 % 2 ^ 25
def dTotal (d : List Word) : Nat := dC0 d * dC1 d * dC2 d

/-- The step of loop `k` on the source or the destination side. -/
def dStep (d : List Word) (dst : Bool) (k : Nat) : Int := (d.getD (6 + 2 * k + bit dst) 0).toInt

def dBase (d : List Word) (dst : Bool) : Nat := if dst then dDst d else dSrc d

/-- 41-bit signed arithmetic (R425). -/
def signed41 (a : Int) : Int := (a + 2 ^ 40) % 2 ^ 41 - 2 ^ 40

/-- The address with these loop indices (R425). -/
def indexAddr (d : List Word) (dst : Bool) (k0 k1 k2 : Nat) : Int :=
  signed41 ((dBase d dst : Int) + k0 * dStep d dst 0 + k1 * dStep d dst 1 + k2 * dStep d dst 2)

/-- The address of element `i` of a side (R425). -/
def elemAddr (d : List Word) (dst : Bool) (i : Nat) : Int :=
  indexAddr d dst (i % dC0 d) (i / dC0 d % dC1 d) (i / (dC0 d * dC1 d))

/-- The first and the last byte of a side, from the eight combinations of first and last loop index (R426). -/
def sideSpan (d : List Word) (dst : Bool) : Int × Int :=
  let corners := (upto 8).map fun m =>
    indexAddr d dst (bit (nbit m 0) * (dC0 d - 1)) (bit (nbit m 1) * (dC1 d - 1)) (bit (nbit m 2) * (dC2 d - 1))
  let base := indexAddr d dst 0 0 0
  (corners.foldl min base, corners.foldl max base + dEw d - 1)

/-- The windows a side may lie in, without the register blocks; whether a sluice may write there (R23, R426). -/
def sluWindows : List (Int × Int × Bool) :=
  [(0, 0x40000, false), (0x10000000, 0x30000000, false), (0x40000000, 0x41000000, true), (0x50000000, 0x60000000, true),
    (0x70000000, 0x72400000, true), (0x73000000, 0x73100000, true), (0x80000000, 0xA0000000, false)]

/-- A side lies where it may. -/
def sideOk (d : List Word) (dst : Bool) : Bool :=
  let sp := sideSpan d dst
  let cul (a : Int) : Bool := decide (0x40000000 ≤ a) && decide (a < 0x41000000)
  (sluWindows.any fun w => decide (w.1 ≤ sp.1) && decide (sp.2 < w.2.1) && (!dst || w.2.2)) &&
    (!cul sp.1 || sp.1 / 4096 == sp.2 / 4096)

/-- The check of a descriptor (R426). -/
def descOk (s : State) (p : Nat) (d : List Word) : Bool :=
  let ew : Int := dEw d
  let a := sideSpan d false
  let b := sideSpan d true
  let reserved := nbits (dW d 1) 15 8 == 0 && nbits (dW d 3) 15 8 == 0 && nbits (dW d 5) 31 24 == 0 && nbits (dW d 5) 20 18 == 0 &&
    nbits (dW d 12) 31 25 == 0 && nbits (dW d 12) 5 0 == 0 && dW d 14 == 0 && dW d 15 == 0
  reserved && (dSrc d : Int) % ew == 0 && (dDst d : Int) % ew == 0 &&
    (upto 3).all (fun k => dStep d false k % ew == 0 && dStep d true k % ew == 0) &&
    sideOk d false && sideOk d true && (decide (a.2 < b.1) || decide (b.2 < a.1)) &&
    (dLast d || resPol s (1024 + (dNext d - 0x70000000) / 0x20000) == p)

/-! ## Events, positions, halts -/

/-- An event of a channel, at most once per tick and channel (R443). -/
def sluEvent (s : State) (c code cls : Nat) (params : List Word) : State :=
  let x := getSlu s c
  if x.noted.contains code then s
  else event (setSlu s c { x with noted := x.noted ++ [code] }) code cls (sluPol s c) params

/-- Show an element's loop indices in POS0 and POS1 (R442). -/
def showPos (s : State) (c i : Nat) : State :=
  let d := (getSlu s c).desc
  let s := setReg s (sluPos0 c) (BitVec.ofNat 32 (i / dC0 d % dC1 d * 65536 + i % dC0 d))
  setReg s (sluPos1 c) (BitVec.ofNat 32 (i / (dC0 d * dC1 d)))

/-- The next element not yet written. -/
def nextUnwritten (x : Slu) : Nat :=
  (x.outs.filter fun o => o.write).foldl (fun m o => min m o.first) x.wPos

/-- After the outstanding responses a STOP pauses and a DRAIN becomes IDLE (R435). -/
def sluSettle (s : State) (c : Nat) : State :=
  let x := getSlu s c
  let busy := (x.outs.any fun o => !o.failed && !o.again) || x.fetching.isSome
  if busy then s
  else if sluState s c = sDrain then sluSetState (setSlu s c { sluReset with noted := x.noted }) c sIdle
  else if x.stopping then sluSetState (setSlu s c { x with stopping := false }) c sPaused
  else s

/-- The port has issued all beats of an access: at the culvert it ends with its last beat, at an SQ window it becomes a transaction of the
port (R597); elsewhere it takes effect at its response (R430, assumption log 36). -/
def outIssued (s : State) (c i : Nat) : State :=
  let p := sluPol s c
  match (getSlu s c).outs[i]? with
  | none => s
  | some o =>
    if o.sent ≠ o.count then s
    else match placeOf o.addr with
      | .culvert _ => outExecute s p c i o
      | .sqWin _ =>
        let r := access s (sluAcc s p c o)
        let x := getSlu r.1 c
        let s := setSlu r.1 c { x with outs := x.outs.set i { o with res := r.2 } }
        match r.2 with
        | .sq n off =>
          let q := cellGet sqPortReset s.sqs n
          { s with sqs := cellSet sqPortReset s.sqs n { q with reads := q.reads ++ [⟨.sluice c o.first, off, outLen x.desc o / 4⟩] } }
        | _ => s
      | _ => s

/-- The access of which a port has issued some beats and not all. -/
def openOut (x : Slu) (write : Bool) : Option (Nat × OutAcc) :=
  (upto x.outs.length).findSome? fun i => x.outs[i]?.bind fun o =>
    if o.write = write ∧ 0 < o.sent ∧ o.sent < o.count then some (i, o) else none

/-- The rest of an access whose first `sent` elements have been issued: a new access (R433). -/
def outRest (d : List Word) (o : OutAcc) : OutAcc :=
  { o with first := o.first + o.sent, count := o.count - o.sent, sent := 0, beats := 0, addr := o.addr + o.sent * dEw d
           data := o.data.drop (o.sent * (dEw d / 4)), res := .queued, failed := false, again := true, fails := 0 }

/-- Split the access that a port is issuing at the beat it has come to (R433). -/
def sluSplit (s : State) (c : Nat) (write : Bool) : State :=
  let x := getSlu s c
  match openOut x write with
  | none => s
  | some (i, o) =>
    let cut := { o with count := o.sent, data := o.data.take (o.sent * (dEw x.desc / 4)) }
    outIssued (setSlu s c { x with outs := x.outs.set i cut ++ [outRest x.desc o] }) c i

/-- A channel issues nothing more. -/
def sluClose (s : State) (c : Nat) : State := sluSplit (sluSplit s c false) c true

/-- Capture the access of a halt (R438, R440). -/
def sluCapture (s : State) (c : Nat) (write : Bool) (addr len : Nat) : State :=
  if getB s (sluErrhi c) sluErrhi_Valid then s
  else setReg (setReg s (sluErrlo c) (BitVec.ofNat 32 addr)) (sluErrhi c)
    (BitVec.ofNat 32 (2 ^ 31 + bit write * 2 ^ 30 + (len / 4 - 1) % 64 * 2 ^ 24 + addr / 2 ^ 32 % 256))

/-- Enter HALTED with a cause (R438, R439). -/
def sluHalt (s : State) (c cause : Nat) : State :=
  let s := sluClose s c
  setF (sluSetState (setSlu s c { getSlu s c with stopping := false }) c sHalted) (sluStat c) sluStat_Cause cause

/-- A channel starts its descriptor (R424, R431). -/
def sluStart (s : State) (c : Nat) : State :=
  sluSetState (setReg s (sluTag c) (BitVec.ofNat 32 (dW (getSlu s c).desc 13))) c sRun

/-- Begin the fetch of a descriptor (R431, R435). -/
def sluFetch (s : State) (c a : Nat) : State :=
  let x := getSlu s c
  let s := setSlu s c { x with fetching := some a, fetchFails := 0, rPos := 0, wPos := 0, acked := 0, buf := [], outs := [] }
  setF s (sluCur c) sluCur_Addr (a % 2 ^ 25 / 64)

/-- DESCRIPTOR_FETCHED: checked, then WAIT or RUN, or a halt; a fetch that fails is retried as any access (R426, R431, R438, R439). -/
def execDescriptorFetched (c : Fin 32) (s : State) : Host.Outcome State Fault Refusal :=
  .next <|
    let x := getSlu s c
    let p := sluPol s c
    match x.fetching with
    | none => s
    | some a =>
      let r := access s { p := p, who := .sluice, write := false, addr := a, len := 64, data := [], gen := none, ecc := .clean }
      let s := setSlu r.1 c { getSlu r.1 c with fetching := none }
      let st := sluState s c
      if st = sDrain ∨ st = sHalted then sluSettle s c
      else match r.2 with
        | .ok d =>
          let ok := descOk s p d
          let s := setSlu s c { getSlu s c with desc := d, good := ok }
          if !ok then sluEvent (sluHalt s c 4) c 0x0705 1 [pw c, pw a]
          else
            let s := showPos s c 0
            if dTrigwait d then sluSettle (sluSetState (setSlu s c { getSlu s c with fromWait := true }) c sWait) c
            else sluSettle (sluStart (setSlu s c { getSlu s c with fromWait := false }) c) c
        | .breach => sluEvent (sluHalt (sluCapture s c false a 64) c 2) c 0x0703 0 [pw c, pw a]
        | _ =>
          if x.fetchFails < getF s (sluCfg c) sluCfg_Retry then
            if x.stopping then sluSettle (setSlu s c { getSlu s c with good := false }) c
            else countF (setSlu s c { getSlu s c with fetching := some a, fetchFails := x.fetchFails + 1 }) (sluRetrycnt c) sluRetrycnt_Count 1
          else sluEvent (sluHalt (sluCapture s c false a 64) c 1) c 0x0702 1 [pw c, pw a, 0]

/-! ## Issue (R428, R429, R432, R433) -/

/-- The elements from `i` on that one access of at most `lim` elements moves (R428). -/
def runLen (d : List Word) (dst : Bool) (i lim : Nat) : Nat :=
  let ew : Int := dEw d
  let a := elemAddr d dst i
  ((upto (min lim (256 / dEw d))).takeWhile fun k =>
    elemAddr d dst (i + k) == a + k * ew && (a / 4096 == (a + (k + 1) * ew - 1) / 4096)).length

/-- The channel may issue accesses. -/
def sluRuns (s : State) (c : Nat) : Bool :=
  let x := getSlu s c
  sluState s c == sRun && !x.stopping && x.fetching.isNone && x.good

/-- The next new read of a channel, in elements; 0 where the buffer has no room for all of it (R428, R429). -/
def nextRead (x : Slu) : Nat :=
  let d := x.desc
  let n := runLen d false x.rPos (dTotal d - x.rPos)
  if 256 < (x.rPos + n - x.acked) * dEw d then 0 else n

/-- The next new write of a channel: elements whose data has come, in element order (R428, R430). -/
def nextWrite (x : Slu) : Nat :=
  runLen x.desc true x.wPos ((upto 64).takeWhile fun k => (cellFind x.buf (x.wPos + k)).isSome).length

/-- A new access of `n` elements. -/
def newOut (x : Slu) (write : Bool) (n : Nat) (ecc : Ecc) : OutAcc :=
  let i := if write then x.wPos else x.rPos
  { write := write, first := i, count := n, sent := 0, beats := 0, addr := (elemAddr x.desc write i).toNat
    data := if write then (upto n).flatMap fun k => cellGet [] x.buf (i + k) else []
    res := .queued, ecc := ecc, failed := false, again := false, fails := 0 }

/-- The access to which a channel's next beat on a port belongs, with its place when it stands in the list: the one under way, one that is
issued again, a new one. -/
def nextOut (s : State) (c : Nat) (write : Bool) (ecc : Ecc) : Option (Option Nat × OutAcc) :=
  let x := getSlu s c
  let n := if write then nextWrite x else nextRead x
  if !sluRuns s c then none
  else match openOut x write with
    | some (i, o) => some (some i, o)
    | none =>
      match (upto x.outs.length).findSome? fun i => x.outs[i]?.bind fun o => if o.write = write ∧ o.again then some (i, o) else none with
      | some (i, o) => some (some i, o)
      | none => if n = 0 then none else some (none, newOut x write n ecc)

/-- A channel has a beat ready for a port: at the culvert one that its polder's queue has room for (R415, R432). -/
def sluReady (s : State) (write : Bool) (c : Nat) : Bool :=
  match nextOut s c write .clean with
  | some (_, o) => !inCulvert o.addr || beatRoom s (sluPol s c)
  | none => false

def sluPrio (s : State) (c : Nat) : Nat := getF s (sluCfg c) sluCfg_Prio

/-- Where a port's rotation over the polders stands, and that over the channels of a polder with one priority. -/
def rotKey (write : Bool) : Nat := bit write
def rotKeyChan (write : Bool) (p prio : Nat) : Nat := 64 * (bit write + 1) + 8 * p + prio

/-- The channel that a port serves with its next beat: the next polder in rotation with a ready channel, its highest priority; among
equals the one in the middle of an access, else the next in rotation (R432). -/
def sluArbitrate (s : State) (write : Bool) : Option Nat :=
  let first := cellGet 0 s.sluRot (rotKey write)
  if s.clk.gateC then none else
  (((upto 8).map fun i => (first + i) % 8).find? fun p => (sluicesOf s p).any (sluReady s write)).bind fun p =>
    let cs := (sluicesOf s p).filter (sluReady s write)
    let top := cs.foldl (fun m c => max m (sluPrio s c)) 0
    let best := cs.filter fun c => sluPrio s c == top
    let next := cellGet 0 s.sluRot (rotKeyChan write p top)
    match best.find? fun c => (openOut (getSlu s c) write).isSome with
    | some c => some c
    | none =>
      match best.find? fun c => decide (next ≤ c) with
      | some c => some c
      | none => best.head?

/-- A new access takes its place in the list, and its elements from the buffer. -/
def outAdd (x : Slu) (o : OutAcc) : Slu :=
  if o.write then { x with outs := x.outs ++ [o], wPos := o.first + o.count, buf := (upto o.count).foldl (fun b k => cellDel b (o.first + k)) x.buf }
  else { x with outs := x.outs ++ [o], rPos := o.first + o.count }

/-- A port issues one beat (R428–R433). -/
def sluBeat (s : State) (write : Bool) (ecc : Ecc) : State :=
  match sluArbitrate s write with
  | none => s
  | some c =>
    let p := sluPol s c
    let prio := sluPrio s c
    let s := { s with sluRot := cellSet 0 (cellSet 0 s.sluRot (rotKey write) ((p + 1) % 8)) (rotKeyChan write p prio) (c + 1) }
    let s := forEach ((sluicesOf s p).filter fun k => decide (sluPrio s k < prio)) s fun s k => sluSplit s k write
    match nextOut s c write ecc with
    | none => s
    | some (at', o) =>
      let x := getSlu s c
      let i := at'.getD x.outs.length
      let x := if at'.isNone then outAdd x o else x
      let o := { o with sent := min o.count (o.sent + 32 / dEw x.desc), again := false, failed := false, res := .queued }
      let s := setSlu s c { x with outs := x.outs.set i o }
      outIssued (if inCulvert o.addr then beatEnter s p (.sluice c write o.first) else s) c i

/-- SLUICE_ACCESS_ISSUE: the read or the write port issues beats, one at least; `ecc` is what a new access meets in an engine's memory. -/
def execSluiceAccessIssue (write : Bool) (beats : Fin 9) (ecc : Ecc) (s : State) : Host.Outcome State Fault Refusal :=
  .next (forEach (upto (max 1 beats.val)) s fun s _ => sluBeat s write ecc)

/-! ## Responses (R429–R431, R438–R440) -/

/-- Replace or remove an element of a list. -/
def setAt {α : Type} : List α → Nat → Option α → List α
  | [], _, _ => []
  | _ :: t, 0, some b => b :: t
  | _ :: t, 0, none => t
  | a :: t, n + 1, b => a :: setAt t n b

/-- The `k`-th outstanding access of a port, by its place. -/
def outAt (x : Slu) (write : Bool) (k : Nat) : Option (Nat × OutAcc) :=
  let is := (upto x.outs.length).filter fun i => match x.outs[i]? with
    | some o => o.write == write && !o.failed && !o.again && o.sent == o.count
    | none => false
  (is[k]?).bind fun i => (x.outs[i]?).map fun o => (i, o)

/-- A descriptor whose elements are all written is complete (R431). -/
def sluComplete (s : State) (c : Nat) : State :=
  let x := getSlu s c
  let d := x.desc
  if x.good ∧ x.acked = dTotal d ∧ (sluState s c = sRun) then
    let s := countF s (sluStat c) sluStat_Dcount 1
    let s := if dEvt d then
        sluEvent (setB s (sluStat c) sluStat_Donef true) c 0x0701 0 [pw c, getReg s (sluTag c), pw (getF s (sluStat c) sluStat_Dcount)] else s
    let s := setSlu s c { getSlu s c with good := false }
    if dLast d then sluSetState (setSlu s c { getSlu s c with stopping := false }) c sDone
    else if x.stopping then s else sluFetch s c (dNext d)
  else s

/-- A failed access in the running channel: retried, or the channel halts (R438, R439). -/
def sluFailed (s : State) (c i : Nat) (o : OutAcc) : State :=
  let x := getSlu s c
  let o' := { o with failed := true, fails := o.fails + 1 }
  let s := setSlu s c { x with outs := setAt x.outs i (some o') }
  let st := sluState s c
  if st ≠ sRun ∧ st ≠ sWait then sluSettle s c
  else
    let stop := sluCapture (showPos s c o.first) c o.write o.addr (outLen x.desc o)
    match o.res with
    | .breach => sluEvent (sluHalt stop c 2) c 0x0703 0 [pw c, pw o.addr]
    | .stale =>
      let d := x.desc
      sluEvent (sluHalt stop c 3) c 0x0704 0 [pw c, pw ((o.addr - 0x40000000) / 4096), pw (if o.write then dDgen d else dSgen d)]
    | _ =>
      if getF s (sluCfg c) sluCfg_Retry < o'.fails then sluEvent (sluHalt stop c 1) c 0x0702 1 [pw c, pw o.addr, pw (bit o.write)]
      else sluSettle s c

/-- The access with this place in a channel's list waits at the culvert. -/
def isQueued (s : State) (c i : Nat) : Bool := ((getSlu s c).outs[i]?.map fun o => o.res == .queued) == some true

/-- An access outside the culvert and the SQ windows executes, unless an engine's queue of host writes has no room for it (R89, R430, R431). -/
def outAccess (s : State) (c i : Nat) (o : OutAcc) : State :=
  let full := match placeOf o.addr with
    | .dmem e => o.write && decide (16 ≤ (getEng s e).queue.length)
    | _ => false
  if full then s
  else
    let r := access s (sluAcc s (sluPol s c) c o)
    let x := getSlu r.1 c
    setSlu r.1 c { x with outs := x.outs.set i { o with res := r.2 } }

/-- Before its response an access has been executed: at the culvert in its turn on the wheel (R414, R415). -/
def outServed (s : State) (c i : Nat) : State :=
  match (getSlu s c).outs[i]? with
  | none => s
  | some o =>
    if inCulvert o.addr then forEach (upto 128) s fun s _ => if isQueued s c i then wheelTurn s else s
    else if o.res = .queued then outAccess s c i o else s

/-- A response of the `k`-th outstanding access. -/
def sluRespond (s : State) (c : Nat) (write : Bool) (k : Nat) : State :=
  let x := getSlu s c
  match outAt x write k with
  | none => s
  | some (i, o) =>
    match o.res with
    | .sq _ _ => s
    | .queued => s
    | .ok data =>
      let x := { x with outs := setAt x.outs i none }
      let ew := dEw x.desc / 4
      let x := if write then { x with acked := x.acked + o.count }
        else { x with buf := (upto o.count).foldl (fun b j => cellPut b (o.first + j) ((data.drop (j * ew)).take ew)) x.buf }
      let s := setSlu s c x
      let s := if write && sluState s c != sHalted then showPos s c (nextUnwritten x) else s
      sluSettle (sluComplete s c) c
    | _ => sluFailed s c i o

/-- The `k`-th outstanding access of a port is served and answered. -/
def sluResponse (s : State) (c : Nat) (write : Bool) (k : Nat) : State :=
  match if s.clk.gateC then none else outAt (getSlu s c) write k with
  | none => s
  | some (i, _) => sluRespond (outServed s c i) c write k

/-- SLUICE_READ_RESPONSE: the `k`-th outstanding read of a channel is answered. -/
def execSluiceReadResponse (c : Fin 32) (k : Nat) (s : State) : Host.Outcome State Fault Refusal := .next (sluResponse s c false k)

/-- SLUICE_WRITE_RESPONSE: the `k`-th outstanding write of a channel is answered. -/
def execSluiceWriteResponse (c : Fin 32) (k : Nat) (s : State) : Host.Outcome State Fault Refusal := .next (sluResponse s c true k)

/-- The failed accesses of a channel wait for their port again, without their failures so far (R435, R438). -/
def sluReissue (s : State) (c : Nat) : State :=
  let x := getSlu s c
  setSlu s c { x with outs := x.outs.map fun o =>
    if o.failed then { o with sent := 0, beats := 0, res := .queued, failed := false, again := true, fails := 0 } else o }

/-- SLUICE_RETRY: at least 100 ns after an error response the access waits for its port again (R432, R438). -/
def execSluiceRetry (c : Fin 32) (k : Nat) (ecc : Ecc) (s : State) : Host.Outcome State Fault Refusal :=
  .next <|
    let x := getSlu s c
    if sluState s c ≠ sRun ∨ x.stopping ∨ s.clk.gateC then s
    else match ((upto x.outs.length).filter fun i => (x.outs[i]?.map fun o => o.failed) == some true)[k]? with
      | some i => setSlu (countF s (sluRetrycnt c) sluRetrycnt_Count 1) c { x with outs := (upto x.outs.length).filterMap fun j => x.outs[j]?.map fun o =>
          if j = i then { o with sent := 0, beats := 0, res := .queued, ecc := ecc, failed := false, again := true } else o }
      | none => s

/-! ## Commands and triggers (R434–R437, R441) -/

/-- A command that has no effect. -/
def sluCmdErr (s : State) (c : Nat) : State := setB s (sluStat c) sluStat_Cmderr true

/-- ABORT (R435). -/
def sluAbort (s : State) (c : Nat) : State :=
  let s := sluClose s c
  let x := getSlu s c
  let s := setF s (sluStat c) sluStat_Cause 0
  sluSettle (sluSetState (setSlu s c { x with buf := [], stopping := false, good := false, outs := x.outs.filter fun o => !o.failed && !o.again }) c sDrain) c

/-- GO (R435). -/
def sluGo (s : State) (c : Nat) : State :=
  let st := sluState s c
  if !getB s (sluCfg c) sluCfg_En then sluCmdErr s c
  else if (st = sIdle ∨ st = sDone) ∧ (getSlu s c).fetching.isNone then
    sluFetch s c (0x70000000 + 64 * getF s (sluDptr c) sluDptr_Addr)
  else if st = sWait ∧ getF s (sluCfg c) sluCfg_Trig = 0 ∧ !(getSlu s c).stopping then sluStart s c
  else sluCmdErr s c

/-- STOP (R435). -/
def sluStop (s : State) (c : Nat) : State :=
  let st := sluState s c
  let x := getSlu s c
  if getB s (sluCfg c) sluCfg_En ∧ (st = sWait ∨ st = sRun) then
    sluSettle (sluClose (setSlu s c { x with stopping := true, fromWait := decide (st = sWait) }) c) c
  else sluCmdErr s c

/-- RESUME of a channel whose outstanding access is the fetch of a descriptor: the fetch that failed, or that of NEXT after a
complete descriptor. -/
def sluRefetch (s : State) (c : Nat) : State :=
  let x := getSlu s c
  let s := sluSetState s c sRun
  if x.fetching.isSome then s
  else sluFetch s c (if x.acked = 0 then 0x70000000 + 64 * getF s (sluCur c) sluCur_Addr else dNext x.desc)

/-- RESUME (R435): a descriptor that failed its check fails it again. -/
def sluResume (s : State) (c : Nat) : State :=
  let st := sluState s c
  let x := getSlu s c
  if !getB s (sluCfg c) sluCfg_En then sluCmdErr s c
  else if st = sPaused then
    if x.fromWait then sluSetState s c sWait
    else if !x.good then sluRefetch s c
    else sluSetState s c sRun
  else if st = sHalted then
    let cause := getF s (sluStat c) sluStat_Cause
    let s := setF s (sluStat c) sluStat_Cause 0
    if cause = 4 then sluEvent (sluHalt s c 4) c 0x0705 1 [pw c, pw (0x70000000 + 64 * getF s (sluCur c) sluCur_Addr)]
    else if !x.good then sluRefetch s c
    else sluComplete (sluReissue (sluStart s c) c) c
  else sluCmdErr s c

/-- ABORT as a command. -/
def sluAbortCmd (s : State) (c : Nat) : State :=
  let st := sluState s c
  if getB s (sluCfg c) sluCfg_En ∧ (st = sWait ∨ st = sRun ∨ st = sPaused ∨ st = sHalted ∨ st = sDone) then sluAbort s c
  else sluCmdErr s c

/-- A write of SLU.DPTR (R437). -/
def sluDptrWrite (s : State) (c : Nat) (w : Word) : State :=
  let st := sluState s c
  if (st = sIdle ∨ st = sDone) ∧ (getSlu s c).fetching.isNone then setF s (sluDptr c) sluDptr_Addr (fget w sluDptr_Addr)
  else sluCmdErr s c

/-- A tick trigger at the edge that starts a tick (R434), after the notices of the ended tick are done. -/
def sluEdge (s : State) (c : Nat) : State :=
  let s := setSlu s c { getSlu s c with noted := [] }
  let cfg := sluCfg c
  let d := getF s cfg sluCfg_Divm1 + 1
  if getB s cfg sluCfg_En && getF s cfg sluCfg_Trig == 1 && s.tick.count.toNat % d == getF s cfg sluCfg_Phase then
    if sluState s c = sWait ∧ !(getSlu s c).stopping then sluStart s c
    else sluEvent (setB s (sluStat c) sluStat_Trigovr true) c 0x0706 0 [pw c]
  else s

/-- A commit of CFG (R437). -/
def sluCommit (s : State) (c : Nat) (old : Word) : State :=
  let st := sluState s c
  if fget old sluCfg_En = 1 ∧ !getB s (sluCfg c) sluCfg_En ∧ ((st ≠ sIdle ∧ st ≠ sDone) ∨ (getSlu s c).fetching.isSome) then sluAbort s c else s

/-- Tick loss or a polder reset halts a channel (R441). -/
def sluResetHalt (s : State) (c : Nat) : State :=
  let st := sluState s c
  if (st = sIdle ∨ st = sDone) ∧ (getSlu s c).fetching.isNone then s
  else sluEvent (sluHalt s c 5) c 0x0707 0 [pw c, pw st]

/-- The checks of R442 on a set of polder `p`. -/
def sluSetOk (s : State) (p : Nat) : Bool :=
  (sluicesOf s p).all fun c => decide (getF s (sluCfg c) sluCfg_Phase ≤ getF s (sluCfg c) sluCfg_Divm1) &&
    decide (getF s (sluCfg c) sluCfg_Trig < 2)

end Sys2Proof.Machine
end

