-- ==== Sys2Proof/Machine/Sq.lean ====
section
/-! DEFINITION. The SQ ports as masters (R594–R605, R610, R611). Their slave mode stands in HostIf.lean. -/

namespace Sys2Proof.Machine

def getSq (s : State) (n : Nat) : SqPort := cellGet sqPortReset s.sqs n
def setSq (s : State) (n : Nat) (x : SqPort) : State := { s with sqs := cellSet sqPortReset s.sqs n x }

def sqPol (s : State) (n sel : Nat) : Nat := resPol s (resSqSel n sel)

/-- The bytes of a data word (SELA.WSIZE). -/
def wsizeBytes (sela : Word) : Nat := 2 ^ fget sela sqSela_Wsize

/-- The buffer a QTX or QRX word names. -/
def bufAddr (w : Word) : Nat := 0x70000000 + w.toNat % 2 ^ 25 / 4 * 4

/-- A buffer of `n` bytes lies wholly in one segment of a polder (R601). -/
def bufOk (s : State) (p a n : Nat) : Bool :=
  let seg := (a - 0x70000000) / 0x20000
  seg == (a + n - 1 - 0x70000000) / 0x20000 && decide (seg < 256) && resPol s (1024 + seg) == p

/-- Why a push is refused: 0 not, 1 PUSH, 2 FULL (R601). -/
def pushCause (s : State) (n sel : Nat) : Nat :=
  let h := sqQhdr n sel
  let a := getReg s (sqSela n sel)
  let f (x : Fld) : Nat := getF s h x
  let tx := f sqQhdr_Txen == 1
  let rx := f sqQhdr_Rxen == 1
  let cont := f sqQhdr_Cont == 1
  let mode := fget a sqSela_Mode
  let bytes := (f sqQhdr_Nwm1 + 1) * wsizeBytes a
  let p := sqPol s n sel
  if 8 ≤ (cellGet [] (getSq s n).queues sel).length then 2
  else if !getB s (sqCfg n) sqCfg_En || getB s (sqCfg n) sqCfg_Role ||
      (!cont && (f sqQhdr_Cmdlen != 0 || f sqQhdr_Addrlen != 0 || f sqQhdr_Dummy != 0)) ||
      f sqQhdr_Cmdlen == 3 || decide (4 < f sqQhdr_Addrlen) ||
      (tx && rx && mode != 0) ||
      (fget a sqSela_Busychk == 1 && (!cont || !rx || mode != 0)) ||
      (tx && !bufOk s p (bufAddr (getReg s (sqQtx n sel 0))) bytes) ||
      (rx && !bufOk s p (bufAddr (getReg s (sqQtx n sel 1))) bytes) then 1
  else 0

/-- Show a queue's length. -/
def showDepth (s : State) (n sel : Nat) : State :=
  setF s (sqQstat n sel) sqQstat_Depth (cellGet [] (getSq s n).queues sel).length

/-- An error of a select's queue (QSTAT). -/
def sqError (s : State) (n sel cause : Nat) : State :=
  setF (setB s (sqQstat n sel) sqQstat_Err true) (sqQstat n sel) sqQstat_Cause cause

/-- A write of 1 to QPUSH (R601). -/
def qpush (s : State) (n sel : Nat) : State :=
  let c := pushCause s n sel
  let x := getSq s n
  if c = 0 then
    let e : SqEntry := { hdr := getReg s (sqQhdr n sel), cmd := getReg s (sqQcmd n sel), addr := getReg s (sqQaddr n sel)
                         qtx := getReg s (sqQtx n sel 0), qrx := getReg s (sqQtx n sel 1) }
    showDepth (setSq s n { x with queues := cellSet [] x.queues sel (cellGet [] x.queues sel ++ [e]) }) n sel
  else
    let s := sqError s n sel c
    if x.noted.contains sel then s
    else notice (setSq s n { x with noted := x.noted ++ [sel] }) 0x1104 (sqPol s n sel) [pw n, pw sel, pw c]

/-- The work of a select: a window read goes first (R604). -/
def sqWork (s : State) (n sel : Nat) : Bool :=
  let x := getSq s n
  (getF s (sqCfg n) sqCfg_Wsel == sel && !x.reads.isEmpty && !(n == 0 && sel == 0 && getF s updStat updStat_State == 1)) ||
    (!(cellGet [] x.queues sel).isEmpty && !x.gap.contains sel)

/-- The words of an entry's transmit buffer, of `b` bytes each. -/
def txWords (s : State) (a b n : Nat) : List Word :=
  (upto n).map fun i => BitVec.ofNat 32 ((upto b).foldl (fun v k => v + (rdByte s (a + i * b + k)).toNat * 256 ^ k) 0)

/-- The phases of a window read at an offset (R597). -/
def readLine (sela selb : Word) (off : Nat) : SqLine :=
  let cmd := fget selb sqSelb_Rdcmd
  let octal := fget sela sqSela_Mode == 4
  { cmd := if octal then [cmd, 255 - cmd] else [cmd], addr := beBytes (if octal || fget sela sqSela_Addr4 == 1 then 4 else 3) off
    dummy := fget selb sqSelb_Dummy, data := [] }

/-- The phases of an entry that the port sends (R600): the words of QTX come from memory, each with its most significant byte first. -/
def entryLine (s : State) (sela : Word) (e : SqEntry) : SqLine :=
  let f (x : Fld) : Nat := fget e.hdr x
  let b := wsizeBytes sela
  { cmd := beBytes (f sqQhdr_Cmdlen) e.cmd.toNat, addr := beBytes (f sqQhdr_Addrlen) e.addr.toNat, dummy := f sqQhdr_Dummy
    data := if f sqQhdr_Txen = 1 then (txWords s (bufAddr e.qtx) b (f sqQhdr_Nwm1 + 1)).flatMap fun w => beBytes b w.toNat else [] }

/-- SQ_TRANSACTION_START: the next select in rotation that has work (R604); UPD's PROG holds reads of SQ0 select 0
(R582). -/
def execSqTransactionStart (n : Fin 4) (s : State) : Host.Outcome State Fault Refusal :=
  .next <|
    let x := getSq s n
    if s.clk.gateA || x.run.isSome || !getB s (sqCfg n) sqCfg_En || getB s (sqCfg n) sqCfg_Role then s
    else match ((upto 4).map fun i => (x.rot + i) % 4).find? (sqWork s n) with
      | none => s
      | some sel =>
        let sela := getReg s (sqSela n sel)
        let isRead := getF s (sqCfg n) sqCfg_Wsel == sel && !x.reads.isEmpty && !(n.val == 0 && sel == 0 && getF s updStat updStat_State == 1)
        if isRead then
          setSq s n { x with rot := (sel + 1) % 4, reads := x.reads.drop 1
                             line := readLine sela (getReg s (sqSelb n sel)) ((x.reads.head?.map fun r => r.off).getD 0)
                             run := some { sel := sel, read := x.reads.head?, entry := none, sela := sela, dropRx := false } }
        else
          let e := (cellGet [] x.queues sel).head?
          setB (setSq s n { x with rot := (sel + 1) % 4, line := (e.map (entryLine s sela)).getD x.line
                                   run := some { sel := sel, read := none, entry := e, sela := sela, dropRx := false } })
            (sqQstat n sel) sqQstat_Active true

/-! ## The image loader's reads (R452) -/

def polImg (s : State) (p : Nat) : PolImg := cellGet polImgReset s.img.pol p
def setPolImg (s : State) (p : Nat) (x : PolImg) : State := { s with img := { s.img with pol := cellSet polImgReset s.img.pol p x } }

/-- Where a polder's load reads, and how many bytes. -/
def imgSource (s : State) (p : Nat) : Nat := (getReg s (banked imgSrclo p)).toNat + 4294967296 * getF s (banked imgSrchi p) imgSrchi_Addr
def imgBytes (s : State) (p : Nat) : Nat := getF s (banked imgLen p) imgLen_Bytes

/-- The loader reads on in the source, in accesses of at most 256 bytes that stay in a page, until it has all, a read fails or one waits for
an SQ port. -/
def loaderRead (s : State) (p : Nat) : Nat → State
  | 0 => s
  | fuel + 1 =>
    let x := polImg s p
    let at' := 4 * x.fetched.length
    let a := imgSource s p + at'
    let rest := imgBytes s p - at'
    match x.loading with
    | none => s
    | some src =>
      if x.fetchBad || decide (rest < 4) then s
      else
        let n := min (min 256 (4096 - a % 4096)) (rest / 4 * 4)
        let r := access s { p := p, who := sourceWho src, write := false, addr := a, len := n, data := [], gen := none, ecc := .clean }
        let x := polImg r.1 p
        match r.2 with
        | .ok l => loaderRead (setPolImg r.1 p { x with fetched := x.fetched ++ l }) p fuel
        | .sq q off =>
          let y := getSq r.1 q
          setPolImg (setSq r.1 q { y with reads := y.reads ++ [⟨.loader p, off, n / 4⟩] }) p { x with fetchWait := true }
        | _ => setPolImg r.1 p { x with fetchBad := true }

/-- An SQ port answers the loader. -/
def loaderChunk (s : State) (p : Nat) (r : AccRes) : State :=
  let x := polImg s p
  if x.loading.isNone || !x.fetchWait then s
  else match r with
    | .ok l => loaderRead (setPolImg s p { x with fetched := x.fetched ++ l, fetchWait := false }) p (imgBytes s p / 4 + 1)
    | _ => setPolImg s p { x with fetchBad := true, fetchWait := false }

/-- Give the data of a window read to who waits for it. -/
def sqDeliver (s : State) (who : SqFor) (r : AccRes) : State :=
  let data := match r with
    | .ok l => l
    | _ => []
  let bad := match r with
    | .ok _ => false
    | _ => true
  match who with
  | .host => { s with dike := { s.dike with resp := ⟨bad, data⟩ } }
  | .slave q => setSq s q { getSq s q with slvWait := false, result := bit bad, data := data }
  | .frame src vc pol seq => answerFrame (freshSent s) src vc pol seq 0x12 ([bit bad, 0, 0, 0] ++ data.flatMap wordBytes)
  | .sluice c first =>
    let x := getSlu s c
    match outOf x false first with
    | some (i, o) => setSlu s c { x with outs := x.outs.set i { o with res := r } }
    | none => s
  | .loader p => loaderChunk s p r

/-- Write received words, each little-endian in its bytes (R600). -/
def rxStore (s : State) (a b : Nat) : List Word → State
  | [] => s
  | w :: t => rxStore ((upto b).foldl (fun s k => wrByte s (a + k) (wordByte w k)) s) (a + b) b t

/-- The head entry of a select ends (R602). -/
def endEntry (s : State) (n sel : Nat) (e : SqEntry) : State :=
  let x := getSq s n
  let s := setSq s n { x with queues := cellSet [] x.queues sel ((cellGet [] x.queues sel).drop 1), repeats := cellDel x.repeats sel
                              gap := x.gap.filter (· != sel) }
  let s := countF (showDepth s n sel) (sqQcnt n sel) sqQcnt_Done 1
  if fget e.hdr sqQhdr_Evt = 1 then notice s 0x1101 (sqPol s n sel) [pw n, pw sel, pw (getF s (sqQcnt n sel) sqQcnt_Done)] else s

/-- SQ_TRANSACTION_END: the transaction ends with the words received, in order (R597, R602, R603). -/
def execSqTransactionEnd (n : Fin 4) (rx : List (BitVec 32)) (s : State) : Host.Outcome State Fault Refusal :=
  .next <|
    let x := getSq s n
    match if s.clk.gateA then none else x.run with
    | none => s
    | some r =>
      let s := setSq s n { x with run := none }
      match r.read, r.entry with
      | some q, _ => sqDeliver s q.who (.ok ((upto q.words).map fun i => rx.getD i 0))
      | none, none => s
      | none, some e =>
        let sel := r.sel
        let s := setB s (sqQstat n sel) sqQstat_Active false
        let b := wsizeBytes r.sela
        let nw := fget e.hdr sqQhdr_Nwm1 + 1
        let first := (rx.headD 0).toNat / 256 ^ (b - 1) % 256
        if r.dropRx then endEntry s n sel e
        else if fget r.sela sqSela_Busychk = 1 ∧ first = 0xB5 then
          let k := cellGet 0 x.repeats sel
          let s := countF s (sqQcnt n sel) sqQcnt_Busycnt 1
          if k < getF s (sqSelb n sel) sqSelb_Blim then
            setSq s n { getSq s n with repeats := cellSet 0 x.repeats sel (k + 1), gap := x.gap ++ [sel] }
          else
            let s := event (sqError s n sel 3) 0x1102 1 (sqPol s n sel) [pw n, pw sel]
            endEntry s n sel e
        else
          let s := if fget e.hdr sqQhdr_Rxen = 1 then rxStore s (bufAddr e.qrx) b ((upto nw).map fun i => rx.getD i 0) else s
          endEntry s n sel e

/-- SQ_BUSY_RETRY: GAP after a busy byte the entry may run again (R603). -/
def execSqBusyRetry (n sel : Fin 4) (s : State) : Host.Outcome State Fault Refusal :=
  .next (if s.clk.gateA then s else setSq s n { getSq s n with gap := (getSq s n).gap.filter (· != sel.val) })

/-- A polder reset of the owner of selects, or of the polder that a slave port is bound to (R610). -/
def sqPolderReset (s : State) (p : Nat) : State :=
  forEach (upto 4) s fun s n =>
    let s := forEach (upto 4) s fun s sel =>
      if sqPol s n sel ≠ p then s
      else
        let x := getSq s n
        let q := cellGet [] x.queues sel
        let running := (x.run.map fun r => r.sel == sel && r.entry.isSome) == some true
        let keep := if running then q.take 1 else []
        let k := q.length - keep.length
        let s := setSq s n { x with queues := cellSet [] x.queues sel keep, repeats := cellDel x.repeats sel, gap := x.gap.filter (· != sel)
                                    run := x.run.map fun r => if r.sel = sel ∧ r.entry.isSome then { r with dropRx := true } else r }
        let s := showDepth s n sel
        if k = 0 then s else notice (sqError s n sel 4) 0x1105 p [pw n, pw sel, pw k]
    let x := getSq s n
    let s := if x.slvBusy ∧ ¬ x.slvWait ∧ sourcePolder s (.sq (BitVec.ofNat 2 n).toFin) = some p then setSq s n { x with result := 1, data := [] } else s
    let x := getSq s n
    if sqPol s n (getF s (sqCfg n) sqCfg_Wsel) = p then
      forEach x.reads (setSq s n { x with reads := [] }) fun s r => sqDeliver s r.who .err
    else s

/-- The checks of R605 and R611 on an SQ set of port `n`, with the committed CFG. -/
def sqSetOk (s : State) (n : Nat) (old : Word) : Bool :=
  let new := getReg s (sqCfg n)
  let x := getSq s n
  let busy := x.queues.any (fun c => !c.2.isEmpty) || !x.reads.isEmpty || x.slvBusy
  let role := fget old sqCfg_Role != fget new sqCfg_Role || (fget old sqCfg_En == 1 && fget new sqCfg_En == 0)
  !(role && busy) && (upto 4).all fun sel =>
    decide (getF s (sqSela n sel) sqSela_Mode < 5) && decide (3 ≤ getF s (sqSela n sel) sqSela_Div) &&
      getF s (sqSela n sel) sqSela_Wsize != 3 && getF s (sqSelb n sel) sqSelb_Gap != 0

end Sys2Proof.Machine
end

