-- ==== Sys2Proof/Machine/ImgCheck.lean ====
section
/-! DEFINITION. The image loader's checks of an image (R449): the segments of a table (R97–R98), placement groups
(R114), latch entries (R131, R132), steps that store to one word of the output window (R118, R283), resources, freeboard (R55). -/

namespace Sys2Proof.Machine

/-! ## Segments (R97–R103) -/

/-- No register is in both lists. -/
def apart (a b : List Nat) : Bool := a.all fun r => !b.contains r

/-- The slots of a word are legal, and no two write the same register or accumulator (R98). -/
def wordLegal (w : BitVec 128) : Bool :=
  let b (i : Nat) : Nat := slotBits w i
  let g (i : Nat) : List Nat := slotGprs i (b i)
  let acc := match slotAcc (b 0), slotAcc (b 1) with
    | some x, some y => x != y
    | _, _ => true
  (upto 4).all (fun i => slotLegal i (b i)) && w.toNat / 2 ^ 112 % 2 == 0 && acc &&
    apart (g 0) (g 1 ++ g 2 ++ g 3) && apart (g 1) (g 2 ++ g 3) && apart (g 2) (g 3)

/-- A segment's words from one word on, with the ends of the blocks that contain it, the inner first (R97, R98). -/
def segLegal : List (BitVec 128) → Nat → List Nat → Bool
  | [], _, _ => false
  | w :: t, i, open' =>
    let n := w.toNat
    let blocks := if nbits n 127 120 = 0 then open' else (i + nbits n 119 114) :: open'
    let nested := decide (blocks.length ≤ 2) && (match blocks with
      | a :: b :: _ => decide (a ≤ b)
      | _ => true)
    wordLegal w && nested &&
      (if nbit n 113 then blocks.all (· == i) else segLegal t (i + 1) (blocks.filter (· != i)))

/-! ## Content rules (row 7 of R449) -/

/-- What the steps of a group have in common: KIND, PHASE, DIVM1, SEG, MODES. -/
def groupSteps (u : SubImage) (e : Nat) : List Nat :=
  (((allSteps u).filter fun c => stepEngine c == e).filter fun c => stepKind c.2 == 1).map fun c => nbits c.2.toNat 55 8

/-- A placement group is legal (R114, R115). -/
def groupLegal (u : SubImage) (g : Group) : Bool :=
  let es := g.members ++ g.spare.toList
  g.members.length == (if g.triple then 3 else 2) && (g.spare.isSome == !g.triple) && distinct (es.map fun e => e / 16) &&
    decide (1 ≤ g.len) && decide (g.len ≤ 256) && (g.members.all fun e => groupSteps u e == groupSteps u (g.members.headD 0)) &&
    g.spare.toList.all fun e => ((allSteps u).filter fun c => stepEngine c == e).all fun c => stepKind c.2 == 1

/-- The groups have numbers of their own, and no engine serves two of them (R114). -/
def groupsApart (u : SubImage) : Bool :=
  distinct (u.groups.map fun g => g.id) && distinct (u.groups.flatMap fun g => g.members ++ g.spare.toList)

/-- The number of the group that a step runs in, by its KIND and engine. -/
def groupOfStep (u : SubImage) (c : Nat × DWord) : Option Nat :=
  if stepKind c.2 = 1 then (u.groups.find? fun g => (g.members ++ g.spare.toList).contains (stepEngine c)).map fun g => g.id else none

/-- The placed ROM segment that a step runs. -/
def placedOf (u : SubImage) (c : Nat × DWord) : Option Placed :=
  u.insts.find? fun x => (placedEngines u x).contains (stepEngine c) && x.seg == stepSeg c.2

/-- The cell words of the output window that a placed CBS writes: those of the first legs' words of all cells of its ports (R335, R337;
assumption log 62). -/
def cbsStores (u : SubImage) (x : Placed) : List Nat :=
  (upto 8).flatMap fun k =>
    let n := fixedNat ⟨u, x, x.engine⟩ (0x18 + 4 * (k / 4)) / 256 ^ (k % 4) % 256
    if n < 48 then (upto 48).map fun i => 0x80 + 4 * (24 * n + i / 2) + i % 2 else []

/-- The words of the output window that a step stores to; of the placed segments only a CBS stores there. -/
def stepStores (u : SubImage) (c : Nat × DWord) : List Nat :=
  match placedOf u c with
  | some x => if x.segId = 5 then cbsStores u x else []
  | none => segmentStores (tableOf u (stepEngine c)) (stepSeg c.2)

/-- Two steps may both stand in an image: they run in one group; or neither stores to a word that the other's group writes (R118), nor both
to one compare word (R283). -/
def storesApart (u : SubImage) (a b : Nat × DWord) : Bool :=
  let ga := groupOfStep u a
  let gb := groupOfStep u b
  if ga.isSome ∧ ga = gb then true
  else
    let all := ga.isSome || gb.isSome
    let ws := stepStores u b
    (stepStores u a).all fun w => !ws.contains w || !(all || decide (w < 0x80))

/-- Every two steps of the list. -/
def pairwise {α : Type} (r : α → α → Bool) : List α → Bool
  | [] => true
  | a :: t => t.all (r a) && pairwise r t

/-- Word `w` of the pair lies in one delivery area of the engine. -/
def pairInArea (u : SubImage) (e w : Nat) : Bool := u.areas.any fun a => a.eng == e && decide (a.lo ≤ w) && decide (w + 1 < a.hi)

/-- A run of latch entries stays among the 64 of its cluster (R131). -/
def latchRunOk (r : Nat × List DWord) : Bool := decide (r.1 % 64 + r.2.length ≤ 64) && decide (r.1 < 1024)

/-- A latch entry is legal (R132): destination of the polder's engines, source step of its engine, an even pair in a
delivery area, the source of a group's step in its state area. `m` is the resource map, `steps` the step list of a cluster. -/
def latchLegal (m : Cells Nat) (u : SubImage) (steps : Nat → List DWord) (c : Nat × DWord) : Bool :=
  let d := c.2.toNat
  let src := nbits d 7 0
  let dst := 16 * (c.1 / 64) + nbits d 60 57
  let w := nbits d 56 42
  let word := nbits d 41 27
  !nbit d 63 || (nbits d 14 8 == 0 && cellGet 0 m src == u.polder && cellGet 0 m dst == u.polder && w % 2 == 0 && pairInArea u dst w &&
    match (steps (src / 16))[nbits d 26 15]? with
    | none => false
    | some st =>
      stepKind st != 3 && nbits st.toNat 3 0 == src % 16 && nbits st.toNat 6 4 == u.polder &&
        (stepKind st != 1 || u.groups.all fun g => !(g.members ++ g.spare.toList).contains src ||
          (decide (8 * g.base ≤ word) && decide (word < 8 * (g.base + g.len)))))

/-- The destination pairs of the valid entries. -/
def latchPairs (u : SubImage) : List Nat :=
  ((allLatches u).filter fun c => nbit c.2.toNat 63).map fun c => 32768 * (16 * (c.1 / 64) + nbits c.2.toNat 60 57) + nbits c.2.toNat 56 42

/-- A condition source is legal for a polder (R62, R81). -/
def csrcOk (m : Cells Nat) (p : Nat) (w : Word) : Bool :=
  let i := fget w tickCsrc_Index
  let engines := ((upto 256).filter fun e => cellGet 0 m e == p).length
  match fget w tickCsrc_Src with
  | 0 => decide (i < 32) && cellGet 0 m (512 + i) == p
  | 1 => decide (1 ≤ i) && decide (i ≤ 4)
  | 2 => decide (i / 4 < engines)
  | _ => decide (i < 16)

/-- The step lists a cluster would have with this sub-image in place. -/
def stepsWith (s : State) (u : SubImage) (k : Nat) : List DWord :=
  (upto 8).flatMap fun p =>
    if p = u.polder then (u.steps.filter fun c => c.1 == k).flatMap fun c => c.2 else cellGet [] s.img.steps (8 * k + p)

/-- An address of a ws field with the right "own" only (row 7). -/
def regsOwn (u : SubImage) : Bool :=
  u.regs.all fun r => match regAt r.1 with
    | some d => d.1.fields.any (fun f => f.acc == .ws && f.rights == .own)
    | none => false

/-! ## Who reaches the culvert (R414) -/

/-- An engine access or a slot destination of a sub-image in the culvert; a placed ROM segment makes none (R85). -/
def subCulvert (u : SubImage) : Bool :=
  ((allSteps u).any fun c => (placedOf u c).isNone && segmentCulvert (tableOf u (stepEngine c)) (stepSeg c.2)) ||
    u.regs.any fun r => fget r.2 acqDest_En == 1 && fget r.2 acqDest_Kind == 1 && (upto 1024).any fun i => r.1 == acqDest (i / 128) (i / 4 % 32) (i % 4)

/-- A polder holds a wheel slot, or neither its sub-image nor a sluice of its own under the resource map reaches the culvert. -/
def wheelOk (m : Cells Nat) (wheel : Nat → Nat) (p : Nat) (u : Option SubImage) : Bool :=
  ((upto 64).any fun i => wheel i == p) || !(u.any subCulvert || (upto 32).any fun c => cellGet 0 m (resSlu c) == p)

/-- A polder reaches the culvert under the committed image (R414, R422). -/
def reachesCulvert (s : State) (p : Nat) : Bool :=
  (cellGet polImgReset s.img.pol p).run.any subCulvert || (!(sluicesOf s p).isEmpty) ||
  ((upto 8).any fun g => (upto 32).any fun j => resPol s (resSlot g j) == p && (upto 4).any fun d =>
    getB s (acqDest g j d) acqDest_En && getB s (acqDest g j d) acqDest_Kind)

/-- The checks of R422 on a CULV set, the state holding its values; `wheel`: the set names a WHEEL word. -/
def culvSetOk (s : State) (wheel : Bool) : Bool :=
  getF s culvCfg culvCfg_Deflease != 0 &&
    (upto 8).all (fun w => (getReg s (culvWheel w)) &&& 0x88888888 == 0) &&
    (!wheel || (upto 8).all fun p => !reachesCulvert s p || (upto 64).any fun i => wheelPol s i == p)

/-! ## The areas of deliveries (R255, R327, R358) -/

/-- `n` words from word `w` on lie in one delivery area of an engine. -/
def runInArea (u : SubImage) (e w n : Nat) : Bool := u.areas.any fun a => a.eng == e && decide (a.lo ≤ w) && decide (w + n ≤ a.hi)

/-- At most four engines take the comparators' two words, and those of an encoder its four; a port has one, for 24 cells of 8 words; all
lie in delivery areas. -/
def destsOk (u : SubImage) : Bool :=
  decide (u.cmpDest.length ≤ 4) && u.cmpDest.all (fun d => runInArea u d.1 d.2 2) &&
    (upto 4).all (fun n => decide ((u.encDest.filter fun d => d.1 == n).length ≤ 4)) && u.encDest.all (fun d => runInArea u d.2.1 d.2.2 4) &&
    distinct (u.portDest.map fun d => d.1) && u.portDest.all fun d => runInArea u d.2.1 d.2.2 192

/-- The content rules of row 7 under a resource map, the clusters' step lists and the culvert's wheel. -/
def contentOk (m : Cells Nat) (steps : Nat → List DWord) (wheel : Nat → Nat) (u : SubImage) : Bool :=
  ((allSteps u).all fun c => stepKind c.2 != 2 && stepKind c.2 != 3 && nbits c.2.toNat 63 58 == 0 && !nbit c.2.toNat 7 &&
      (stepKind c.2 != 1 || (groupOfStep u c).isSome) && segLegal ((tableOf u (stepEngine c)).drop (stepSeg c.2)) (stepSeg c.2) []) &&
    u.groups.all (groupLegal u) && groupsApart u && pairwise (storesApart u) (allSteps u) && u.latches.all latchRunOk &&
    (allLatches u).all (latchLegal m u steps) && distinct (latchPairs u) &&
    ((upto u.insts.length).all fun i => match u.insts[i]? with
      | some x => placedOk m u steps i x
      | none => true) &&
    u.csrc.all (csrcOk m u.polder) && regsOwn u && destsOk u && wheelOk m wheel u.polder (some u)

/-! ## The other rows -/

/-- Every engine, comparator, encoder and port that a sub-image names, and every resource whose register it sets, is its polder's (row 6);
a register without an owner is row 7's. -/
def resourcesOk (m : Cells Nat) (u : SubImage) : Bool :=
  let own (e : Nat) : Bool := cellGet 0 m e == u.polder
  let named := { State.reset with img := { imgReset with resmap := m } }
  u.tables.all (fun t => own t.1) && u.dmem.all (fun t => own t.1) && u.areas.all (fun a => own a.eng) &&
    (allSteps u).all (fun c => own (stepEngine c) && nbits c.2.toNat 6 4 == u.polder) &&
    u.groups.all (fun g => g.polder == u.polder && (g.members ++ g.spare.toList).all own) &&
    u.insts.all (fun x => x.polder == u.polder && (placedEngines u x).all own) && u.cycles.all (fun c => own c.1) && u.taps.all (fun t => own t.1) &&
    (u.migrate.getD []).all (fun g => own g.1) && u.cmpDest.all (fun d => own d.1) && u.encDest.all (fun d => own d.2.1 && own (resEnc d.1)) &&
    u.portDest.all (fun d => own d.2.1 && own (resPort d.1)) && u.regs.all (fun r => (regOwner named r.1).all (· == u.polder)) &&
    (allLatches u).all (fun c => !nbit c.2.toNat 63 || (own (nbits c.2.toNat 7 0) && own (16 * (c.1 / 64) + nbits c.2.toNat 60 57))) &&
    u.csrc.all fun w => fget w tickCsrc_Src != 0 || decide (32 ≤ fget w tickCsrc_Index) || own (resCmp (fget w tickCsrc_Index))

/-- The worst-case count of an engine at a tempo in a sub-image. -/
def cycleOf (u : SubImage) (e t : Nat) : Nat := ((u.cycles.find? fun c => c.1 == e && c.2.1 == t).map fun c => c.2.2).getD 0

/-- Row 8 for a sub-image: freeboard at every tempo of the mask of each region, TSCHED equal to the reference period; `fv`
is the clock in 1/4000 MHz (R621). -/
def row8 (tempos : List Nat) (per fv : Nat) (u : SubImage) : Bool :=
  u.tsched == per && u.cycles.all fun c => !nbit (tempos.getD (c.1 / 64) 15) c.2.1 || freeboardOk c.2.2 c.2.1 per fv

/-- Row 9: the layout equals the running one, or MIGRATE is present, or FRESH is set. -/
def row9 (layout : Word) (u : SubImage) : Bool := u.layout == layout || u.migrate.isSome || u.fresh

/-- The first failing row of R449, as a RESULT code; 0 where every check passes. -/
def firstFail : List (Nat × Bool) → Nat
  | [] => 0
  | (c, ok) :: t => if ok then firstFail t else c

/-- VARIANT suits the device (R4). -/
def variantOk (s : State) (v : Nat) : Bool := (v == 1 && !s.dev.ca) || v == 2

/-- The OTP security version. -/
def otpSvn (s : State) : Nat := getF s updOtpsvn updOtpsvn_Svn

/-- The checks of a sub-image at a runtime load by polder `p`, of `len` bytes. -/
def subResult (s : State) (p len : Nat) (u : SubImage) : Nat :=
  let act := s.img.active
  let layout := ((cellGet polImgReset s.img.pol p).run.map fun r => r.layout).getD 0
  firstFail [
    (1, magicOk u.header false), (2, variantOk s u.variant && (act.map fun a => a.variant) == some u.variant),
    (3, structOk u.header u.sects false && subHeld u && u.length == len), (4, signedOk s.img.sysKey s.img.keys u),
    (5, decide (otpSvn s ≤ u.svn) && decide ((act.map fun a => a.svn).getD 0 ≤ u.svn)),
    (6, u.polder == p && resourcesOk s.img.resmap u), (7, contentOk s.img.resmap (stepsWith s u) (wheelPol s) u),
    (8, row8 s.img.tempos (period s) (fvLow s (fvMHz s)) u), (9, row9 layout u)]

/-- IMG.STAT.SECT of a refused load: the section whose form is wrong, SIG for its signature; which section the other rows blame is open. -/
def sectOf (u : SubImage) (code : Nat) : Nat :=
  match code with
  | 1 => 0
  | 3 => (badSect false 0 none u.sects).getD 0
  | 4 => u.sects.length - 1
  | 0xB => 0
  | _ => (Config.causeWord 0x0111 code).toNat % u.sects.length

/-- RESMAP as a sparse map. -/
def mapOf (f : FullImage) : Cells Nat := f.resmap.foldl (fun m r => cellSet 0 m r.1 r.2) []

/-- The reference period of a full image (row 8). -/
def refPeriod (f : FullImage) : Nat := ((f.sysregs.find? fun r => r.1 == tickPeriod).map fun r => fget r.2 tickPeriod_Period).getD 2000

/-- The step list of a cluster under a full image. -/
def fullSteps (f : FullImage) (k : Nat) : List DWord :=
  (upto 8).flatMap fun p => (f.subs.filter fun u => u.polder == p).flatMap fun u => (u.steps.filter fun c => c.1 == k).flatMap fun c => c.2

/-- The value SYSREG sets at an address, else the register's reset value. -/
def sysValue (f : FullImage) (a : Nat) : Word := ((f.sysregs.find? fun r => r.1 == a).map fun r => r.2).getD (regReset a)

/-- The polder of a wheel slot under a full image. -/
def fullWheel (f : FullImage) (i : Nat) : Nat := (sysValue f (culvWheel (i / 8))).toNat / 16 ^ (i % 8) % 8

/-- The clock of a full image in 1/4000 MHz (R621). -/
def fullFv (f : FullImage) : Nat :=
  let sp := sysValue f clkSpread
  fget (sysValue f (clkCprof (fget (sysValue f clkCsel) clkCsel_Prof))) clkCprof_Freq *
    (4000 - (if fget sp clkSpread_En = 1 then fget sp clkSpread_Depth else 0))

/-- The embedded sub-images: one for each SUBIMG section, once per polder (R446). -/
def subsApart (f : FullImage) : Bool :=
  f.subs.length == (f.sects.filter fun x => x.type.toNat == 0x100).length && distinct (f.subs.map fun u => u.polder)

/-- The checks of a full image under rows 1–8 with its slot's system key, `keyOk` that this key is anchored (R574, R577). -/
def fullResult (s : State) (f : FullImage) (sysKey : Nat) (keyOk : Bool) : Nat :=
  let m := mapOf f
  firstFail [
    (1, magicOk f.header true && f.subs.all fun u => magicOk u.header false),
    (2, variantOk s f.variant && f.subs.all fun u => u.variant == f.variant),
    (3, structOk f.header f.sects true && subsApart f && fullHeld f && f.subs.all fun u => structOk u.header u.sects false && subHeld u),
    (4, keyOk && imageSigned sysKey 0 f.header f.sects && f.subs.all (signedOk sysKey f.keys)), (5, decide (otpSvn s ≤ f.svn) && f.subs.all fun u => decide (otpSvn s ≤ u.svn)),
    (6, f.subs.all (resourcesOk m)), (7, f.subs.all (contentOk m (fullSteps f) (fullWheel f)) && (upto 8).all fun p => wheelOk m (fullWheel f) p (f.subs.find? fun u => u.polder == p)),
    (8, f.tsched == refPeriod f && f.subs.all (row8 f.tempos (refPeriod f) (fullFv f)))]

end Sys2Proof.Machine
end

