-- ==== Sys2Proof/Machine/Trace.lean ====
section
/-! DEFINITION. The trace lanes (R157–R162). -/

namespace Sys2Proof.Machine

def getLane (s : State) (e : Nat) : Lane := cellGet laneReset s.lanes e
def setLane (s : State) (e : Nat) (l : Lane) : State := { s with lanes := cellSet laneReset s.lanes e l }

/-- POST with 0 taken as 1,024. -/
def lanePost (s : State) (e : Nat) : Nat :=
  let p := getF s (engTrctl e) engTrctl_Post
  if p = 0 then 1024 else p

/-- The lane's own sources of the ending tick, as CAUSE codes, lowest first (R159): `changed` are the polders whose mode
changes at this edge. -/
def ownSources (s : State) (changed : List Nat) (e : Nat) : List Nat :=
  let a := engTrctl e
  let p := resPol s (resEngine e)
  ((upto 4).filter fun l => getFbit s a engTrctl_Lines l && nbit (getEng s e).lines l) ++
    (if getB s a engTrctl_Modechg && changed.contains p then [4] else []) ++
    (if getB s a engTrctl_Fault && s.flt.traceFault.contains p then [5] else []) ++
    (if (getLane s e).cmd = 3 then [7] else [])

/-- The polders whose trace trigger bus carries a signal (R159). -/
def busPolders (s : State) (changed : List Nat) : List Nat :=
  (upto 8).filter fun p => (enginesOf s p).any fun e => getB s (engTrctl e) engTrctl_Xout && !(ownSources s changed e).isEmpty

/-- The lowest cause of a trigger. -/
def laneTrigger (s : State) (changed buses : List Nat) (e : Nat) : Option Nat :=
  let own := ownSources s changed e
  let bus := getB s (engTrctl e) engTrctl_Xin && buses.contains (resPol s (resEngine e))
  match own.filter (· < 6), bus, own.head? with
  | c :: _, _, _ => some c
  | [], true, _ => some 6
  | [], false, c => c

/-- A pending control word takes effect (R158): at the edge after its write, which is itself processed under the new value (assumption
log 30, DEDUCED). -/
def laneCtl (s : State) (e : Nat) : State :=
  match (getLane s e).ctl with
  | some w => setLane (setReg s (engTrctl e) w) e { getLane s e with ctl := none }
  | none => s

/-- One lane at the edge that ends tick `n`, in the order of R160. -/
def laneEdge (s : State) (trig : Option Nat) (e n : Nat) : State :=
  let a := engTrstat e
  let l := getLane s e
  let s := if l.cmd = 2 then setF s a engTrstat_State 0 else s
  let s := if l.cmd = 1 then
      setLane (setB (setF (setF s a engTrstat_State 1) a engTrstat_Widx 0) a engTrstat_Wrap false) e { l with filled := 0 } else s
  let l := { getLane s e with cmd := 0 }
  let st := getF s a engTrstat_State
  let post := lanePost s e
  let rec' := (st == 1 || st == 2) && n % (getF s (engTrctl e) engTrctl_Decm1 + 1) == 0
  let w := getF s a engTrstat_Widx
  let s := if rec' then
      let s := wrWords s (laneBase e + 16 * w) ((getEng s e).tapSnap.getD (tapWords s e))
      let s := setF s a engTrstat_Widx ((w + 1) % 1024)
      if (w + 1) % 1024 = 0 then setB s a engTrstat_Wrap true else s
    else s
  let l := if rec' then { l with filled := min (l.filled + 1) 1024 } else l
  let s' : State × Lane :=
    if st = 2 then
      (if trig.isSome then setB s a engTrstat_Retrig true else s, if rec' then { l with left := l.left - 1 } else l)
    else
      match trig with
      | some c =>
        if st = 1 ∧ (!getB s (engTrctl e) engTrctl_Prefill ∨ 1024 - post ≤ l.filled) then
          let w := getF s a engTrstat_Widx
          let s := setF (setF (setF s a engTrstat_State 2) a engTrstat_Tidx (if rec' then (w + 1023) % 1024 else w)) a engTrstat_Cause c
          (setReg s (engTrtick e) (BitVec.ofNat 32 n), { l with left := if rec' then post - 1 else post })
        else (s, l)
      | none => (s, l)
  let s := setLane s'.1 e s'.2
  if getF s a engTrstat_State = 2 ∧ s'.2.left = 0 then setF s a engTrstat_State 3 else s

/-- All lanes at the edge that ends tick `n`. -/
def traceEdge (s : State) (changed : List Nat) (n : Nat) : State :=
  let s := forEach (upto 256) s laneCtl
  let buses := busPolders s changed
  let trigs := (upto 256).map fun e => laneTrigger s changed buses e
  let s := forEach (upto 256) s fun s e => laneEdge s (trigs.getD e none) e n
  { s with flt := { s.flt with traceFault := [] } }

/-- A write of ENG.TRCTL (R158): none while ARMED or POST; else from the next edge. -/
def trctlWrite (s : State) (e : Nat) (w : Word) : State :=
  let st := getF s (engTrstat e) engTrstat_State
  if st = 1 ∨ st = 2 then s else setLane s e { getLane s e with ctl := some w }

/-- A write of ENG.TRCMD.CMD (R158): the last of a tick acts at the next edge; 0 is no command. -/
def trcmdWrite (s : State) (e c : Nat) : State :=
  if c = 0 then s else setLane s e { getLane s e with cmd := c }

/-- A polder reset puts the lane into DONE at its edge; a command that waited for the edge does not act on it (R162). -/
def laneDone (s : State) (e : Nat) : State := setLane (setF s (engTrstat e) engTrstat_State 3) e { getLane s e with cmd := 0 }

/-- Lanes in ARMED or POST go to DONE at tick loss (R162). -/
def laneStop (s : State) (e : Nat) : State :=
  let st := getF s (engTrstat e) engTrstat_State
  if st = 1 ∨ st = 2 then setF s (engTrstat e) engTrstat_State 3 else s

/-- TRACE_DONE: the post-trigger count is zero and the lane enters DONE (R160). -/
def execTraceDone (e : Fin 256) (s : State) : Host.Outcome State Fault Refusal :=
  .next (if getF s (engTrstat e) engTrstat_State = 2 ∧ (getLane s e).left = 0 then setF s (engTrstat e) engTrstat_State 3 else s)

end Sys2Proof.Machine
end

