-- ==== Sys2Proof/Machine/Image.lean ====
section
/-! DEFINITION. Sub-images (ch. 14): loading, taking over, migration, and the polder resets that reload them (R35–R37,
R452–R460). -/

namespace Sys2Proof.Machine

/-- IMG.STAT of a polder. -/
def imgState (s : State) (p : Nat) : Nat := getF s (banked imgStat p) imgStat_State
def setImgStat (s : State) (p st result sect : Nat) : State :=
  let a := banked imgStat p
  setF (setF (setF s a imgStat_State st) a imgStat_Result result) a imgStat_Sect sect

/-- The sub-image of a polder in the active slot. -/
def slotSub (s : State) (p : Nat) : Option SubImage := s.img.active.bind fun f => f.subs.find? fun u => u.polder == p

/-- A sub-image with nothing in it, for a polder that the active image leaves without one. -/
def emptySub (p : Nat) : SubImage :=
  { header := List.replicate 26 0 ++ [BitVec.ofNat 8 p, 0xFF], sects := [], tables := [], dmem := [], areas := [], steps := [], rules := [], roles := 0, csrc := [], latches := []
    groups := [], insts := [], cycles := [], regs := [], taps := [], cmpDest := [], encDest := [], portDest := [], migrate := none }

def runLayout (s : State) (p : Nat) : Word := ((polImg s p).run.map fun u => u.layout).getD 0
def runVer (s : State) (p : Nat) : Word := ((polImg s p).run.map fun u => u.imgVer).getD 0

/-! ## Modes (R61, R66) -/

/-- A polder enters a mode under a rule index; `always` also when it is in that mode already. -/
def enterMode (s : State) (p m rule : Nat) (always : Bool) : State :=
  let old := curMode s p
  let a := tickMode p
  let s := setF (setF (setF s a tickMode_Cur m) a tickMode_Prev old) a tickMode_Tim 0
  if old = m ∧ ¬ always then s else notice s 0x0340 p [pw p, pw old, pw m, pw rule]

/-! ## Tables and data memory -/

/-- Four words of a table word, least significant first. -/
def tableWords (w : BitVec 128) : List Word := (upto 4).map fun i => (w >>> (32 * i)).setWidth 32

/-- Fill a table bank. -/
def wrBank (s : State) (e b : Nat) (l : List (BitVec 128)) : State :=
  wrWords (zeroMem s (bankWord e b 0) (bankWord e b 4096)) (bankWord e b 0) (l.flatMap tableWords)

/-- The banks of a polder's engines that they do not execute take a sub-image's tables (R452). -/
def wrShadow (s : State) (p : Nat) (u : SubImage) : State :=
  forEach (enginesOf s p) s fun s e => wrBank s e (1 - actBank s e) (bankTable u e)

/-- The banks of a polder's engines swap (R110). -/
def swapBanks (s : State) (p : Nat) : State :=
  forEach (enginesOf s p) s fun s e => setF s (engStat e) engStat_Actbank (1 - actBank s e)

/-- The words of a placed segment's block that are its monitor words and its internal state, by ID: a reload starts it anew, whatever DMEM
holds there (R196, R228, R270, R274; assumption log 16). -/
def innerRange (id : Nat) : Nat × Nat :=
  match id with
  | 1 => (0x80, 0x200)
  | 2 => (0x80, 0x1800)
  | 3 => (0x80, 0x1000)
  | 4 => (0x80, 0x400)
  | 5 => (0x80, 0x400)
  | _ => (0x50, 0x80)

/-- The placed segments of a sub-image start anew. -/
def startPlaced (s : State) (u : SubImage) : State :=
  forEach u.insts s fun s x => forEach (placedEngines u x) s fun s e =>
    zeroMem s (engBase e + x.live + (innerRange x.segId).1) (engBase e + x.live + (innerRange x.segId).2)

/-- Data memory of a polder's engines from DMEM and the parameter blocks, but for the system words (R459, R573). -/
def loadDmem (s : State) (p : Nat) (u : SubImage) : State :=
  let s := forEach (enginesOf s p) s fun s e =>
    forEach (initWords s p e u) (zeroMem s (engBase e) (engBase e + 0x1FF00)) fun s x =>
      if 4 * x.1 < 0x1FF00 then wrWord s (dmWord e x.1) x.2 else s
  startPlaced s u

/-! ## What a sub-image installs (R455) -/

/-- ENG.PLACE and ENG.STATEA of an engine as the image declares them, at full strength. -/
def placeRegs (s : State) (e : Nat) : State :=
  let a := engPlace e
  match groupOf s e with
  | some (_, g) =>
    let i := (g.members.findIdx? fun m => m == e).getD 2
    let role := if g.spare == some e then 3 else if g.triple then 1 else 2
    let w := fset (fset (fset 0 engPlace_Group g.id) engPlace_Member i) engPlace_Role role
    let s := setReg s a w
    setReg s (engStatea e) (fset (fset 0 engStatea_Base g.base) engStatea_Len g.len)
  | none => setReg (setReg s a (fset 0 engPlace_Group 0xFF)) (engStatea e) 0

/-- A group at full strength. -/
def fullGroup (s : State) (g : Group) : State :=
  let s := setGroup s (g.polder * 256 + g.id) { groupReset with members := g.members, spare := g.spare }
  forEach (g.members ++ g.spare.toList) s placeRegs

/-- IMG.INSTk from the placed segments (R451, R461). CERT is 1: the loader refuses one that fails R143, R144 or R145 (R148). -/
def instRegs (s : State) : State :=
  forEach (upto 64) s fun s k => match s.img.insts[k]? with
    | some x =>
      let w := fset (fset (fset (fset 0 imgInst_Valid 1) imgInst_Cert 1) imgInst_Isol (bit x.isol)) imgInst_Polder x.polder
      setReg s (imgInst k) (fset (fset (fset w imgInst_Engine x.engine) imgInst_Group x.group) imgInst_Segid x.segId)
    | none => setReg s (imgInst k) 0

/-- The taps of a polder's engines. -/
def tapRegs (s : State) (p : Nat) (u : SubImage) : State :=
  let s := forEach (enginesOf s p) s fun s e => forEach (upto 4) s fun s k => setReg s (engTap e k) 0
  forEach u.taps s fun s t => setReg s (engTap t.1 t.2.1) t.2.2

/-- The sequencer's tables, roles, condition sources, latches, groups, placed segments, delivery areas and cycle counts of a
polder; groups that have lost an engine stay as they are (R128) unless `full`. Where two polders' sub-images give a cluster's entry of one
number, the one installed later replaces the other, which starts anew (R131; assumption log 80, DESIGN CHOICE). -/
def installTables (s : State) (p : Nat) (u : SubImage) (full : Bool) : State :=
  let own (e : Nat) : Bool := resPol s (resEngine e) == p
  let im := s.img
  let steps := (upto 16).foldl (fun m k => cellSet [] m (8 * k + p) ((u.steps.filter fun c => c.1 == k).flatMap fun c => c.2)) im.steps
  let mine (c : Nat × DWord) : Bool := own (latDst c.2 (c.1 / 64))
  let given := (allLatches u).filter fun c => nbit c.2.toNat 63
  let latches := given.foldl (fun m c => cellPut m c.1 c.2) (im.latches.filter fun c => !mine c)
  let gone := (im.latches.filter mine ++ given).map fun c => c.1
  let cycles := u.cycles.foldl (fun m c => cellPut m (4 * c.1 + c.2.1) c.2.2) (im.cycles.filter fun c => !own (c.1 / 4))
  let insts := (im.insts.filter fun x => decide (x.polder < p)) ++ u.insts ++ (im.insts.filter fun x => decide (p < x.polder))
  let img := { im with steps := steps, rules := cellSet [] im.rules p u.rules, latches := latches, cycles := cycles
                       areas := (im.areas.filter fun a => !own a.eng) ++ u.areas
                       groups := (im.groups.filter fun g => g.polder != p) ++ u.groups, insts := insts }
  let s := { s with img := img, latches := gone.foldl (fun m k => cellDel m k) s.latches }
  let kept (k : Nat) : Bool := !full && !(getGroup s k).retired.isEmpty
  let s := { s with groups := s.groups.filter fun c => c.1 / 256 != p || kept c.1 }
  let s := forEach (enginesOf s p) s fun s e => match groupOf s e with
    | some (k, _) => if kept k then s else placeRegs s e
    | none => placeRegs s e
  let s := forEach u.groups s fun s g => if kept (p * 256 + g.id) then s else fullGroup s g
  let s := setReg s (imgRole p) u.roles
  let s := forEach (upto 16) s fun s b => setReg s (tickCsrc p b) (u.csrc.getD b (regReset (tickCsrc p b)))
  let s := setReg (setReg s (imgPver p) u.imgVer) (imgPlay p) u.layout
  tapRegs (instRegs s) p u

/-- The staged bits of a register that are own ones: REGS names only those, also for polder 0 (R444, R449). -/
def ownMask (a : Nat) : Word := fieldsMask (regFields a) fun f => f.acc == .ws && f.rights == .own

/-- The REGS values of a sub-image as staged values of its polder. -/
def regsVals (u : SubImage) : List Staged :=
  u.regs.map fun r => { pol := u.polder, addr := r.1, mask := ownMask r.1, val := r.2 }

/-- The own fields that one sub-image's REGS sets and another's does not, at their reset values, as a boot leaves them (assumption log 47,
DEDUCED). -/
def regsLeft (u v : SubImage) : List Staged :=
  (u.regs.filter fun r => v.regs.all fun x => x.1 != r.1).map fun r => { pol := u.polder, addr := r.1, mask := ownMask r.1, val := regReset r.1 }

/-! ## Discarding (R453, R456) -/

/-- A loaded sub-image, or a load in progress, is discarded with RESULT RESET; event 0x0115 for a loaded one. -/
def discardSub (s : State) (p cause : Nat) : State :=
  let st := imgState s p
  if st = 1 ∨ st = 2 then
    let s := setImgStat (setPolImg s p { polImg s p with loading := none, loaded := none }) p 0 0xD 0
    if st = 2 then notice s 0x0115 p [pw p, Config.causeWord 0x0115 cause] else s
  else s

/-- COMMIT.DISCARD in IMG: STATE becomes IDLE; an abandoned load leaves no event. -/
def dropSub (s : State) (p : Nat) : State :=
  let st := imgState s p
  if st = 1 ∨ st = 2 then
    let s := setF (setPolImg s p { polImg s p with loading := none, loaded := none }) (banked imgStat p) imgStat_State 0
    if st = 2 then notice s 0x0115 p [pw p, Config.causeWord 0x0115 9] else s
  else s

/-! ## Takeover (R455, R458, R459) -/

/-- The tables, banks and data memory of a sub-image that takes over; `entry` is false where ENTRY is void (it is so too in a polder
reset and in mode hold, which keep the polder in mode 0: R33, R36, R468), `runtime` where it
comes from the active slot. Its REGS values are applied by the caller. -/
def takeOver (s : State) (p : Nat) (u : SubImage) (entry migrated runtime : Bool) : State :=
  let old := runLayout s p
  let s := installTables (swapBanks s p) p u false
  let s := setPolImg s p { polImg s p with run := some u, runtime := runtime, loaded := none, migrating := none, entryLost := false }
  let s := setImgStat s p 0 0 0
  let s := if u.fresh && u.layout != old && !migrated then loadDmem s p u else s
  let s := if entry && u.entry != 0xFF && !inReset s p && !getB s (fltSum p) fltSum_Modehold then
      enterMode { s with tick := { s.tick with nextMode := cellDel s.tick.nextMode p } } p (u.entry % 16) 0xFF true else s
  notice s 0x0112 p [pw p, u.imgVer, old, u.layout]

/-- Whether an accepted sub-image takes a migration tick (R458, R459). -/
def needsMigration (s : State) (p : Nat) (u : SubImage) : Bool := u.layout != runLayout s p && !u.fresh && u.migrate.isSome

/-- The migration tick starts (R458). -/
def startMigration (s : State) (p : Nat) (u : SubImage) : State :=
  let s := setPolImg s p { polImg s p with loaded := none, migrating := some u, entryLost := false }
  notice (setF s (banked imgStat p) imgStat_State 3) 0x0113 p [pw p, runLayout s p, u.layout]

/-- The votes of a migration tick over the signatures of the new groups (R458). -/
def migVotes (s : State) (p : Nat) (u : SubImage) : State :=
  let ran (g : Group) : Bool := g.members.any fun e => (u.migrate.getD []).any fun m => m.1 == e
  forEach (u.groups.filter ran) s fun s g =>
    let k := p * 256 + g.id
    let s := if g.triple then s else setGroup s k { getGroup s k with restoring := true }
    let s := voteGroup s k g
    setGroup s k { getGroup s k with restoring := false }

/-- Outputs and requests of a migration tick are discarded (R458). -/
def dropOuts (s : State) (p : Nat) : State :=
  forEach (enginesOf s p) s fun s e => setEng s e { getEng s e with outs := [], vouts := [], reqLane := [] }

/-! ## Loading (R452) -/

/-- IMG.CTL LOAD by polder p. -/
def loadCmd (s : State) (src : Source) (p : Nat) : State :=
  let upd := getF s updStat updStat_State
  if imgState s p ≠ 0 ∨ upd = 4 ∨ upd = 5 then setF s (banked imgStat p) imgStat_Result 0xA
  else
    let s := setImgStat (setPolImg s p { polImg s p with loading := some src, fetched := [], fetchBad := false, fetchWait := false }) p 1 0 0
    match placeOf (imgSource s p) with
    | .sqWin _ => loaderRead s p (imgBytes s p / 4 + 1)
    | _ => s

/-- The loaded sub-image is the polder's staged set of IMG; its age starts (R71, R453). -/
def stageSub (s : State) (p : Nat) : State :=
  let go := ((cellFind s.tick.stageMeta (metaKey 3 p)).map fun m => m.go) == some true
  { s with tick := { s.tick with stageMeta := cellPut s.tick.stageMeta (metaKey 3 p) { age := 0, noticed := false, go := go } } }

/-- IMG_LOAD_DONE: the load of polder p ends. The bytes read are its header and sections; `u` says what those sections hold (R449, R452;
assumption log 7). A load from an SQ window ends when its port has answered. -/
def execImgLoadDone (p : Fin 8) (u : SubImage) (s : State) : Host.Outcome State Fault Refusal :=
  .next <|
    let s := if (polImg s p).fetchWait then s else loaderRead s p (imgBytes s p / 4 + 1)
    let x := polImg s p
    if x.loading.isNone || x.fetchWait then s
    else
      let len := imgBytes s p
      let bytes := (x.fetched.flatMap wordBytes).map fun b => BitVec.ofNat 8 b
      let u := { u with header := bytes.take 64, sects := parseSects (bytes.length / 8) (bytes.drop 64) }
      let code := if x.fetchBad then 0xB else subResult s p len u
      let x := { x with loading := none, fetched := [], fetchBad := false }
      if code = 0 then
        let s := setPolImg s p { x with loaded := some u }
        let s := stageSub (setImgStat (wrShadow s p u) p 2 0 0) p
        notice s 0x0110 p [pw p, u.imgVer, u.layout]
      else
        let sect := sectOf u code
        let s := setImgStat (setPolImg s p x) p 0 code sect
        notice s 0x0111 p [pw p, pw code, pw sect]

/-- A commit would change the group or role of a retired engine (R128, RESULT 0xC). -/
def retiredOk (s : State) (p : Nat) (u : SubImage) : Bool :=
  (s.img.groups.filter fun g => g.polder == p).all fun g =>
    (getGroup s (p * 256 + g.id)).retired.isEmpty || u.groups.contains g

/-! ## Polder resets (R35–R37, R457) -/

/-- The registers of an engine as tick loss and a polder reset leave them: the placement, the taps, the bank and the trace lane's
registers stay (R94, R129, R158). -/
def resetEngRegs (s : State) (e : Nat) : State :=
  forEach [engEsf e, engEtick e, engCyclast e, engCycmax e, engEcc e] (setF (setB s (engStat e) engStat_Busy false) (engStat e) engStat_Req 0) resetReg

/-- An engine as tick loss and a polder reset leave it. -/
def resetEngine (s : State) (e : Nat) : State := setEng (resetEngRegs s e) e engReset

/-- The own memory segments of a polder are zeroed (R32). -/
def zeroSegments (s : State) (p : Nat) : State :=
  forEach ((upto 256).filter fun i => resPol s (1024 + i) == p) s fun s i => zeroMem s (0x70000000 + 0x20000 * i) (0x70000000 + 0x20000 * (i + 1))

/-- The latches into a polder's engines start anew. -/
def dropLatches (s : State) (p : Nat) : State :=
  { s with latches := s.latches.filter fun c => match cellFind s.img.latches c.1 with
      | some d => resPol s (resEngine (latDst d (c.1 / 64))) != p
      | none => true }

/-- A runtime sub-image gives way to the slot's (R457): tables and REGS values at once, banks at the reset's end. -/
def backToSlot (s : State) (p : Nat) : State :=
  let u := (slotSub s p).getD (emptySub p)
  let ov := runVer s p
  let ol := runLayout s p
  let left := regsLeft ((polImg s p).run.getD (emptySub p)) u
  let s := applyVals (installTables s p u true) (left ++ regsVals u)
  let s := setPolImg s p { polImg s p with run := some u, runtime := false }
  notice s 0x0116 p [pw p, ov, ol, u.imgVer, u.layout]

def causeCode (c : ResetCause) : Nat :=
  match c with
  | .prst => 0
  | .prself => 1
  | .isolation => 2
  | .migration => 3

/-- What polder p has staged or committed for this edge, and its loaded sub-image, are dropped (R35, R456). -/
def dropStaged (s : State) (p cause : Nat) : State :=
  let t := s.tick
  let s := { s with tick := { t with staged := t.staged.filter (fun v => v.pol != p), sets := t.sets.filter (fun c => c.pol != p)
                                     stageMeta := t.stageMeta.filter fun m => m.1 % 8 != p } }
  discardSub s p cause

/-- A polder reset starts at this edge (R35, R36). -/
def startReset (s : State) (p : Nat) (c : ResetCause) : State :=
  let s := dropStaged s p (causeCode c)
  let runtime := (polImg s p).runtime
  let s := if (polImg s p).migrating.isSome then
      setImgStat (setPolImg s p { polImg s p with migrating := none }) p 0 0xD 0 else s
  let s := setFbit { s with tick := { s.tick with nextMode := cellDel s.tick.nextMode p } } sysPrstat sysPrstat_Busy p true
  let s := { s with dev := { s.dev with inReset := cellPut s.dev.inReset p { cause := c, reloaded := false, stuck := false, whole := runtime } } }
  let s := notice s 0x0102 p [pw p, Config.causeWord 0x0102 (causeCode c)]
  let s := enterMode s p 0 0xFE false
  let s := forEach (enginesOf s p) s laneDone
  let s := forEach (enginesOf s p) s resetEngine
  let gone (k : Nat) : Bool := resPol s (resEngine (k / 131072)) == p
  let s := { s with fsHist := s.fsHist.filter (fun h => !gone h.1), fsChips := s.fsChips.filter fun h => !gone h.1 }
  let s := forEach (s.img.groups.filter fun g => g.polder == p) (dropLatches s p) fullGroup
  let s := tripPolder (forEach (pairsOf s p) (zeroSegments s p) fun s i => forceWrite s i 0) p
  let s := forEach (sluicesOf s p) s sluResetHalt
  let s := forEach ((upto 4).filter fun n => encPol s n == p) (sqPolderReset s p) encPolderReset
  if runtime then backToSlot s p else s

/-- POLDER_RELOAD_COMPLETE: the loader has read polder p's sections from the active slot; `ok`: every digest is right, else
`section` is the first that fails (R36). -/
def execPolderReloadComplete (p : Fin 8) (ok : Bool) (sect : BitVec 16) (s : State) : Host.Outcome State Fault Refusal :=
  .next <|
    match cellFind s.dev.inReset p with
    | none => s
    | some r =>
      if r.reloaded || r.stuck then s
      else if ok then
        let u := (slotSub s p).getD (emptySub p)
        let s := loadDmem s p u
        let s := if r.whole then wrShadow s p u else s
        { s with dev := { s.dev with inReset := cellPut s.dev.inReset p { r with reloaded := true } } }
      else
        let s := { s with dev := { s.dev with inReset := cellPut s.dev.inReset p { r with stuck := true } } }
        event s 0x0117 2 p [pw p, pw sect.toNat]

/-- A polder reset whose loads are complete ends at this edge (R36); a sub-image that waited for it takes over (R586). -/
def endReset (s : State) (p : Nat) : State :=
  match cellFind s.dev.inReset p with
  | none => s
  | some r =>
    if !r.reloaded || r.stuck || s.flt.hold then s
    else
      let s := if r.whole && (polImg s p).waiting.isNone then swapBanks s p else s
      let s := { s with dev := { s.dev with inReset := cellDel s.dev.inReset p }, flt := { s.flt with isol := s.flt.isol.filter (· != p) } }
      let s := setFbit (setFbit s sysPrstat sysPrstat_Busy p false) sysPrstat sysPrstat_Done p true
      notice (refreshFaults s) 0x0103 p [pw p, Config.causeWord 0x0103 (causeCode r.cause)]

end Sys2Proof.Machine
end

