-- ==== Sys2Proof/Machine/Safe.lean ====
section
/-! DEFINITION. The safety channel (ch. 16): inputs and test pulses, safe state, outputs and feedback, safe messages,
degraded mode, sealed configuration. -/

namespace Sys2Proof.Machine

def getConn (s : State) (k : Nat) : Conn := cellGet connReset s.safe.conns k
def setConn (s : State) (k : Nat) (c : Conn) : State :=
  { s with safe := { s.safe with conns := cellSet connReset s.safe.conns k c } }

/-- Demand of an input pair, or of a message. -/
def demandInput (s : State) : State := demand s (brkOf s true)
def demandMsg (s : State) : State := demandBy s (brkOf s false) false

/-! ## The cycle (R485, R488, R497) -/

/-- The outputs that the safety processor's own evaluation of R499 lets be energised. -/
def wantedP (s : State) : Nat := (upto 8).foldl (fun n k => n + bit (outWanted s k) * 2 ^ k) 0

/-- SP_CYCLE: the safety processor's cycle of 500 µs (R485): it reads the inputs, its own switches and the output nodes, decides by the rules
of the chapter, and its rail and its switches follow its decision. A demand between two cycles is not missed (assumption log 39, DEDUCED). -/
def execSpCycle (s : State) : Host.Outcome State Fault Refusal :=
  .next <|
    let x := s.safe
    let safe := getB s safeStat safeStat_Safest
    let s := { s with safe := { x with cycles := x.cycles + 1, switchP := x.switchP &&& wantedP s, safeP := safe,
                                       imageP := (x.opened, x.switchP &&& wantedP s, getF s safeOutst safeOutst_Ener) } }
    if safe then setB s safeStat safeStat_Sprail false else s

/-- PULSE_ENABLE_INACTIVE: a rail of the pulse-enable lines becomes inactive (R486). -/
def execPulseEnableInactive (sp : Bool) (s : State) : Host.Outcome State Fault Refusal :=
  .next <|
    let was := getB s safeStat safeStat_Pen
    let s := setB (setB s safeStat (if sp then safeStat_Sprail else safeStat_Wrail) false) safeStat safeStat_Pen false
    refreshOuts (if was then lineOff s else s)

/-- CHANNEL_LOSS: the technologies have differed for 2 ms, or one of them has failed a check of its own (R488). The event's hold makes the
Warden withdraw at once; where it is the Warden that is lost, the safety processor does not wait for its next cycle. -/
def execChannelLoss (tech cause : BitVec 32) (s : State) : Host.Outcome State Fault Refusal :=
  .next <|
    let s := demand s 0
    let s := if Config.wardenLost tech then
        refreshOuts { (setB s safeStat safeStat_Sprail false) with safe := { s.safe with switchP := 0 } } else s
    event s 0x0E12 4 0 [tech, cause]

/-! ## Sealed configuration (R489–R491) -/

/-- SEAL_SWITCH_CHANGE: in operation, a change only shows (R490). -/
def execSealSwitchChange (switches : BitVec 16) (loop : Bool) (s : State) : Host.Outcome State Fault Refusal :=
  .next <|
    if getF s safeCfg safeCfg_Switches = switches.toNat ∧ s.safe.loopClosed = loop then s
    else
      let s := { s with safe := { s.safe with loopClosed := loop } }
      let s := setB (setF s safeCfg safeCfg_Switches switches.toNat) safeStat safeStat_Setpend true
      notice s 0x0E0F 0 [pw switches.toNat]

/-- The committed connection table. -/
def connTable (s : State) : List (Word × Word) := (upto 8).map fun k => (getReg s (safeConn k), getReg s (safeConnseed k))

/-- Its CRC-32, over the registers in address order, each little-endian (assumption log 39, DEDUCED). -/
def tableCrc (s : State) : Word :=
  BitVec.ofNat 32 (crc32 ((connTable s).flatMap fun c => wordBytes c.1 ++ wordBytes c.2))

/-- INST after a restart: the pairs that the setting leaves out read 0b11, the others closed (R494, R509). -/
def showPairs (s : State) : State :=
  forEach (upto 8) s fun s j => setF s safeInst safeInst_Pair
    (nbitSet (nbitSet (getF s safeInst safeInst_Pair) (2 * j) (!pairUsed s j)) (2 * j + 1) (!pairUsed s j))

/-- The restart of both technologies (R508); `switches` is what a power-on reset or keep-domain-only survival reads of the
switches and the loop, none for HRSTN (R490). DGREM and the failure bits are kept (R509); STAT.DEGR takes its reset value 0, and degraded
mode, which the kept time carries on, shows there again with its next second (assumption log 82, DESIGN CHOICE). -/
def safeRestart (s : State) (switches : Option (Nat × Bool)) : State :=
  let adopted := getF s safeCfg safeCfg_Adopted
  let present := getF s safeCfg safeCfg_Switches
  let rem := getReg s safeDgrem
  let fail := getF s safeOutst safeOutst_Fail
  let x := s.safe
  let s := resetRegs s 0x600E0000 0x600F0000
  let s := setF (setReg s safeDgrem rem) safeOutst safeOutst_Fail fail
  match switches with
  | some (w, closed) =>
    let s := { s with safe := { safeReset with loopClosed := closed, read := w, sealed := closed, stored := x.stored, storedCrc := x.storedCrc } }
    showPairs (setF (setF s safeCfg safeCfg_Switches w) safeCfg safeCfg_Adopted (if closed then w else x.stored.getD 0))
  | none =>
    let s := { s with safe := { safeReset with loopClosed := x.loopClosed, read := x.read, sealed := x.sealed, stored := x.stored, storedCrc := x.storedCrc } }
    showPairs (setF (setF s safeCfg safeCfg_Switches present) safeCfg safeCfg_Adopted adopted)

/-- The Warden at the edge of the first image commit of a boot (R490, R491). A read that found the loop closed adopts the table's CRC once:
a later HRSTN compares. -/
def safeBootCommit (s : State) : State :=
  let crc := tableCrc s
  let x := s.safe
  let s : State :=
    if x.sealed then
      let s := if x.stored = some x.read ∧ x.storedCrc = some crc then s
        else notice s 0x0E10 0 [pw (x.stored.getD 0), pw x.read]
      { s with safe := { s.safe with stored := some x.read, storedCrc := some crc, sealed := false } }
    else if x.stored = some (getF s safeCfg safeCfg_Switches) ∧ x.storedCrc = some crc then s
    else notice (setB s safeStat safeStat_Setpend true) 0x0E0F 0 [pw (getF s safeCfg safeCfg_Switches)]
  let s := { s with safe := { s.safe with checked := true, table := connTable s } }
  let adopted := getF s safeCfg safeCfg_Adopted
  let msg := setting s 15 15 == 1
  let bad := s.safe.stored.isNone || setting s 2 0 == 7 || (msg && s.safe.storedCrc != some crc)
  let s := setB s safeStat safeStat_Cfgok (!bad)
  let s := forEach (upto 8) s fun s k => setF s (safeConnst k) safeConnst_State
    (if msg && fget ((connTable s).getD k (0, 0)).1 safeConn_En == 1 then 1 else 0)
  if bad then event (demand s 0) 0x0E11 1 0 [pw adopted] else s

/-! ## Degraded mode (R504–R506) -/

/-- Degraded mode: STAT.DEGR shows it, or the remaining time that a restart has kept (R509). -/
def degraded (s : State) : Bool := getB s safeStat safeStat_Degr || getReg s safeDgrem != 0

/-- A single-channel fault that is new; `same` when it counts with the fault of the pair's other channel. -/
def singleFault (s : State) (id cause : Nat) (same : Bool) : State :=
  let known := (cellFind s.safe.faults id).isSome
  let s := { s with safe := { s.safe with faults := cellPut s.safe.faults id 0 } }
  if known || same then s
  else if dgSeconds s = 0 then demand s 0
  else if degraded s then
    event (demand { s with safe := { s.safe with second := true } } 0) 0x0E14 1 0 [Config.causeWord 0x0E14 cause]
  else
    let s := setReg (setB s safeStat safeStat_Degr true) safeDgrem (pw (dgSeconds s))
    notice s 0x0E0B 0 [Config.causeWord 0x0E0B cause, pw (dgSeconds s)]

/-- One more pass of a fault's own check; the fault ends with the 16th in a row (R506). -/
def faultPass (s : State) (id : Nat) : State :=
  match cellFind s.safe.faults id with
  | some n => { s with safe := { s.safe with faults := if 15 ≤ n then cellDel s.safe.faults id else cellPut s.safe.faults id (n + 1) } }
  | none => s

/-- The degraded time is over (R505). -/
def degradedOver (s : State) : State :=
  if degraded s && getReg s safeDgrem == 0 && !getB s safeStat safeStat_Expired then
    event (demand (setB s safeStat safeStat_Expired true) 0) 0x0E0C 1 0 [Config.causeWord 0x0E0C 0]
  else s

/-- DEGRADED_SECOND: the remaining time counts down (R505). -/
def execDegradedSecond (s : State) : Host.Outcome State Fault Refusal :=
  .next (if getReg s safeDgrem != 0 then
      degradedOver (setReg (setB s safeStat safeStat_Degr true) safeDgrem (getReg s safeDgrem - 1)) else s)

/-- DEGRADED_EXPIRED: the remaining time is zero (R505). -/
def execDegradedExpired (s : State) : Host.Outcome State Fault Refusal := .next (degradedOver s)

/-- The DGACK key (R506). -/
def dgack (s : State) : State :=
  if degraded s && s.safe.faults.isEmpty then
    let s := setB (setB s safeStat safeStat_Degr false) safeStat safeStat_Expired false
    setReg { s with safe := { s.safe with second := false } } safeDgrem 0
  else s

/-! ## Inputs and test pulses (R492–R494) -/

/-- The state of a pair (INST of R509). -/
def pairSt (s : State) (j : Nat) : Nat := getF s safeInst safeInst_Pair / 4 ^ j % 4

def setPairSt (s : State) (j v : Nat) : State :=
  setF s safeInst safeInst_Pair (nbitSet (nbitSet (getF s safeInst safeInst_Pair) (2 * j) (v % 2 == 1)) (2 * j + 1) (v / 2 == 1))

/-- The state that a pair's channels give: a discrepancy ends when both channels are open (R493). -/
def refreshPair (s : State) (j : Nat) : State :=
  let a := nbit s.safe.opened j
  let b := nbit s.safe.opened (8 + j)
  let s := if a && b then { s with safe := { s.safe with disc := nbitSet s.safe.disc j false } } else s
  setPairSt s j (if nbit s.safe.disc j then 2 else if a || b then 1 else 0)

/-- SAFETY_CHANNEL_OPEN: channel A or B of pair j has read low for 50 µs; the 400 µs from the start of its own dropout do not count (R493). -/
def execSafetyChannelOpen (j : Fin 8) (chB : Bool) (s : State) : Host.Outcome State Fault Refusal :=
  .next <|
    if !pairUsed s j || nbit s.safe.blank (bit chB) then s
    else
      let was := pairSt s j
      let s := { s with safe := { s.safe with opened := nbitSet s.safe.opened (if chB then 8 + j.val else j.val) true } }
      let s := refreshPair s j
      demandInput (if was = 0 then notice s 0x0E01 0 [pw j] else s)

/-- SAFETY_CHANNEL_CLOSED: a channel reads high again (R493). -/
def execSafetyChannelClosed (j : Fin 8) (chB : Bool) (s : State) : Host.Outcome State Fault Refusal :=
  .next <|
    if !pairUsed s j then s
    else refreshPair { s with safe := { s.safe with opened := nbitSet s.safe.opened (if chB then 8 + j.val else j.val) false } } j

/-- DISCREPANCY: one channel stays open and the other closed for the discrepancy time (R493). -/
def execDiscrepancy (j : Fin 8) (s : State) : Host.Outcome State Fault Refusal :=
  .next <|
    let a := nbit s.safe.opened j
    let b := nbit s.safe.opened (8 + j)
    if !pairUsed s j || a == b || nbit s.safe.disc j then s
    else
      let s := refreshPair { s with safe := { s.safe with disc := nbitSet s.safe.disc j true } } j
      event (demandInput s) 0x0E02 1 0 [pw j, pw (bit b)]

/-- TPO_DROPOUT_START: a test-pulse output goes low for 300 µs; its channels are not counted for 400 µs (R492). -/
def execTpoDropoutStart (outB : Bool) (s : State) : Host.Outcome State Fault Refusal :=
  .next { s with safe := { s.safe with dropout := nbitSet s.safe.dropout (bit outB) true, blank := nbitSet s.safe.blank (bit outB) true } }

/-- TPO_DROPOUT_END: the output returns high (R492). -/
def execTpoDropoutEnd (outB : Bool) (s : State) : Host.Outcome State Fault Refusal :=
  .next { s with safe := { s.safe with dropout := nbitSet s.safe.dropout (bit outB) false } }

/-- A channel fault of pair j found, or a pass, at a low check (R492). -/
def channelCheck (s : State) (outB : Bool) (high : BitVec 8) (j : Nat) : State :=
  let id := j + 8 * bit outB
  let fld := if outB then safeInflt_Chb else safeInflt_Cha
  if !pairUsed s j then s
  else if high.getLsbD j then
    let s := if (cellFind s.safe.faults id).isSome then s else event s 0x0E03 1 0 [pw j, pw (bit outB)]
    singleFault (setFbit s safeInflt fld j true) id 1 (s.safe.recent.contains (j + 8 * bit (!outB)))
  else
    let s := faultPass s id
    setFbit s safeInflt fld j (cellFind s.safe.faults id).isSome

/-- A fault of a test-pulse output (R492). -/
def tpoFault (s : State) (outB : Bool) : State :=
  let id := 16 + bit outB
  let s := if (cellFind s.safe.faults id).isSome then s else event s 0x0E04 1 0 [pw (bit outB)]
  singleFault (setB s safeInflt (if outB then safeInflt_Tpob else safeInflt_Tpoa) true) id 2 false

/-- TPO_LOW_CHECK: at 200 µs, which channels of the output read high, and whether it does itself (R492). -/
def execTpoLowCheck (outB : Bool) (high : BitVec 8) (self : Bool) (s : State) : Host.Outcome State Fault Refusal :=
  .next <|
    if !nbit s.safe.dropout (bit outB) then s
    else
      let s := forEach (upto 8) s fun s j => channelCheck s outB high j
      let found := ((upto 8).filter fun j => pairUsed s j && high.getLsbD j).map fun j => j + 8 * bit outB
      let s := { s with safe := { s.safe with recent := found } }
      if self then tpoFault s outB else s

/-- TPO_HIGH_CHECK: at 400 µs the output must read high, and its channels count again (R492, R493). -/
def execTpoHighCheck (outB : Bool) (high : Bool) (s : State) : Host.Outcome State Fault Refusal :=
  .next <|
    if nbit s.safe.dropout (bit outB) then s
    else
    let s := { s with safe := { s.safe with blank := nbitSet s.safe.blank (bit outB) false } }
    if high then
      let s := faultPass s (16 + bit outB)
      setB s safeInflt (if outB then safeInflt_Tpob else safeInflt_Tpoa) (cellFind s.safe.faults (16 + bit outB)).isSome
    else tpoFault s outB

/-! ## Safe state, outputs, feedback (R496–R500) -/

/-- BREAKER_DELAY_END: BRKDLY has elapsed after a demand (R496). -/
def execBreakerDelayEnd (s : State) : Host.Outcome State Fault Refusal :=
  .next (if s.safe.brkPend then refreshOuts { s with safe := { s.safe with brkPend := false, brkOpen := true } } else s)

/-- The feedback of an output agrees with its command: high while it is de-energised (R500). -/
def feedbackOk (s : State) (k : Nat) : Bool :=
  getFbit s safeOutst safeOutst_Cfb k == !getFbit s safeOutst safeOutst_Ener k

/-- The conditions of a RESTART (R498). -/
def restartOk (s : State) : Bool :=
  (upto 8).all (fun j => pairSt s j == 0 || !pairUsed s j) && !s.flt.tripLine &&
    (upto 8).all (fun k => getF s (safeConnst k) safeConnst_State != 4 && !getB s (safeConnst k) safeConnst_Rdemand) &&
    getB s safeStat safeStat_Cfgok && !getB s safeStat safeStat_Expired && !s.safe.second &&
    (upto 8).all (fun k => !getFbit s safeOutst safeOutst_Fail k || feedbackOk s k) && !s.flt.hold && decide (40 ≤ s.safe.cycles)

/-- The RESTART key (R498). -/
def restart (s : State) : State :=
  if restartOk s then
    let s := { s with safe := { s.safe with brkOpen := false, brkPend := false, ownHeld := false } }
    let s := setB (setB (setB (setB s safeStat safeStat_Safest false) safeStat safeStat_Pen true) safeStat safeStat_Wrail true) safeStat safeStat_Sprail true
    let s := setF s safeOutst safeOutst_Fail 0
    let s := notice (refreshOuts s) 0x0E0D 0 []
    forEach (upto 48) s fun s p => pairRefresh s p false
  else notice s 0x0E0E 0 [getReg s safeStat]

/-- A write of SAFE.OUTREQ (R499). -/
def outreqWrite (s : State) (v : Nat) : State := refreshOuts (setF s safeOutreq safeOutreq_Req v)

/-- A contactor failure of output k (R500). -/
def contactorFault (s : State) (k : Nat) : State :=
  let on := getFbit s safeOutst safeOutst_Ener k
  let s := setFbit s safeOutst safeOutst_Fail k true
  if on then event (refreshOuts s) 0x0E05 1 0 [pw k]
  else event (demand s 0) (if k < 2 then 0x0E07 else 0x0E06) 3 0 [pw k]

/-- CONTACTOR_FEEDBACK_TIMEOUT: TFB after a change of SOUTk, CFBk has this level (R500). -/
def execContactorFeedbackTimeout (k : Fin 8) (level : Bool) (s : State) : Host.Outcome State Fault Refusal :=
  .next <|
    if !outUsed s k || !nbit s.safe.moved k then s
    else
      let s := setFbit { s with safe := { s.safe with moved := nbitSet s.safe.moved k false } } safeOutst safeOutst_Cfb k level
      if feedbackOk s k then s else contactorFault s k

/-- CONTACTOR_DIFFERENCE: outside TFB, CFBk had this level for 20 ms (R500). -/
def execContactorDifference (k : Fin 8) (level : Bool) (s : State) : Host.Outcome State Fault Refusal :=
  .next <|
    if !outUsed s k || nbit s.safe.moved k then s
    else
      let s := setFbit s safeOutst safeOutst_Cfb k level
      if feedbackOk s k || getFbit s safeOutst safeOutst_Fail k then s else contactorFault s k

/-! ## Safe messages (R501–R503) -/

/-- CHAN of a virtual channel. -/
def chanCode (vc1 : Bool) : Nat := if vc1 then 0x5A else 0xA5

/-- DATA of a message that is sent now: DEMAND while a source that is no message holds the safe state, from its demand to an accepted RESTART
(assumption log 39, DEDUCED). -/
def msgData (s : State) : Nat := bit s.safe.ownHeld + 2 * bit (degraded s) + 4 * bit s.flt.hold

/-- A copy's payload. -/
def msgPayload (s : State) (k : Nat) (vc1 : Bool) (time : Nat) : List Nat :=
  let c := s.safe.table.getD k (0, 0)
  let body := beBytes 2 k ++ beBytes 2 (getConn s k).tx ++ beBytes 8 time ++ beBytes 2 (msgData s) ++ beBytes 2 (chanCode vc1) ++
    List.replicate 12 0
  body ++ beBytes 4 (crc32From (c.2.toNat ^^^ chanCode vc1) body)

/-- A connection of the table in use. -/
def connOn (s : State) (k : Nat) : Bool := getF s (safeConnst k) safeConnst_State != 0

/-- The partner's node address of a connection. -/
def connNode (s : State) (k : Nat) : Nat := fget (s.safe.table.getD k (0, 0)).1 safeConn_Node

/-- SAFE_MESSAGE_SEND: both technologies send their copies on every connection, as SAFE frames on virtual channels 0 and 1 (R501, R519). -/
def execSafeMessageSend (s : State) : Host.Outcome State Fault Refusal :=
  .next <|
    let t := (nowTime s).toNat
    nextFree (forEach (upto 8) (freshSent s) fun s k =>
      if connOn s k then
        let c := getConn s k
        let m0 := msgPayload s k false t
        let m1 := msgPayload s k true t
        let s := setConn s k { c with tx := (c.tx + 1) % 65536, sent := [m0, m1] }
        sendNew (sendNew s (connNode s k) 0 0x0B 0 m0) (connNode s k) 1 0x0B 0 m1
      else s)

/-- A copy is valid (R502). -/
def copyValid (s : State) (k : Nat) (vc1 : Bool) (m : List Nat) : Bool :=
  let c := s.safe.table.getD k (0, 0)
  let last := if vc1 then (getConn s k).last1 else (getConn s k).last0
  let seq := beNat ((m.drop 2).take 2)
  let time := beNat ((m.drop 4).take 8)
  let now := (nowTime s).toNat
  m.length == 32 && crc32From (s.dev.uid.toNat % 4294967296 ^^^ chanCode vc1) (m.take 28) == beNat (m.drop 28) &&
    beNat ((m.drop 14).take 2) == chanCode vc1 && beNat (m.take 2) == fget c.1 safeConn_Rconn &&
    decide (now - time ≤ 1000000 * fget c.1 safeConn_Wd) &&
    match last with
    | some (q, t) => decide (1 ≤ (seq + 65536 - q) % 65536) && decide ((seq + 65536 - q) % 65536 ≤ 255) && decide (t ≤ time)
    | none => true

/-- DATA applies (R495, R503). -/
def applyData (s : State) (k data state : Nat) : State :=
  let a := safeConnst k
  let was := getB s a safeConnst_Rdemand
  let s := setB (setF s a safeConnst_State state) a safeConnst_Rdemand (nbit data 0)
  if nbit data 0 then
    let s := demandMsg s
    if was then s else event s 0x0E09 1 0 [pw k, pw state]
  else s

/-- The copies of a connection that still wait for the other channel's, once a new one comes: those at most 255 away. -/
def waitingCopies (l : List Copy) (x : Copy) : List Copy :=
  l.filter fun y => y.seq != x.seq && (decide ((x.seq + 65536 - y.seq) % 65536 ≤ 255) || decide ((y.seq + 65536 - x.seq) % 65536 ≤ 255))

/-- A valid copy: its SEQ is complete with an equal partner; a partner that differs demands the safe state; on one path
the copy applies alone (R503). -/
def takeCopy (s : State) (k : Nat) (x : Copy) : State :=
  let c := getConn s k
  let c := if x.chan then { c with last1 := some (x.seq, x.time) } else { c with last0 := some (x.seq, x.time) }
  let rest := waitingCopies c.copies x
  match c.copies.find? fun y => y.chan != x.chan && y.seq == x.seq with
  | some y =>
    let s := setConn s k { c with copies := rest }
    if y.time = x.time ∧ y.data = x.data then applyData (faultPass s (32 + k)) k x.data 2
    else event (demandBy s 0 false) 0x0E0A 1 0 [pw k, pw x.seq]
  | none =>
    let s := setConn s k { c with copies := rest ++ [x] }
    if getF s (safeConnst k) safeConnst_State = 3 then applyData s k x.data 3 else s

/-- SAFE_MESSAGE_RECEIVE: a SAFE frame arrives on port n with a copy for connection k, on virtual channel 0 or 1 (R502). -/
def execSafeMessageReceive (n k : Fin 8) (hdr : BitVec 64) (m : List (BitVec 8)) (crc : BitVec 32) (s : State) : Host.Outcome State Fault Refusal :=
  .next <|
    let b := m.map fun x => x.toNat
    let vc1 := hdrVc hdr == 1
    let (s, ok) := arriveMine s n 0x0B hdr b crc
    if !ok || !connOn s k then s
    else if copyValid s k vc1 b then
      nextFree (takeCopy s k { chan := vc1, seq := beNat ((b.drop 2).take 2), time := beNat ((b.drop 4).take 8), data := beNat ((b.drop 12).take 2) })
    else countF (nextFree s) (safeConnst k) safeConnst_Bad 1

/-- SAFE_ONE_PATH: for WD/2, one channel (`missing1`: channel 1) gave no valid copy and the other did (R503). -/
def execSafeOnePath (k : Fin 8) (missing1 : Bool) (s : State) : Host.Outcome State Fault Refusal :=
  .next <|
    let st := getF s (safeConnst k) safeConnst_State
    match (getConn s k).copies.reverse.find? fun y => y.chan != missing1 with
    | some y =>
      if st = 0 ∨ st = 3 then s
      else
        let s := event s 0x0E08 1 0 [pw k, pw (bit missing1)]
        singleFault (applyData s k y.data 3) (32 + k.val) 3 false
    | none => s

/-- SAFE_CONNECTION_LOST: no complete SEQ and no one-path copy for WD (R503). -/
def execSafeConnectionLost (k : Fin 8) (s : State) : Host.Outcome State Fault Refusal :=
  .next <|
    let st := getF s (safeConnst k) safeConnst_State
    if st = 0 ∨ st = 4 then s
    else event (demandMsg (setF s (safeConnst k) safeConnst_State 4)) 0x0E09 1 0 [pw k, pw 4]

/-- A SAFE set is legal (R509). -/
def safeSetOk (s : State) : Bool := (upto 8).all fun k => decide (3 ≤ getF s (safeConn k) safeConn_Wd)

end Sys2Proof.Machine
end

