-- ==== Sys2Proof/Machine/Commit.lean ====
section
/-! DEFINITION. Staging and commit (R54, R68–R79, R653): staged values, the sets a cut-off forms, their checks, what an
accepted set does at its edge. -/

namespace Sys2Proof.Machine

/-! ## Staged values -/

/-- A polder stages bits of a register (R10, R68). -/
def stageWrite (s : State) (p a : Nat) (mask val : Word) : State :=
  if mask = 0 then s
  else
    let t := s.tick
    let k := metaKey (blockNo a) p
    let old := (t.staged.find? fun v => v.pol == p && v.addr == a).getD { pol := p, addr := a, mask := 0, val := 0 }
    let new : Staged := { old with mask := old.mask ||| mask, val := (old.val &&& ~~~ mask) ||| (val &&& mask) }
    let m := (cellFind t.stageMeta k).getD { age := 0, noticed := false, go := false }
    let rest := t.staged.filter fun v => !(v.pol == p && v.addr == a)
    { s with tick := { t with staged := rest ++ [new], stageMeta := cellPut t.stageMeta k m } }

/-- The staged values of a polder in a block. -/
def stagedOf (s : State) (blk p : Nat) : List Staged := s.tick.staged.filter fun v => v.pol == p && blockNo v.addr == blk

/-- A polder asks for the commit of a block (R68). -/
def commitGo (s : State) (p blk : Nat) : State :=
  if commitBlocks.contains blk then
    let k := metaKey blk p
    let m := (cellFind s.tick.stageMeta k).getD { age := 0, noticed := false, go := false }
    { s with tick := { s.tick with stageMeta := cellPut s.tick.stageMeta k { m with go := true } } }
  else s

/-- A polder drops what it has staged in a block (R72); what a cut-off has formed stays. -/
def commitDiscard (s : State) (p blk : Nat) : State :=
  if commitBlocks.contains blk then
    let t := s.tick
    let s := { s with tick := { t with staged := t.staged.filter (fun v => !(v.pol == p && blockNo v.addr == blk))
                                       stageMeta := cellDel t.stageMeta (metaKey blk p) } }
    let s := setFbit s (blockStagestat blk) stagestat_Ref p false
    let formed := s.tick.sets.any fun c => c.pol == p && c.blk == 3
    if blk = 3 ∧ ¬ formed then dropSub s p else s
  else s

/-- The blocks of a block code's bit in GCOMMIT (R73). -/
def codeBlocks (c : Nat) : List Nat := commitBlocks.filter fun b => blockCode b == c

/-- A write of TICK.GCOMMIT with GO. -/
def gcommit (s : State) (p mask : Nat) : State :=
  forEach ((upto 25).filter fun c => decide (1 ≤ c) && nbit mask c) s fun s c => forEach (codeBlocks c) s fun s b => commitGo s p b

/-- The cut-off forms the sets of the coming edge (R54). A formed set has left the staged values: from the cut-off to the edge
STAGESTAT.PEND reads 0 for it unless values are staged anew, and CPEND reads 1 (assumption log 75, DESIGN CHOICE). -/
def formSets (s : State) : State :=
  forEach (s.tick.stageMeta.filter fun m => m.2.go) s fun s m =>
    let blk := m.1 / 8
    let p := m.1 % 8
    let t := s.tick
    let done := { s with tick := { t with stageMeta := cellPut t.stageMeta m.1 { m.2 with go := false } } }
    if blk = 3 then
      match (polImg s p).loaded with
      | some u => { done with tick := { done.tick with sets := t.sets ++ [{ pol := p, blk := 3, vals := regsVals u }] } }
      | none => { s with tick := { t with stageMeta := cellDel t.stageMeta m.1 } }
    else
      let vals := stagedOf s blk p
      let rest := t.staged.filter fun v => !(v.pol == p && blockNo v.addr == blk)
      { done with tick := { done.tick with staged := rest, sets := t.sets ++ [{ pol := p, blk := blk, vals := vals }] } }

/-- STALE_STAGE_NOTICE: staged values of a block have been uncommitted for 256 ticks (R71). -/
def execStaleStageNotice (blk : Fin 23) (p : Fin 8) (s : State) : Host.Outcome State Fault Refusal :=
  .next <|
    match cellFind s.tick.stageMeta (metaKey blk p) with
    | some m =>
      let some' := !(stagedOf s blk p).isEmpty || (blk.val == 3 && (polImg s p).loaded.isSome)
      if 256 ≤ m.age ∧ ¬ m.noticed ∧ some' then
        let s := { s with tick := { s.tick with stageMeta := cellPut s.tick.stageMeta (metaKey blk p) { m with noticed := true } } }
        notice s (blockCode blk * 0x100 + 0xF0) 0 [pw p]
      else s
    | none => s

/-- The ages of staged values at an edge. -/
def stageAges (s : State) : State :=
  { s with tick := { s.tick with stageMeta := s.tick.stageMeta.map fun m => (m.1, { m.2 with age := m.2.age + 1 }) } }

/-! ## Tick-tracking carriers (R297) -/

/-- The cells of enabled cell-link ports. -/
def liveCells (s : State) : List Nat :=
  ((upto 48).filter fun n => getB s (clnkPcfg n) clnkPcfg_En).flatMap fun n => (upto (getF s (clnkPcfg n) clnkPcfg_Nexp)).map fun i => 24 * n + i

def cellCar (s : State) (i : Nat) : Nat := getF s (pwmCelltim i) pwmCelltim_Car

/-- The carriers that track the tick: those that an entry of an enabled port names, of whatever position (R297). -/
def trackingCars (s : State) : List Nat :=
  let named := ((upto 48).filter fun n => getB s (clnkPcfg n) clnkPcfg_En).flatMap fun n => (upto 24).map fun i => cellCar s (24 * n + i)
  (upto 32).filter named.contains

/-- Their periods under a new tick period, but for those that a set names. -/
def trackCarriers (old s : State) (named : Nat → Bool) : State :=
  if period old = period s then s
  else forEach (trackingCars s) s fun s k =>
    if named (pwmCarper k) then s else setReg s (pwmCarper k) (fset 0 pwmCarper_Period (30 * period s))

/-- A carrier's period in steps of 1/16 count. -/
def carP16 (s : State) (k : Nat) : Nat := 16 * getF s (pwmCarper k) pwmCarper_Period + getF s (pwmCarper k) pwmCarper_Frac

/-- A LOCK carrier that is enabled divides the tick (R279). -/
def lockOk (s : State) (k : Nat) : Bool :=
  !getB s (pwmCarctl k) pwmCarctl_En || getB s (pwmCarctl k) pwmCarctl_Sync || 480 * period s % max 1 (carP16 s k) == 0

/-! ## The checks of each block, on the state the sets lead to (`s`); `old` is the state before the edge -/

/-- The carrier of a cell is of its port's polder, LOCK, and has the tick as its period (R296). -/
def cellCarOk (s : State) (i : Nat) : Bool :=
  let k := cellCar s i
  resPol s (resCarrier k) == portPol s (i / 24) && !getB s (pwmCarctl k) pwmCarctl_Sync && carP16 s k == 480 * period s

/-- A period leaves the cells' bootstrap refresh its time (R330). -/
def blimOk (s : State) : Bool :=
  decide (10 * period s + 20 * getF s clnkBootcfg clnkBootcfg_Rfw ≤ 1000 * getF s clnkBootcfg clnkBootcfg_Blim)

/-- The checks of a new period: its range, the status return time of every chain, LOCK carriers, those that track the tick at their new
period, converter slots (R75, R279, R297, R330, R354). -/
def periodOk (s : State) : Bool :=
  let per := period s
  let runs := (upto 48).filter fun n => portState s n == 5
  decide (1000 ≤ per) && decide (per ≤ 10000) &&
    runs.all (fun n => decide (tretNs (portN s n) (symbolNs (getF s (clnkPstat n) clnkPstat_Rate)) (getPort s n).sumTc + 1000 ≤ 10 * per)) &&
    (upto 32).all (fun k => (trackingCars s).contains k || lockOk s k) && groupsFit s per && blimOk s

/-- The checks of a new tempo of region `r` (R75, R76). -/
def tempoOk (s : State) (r : Nat) : Bool :=
  nbit (s.img.tempos.getD r 15) (getF s (tickRtempo r) tickRtempo_Tempo) && decide (tempoMinMv (getF s (tickRtempo r) tickRtempo_Tempo) ≤ s.tick.vddr.getD r 0)

/-- TICK (R62, R75, R76, R79, R81, R279, R297, R330, R354). -/
def tickSetOk (old s : State) (x : CSet) : Bool :=
  let tempos := (upto 4).filter fun r => touches x.vals (tickRtempo r)
  let timing := touches x.vals tickPeriod
  ((upto 16).all fun b => csrcOk s.img.resmap x.pol (getReg s (tickCsrc x.pol b))) &&
    (!(timing || !tempos.isEmpty) || freeboardAll s (fvMHz old)) && tempos.all (tempoOk s) && (!timing || periodOk s)

/-- PWM (R276, R279, R290, R296, R298). -/
def pwmSetOk (s : State) (x : CSet) : Bool :=
  let p := x.pol
  let ownCar (k : Nat) : Bool := resPol s (resCarrier k) == p
  let moved (k : Nat) : Bool := touches x.vals (pwmCarctl k) || touches x.vals (pwmCarper k) || touches x.vals (pwmCarph k)
  ((upto 32).filter ownCar).all (fun k => getF s (pwmCarctl k) pwmCarctl_Shape != 3 && decide (150 ≤ getF s (pwmCarper k) pwmCarper_Period) &&
    (!moved k || lockOk s k)) &&
  (pairsOf s p).all (fun i => getF s (pwmPctl i) pwmPctl_Mode != 3 && getF s (pwmPctl i) pwmPctl_Tripst != 3 &&
    getF s (pwmPctl i) pwmPctl_Loadat != 3 &&
    ((getF s (pwmPctl i) pwmPctl_Mode == 0 && !touches x.vals (pwmPctl i)) || ownCar (getF s (pwmPctl i) pwmPctl_Car)) &&
    (upto 32).all fun c => !getFbit s (pwmPctrip i) pwmPctrip_Mask c || resPol s (resCmp c) == p) &&
  ((upto 1152).filter fun i => portPol s (i / 24) == p && (touches x.vals (pwmCelltim i) || ((liveCells s).contains i && moved (cellCar s i)))).all
    (cellCarOk s)

/-- CLNK (R296, R339, R314, R326, R330). -/
def clnkSetOk (s : State) (x : CSet) : Bool :=
  let p := x.pol
  let d := getF s (clnkDapply p) clnkDapply_Dapply
  decide (200 ≤ d) && decide (d ≤ 10000) &&
  (portsOf s p).all (fun n =>
    let e := getF s (clnkPcfg n) clnkPcfg_Nexp
    let m := getF s (clnkPcfg n) clnkPcfg_Nmin
    decide (1 ≤ m) && decide (m ≤ e) && decide (e ≤ 24) && getF s (clnkPcfg n) clnkPcfg_Rmax != 3 && getF s (clnkPcfg n) clnkPcfg_Misslim != 0 &&
      (portState s n != 5 || timingOk s n (5 * d) (10 * period s))) &&
  ((liveCells s).filter fun i => portPol s (i / 24) == p && touches x.vals (clnkPcfg (i / 24))).all (cellCarOk s) &&
  (p != 0 ||
    (let blim := getF s clnkBootcfg clnkBootcfg_Blim
     let rfw := getF s clnkBootcfg clnkBootcfg_Rfw
     decide (40 ≤ blim) && decide (blim ≤ 10000) && decide (40 ≤ rfw) && decide (rfw ≤ 1000) && blimOk s &&
       decide (100 ≤ getF s clnkTstcfg clnkTstcfg_Gap) && (upto 8).all fun i => decide (getF s (clnkGsclass i) clnkGsclass_Gsmin ≤ getF s (clnkGsclass i) clnkGsclass_Gsmax)))

/-- ENC (R257). -/
def encSetOk (s : State) (p : Nat) : Bool :=
  ((upto 4).filter fun n => encPol s n == p).all fun n =>
    let c := encCtl n
    decide (10 ≤ getF s c encCtl_Obw) && decide (getF s c encCtl_Obw ≤ 1000) && getF s c encCtl_Filt != 0 && decide (getF s c encCtl_Zmode < 2) &&
      decide (4 ≤ getF s (encCpr n) encCpr_Cpr) &&
      (!getB s (encCapctl n) encCapctl_Capen || resPol s (resCmp (getF s (encCapctl n) encCapctl_Capsel)) == p)

/-- POLD: no source bound twice, no reserved bits in SOURCE (R400, R420). -/
def poldSetOk (s : State) : Bool :=
  let w (k : Nat) : Nat := (getReg s (poldBind k)).toNat / 65536 % 32768
  (upto 32).all fun k => !getB s (poldBind k) poldBind_En ||
    ((!getB s (poldBind k) poldBind_Kind || decide (getF s (poldBind k) poldBind_Source < 4)) &&
      (upto 32).all fun j => j == k || !getB s (poldBind j) poldBind_En || w j != w k)

/-- FLT.TEMPLIM (R483). -/
def fltSetOk (s : State) : Bool :=
  let w := getF s fltTemplim fltTemplim_Warn
  let t := getF s fltTemplim fltTemplim_Trip
  decide (60 ≤ w) && decide (w < t) && decide (t ≤ 124)

/-- The check of a register set by block number. -/
def blockOk (old s : State) (x : CSet) : Bool :=
  match x.blk with
  | 1 => clkFieldsOk s && freeboardAll s (fvMHz old)
  | 2 => tickSetOk old s x
  | 4 => poldSetOk s
  | 5 => culvSetOk s ((upto 8).any fun w => touches x.vals (culvWheel w))
  | 6 => sluSetOk s x.pol
  | 8 => acqSetOk s x.pol
  | 9 => cmpSetOk s x.pol
  | 10 => pwmSetOk s x
  | 11 => clnkSetOk s x
  | 12 => encSetOk s x.pol
  | 13 => fltSetOk s
  | 14 => safeSetOk s
  | 15 => rlmSetOk s x.pol
  | 16 => sqSetOk s 0 (getReg old (sqCfg 0))
  | 17 => sqSetOk s 1 (getReg old (sqCfg 1))
  | 18 => sqSetOk s 2 (getReg old (sqCfg 2))
  | 19 => sqSetOk s 3 (getReg old (sqCfg 3))
  | 20 => keepSetOk s
  | _ => true

/-- The RESULT of the checks of a sub-image at its commit (R454): rows 8 and 9, retired engines; 0 where they pass. -/
def imgCode (old s : State) (p : Nat) (u : SubImage) : Nat :=
  firstFail [(8, row8 s.img.tempos (period s) (fvLow s (min (fvMHz old) (fvMHz s))) u), (9, row9 (runLayout old p) u), (0xC, retiredOk old p u)]

/-- The state that sets lead to: their values, tick-tracking carriers, the tables of sub-images that take over at this edge or
that the check of polder `force` asks for. -/
def candidate (s : State) (sets : List CSet) (force : Option Nat) : State :=
  let now (x : CSet) : Bool := x.blk != 3 || force == some x.pol || (match (polImg s x.pol).loaded with
    | some u => !needsMigration s x.pol u
    | none => false)
  let used := sets.filter now
  let s' := forEach used s fun s x =>
    let s := if x.blk = 3 then match (polImg s x.pol).loaded with
        | some u => installTables s x.pol u false
        | none => s
      else s
    applyVals s x.vals
  trackCarriers s s' fun a => used.any fun x => touches x.vals a

/-- The RESULT that a sub-image among `sets` gets from its own checks (R454); 0 for a set of registers. -/
def setCode (s : State) (sets : List CSet) (x : CSet) : Nat :=
  match (if x.blk = 3 then (polImg s x.pol).loaded else none) with
  | some u => imgCode s (candidate s sets (some x.pol)) x.pol u
  | none => 0

/-- A set passes its checks; a sub-image also those of every block that its REGS name. -/
def setOk (s : State) (sets : List CSet) (x : CSet) : Bool :=
  if x.blk = 3 then
    let c := candidate s sets (some x.pol)
    (polImg s x.pol).loaded.isSome && setCode s sets x == 0 && commitBlocks.all fun b =>
      b == 3 || (x.vals.all fun v => blockNo v.addr != b) || blockOk s c { x with blk := b }
  else blockOk s (candidate s sets none) x

/-- A set of ACQ, or a sub-image whose REGS names ACQ. -/
def setsAcq (x : CSet) : Bool := x.blk == 8 || (x.blk == 3 && x.vals.any fun v => blockNo v.addr == 8)

/-- One round of checks (R653): sets of ACQ in polder order, each with the accepted ones before it (R354). Of a refused set its RESULT. -/
def judgeRound (s : State) (sets : List CSet) : List CSet × List (CSet × Nat) :=
  let base := sets.filter fun x => !setsAcq x
  let acq := (upto 8).flatMap fun p => sets.filter fun x => setsAcq x && x.pol == p
  let r := acq.foldl (fun (r : List CSet × List (CSet × Nat)) x =>
    let l := base ++ r.1 ++ [x]
    if setOk s l x then (r.1 ++ [x], r.2) else (r.1, r.2 ++ [(x, setCode s l x)])) ([], [])
  let ok (x : CSet) : Bool := if setsAcq x then r.1.contains x else setOk s sets x
  (sets.filter ok, r.2 ++ ((base.filter fun x => !ok x).map fun x => (x, setCode s sets x)))

/-- The rounds repeat until no set is refused: the accepted sets, and the refused ones with their RESULT. -/
def judge (s : State) : Nat → List CSet → List CSet × List (CSet × Nat)
  | 0, l => (l, [])
  | n + 1, l =>
    let a := judgeRound s l
    if a.2.isEmpty then a
    else
      let b := judge s n a.1
      (b.1, a.2 ++ b.2)

/-! ## At the edge -/

/-- The comparators that a pair names and that are latched trip it (R290). -/
def cmpTripPair (s : State) (p : Nat) : State := if namedCmpSet s p then cmpTrip s p else s

/-- The filtered line of an input that is disabled is not active (R288; assumption log 69). -/
def tripCtlCommit (s : State) (k : Nat) : State :=
  if getB s (pwmTripctl k) pwmTripctl_En then s else setFbit s pwmTripstat pwmTripstat_Level k false

/-- What changed registers start in their blocks; `old` holds the values before. -/
def commitHooks (old s : State) (l : List Nat) : State :=
  let hit (a : Nat) : Bool := l.contains a
  let inBlk (b : Nat) : Bool := l.any fun a => blockNo a == b
  let s := if inBlk 1 then clkCommit s (getF old clkCsel clkCsel_Prof) else s
  let s := forEach ((upto 32).filter fun k => hit (pwmCarctl k) || hit (pwmCarper k) || hit (pwmCarph k)) s applyCarSet
  let s := forEach ((upto 48).filter fun p => hit (pwmPctl p) || hit (pwmPdt p) || hit (pwmPctrip p)) s fun s p => pairRefs (cmpTripPair s p) p
  let s := forEach ((upto 16).filter fun k => hit (pwmTripctl k)) s tripCtlCommit
  let s := forEach ((upto 48).filter fun n => hit (clnkPcfg n)) s fun s n => portCommit s n (getReg old (clnkPcfg n))
  let s := forEach ((upto 48).filter fun n => hit (clnkDapply (portPol s n))) s fun s n => portCommit s n (getReg s (clnkPcfg n))
  let s := forEach ((upto 4).filter fun n => hit (encCtl n)) s fun s n => encCommit s n (getReg old (encCtl n))
  let s := forEach ((upto 8).filter fun g => hit (acqGctl g)) s fun s g => grpCommit s g (getReg old (acqGctl g))
  let s := forEach ((upto 32).filter fun c => hit (sluCfg c)) s fun s c => sluCommit s c (getReg old (sluCfg c))
  let s := forEach ((upto 32).filter fun c => hit (cmpCtl c)) s cmpCommit
  let s := if inBlk 15 then rlmCommit s else s
  let s := if inBlk 13 then refreshPins s else s
  latchAllConds s

/-- A committed set leaves no meta entry unless values were staged after its cut-off. -/
def settleMeta (s : State) (x : CSet) : State :=
  let k := metaKey x.blk x.pol
  let left := !(stagedOf s x.blk x.pol).isEmpty
  let m := (cellFind s.tick.stageMeta k).getD { age := 0, noticed := false, go := false }
  let metas := if left || m.go then cellPut s.tick.stageMeta k { age := 0, noticed := false, go := m.go } else cellDel s.tick.stageMeta k
  setFbit { s with tick := { s.tick with stageMeta := metas } } (blockStagestat x.blk) stagestat_Ref x.pol false

/-- TICK.TSTAT for a refused TICK set (R79). -/
def tickRefused (old s : State) (x : CSet) : State :=
  let s := if touches x.vals tickPeriod then setB s tickTstat tickTstat_Perref true else s
  forEach ((upto 4).filter fun r => touches x.vals (tickRtempo r)) s fun s r =>
    let s := setFbit s tickTstat tickTstat_Tempref r true
    let new := (x.vals.find? fun v => v.addr == tickRtempo r).map fun v => fget v.val tickRtempo_Tempo
    if old.tick.vddr.getD r 0 < tempoMinMv (new.getD 3) then setB s tickTstat tickTstat_Supref true else s

/-- A refused set: its values stay staged under those staged since, REF is set, the event is recorded (R70); a sub-image that its own checks
refuse shows their RESULT (R454). -/
def refuseSet (old s : State) (r : CSet × Nat) : State :=
  let x := r.1
  let s := if x.blk = 3 then (if r.2 = 0 then s else setF s (banked imgStat x.pol) imgStat_Result r.2)
    else
      let later := s.tick.staged
      forEach later (forEach x.vals { s with tick := { s.tick with staged := later.filter fun v => !(v.pol == x.pol && blockNo v.addr == x.blk) } }
        (fun s v => stageWrite s v.pol v.addr v.mask v.val)) fun s v =>
          if v.pol == x.pol && blockNo v.addr == x.blk then stageWrite s v.pol v.addr v.mask v.val else s
  let s := if x.blk = 2 then tickRefused old s x else s
  notice (setFbit s (blockStagestat x.blk) stagestat_Ref x.pol true) (blockCode x.blk * 0x100 + 0xF1) 0 [pw x.pol]

/-- The set of a scheduled period change that is due (R590); it is judged with the other sets of its edge (R653). -/
def pchSets (s : State) : List CSet :=
  if s.upd.pchDue then
    let v : Staged := { pol := 0, addr := tickPeriod, mask := fldMask tickPeriod_Period
                        val := fset 0 tickPeriod_Period (getF s updPchper updPchper_Period) }
    [{ pol := 0, blk := 2, vals := [v], sched := true }]
  else []

/-- What a scheduled period change leaves at the edge with tick count `n`: TBASE moves so that the edge keeps its target, and the node goes by
the new period until its next FOLLOW, or event 0x1207 (R590). -/
def pchDone (old s : State) (n : Nat) (ok : Bool) : State :=
  let s := setB { s with upd := { s.upd with pchDue := false } } updPchper updPchper_Valid false
  if ok then
    let t := get64 old (rlmTbaselo 0) + n * period old * 10
    let arg := getF old updPchper updPchper_Period
    let base := (t + 2 ^ 64 - n * arg * 10 % 2 ^ 64) % 2 ^ 64
    set64 { s with rlm := { s.rlm with follow := s.rlm.follow.map fun f => (base, arg, f.2.2) } } (rlmTbaselo 0) base
  else event s 0x1207 1 0 [Config.causeWord 0x1207 8, Config.causeWord 0x1207 9]

/-- The sets of the edge with tick count `n`: judged, applied, refused (R69, R70, R455, R458). -/
def commitSets (s : State) (n : Nat) : State :=
  let sets := s.tick.sets ++ pchSets s
  let (ok, bad) := judge s (sets.length + 1) sets
  let old := s
  let s := { s with tick := { s.tick with sets := [] } }
  let named := ok.flatMap fun x => if x.blk = 3 then [] else x.vals.map fun v => v.addr
  let s := forEach ok s fun s x =>
    if x.blk = 3 then
      match (polImg s x.pol).loaded with
      | some u =>
        if needsMigration s x.pol u then startMigration s x.pol u
        else applyVals (takeOver s x.pol u true false true) x.vals
      | none => s
    else applyVals s x.vals
  let imgVals := ok.flatMap fun x => if x.blk = 3 ∧ (polImg s x.pol).migrating.isNone then x.vals.map fun v => v.addr else []
  let s := trackCarriers old s fun a => named.contains a || imgVals.contains a
  let tracked := if period old = period s then [] else (trackingCars s).map pwmCarper
  let s := commitHooks old s (named ++ imgVals ++ tracked)
  let s := forEach (bad.filter fun x => !x.1.sched) (forEach (ok.filter fun x => !x.sched) s settleMeta) (refuseSet old)
  if s.upd.pchDue then pchDone old s n (ok.any fun x => x.sched) else s

/-- The takeovers at the end of a migration tick (R458, R460): votes over the new groups; ENTRY is void after tick loss. -/
def endMigrations (s : State) : State :=
  forEach (upto 8) s fun s p =>
    match (polImg s p).migrating with
    | some u =>
      if (cellFind s.dev.resetReq p).isSome || inReset s p then s
      else
        let old := s
        let x := polImg s p
        let s := takeOver (dropOuts s p) p u (!x.entryLost) true s.upd.actNote.isNone
        let vals := regsVals u
        migVotes (commitHooks old (applyVals s vals) (vals.map fun v => v.addr)) p u
    | none => s

end Sys2Proof.Machine
end

