-- ==== Sys2Proof/Machine/FltCmds.lean ====
section
/-! DEFINITION. The fault collector's commands (R475–R480): acknowledgement, capture, housekeeping sources, pins. -/

namespace Sys2Proof.Machine

/-! ## Acknowledgement, capture (R474, R476, R479) -/

/-- A held fault comes from a housekeeping source whose condition is present. -/
def hkPresent (s : State) (h : Held) : Bool :=
  match h.hk with
  | some b => getFbit s fltHknow fltHknow_Src b
  | none => false

/-- A write names a held fault: its scope, its class; class 4 cannot be acknowledged (R470). -/
def ackNames (p classes : Nat) (h : Held) : Bool := h.scope == p && decide (1 ≤ h.cls) && decide (h.cls ≤ 3) && nbit classes (h.cls - 1)

/-- A write to FLT.ACKp; bit c − 1 of `classes` stands for class c (R479). -/
def fltAckOp (s : State) (p classes : Nat) : State :=
  let refused := s.flt.held.any fun h => ackNames p classes h && hkPresent s h
  let s1 := { s with flt := { s.flt with held := s.flt.held.filter fun h => !(ackNames p classes h) || hkPresent s h } }
  let s2 := if refused then notice (setB s1 (fltSum p) fltSum_Ackref true) 0x0D02 p [pw p, getReg s fltHknow] else s1
  refreshFaults s2

/-- Writing 0b1 to FLT.CAPAp.VALID (R474). -/
def captureRearm (s : State) (p : Nat) : State :=
  setF (setB (setB s (fltCapa p) fltCapa_Valid false) (fltCapa p) fltCapa_Ovf false) (fltCapa p) fltCapa_Ovcnt 0

/-- A write to FLT.HKSTAT: a bit clears when its condition has ended (R476). -/
def hkstatClear (s : State) (w : Word) : State :=
  setReg s fltHkstat (getReg s fltHkstat &&& ~~~ (w &&& ~~~ (getReg s fltHknow)))

/-! ## Housekeeping sources (R475, R476) -/

/-- One temperature source against one level: it begins at or above the level and ends 5 K below. -/
def tempSource (s : State) (b code cls src : Nat) (level t : Int) : State :=
  if level ≤ t then hkBegin s b code cls [pw src, wordOfInt t]
  else if t ≤ level - 5 then hkEnd s b
  else s

/-- TEMPERATURE_SAMPLE: the six sensors in °C (regions 0–3, I/O die, Warden die) against TEMPLIM; warnings first, in
ascending order of code (R473). Nothing is sampled while the main dies are held in reset. -/
def execTemperatureSample (t0 t1 t2 t3 io warden : BitVec 8) (s : State) : Host.Outcome State Fault Refusal :=
  let l : List (Nat × BitVec 8) := [(0, t0), (1, t1), (2, t2), (3, t3), (4, io), (5, warden)]
  let warn : Int := getF s fltTemplim fltTemplim_Warn
  let trip : Int := getF s fltTemplim fltTemplim_Trip
  let s1 := forEach l s fun s x => tempSource s x.1 (0x0D20 + x.1) 1 x.1 warn x.2.toInt
  .next (if mainRuns s then forEach l s1 fun s x => tempSource s (8 + x.1) (0x0D28 + x.1) 3 x.1 trip x.2.toInt else s)

/-- The operating range of a rail in mV (R634); a region rail also keeps the minimum of R76. -/
def railRange (s : State) (rail : Nat) : Nat × Nat :=
  match rail with
  | 4 => (760, 840)
  | 5 => (855, 945)
  | 6 => (1710, 1890)
  | 7 => (1710, 1890)
  | 8 => (3135, 3465)
  | r => (max 630 (tempoMinMv (getF s (tickRtempo r) tickRtempo_Tempo)), 880)

/-- A rail's measured voltage lies within its operating range. -/
def railOk (s : State) (rail mv : Nat) : Bool := decide ((railRange s rail).1 ≤ mv) && decide (mv ≤ (railRange s rail).2)

/-- A region rail's voltage, for the check of R76. -/
def setVddr (s : State) (rail mv : Nat) : State :=
  if rail < 4 then { s with tick := { s.tick with vddr := s.tick.vddr.set rail mv } } else s

/-- SUPPLY_OUT_OF_RANGE: a rail (VDDR0–VDDR3, VDD_SOC, VDD_SER, VDDA18, VDD_IO18, VDD_IO33) has been outside its operating
range for 10 µs. HRSTN stays low until every rail is in its range (R39). -/
def execSupplyOutOfRange (rail : Fin 9) (mv : BitVec 16) (s : State) : Host.Outcome State Fault Refusal :=
  let s1 := setVddr s rail.val mv.toNat
  .next (if railOk s1 rail.val mv.toNat || !mainRuns s then s1
    else hkBegin s1 (14 + rail.val) (0x0D30 + rail.val) 3 [pw rail.val, pw mv.toNat])

/-- SUPPLY_IN_RANGE: the rail is back within its operating range. -/
def execSupplyInRange (rail : Fin 9) (mv : BitVec 16) (s : State) : Host.Outcome State Fault Refusal :=
  let s1 := setVddr s rail.val mv.toNat
  .next (if railOk s1 rail.val mv.toNat && mainRuns s then hkEnd s1 (14 + rail.val) else s1)

/-! ## Copies and pins (R477, R478) -/

/-- FAULT_COLLECTOR_MISMATCH: the two copies differ; the pins stay in the fault state, event 0x0D03 with class 4. -/
def execFaultCollectorMismatch (s : State) : Host.Outcome State Fault Refusal :=
  .next (if mainRuns s then collect { s with flt := { s.flt with mismatch := true } } 0x0D03 4 0 [] none true else s)

/-- FLT_ALIVE_TOGGLE: the next half-period of the healthy pin. -/
def execFltAliveToggle (s : State) : Host.Outcome State Fault Refusal :=
  .next (if getB s fltPinstat fltPinstat_Alive then { s with flt := { s.flt with aliveHigh := !s.flt.aliveHigh } } else s)

end Sys2Proof.Machine
end

