-- ==== Sys2Proof/Machine/Reset.lean ====
section
/-! DEFINITION. The reset kinds that reach the whole device (R29–R34, R39, R40), and the clock synthesis (ch. 21). -/

namespace Sys2Proof.Machine

/-! ## Power-on reset, keep-domain-only survival, HRSTN -/

/-- A register that keeps its value when the main dies start anew: the keep domain's, the safety channel's (restarted on its
own), OTP, SYS.RSTCAUSE. -/
def survives (a : Nat) : Bool :=
  let q := a % bankStride
  (decide (0x60140000 ≤ q) && decide (q < 0x60150000)) || (decide (0x600E0000 ≤ q) && decide (q < 0x600F0000)) || q == updOtpsvn ||
    q == updOtpkey || q == sysRstcause

/-- The main dies start anew (the first three columns of R32): nothing is booted. OTP, MRAM, the keep domain, the metrology
die and the commands that wait stay. -/
def mainRestart (s : State) (ph : Phase) : State :=
  let r := State.reset
  { r with regs := s.regs.filter (fun c => survives c.1)
           pending := s.pending
           free := s.free
           dev := { r.dev with ca := s.dev.ca, uid := s.dev.uid, skh := s.dev.skh, phase := ph }
           tick := { r.tick with vddr := s.tick.vddr
                                 captures := s.tick.captures.filter fun c => decide (0x60140000 ≤ c.reg) && decide (c.reg < 0x60150000) }
           recorder := { s.recorder with placed := [], dropped := [] }
           keep := s.keep
           met := { s.met with seen := false }
           safe := s.safe }

/-- A reset of the main dies takes polders out of their modes (R32, R66). -/
def noteModes (s : State) : State :=
  forEach (upto 8) s fun s p => if curMode s p = 0 then s else notice s 0x0340 p [pw p, pw (curMode s p), 0, 0xFE]

/-- The restart of the Warden and the safety processor; the Warden's restart replaces the nonce (R508, R569). -/
def wardenRestart (s : State) (switches : Option (Nat × Bool)) : State := newNonce (safeRestart s switches)

/-- POWER_ON_RESET: `switches` and `loop` are what the Warden reads of the seal (R29, R490). -/
def execPowerOnReset (switches : BitVec 16) (loop : Bool) (s : State) : Host.Outcome State Fault Refusal :=
  .next <|
    let s := { s with tick := { s.tick with captures := [] } }
    let s := setReg (mainRestart (keepPowerOn s) .held) sysRstcause (fset 0 sysRstcause_Por 1)
    wardenRestart s (some (switches.toNat, loop))

/-- MAIN_SUPPLIES_LOST: `mon` is the supply monitor's word of event 0x0F20, `vst` the store in mV (R29, R561). -/
def execMainSuppliesLost (mon : BitVec 32) (vst : BitVec 16) (s : State) : Host.Outcome State Fault Refusal :=
  .next <|
    if mainOn s && s.keep.alive then wardenRestart (mainRestart (keepMainLost (noteModes s) mon vst.toNat) .off) none else s

/-- MAIN_SUPPLIES_RETURN: the main dies start as after power-on reset, the keep domain keeps its state (R29). -/
def execMainSuppliesReturn (switches : BitVec 16) (loop : Bool) (s : State) : Host.Outcome State Fault Refusal :=
  .next <|
    if s.dev.phase = .off then
      let s := setReg (mainRestart s .held) sysRstcause (fset 0 sysRstcause_Keepsurv 1)
      keepMainBack (wardenRestart s (some (switches.toNat, loop)))
    else s

/-- HRSTN_ASSERT: HRSTN has been low for 1 µs (R29, R30). -/
def execHrstnAssert (s : State) : Host.Outcome State Fault Refusal :=
  .next <|
    if s.dev.phase = .off then s else wardenRestart (setB (mainRestart (noteModes s) .held) sysRstcause sysRstcause_Hrstn true) none

/-- HRSTN is high: the straps are read (R613); the PLLs lock and the tick generator starts; the CPLL measures its bands (R39,
R618). With the reserved straps the PLLs do not start. HRSTN stays low until every main supply is in its range (R39), so they
are on (assumption log 45, DEDUCED). -/
def hrstnRelease (s : State) (straps : Nat) : State :=
  if s.dev.phase = .held then
    let s := setB { s with dev := { s.dev with phase := .released } } keepStat keepStat_Mainon true
    let s := setF s clkRefcfg clkRefcfg_Rsel straps
    if straps = 3 then s
    else
      let s := setB (setB (setB s clkStat clkStat_Refok true) clkStat clkStat_Alock true) clkStat clkStat_Srch true
      { s with dev := { s.dev with tickRun := true } }
  else s

/-- HRSTN_RELEASE. -/
def execHrstnRelease (straps : BitVec 2) (s : State) : Host.Outcome State Fault Refusal := .next (hrstnRelease s straps.toNat)

/-- A restart as after HRSTN, the pin being high (R580, R586). -/
def restartAsHrstn (s : State) : State :=
  let straps := getF s clkRefcfg clkRefcfg_Rsel
  hrstnRelease (wardenRestart (setB (mainRestart (noteModes s) .held) sysRstcause sysRstcause_Hrstn true) none) straps

/-! ## Tick loss (R29, R32, R33, R456, R460) -/

/-- An engine at tick loss: its queued host writes are made, its registers are cleared; a migration step runs on, and what a migration step
that has ended gives the vote at the takeover stays (R460). Why it was retired stays with its retirement (R128). -/
def engineTickLoss (s : State) (e : Nat) : State :=
  let x := getEng s e
  let mig := (migSteps s e).isSome
  if mig && x.running.isSome then setB (resetEngRegs s e) (engStat e) engStat_Busy true
  else setEng (resetEngine (drainList s e true (x.queue ++ x.held)) e) e
    (if mig then { engReset with eccRetired := x.eccRetired, sig := x.sig, eccFault := x.eccFault, nextStep := x.nextStep, done := x.done }
     else { engReset with eccRetired := x.eccRetired })

/-- The engines that anything is known of. -/
def knownEngines (s : State) : List Nat :=
  (upto 256).filter fun e => (cellFind s.eng e).isSome || s.regs.any fun c => decide (engBase e + 0x40000 ≤ c.1) && decide (c.1 < engBase e + 0x40100)

/-- Tick loss: a polder reset that was asked for and has not started is not made (R34); every pair and port trips, also when the fault
of an earlier tick loss stands (R32). -/
def tickLoss (s : State) : State :=
  if !s.dev.tickRun then s
  else
    let s := { s with dev := { s.dev with tickRun := false, tickLost := true, resetReq := [] }, tick := { s.tick with whole := false } }
    let s := setB s sysRstcause sysRstcause_Tickloss true
    let s := forEach (upto 8) s fun s p => dropStaged s p 4
    let s := forEach (upto 8) s fun s p =>
      if (polImg s p).migrating.isSome then setPolImg s p { polImg s p with entryLost := true } else s
    let s := forEach (knownEngines s) s fun s e => engineTickLoss (laneStop s e) e
    let s := fsTickLost { s with latches := [], tick := { s.tick with nextMode := [], sets := [] } }
    let s := forEach (upto 8) s fun s p => enterMode s p 0 0xFE false
    let s := forEach (upto 32) (culvTickLoss s) sluResetHalt
    let s := { s with rlm := { s.rlm with heart := none, roles := [], mirWrites := [] }, upd := { s.upd with actDue := false, pchDue := false } }
    let st := getF s updStat updStat_State
    let s := if st = 4 ∨ st = 5 then setF (setF { s with upd := { s.upd with loaded := false } } updStat updStat_State 3) updStat updStat_Result 0xD else s
    let s := setB s updPchper updPchper_Valid false
    forEach (upto 48) (collect (forEach (upto 8) s tripPolder) 0x0310 3 0 [] none false) portIdle

/-- TICK_LOSS: no T0 edge for two periods (R29). -/
def execTickLoss (s : State) : Host.Outcome State Fault Refusal := .next (tickLoss s)

/-- TICK_RESTART: the APLL has held lock for 1 ms (R33); the isolation that tick loss started ends (R483). How far FREE carriers and the
fabric-time counter have run in the meantime is free (R623). -/
def execTickRestart (s : State) : Host.Outcome State Fault Refusal :=
  .next <|
    if s.dev.tickLost && !s.dev.tickRun && getB s clkStat clkStat_Alock then
      let s := nextFree (runFree s (Config.freeOffset s.free))
      let s := nextFree { s with time := unsigned 64 (s.time + Config.freeOffset s.free : Nat) }
      let s := { s with dev := { s.dev with tickRun := true, tickLost := false }
                        flt := { s.flt with isol := s.flt.isol.filter fun p => inReset s p || (cellFind s.dev.resetReq p).isSome } }
      refreshFaults s
    else s

/-! ## Clock synthesis -/

/-- BAND_TABLE_DONE: lowest and highest frequency in MHz of each band (R618). -/
def execBandTableDone (table : List (BitVec 16 × BitVec 16)) (s : State) : Host.Outcome State Fault Refusal :=
  .next <|
    if getB s clkStat clkStat_Srch then
      let s := { s with clk := { s.clk with bands := table.map fun b => (b.1.toNat, b.2.toNat) } }
      refreshProfiles (setB (setB s clkStat clkStat_Srch false) clkStat clkStat_Clock true)
    else s

/-- HOP_END (R619). -/
def execHopEnd (s : State) : Host.Outcome State Fault Refusal :=
  .next <|
    if getB s clkStat clkStat_Hop then
      notice (setB s clkStat clkStat_Hop false) 0x0205 0 [pw s.clk.hopFrom, pw (getF s clkCsel clkCsel_Prof), pw (fvMHz s)]
    else s

/-- The CPLL's output is gated (R623, R625). -/
def gateCpll (s : State) (phase : Word) : State :=
  let s := { s with clk := { s.clk with gateC := true, resumeC := false } }
  let s := setB (setB s clkStat clkStat_Clock false) clkStat clkStat_Hop false
  hkBegin (countF s clkLoss clkLoss_Closs 1) 23 0x0201 3 [phase]

/-- The APLL's output is gated. -/
def gateApll (s : State) (phase : Word) : State :=
  let s := setB { s with clk := { s.clk with gateA := true } } clkStat clkStat_Alock false
  hkBegin (countF s clkLoss clkLoss_Aloss 1) 24 0x0202 3 [phase]

/-- PLL_UNLOCK: a PLL's phase error has exceeded 1 ns in 8 cycles (R623). -/
def execPllUnlock (apll : Bool) (phase : BitVec 32) (s : State) : Host.Outcome State Fault Refusal :=
  .next <|
    if !pllsRun s then s
    else if apll then (if s.clk.gateA then s else tickLoss (gateApll s phase))
    else if s.clk.gateC then s else gateCpll s phase

/-- REFCLK_LOST: both PLLs gate their outputs, the Ralma links go down (R615, R625). -/
def execRefclkLost (freq phaseC phaseA : BitVec 32) (s : State) : Host.Outcome State Fault Refusal :=
  .next <|
    if !pllsRun s || !getB s clkStat clkStat_Refok then s
    else
      let s := countF (setB s clkStat clkStat_Refok false) clkLoss clkLoss_Rloss 1
      let s := if s.clk.gateC then s else gateCpll s phaseC
      let s := if s.clk.gateA then s else gateApll s phaseA
      let s := tickLoss (hkBegin s 25 0x0203 3 [freq])
      forEach (upPorts s) s fun s n => portDown (leaveUp s n (Config.causeWord 0x1002 4)) n

/-- REFCLK_PRESENT (R624). -/
def execRefclkPresent (s : State) : Host.Outcome State Fault Refusal :=
  .next (if pllsRun s then hkEnd (setB s clkStat clkStat_Refok true) 25 else s)

/-- PLL_RELOCK: the lock of a gated PLL has held; `us` is the time gated (R624, R625). The CPLL's output waits for a T0
edge. -/
def execPllRelock (apll : Bool) (us : BitVec 32) (s : State) : Host.Outcome State Fault Refusal :=
  .next <|
    let ok := getB s clkStat clkStat_Refok && (if apll then s.clk.gateA else s.clk.gateC && !s.clk.resumeC)
    if !ok then s
    else
      let s := if apll then
          let s := { s with clk := { s.clk with gateA := false, relink := s.clk.relink || decide (900 < us.toNat) } }
          hkEnd (setB s clkStat clkStat_Alock true) 24
        else hkEnd { s with clk := { s.clk with resumeC := true } } 23
      notice s 0x0204 0 [Config.causeWord 0x0204 (bit apll), us]

/-- The clocks at a T0 edge: the CPLL's output resumes on the committed profile; cell-link ports whose up-side was gated too
long restart (R624, R625). -/
def clkEdge (s : State) : State :=
  let s := if s.clk.resumeC then
      setB { s with clk := { s.clk with gateC := false, resumeC := false } } clkStat clkStat_Clock true else s
  if s.clk.relink then
    forEach ((upto 48).filter fun n => portState s n == 5) { s with clk := { s.clk with relink := false } } portStart
  else s

end Sys2Proof.Machine
end

