-- ==== Sys2Proof/Machine/Upd.lean ====
section
/-! DEFINITION. Boot, ROM recovery, field update, scheduled actions (ch. 19). -/

namespace Sys2Proof.Machine

/-! ## Keys (R574–R576) -/

/-- A SYSKEY hash is an unrevoked SKH (R574). -/
def keyAnchored (s : State) (hash : Nat) : Bool :=
  (upto 4).any fun k => s.dev.skh.getD k 0 == hash && !getFbit s updOtpkey updOtpkey_Revoked k

/-- The RESULT of a slot under R574 and rows 1–8 of R449; a header with a wrong MAGIC or HCRC fails row 1 (assumption log 49). -/
def slotResult (s : State) (x : Slot) : Nat := if !x.headerOk then 1 else fullResult s x.image x.sysKey (keyAnchored s x.keyHash)

/-- Event 0x1208. -/
def otpNotice (s : State) : State := notice s 0x1208 0 [pw (otpSvn s), pw (getF s updOtpkey updOtpkey_Revoked)]

/-- SVNLOCK: the counter advances to the active image's SVN, at most 127 (R575). -/
def svnLock (s : State) (key : Nat) : State :=
  let n := min (getReg s imgActsvn).toNat 127
  if key = 0x9D ∧ otpSvn s < n then otpNotice (setF s updOtpsvn updOtpsvn_Svn n) else s

/-- REVOKE k (R576). -/
def revoke (s : State) (key k : Nat) : State :=
  let other := (upto 4).any fun j => j != k && !getFbit s updOtpkey updOtpkey_Revoked j
  let active := s.img.active.isSome && s.dev.skh.getD k 0 == s.upd.keyHash
  if key = 0x9D ∧ other ∧ ¬ active ∧ ¬ getFbit s updOtpkey updOtpkey_Revoked k then otpNotice (setFbit s updOtpkey updOtpkey_Revoked k true) else s

/-! ## Parameter blocks (R573) -/

/-- A parameter block is applied to a full image signed with the key `sys`. -/
def blockApplies (sys : Nat) (f : FullImage) (b : ParamBlock) : Bool :=
  paramForm sys f.keys b && b.imgVer == f.imgVer && b.values.all fun x =>
    cellGet 0 (mapOf f) x.1 == b.polder && decide (x.2.1 * 4 < 0x1FF00) &&
      f.subs.all fun u => u.areas.all fun a => a.eng != x.1 || decide (x.2.1 < a.lo) || decide (a.hi ≤ x.2.1)

/-- Event 0x1209 for each block that is skipped. -/
def skipNotices (s : State) (sys : Nat) (f : FullImage) (l : List ParamBlock) : State :=
  forEach (upto l.length) s fun s i => match l[i]? with
    | some b => if blockApplies sys f b then s else event s 0x1209 1 0 [pw b.polder, pw i]
    | none => s

/-! ## Boot (R577, R578) -/

/-- The directory: bases of both slots and their size, in 64 KiB units. The slots do not overlap and lie in the reachable
flash (R572, R577). -/
def dirOk (x : Sfdp) (a b size : Nat) : Bool :=
  let reach := if x.ok then x.density else 256
  decide (1 ≤ size) && decide (1 ≤ a) && decide (1 ≤ b) && (decide (a + size ≤ b) || decide (b + size ≤ a)) && decide (a + size ≤ reach) &&
    decide (b + size ≤ reach)

/-- The slots that may boot, newest ACTMARK first (R577 step 4). -/
def bootOrder (a b : Slot) : List (Nat × Slot) :=
  let l := [(0, a), (1, b)].filter fun x => x.2.headerOk && x.2.actMark != 0xFFFFFFFF
  if l.length = 2 ∧ newerMark b.actMark a.actMark then [(1, b), (0, a)] else l

/-- The order in which the slots are tried: after an activation with DISRUPT the new slot comes first, marked or not (R586; assumption log 49). -/
def bootTries (prefer : Option Nat) (a b : Slot) : List (Nat × Slot) :=
  let l := bootOrder a b
  match prefer with
  | none => l
  | some k =>
    let x := if k = 0 then a else b
    if x.headerOk then (k, x) :: l.filter fun y => y.1 != k else l

/-- ROM recovery (R579). -/
def enterRecovery (s : State) (ra rb : Word) : State :=
  let s := { s with dev := { s.dev with phase := .recovery } }
  let s := zeroMem s 0x40000000 0x41000000
  let s := setF s updStat updStat_State 6
  let s := setF (setB s (rlmPcfg 0) rlmPcfg_En true) (rlmPcfg 0) rlmPcfg_Offer 3
  let s := rlmCommit (setF s rlmRootcfg rlmRootcfg_Prio 0)
  collect s 0x1202 2 0 [ra, rb] none true

/-- BOOT_START: the directory's bytes, both slots as they read, SFDP (R577). -/
def execBootStart (dir : List (BitVec 8)) (a b : Slot) (sfdp : Sfdp) (s : State) : Host.Outcome State Fault Refusal :=
  .next <|
    if s.dev.phase ≠ .released then s
    else
      let good := (directory dir).filter fun d => dirOk sfdp d.1 d.2.1 d.2.2
      let s := { s with upd := { s.upd with sfdp := sfdp, dirSize := good.map fun d => d.2.2 } }
      let ok := good.isSome
      let l := if ok then bootTries s.upd.prefer a b else []
      let s := setReg (setReg s (updMarka 0) a.actMark) (updMarka 1) b.actMark
      match l.find? fun x => slotResult s x.2 == 0 with
      | some x =>
        let s := setB (setF s updStat updStat_Slot x.1) updStat updStat_Marked (s.upd.prefer != some x.1)
        { s with dev := { s.dev with phase := .loaded }
                 img := { s.img with bootLoad := some (x.1, x.2.image, x.2.params), sysKey := x.2.sysKey }
                 upd := { s.upd with keyHash := x.2.keyHash } }
      | none =>
        let code (i : Nat) : Word := match l.find? fun x => x.1 == i with
          | some x => pw (slotResult s x.2)
          | none => Config.causeWord 0x1202 i
        enterRecovery s (code 0) (code 1)

/-- What a full image shows in IMG and UPD. -/
def showActive (s : State) (f : FullImage) : State :=
  let s := setReg (setReg s imgActver f.imgVer) imgActsvn (pw f.svn)
  setF (setF s imgActinfo imgActinfo_Fmtver f.fmtVer) imgActinfo imgActinfo_Variant f.variant

/-- SYSREG: the sys ws fields at their addresses. -/
def sysVals (f : FullImage) : List Staged :=
  f.sysregs.map fun r => { pol := 0, addr := r.1, mask := fieldsMask (regFields r.1) fun d => d.acc == .ws && d.rights == .sys, val := r.2 }

/-- FABRIC: static routes, pinned address, channel weights of the polders (R446, R522, R529). -/
def fabric (s : State) (f : FullImage) : State :=
  let s := forEach f.routes s fun s r => setReg s r.1 r.2
  let s := match f.pinned with
    | some a => setF (setB s rlmRootcfg rlmRootcfg_Pinen true) rlmRootcfg rlmRootcfg_Pin a
    | none => s
  forEach f.credits s fun s c => setF s (rlmVcw (c.1 % 8)) (if c.2.1 = 4 then rlmVcw_W4 else rlmVcw_W5) c.2.2

/-- The addresses that the FABRIC section changes in the Ralma block. -/
def fabricAddrs (f : FullImage) : List Nat := if f.routes.isEmpty ∧ f.pinned.isNone ∧ f.credits.isEmpty then [] else [rlmRootcfg]

/-- Tables and data memory of a polder at the boot commit. -/
def bootPolder (s : State) (p : Nat) : State :=
  match slotSub s p with
  | some u =>
    let s := installTables s p u true
    let s := setPolImg s p { polImgReset with run := some u }
    let s := forEach (enginesOf s p) s fun s e => wrBank s e (actBank s e) (bankTable u e)
    applyVals (loadDmem s p u) (regsVals u)
  | none => s

/-- The first image commit of a boot, at the first T0 edge (R577 step 6, R578, R477). -/
def bootCommit (s : State) : State :=
  match s.img.bootLoad with
  | none => s
  | some (slot, f, params) =>
    if s.dev.phase ≠ .loaded then s
    else
      let old := s
      let img := { imgReset with active := some f, params := params.filter (blockApplies s.img.sysKey f), resmap := mapOf f, tempos := f.tempos,
                                       keys := f.keys, sysKey := s.img.sysKey }
      let s := { s with img := img, dev := { s.dev with phase := .running } }
      let s := forEach (upto 32) s fun s k => setReg s (poldBind k) (f.binds.getD k 0)
      let s := fabric (applyVals s (sysVals f)) f
      let s := forEach (upto 8) (showActive s f) bootPolder
      let vals := (sysVals f).map (fun v => v.addr) ++ (f.subs.flatMap fun u => u.regs.map fun r => r.1)
      let s := trackCarriers old s fun a => vals.contains a
      let tracked := if period old = period s then [] else (trackingCars s).map pwmCarper
      let s := commitHooks old s (vals ++ fabricAddrs f ++ tracked)
      let s := forEach (upto 48) s pairBootRst
      let s := safeBootCommit s
      let s := elect { s with flt := { s.flt with bootHeld := false } }
      let s := skipNotices (refreshPins s) s.img.sysKey f params
      notice s 0x1201 0 [pw slot, f.imgVer, getReg s (updMarka slot)]

/-! ## ROM recovery (R580) -/

/-- SLOTSIZE of a new directory. -/
def newSlotSize (x : Sfdp) : Nat := min 257 (((if x.ok then x.density else 256) - 1) / 2)

/-- RECOVER: `x` is what stands in the culvert (R580). -/
def recover (s : State) (x : Slot) : State :=
  if s.dev.phase ≠ .recovery then s
  else
    let size := s.upd.dirSize.getD (newSlotSize s.upd.sfdp)
    let r := slotResult s x
    let r := if r ≠ 0 then r else if size * 65536 < 0x1000 + getF s updProglen updProglen_Len then 0xE else 0
    if r = 0 then restartAsHrstn s else setF s updStat updStat_Result r

/-! ## Writing the inactive slot (R581–R583) -/

def updState (s : State) : Nat := getF s updStat updStat_State
def setUpd (s : State) (st result : Nat) : State := setF (setF s updStat updStat_State st) updStat updStat_Result result

/-- PROG, VERIFY or ARM runs, or the device is in recovery. -/
def updBusy (s : State) : Bool := updState s == 1 || updState s == 2 || updState s == 4 || updState s == 6

/-- The bytes of a page in the flash, ACTMARK erased in the header; erased bytes are not listed. -/
def progBytes (s : State) (page off : Nat) : Cells Byte :=
  (upto 4096).foldl (fun m i =>
    let b := if off = 0 ∧ 0xFF8 ≤ i ∧ i < 0xFFC then 0xFF else rdByte s (pageBase page + i)
    cellSet 0xFF m (off + i) b) s.upd.flash

/-- The offset does not lie in the slot. -/
def outsideSlot (s : State) (off : Nat) : Bool := match s.upd.dirSize with
  | some n => decide (n * 65536 ≤ off)
  | none => false

/-- PROG (R581): a PROGOFF at the start of an erase block erases it first. -/
def prog (s : State) : State :=
  let off := (getReg s updProgoff).toNat
  if updBusy s then setF s updStat updStat_Result 0xA
  else if off % 4096 ≠ 0 ∨ outsideSlot s off then event (setF s updStat updStat_Result 0xE) 0x1203 1 0 [pw off]
  else
    let blk := 4096 * max 1 s.upd.sfdp.erase
    let s := if off % blk = 0 then { s with upd := { s.upd with flash := cellClear s.upd.flash off (off + blk) } } else s
    let flash := progBytes s (getF s updProgsrc updProgsrc_Page) off
    setUpd { s with upd := { s.upd with flash := flash, prog := some off, verified := none, loaded := false } } 1 0

/-- PROG_DONE: the page was read back; `match'`: it reads as written (R581). -/
def execProgDone (match' : Bool) (s : State) : Host.Outcome State Fault Refusal :=
  .next <|
    match s.upd.prog with
    | none => s
    | some off =>
      let s := setUpd { s with upd := { s.upd with prog := none } } 0 (if match' then 0 else 0xE)
      if match' then s else event s 0x1203 1 0 [pw off]

/-- SQ0_READ_WAIT_TIMEOUT: the read of the SQ0 window on select 0 that has waited 400 ms for the flash ends with an error
(R582). -/
def execSq0ReadWaitTimeout (s : State) : Host.Outcome State Fault Refusal :=
  .next <|
    let x := getSq s 0
    if updState s = 1 ∧ getF s (sqCfg 0) sqCfg_Wsel = 0 then
      match x.reads with
      | [] => s
      | r :: t => sqDeliver (setSq s 0 { x with reads := t }) r.who .err
    else s

/-- VERIFY (R583). -/
def verify (s : State) : State :=
  if updBusy s || updState s == 5 then setF s updStat updStat_Result 0xA
  else setUpd { s with upd := { s.upd with verified := none } } 2 0

/-- VERIFY_DONE: the inactive slot as it reads (R583). -/
def execVerifyDone (x : Slot) (s : State) : Host.Outcome State Fault Refusal :=
  .next <|
    if updState s ≠ 2 then s
    else
      let r := slotResult s x
      let s := if r = 0 then setReg { s with upd := { s.upd with verified := some x } } updInactver x.image.imgVer else s
      let s := setUpd s (if r = 0 then 3 else 0) r
      skipNotices (notice s 0x1204 0 [pw r, x.image.imgVer]) x.sysKey x.image x.params

/-! ## Scheduled activation (R584–R588) -/

/-- A refused arm or activation. -/
def armRefused (s : State) (cause : Nat) : State :=
  event (setF s updStat updStat_Result 0xF) 0x1207 1 0 [pw 0xF, Config.causeWord 0x1207 cause]

def actAt (s : State) : Nat := get64 s (updActatlo 0)

/-- The sub-image of a polder in a full image; an empty one where it has none. -/
def subOf (f : FullImage) (p : Nat) : SubImage := (f.subs.find? fun u => u.polder == p).getD (emptySub p)

/-- RESMAP, KEYS and BIND are those of the active image. -/
def sameMaps (s : State) (f : FullImage) : Bool :=
  match s.img.active with
  | some a => mapOf a == mapOf f && a.keys == f.keys && (upto 32).all fun k => a.binds.getD k 0 == f.binds.getD k 0
  | none => false

/-- The first tick count whose target is at or after a fabric time (R585). -/
def targetTick (s : State) (at' : Nat) : Nat :=
  let base := get64 s (rlmTbaselo 0)
  let q := 10 * max 1 (period s)
  (at' - base + q - 1) / q

/-- UPD.ACTTICK. -/
def showActTick (s : State) : State :=
  if updState s = 4 ∨ updState s = 5 then set64 s (updActticklo 0) (targetTick s (actAt s) % 2 ^ 48) else s

/-- ARM (R584). -/
def arm (s : State) (disrupt : Bool) : State :=
  match s.upd.verified with
  | none => armRefused s 0
  | some x =>
    if updState s ≠ 3 then armRefused s 0
    else if getF s rlmTstat rlmTstat_Align ≠ 2 then armRefused s 1
    else if actAt s < (nowTime s).toNat + 100000000 then armRefused (nextFree s) 2
    else
      let s := nextFree s
      if !((upto 8).all fun p => row9 (runLayout s p) (subOf x.image p)) then armRefused s 3
      else if !disrupt && !sameMaps s x.image then armRefused s 4
      else
        let s := forEach (upto 8) s fun s p => discardSub s p 6
        showActTick (setUpd { s with upd := { s.upd with disrupt := disrupt, loaded := false } } 4 0)

/-- ARM_LOAD_DONE: the new image stands in the shadow banks and sequencer shadows of every polder (R584). -/
def execArmLoadDone (s : State) : Host.Outcome State Fault Refusal :=
  .next <|
    match s.upd.verified with
    | none => s
    | some x =>
      if updState s ≠ 4 then s
      else
        let s := forEach (upto 8) s fun s p => if inReset s p then s else wrShadow s p (subOf x.image p)
        setF { s with upd := { s.upd with loaded := true } } updStat updStat_State 5

/-- CANCEL in ARMED, before the cut-off of the activation edge (R588, R591). -/
def updCancel (s : State) : State :=
  if updState s = 5 ∧ ¬ s.upd.actDue then setF { s with upd := { s.upd with loaded := false } } updStat updStat_State 3 else s

/-- The activation edge passes without an activation: the running images are kept (R586). -/
def actKept (s : State) (cause : Nat) : State :=
  armRefused (setF { s with upd := { s.upd with loaded := false } } updStat updStat_State 3) cause

/-- The SYSREG and REGS values of an activation and the tables of its sub-images, for the checks of R454. -/
def actCandidate (s : State) (f : FullImage) : State :=
  let c := applyVals { s with img := { s.img with tempos := f.tempos } } (sysVals f)
  forEach (upto 8) (fabric c f) fun c p => applyVals (installTables c p (subOf f p) false) (regsVals (subOf f p))

/-- The checks of R454 for every polder, and of the blocks that SYSREG and REGS name. -/
def actOk (s : State) (f : FullImage) : Bool :=
  let c := actCandidate s f
  (upto 8).all fun p =>
    let u := subOf f p
    let vals := regsVals u ++ (if p = 0 then sysVals f else [])
    imgCode s c p u == 0 && commitBlocks.all fun b => b == 3 || (vals.all fun v => blockNo v.addr != b) ||
      blockOk s c { pol := p, blk := b, vals := vals.filter fun v => blockNo v.addr == b }

/-- One polder at the activation edge: takes over, migrates, or waits for the end of its reset. -/
def actPolder (f : FullImage) (s : State) (p : Nat) : State :=
  let u := subOf f p
  let s := discardSub s p 7
  let s := { s with tick := { s.tick with sets := s.tick.sets.filter fun c => !(c.pol == p && c.blk == 3) } }
  if inReset s p then setPolImg s p { polImg s p with waiting := some u }
  else if needsMigration s p u then startMigration s p u
  else
    let vals := regsVals u
    let old := s
    commitHooks old (applyVals (takeOver s p u true false false) vals) (vals.map fun v => v.addr)

/-- Event 0x1205, once the last polder has taken over. -/
def actNotice (s : State) (n : Nat) : State :=
  notice { s with upd := { s.upd with actNote := none } } 0x1205 0 [getReg s imgActver, pw n, pw (n / 2 ^ 32)]

/-- The full image takes effect (R586, R587); `n` is the tick count of the edge. -/
def activate (s : State) (x : Slot) (n : Nat) : State :=
  let f := x.image
  let old := s
  let s := { s with img := { s.img with active := some f, params := x.params.filter (blockApplies x.sysKey f), tempos := f.tempos,
                                        keys := f.keys, sysKey := x.sysKey } }
  let s := fabric (applyVals (showActive s f) (sysVals f)) f
  let vals := (sysVals f).map fun v => v.addr
  let s := trackCarriers old s fun a => vals.contains a
  let tracked := if period old = period s then [] else (trackingCars s).map pwmCarper
  let s := commitHooks old s (vals ++ fabricAddrs f ++ tracked)
  let s := forEach (upto 8) s (actPolder f)
  let slot := getF s updStat updStat_Slot
  let s := setF (setB s updStat updStat_Marked false) updStat updStat_Slot (1 - slot)
  let s := { s with upd := { s.upd with flash := [], keyHash := x.keyHash, verified := none, loaded := false } }
  let s := setReg (setUpd s 0 0) updInactver 0
  let s := skipNotices s x.sysKey f x.params
  if (upto 8).any fun p => (polImg s p).migrating.isSome then { s with upd := { s.upd with actNote := some n } } else actNotice s n

/-- The activation that the cut-off has formed, at its edge (R586). -/
def actEdge (s : State) (n : Nat) : State :=
  if !s.upd.actDue then s
  else
    let s := { s with upd := { s.upd with actDue := false } }
    match s.upd.verified with
    | none => s
    | some x =>
      if updState s ≠ 4 ∧ updState s ≠ 5 then s
      else if !s.upd.loaded then actKept s 5
      else if getF s rlmTstat rlmTstat_Align ≠ 2 then actKept s 1
      else if s.upd.disrupt then
        let slot := getF s updStat updStat_Slot
        let s := restartAsHrstn s
        { s with upd := { s.upd with prefer := some (1 - slot) } }
      else if !actOk s x.image then actKept s 3
      else activate s x n

/-- The polder whose reset has ended takes over the image that waited for it, data memory from its DMEM (R586). -/
def takeWaiting (s : State) (p : Nat) : State :=
  match (polImg s p).waiting with
  | none => s
  | some u =>
    if inReset s p then s
    else
      let s := setPolImg (wrShadow s p u) p { polImg s p with waiting := none }
      let vals := regsVals u
      let old := s
      let s := loadDmem (applyVals (takeOver s p u false false false) vals) p u
      commitHooks old s (vals.map fun v => v.addr)

/-- ACTMARK_WRITTEN: the housekeeping processor has marked the running slot (R587). -/
def execActmarkWritten (s : State) : Host.Outcome State Fault Refusal :=
  .next <|
    if getB s updStat updStat_Marked then s
    else
      let n := getF s updStat updStat_Slot
      let m := getReg s (updMarka (1 - n)) + 1
      notice (setB (setReg s (updMarka n) m) updStat updStat_Marked true) 0x1206 0 [pw n, m]

/-! ## Scheduled actions (R589–R591) -/

/-- The SCHED payload (R589). -/
def schedBytes (kind at' arg : Nat) : List Nat := beBytes 1 kind ++ [0, 0, 0] ++ beBytes 8 at' ++ beBytes 4 arg

/-- A SCHED frame of a node reaches this one: the polder of its source, or what its refusal leaves. -/
def schedSource (s : State) (n : Nat) (h : DWord) (data : List Nat) (crc : Word) : State × Bool :=
  let (s, ok) := arriveMine s n 0x0E h data crc
  let src := hdrSrc h
  if !ok then (s, false)
  else
    match sourcePolder s (.ralma (BitVec.ofNat 12 src).toFin) with
    | none => (unboundRequest s (.ralma (BitVec.ofNat 12 src).toFin) updCmd, false)
    | some 0 => (s, true)
    | some p => (breach s p .ralma 1 1 updCmd, false)

/-- SCHED_ACTIVATE: KIND 1 (R589). -/
def execSchedActivate (n : Fin 8) (hdr : BitVec 64) (at' : BitVec 64) (ver : BitVec 32) (crc : BitVec 32) (s : State) :
    Host.Outcome State Fault Refusal :=
  .next <|
    let (s, ok) := schedSource s n hdr (schedBytes 1 at'.toNat ver.toNat) crc
    if !ok then s
    else if getReg s updInactver ≠ ver ∨ s.dev.phase ≠ .running then armRefused s 6
    else arm (set64 s (updActatlo 0) at'.toNat) false

/-- SCHED_PERIOD_CHANGE: KIND 2; it replaces a pending one (R590, R591). -/
def execSchedPeriodChange (n : Fin 8) (hdr : BitVec 64) (at' : BitVec 64) (per : BitVec 32) (crc : BitVec 32) (s : State) :
    Host.Outcome State Fault Refusal :=
  .next <|
    let (s, ok) := schedSource s n hdr (schedBytes 2 at'.toNat per.toNat) crc
    if !ok then s
    else if 16384 ≤ per.toNat then armRefused s 7
    else setF (setB (set64 s (updPchatlo 0) at'.toNat) updPchper updPchper_Valid true) updPchper updPchper_Period per.toNat

/-- Event 0x120A. -/
def cancelNotice (s : State) (cause kind at' : Nat) : State := notice s 0x120A 0 [pw cause, pw kind, pw at']

/-- SCHED_CANCEL: KIND 3 (R591). -/
def execSchedCancel (n : Fin 8) (hdr : BitVec 64) (at' : BitVec 64) (kind : BitVec 32) (crc : BitVec 32) (s : State) :
    Host.Outcome State Fault Refusal :=
  .next <|
    let (s, ok) := schedSource s n hdr (schedBytes 3 at'.toNat kind.toNat) crc
    let k := kind.toNat
    if !ok then s
    else if k = 1 ∧ updState s = 5 ∧ actAt s = at'.toNat ∧ ¬ s.upd.actDue then cancelNotice (updCancel s) 1 k at'.toNat
    else if k = 2 ∧ getB s updPchper updPchper_Valid ∧ get64 s (updPchatlo 0) = at'.toNat ∧ ¬ s.upd.pchDue then
      cancelNotice (setB s updPchper updPchper_Valid false) 1 k at'.toNat
    else cancelNotice s 0 k at'.toNat

/-- What the cut-off of the edge with tick count `n` forms: an activation, a period change (R585, R590). -/
def updCutoff (s : State) (n : Nat) : State :=
  let st := updState s
  let due (at' : Nat) : Bool := decide (targetTick s at' ≤ n)
  let s := if (st = 4 ∨ st = 5) ∧ due (actAt s) then { s with upd := { s.upd with actDue := true } } else s
  if getB s updPchper updPchper_Valid ∧ due (get64 s (updPchatlo 0)) then { s with upd := { s.upd with pchDue := true } } else s

end Sys2Proof.Machine
end

