-- ==== Sys2Proof/Machine/Tick.lean ====
section
/-! DEFINITION. The tick boundary (R53, R54): commit cut-off, sampling point, T0 edge. -/

namespace Sys2Proof.Machine

/-- The tick count of the coming edge (R50, R534). -/
def nextCount (s : State) : Nat := s.rlm.stepTo.getD (s.tick.count.toNat + 1) % 2 ^ 48

/-- COMMIT_CUTOFF: the sets of the coming edge are formed (R54). -/
def execCommitCutoff (s : State) : Host.Outcome State Fault Refusal :=
  .next (if s.dev.tickRun then updCutoff (dupCutoff (formSets s)) (nextCount s) else s)

/-! ## The sampling point (R63, R64, R468) -/

/-- A transition rule matches a mode and condition bits. -/
def ruleMatches (d : DWord) (mode cond : Nat) : Bool :=
  let n := d.toNat
  nbit n 53 && nbit (n % 65536) mode && (cond &&& nbits n 31 16) == nbits n 47 32

/-- The first rule that matches: its index and TO. -/
def firstRule (l : List DWord) (mode cond : Nat) : Option (Nat × Nat) :=
  ((upto l.length).find? fun i => ruleMatches (l.getD i 0) mode cond).map fun i => (i, nbits (l.getD i 0).toNat 51 48)

/-- Mode hold ends when no fault of class 2 or above affects the polder any more and its reset has ended. -/
def endModeHold (s : State) (p : Nat) : State :=
  let held := s.flt.held.any fun h => affects h p && decide (2 ≤ h.cls)
  if held || inReset s p || (cellFind s.dev.resetReq p).isSome then s else setB s (fltSum p) fltSum_Modehold false

/-- The sampling point of one polder. -/
def samplePolder (s : State) (p : Nat) : State :=
  let now := condNow s p
  let bits := cellGet 0 s.tick.condLatch p ||| now
  let s := setF s (tickCond p) tickCond_Cond bits
  let s := { s with tick := { s.tick with condLatch := cellSet 0 s.tick.condLatch p now } }
  let s := endModeHold s p
  if inReset s p || getB s (fltSum p) fltSum_Modehold then s
  else match firstRule (cellGet [] s.img.rules p) (curMode s p) bits with
    | some r => { s with tick := { s.tick with nextMode := cellPut s.tick.nextMode p r } }
    | none => s

/-- SAMPLING_POINT. -/
def execSamplingPoint (s : State) : Host.Outcome State Fault Refusal :=
  .next (if s.dev.tickRun then forEach (upto 8) { s with tick := { s.tick with nextMode := [] } } samplePolder else s)

/-! ## The T0 edge -/

/-- The ticks in the current mode (R61). A mode that tick loss has entered counts from 0 at the loss, so its first edge, the one
that restarts the ticks, makes it 1 (assumption log 61, DEDUCED). -/
def countTim (s : State) (p : Nat) : State := countF s (tickMode p) tickMode_Tim 1

/-- The engine runs a migration step, whose outputs are discarded (R458). -/
def migrates (s : State) (e : Nat) : Bool := (migSteps s e).isSome

/-- The ended tick: overtopping, votes, outputs, freeboard, flags, latches. -/
def endTick (s : State) : State :=
  let s := forEach (upto 256) s overtop
  let s := forEach (s.img.groups.filter fun g => (polImg s g.polder).migrating.isNone) s groupEdge
  let s := forEach ((upto 256).filter fun e => !migrates s e) s mergeOuts
  let s := forEach (upto 256) s fun s e => flagSummary (measure s e) e
  forEach s.img.latches s latchEdge

/-- Migrations end; a re-admission that was asked for in a migration tick is due in the next one (R127); a full image whose last polder
has taken over is noted. -/
def endMigTick (s : State) : State :=
  let mig := (upto 8).filter fun p => (polImg s p).migrating.isSome
  let s := endMigrations s
  let s := forEach (s.img.groups.filter fun g => mig.contains g.polder && !inReset s g.polder) s fun s g => nextTransfer s (g.polder * 256 + g.id) g false
  match s.upd.actNote with
  | some n => actNotice s n
  | none => s

/-- Polder resets end, others start (R35, R36): those of `asked`, requested before the edge, and those of a migration tick that ends here
(R460). A fault that this edge has found starts its reset at the next one (R468: the first tick boundary after the fault). -/
def polderResets (s : State) (asked : List Nat) : State :=
  let s := forEach (upto 8) s fun s p => takeWaiting (endReset s p) p
  let now (r : Nat × ResetCause) : Bool := asked.contains r.1 || r.2 == .migration
  let l := s.dev.resetReq.filter now
  forEach l { s with dev := { s.dev with resetReq := s.dev.resetReq.filter fun r => !now r } } fun s r =>
    if inReset s r.1 then s
    else
      let t := startReset s r.1 r.2
      let u := (slotSub s r.1).getD (emptySub r.1)
      let left := regsLeft ((polImg s r.1).run.getD (emptySub r.1)) u
      if (polImg s r.1).runtime then commitHooks s t ((left ++ regsVals u).map fun v => v.addr) else t

/-- The modes that the sampling point has chosen (R64–R66). A matching rule whose TO is the current mode enters it anew: the ticks
start at 0, PREV is CUR, no event is recorded (assumption log 73, DESIGN CHOICE). -/
def applyModes (s : State) : State :=
  let l := s.tick.nextMode
  forEach l { s with tick := { s.tick with nextMode := [] } } fun s m =>
    if inReset s m.1 then s else enterMode s m.1 m.2.2 m.2.1 false

/-- The faults of the edge; resets, sets, images and modes of the edge with tick count `n`; `asked`: the polders whose reset was requested
before it. -/
def takeEffect (s : State) (asked : List Nat) (n : Nat) : State :=
  let s := actEdge (bootCommit (polderResets (collectDue (endMigTick s)) asked)) n
  if s.dev.tickRun && s.dev.phase != .released then applyModes (commitSets s n) else s

/-- The edge has restarted the device (R586). -/
def restarted (a b : State) : Bool := a.dev.phase == .running && b.dev.phase != .running

/-- The new tick: count and time move on, errors against the target are measured (R49, R50, R532, R534). `dt` is the length of
the ended tick in ns. -/
def startTick (s : State) (n : Nat) (dt : Int) : State :=
  let steer := Config.steerStep s.free s.rlm.steer
  let t := unsigned 64 ((s.time : Int) + dt + (if s.rlm.steer = 0 then 0 else steer))
  let s := nextFree { s with time := t, tick := { s.tick with count := BitVec.ofNat 48 n, whole := true }, rlm := { s.rlm with stepTo := none } }
  showActTick (alignEdge s)

/-- The notices that are given once a tick start anew. -/
def clearNotes (s : State) : State :=
  let s := { s with rlm := { s.rlm with dropNoted := false } }
  let s := forEach (upto 4) s fun s n => setSq s n { getSq s n with noted := [] }
  forEach (upto 48) s fun s p => setPair s p { getPair s p with cmpNoted := false, clampNoted := false }

/-- The blocks at the edge, in the order of R53: cell status, compares (+40 ns), encoders and comparators (+60 ns), command frames
(+200 ns); converters, culvert, breaches, sluices, recorder. -/
def blocksEdge (s : State) (n : Nat) : State :=
  let s := forEach (upto 48) { s with tick := { s.tick with early := [] } } portEdge
  let s := loadCompares (forEach (upto 32) s restartCar)
  let s := cmpEdge (forEach (upto 4) s encEdge)
  let s := forEach (upto 48) s cmdFrame
  let s := forEach (upto 8) s grpEdge
  let s := breachEdge (culvEdge s) n
  let s := forEach (upto 32) s sluEdge
  latchAllConds (recorderEdge s)

/-- The T0 edge, the tick generator running (R53). -/
def tickEdge (s : State) : State :=
  let ended := s.tick.count.toNat
  let n := nextCount s
  let dt : Int := 10 * period s + s.tick.trim
  let before := (upto 8).map (curMode s)
  let cars := forEach (upto 32) (runFree s dt.toNat) lockTime
  let s1 := clearNotes (endTick (forEach (upto 8) (forEach (upto 256) cars snapTaps) countTim))
  let s2 := takeEffect s1 (s.dev.resetReq.map fun r => r.1) n
  if restarted s1 s2 then s2
  else
    let changed := (upto 8).filter fun p => before.getD p 0 != curMode s2 p
    let s3 := mirEdge (dupEdge (stageAges s2)) ended
    let s4 := forEach (upto 256) (traceEdge (clkEdge s3) changed ended) newTick
    let s5 := startTick s4 n dt
    let s6 := if s5.dev.phase = .running then forEach (upto 256) s5 systemWords else s5
    blocksEdge s6 n

/-- TICK_EDGE. -/
def execTickEdge (s : State) : Host.Outcome State Fault Refusal := .next (if s.dev.tickRun then tickEdge s else s)

end Sys2Proof.Machine
end

