-- ==== Sys2Proof/Machine/RegAccess.lean ====
section
/-! DEFINITION. Reads and writes of registers by hosts (R7–R14, R402, R403, R652): what each access code does, what registers
with a behaviour of their own do, the checks of the dike. -/

namespace Sys2Proof.Machine

/-! ## Banked registers (R408, R461, R570) -/

/-- The register has a copy for each polder. -/
def isBanked (a : Nat) : Bool :=
  a == culvOparg || a == culvOpres || a == culvStalecnt || (decide (imgCtl ≤ a) && decide (a ≤ imgStat)) || a == keepRdsel || a == keepRdstat ||
    (decide (keepRdw 0 ≤ a) && decide (a ≤ keepRdw 15))

/-- The copy that polder `p` sees. -/
def seenBy (a p : Nat) : Nat := if isBanked a then banked a p else a

/-- The bits of a register's fields that polder `p` has a right to. -/
def rightMask (s : State) (p a : Nat) : Word := fieldsMask (regFields a) fun f => hasRight s p a f.rights

/-- The bits of fields with an access code and a right. -/
def accMask (s : State) (p a : Nat) (c : Access) : Word := fieldsMask (regFields a) fun f => f.acc == c && hasRight s p a f.rights

/-- Offset in the block of the register's table entry, and the indices of the repeat. -/
def regPlace (a : Nat) : Nat × Nat × List Nat :=
  match regAt a with
  | some (d, path) => (blockNo a, d.off, path)
  | none => (blockNo a, 0xFFFFF, [])

/-! ## Reading -/

/-- BLOCK.STAGESTAT (R81): PEND and CPEND of the polders, REF as stored. -/
def stageStat (s : State) (blk : Nat) : Word :=
  let pend := (upto 8).foldl (fun n p =>
    n + bit (!(stagedOf s blk p).isEmpty || (blk == 3 && (polImg s p).loaded.isSome)) * 2 ^ p) 0
  let go (p : Nat) : Bool := ((cellFind s.tick.stageMeta (metaKey blk p)).map fun m => m.go) == some true || s.tick.sets.any fun c => c.pol == p && c.blk == blk
  let cpend := (upto 8).foldl (fun n p => n + bit (go p) * 2 ^ p) 0
  fset (fset (getReg s (blockStagestat blk)) stagestat_Pend pend) stagestat_Cpend cpend

/-- POLD.RMAP word `w` (R421). -/
def rmapWord (s : State) (w : Nat) : Word := BitVec.ofNat 32 ((upto 8).foldl (fun n i => n + resPol s (8 * w + i) * 16 ^ i) 0)

/-- The comparators of a polder that are latched (CMP.LATCHED). -/
def latchedWord (s : State) (p : Nat) : Word :=
  BitVec.ofNat 32 ((upto 32).foldl (fun n c => n + bit (resPol s (resCmp c) == p && getB s (cmpStat c) cmpStat_Latch) * 2 ^ c) 0)

/-- An entry of RT0 or RT1 (R529): the learned mask while STATIC is 0. -/
def routeWord (s : State) (a t dst : Nat) : Word :=
  let w := getReg s a
  let l := if t = 0 then cellGet 0 s.rlm.learned dst else 0
  if fget w rlmRt0_Static = 1 then w else fset (fset w rlmRt0_Learned (bit (l != 0))) rlmRt0_Mask l

/-- A 64-bit value in a pair of registers: the low word, and what a read of it captures. -/
def pairRead (v i : Nat) (captured : Word) : Word × Option Word :=
  if i = 0 then (BitVec.ofNat 32 v, some (BitVec.ofNat 32 (v / 2 ^ 32))) else (captured, none)

/-- The capture that a source holds of a register; 0 when it has made none (R652). -/
def captureOf (s : State) (src : Source) (a : Nat) : Word :=
  ((s.tick.captures.find? fun c => c.src == src && c.reg == a).map fun c => c.val).getD 0

/-- A source's capture changes. -/
def setCapture (s : State) (src : Source) (a : Nat) (w : Word) : State :=
  let l := s.tick.captures.filter fun c => !(c.src == src && c.reg == a)
  { s with tick := { s.tick with captures := l ++ [{ src := src, reg := a, val := w }] } }

/-- The elapsed time of a carrier in counts at a read: the instant of the read lies after the carrier's last event and before its next period
start (R299; assumption log 15). -/
def elapsedRead (s : State) (k : Nat) : Nat :=
  let e := (getCar s k).e
  (e + Config.freeOffset s.free % max 1 (p16 s k - e)) / 16

/-- What a register shows to polder `p`, before rights; and a new capture of the register above it. -/
def regValue (s : State) (src : Source) (p a : Nat) : Word × Option Word :=
  let (b, o, path) := regPlace a
  let i := path.headD 0
  let cap := captureOf s src a
  if b < 23 ∧ o = 0xFF04 then (stageStat s b, none)
  else match b, o with
  | 0, 0x0 => (fset (getReg s a) sysIdrev_Var (if s.dev.ca then 2 else 1), none)
  | 0, 0x18 => (s.dev.uid.setWidth 32, none)
  | 0, 0x1c => ((s.dev.uid >>> 32).setWidth 32, none)
  | 2, 0x8 => pairRead s.tick.count.toNat 0 cap
  | 2, 0xc => pairRead s.tick.count.toNat 1 cap
  | 4, 0x200 => (BitVec.ofNat 32 p, none)
  | 4, _ => (if 0x1000 ≤ o then rmapWord s ((a % 0x10000 - 0x1000) / 4) else getReg s a, none)
  | 9, 0x800 => (latchedWord s p, none)
  | 10, 0x180 => (if getB s a pwmCarstat_Run then fset (getReg s a) pwmCarstat_Elapsed (elapsedRead s i) else getReg s a, none)
  | 15, 0x818 => pairRead (nowTime s).toNat i cap
  | 15, 0x4000 => (routeWord s a i (path.getD 1 0), none)
  | 20, 0x28 => pairRead (clockNow s) i cap
  | 20, 0x40 => (s.recorder.head, none)
  | 20, 0x44 => (s.recorder.tail, none)
  | 20, 0x48 => pairRead s.recorder.total i cap
  | 21, _ => (if s.dev.ca then 0 else getReg s a, none)
  | _, _ => (getReg s (seenBy a p), none)

/-- Fields that a read clears take their reset value (R10). -/
def clearOnRead (s : State) (p a : Nat) : State :=
  let m := accMask s p a .rc
  if m = 0 then s
  else
    let k := seenBy a p
    let s := setBits s k m (regReset k)
    if blockNo a = 2 ∧ 0x40 ≤ a % 0x10000 ∧ a % 0x10000 < 0x80 then
      { s with tick := { s.tick with fbNoted := s.tick.fbNoted.filter (· != (a % 0x10000 - 0x40) / 4) } }
    else s

/-- A read of a register by polder `p` (R10, R403, R652). -/
def regRead (s : State) (src : Source) (p a : Nat) : State × Word :=
  let s := if blockNo a = 15 ∧ 0x890 ≤ a % 0x10000 ∧ a % 0x10000 < 0x8B0 then dupShow s ((a % 0x10000 - 0x890) / 4) else s
  let (v, cap) := regValue s src p a
  let shown := v &&& rightMask s p a &&& ~~~ (fieldsMask (regFields a) fun f => f.acc == .wo)
  let s := match cap with
    | some w => nextFree (setCapture s src (a + 4) w)
    | none => if blockNo a = 10 then nextFree s else s
  (clearOnRead s p a, shown)

/-! ## Writing -/

/-- Bits of rw and w1c fields whose write is an action of the block. -/
def actionMask (b o : Nat) : Word :=
  match b, o with
  | 6, 0x4 => 0xFFFFFFFF
  | 9, 0xc => 0x80000000
  | 9, 0x800 => 0xFFFFFFFF
  | 10, 0x700 => 0xFFFFFFFF
  | 10, 0x800 => 1
  | 11, 0x4 => 1
  | 13, 0x100 => 0x100
  | 13, 0x200 => 0xFFFFFFFF
  | 14, 0xc => 0xFFFFFFFF
  | 20, 0x50 => 0xFFFFFFFF
  | 255, 0x40040 => 0xFFFFFFFF
  | _, _ => 0

/-- What the access codes rw, w1c and ws do with a write (R10); only fields with a right change (R403). -/
def plainWrite (s : State) (p a : Nat) (w : Word) : State :=
  let (b, o, _) := regPlace a
  let k := seenBy a p
  let act := actionMask b o
  let rw := accMask s p a .rw &&& ~~~ act
  let c1 := accMask s p a .w1c &&& ~~~ act
  let s := if rw = 0 then s else setBits s k rw w
  let s := if c1 = 0 then s else setBits s k (c1 &&& w) 0
  stageWrite s p a (wsMask s p a) w

/-- UPD.CMD (R592). -/
def updCmdWrite (s : State) (w : Word) : State :=
  let key := fget w updCmd_Key
  match fget w updCmd_Op with
  | 1 => prog s
  | 2 => verify s
  | 3 => arm s (fget w updCmd_Disrupt == 1)
  | 4 => updCancel s
  | 5 => svnLock s key
  | 6 => revoke s key (fget w updCmd_Arg)
  | 7 => recover s (Config.readSlot (s.mem.filter fun c => decide (0x40000000 ≤ c.1) && decide (c.1 < 0x41000000)))
  | _ => s

/-- CELLCTL (R339). -/
def cellCtlWrite (s : State) (i : Nat) (w : Word) : State :=
  let s := if fget w clnkCellctl_Fclr = 1 then fclrWrite s i else s
  let s := if fget w clnkCellctl_Byprel = 1 then byprel s i else s
  if fget w clnkCellctl_Bypreq = 1 then bypassCell s i 3 else s

/-- SLU.CMD (R435). -/
def sluCmdWrite (s : State) (c v : Nat) : State :=
  match v with
  | 1 => sluGo s c
  | 2 => sluStop s c
  | 3 => sluResume s c
  | 4 => sluAbortCmd s c
  | _ => s

/-- KEEP's command registers (R556, R560, R567–R569). -/
def keepWrite (s : State) (p o i : Nat) (w : Word) : State :=
  let key := w.toNat % 256
  match o with
  | 0x18 => if key = 0xB7 then beaconTest s else s
  | 0x38 => if key = 0x5E then rtcSet s else s
  | 0x50 => rdselWrite s p w
  | 0xac => if key = 0xC1 then clearCmd s else s
  | 0xb0 => setReg s (keepClrtok i) w
  | 0xd0 => if getB s keepKeystat keepKeystat_Locked then s else setReg s (keepKeyprg i) w
  | 0xf0 => if key = 0x4B then keyLock s else s
  | _ => s

/-- The comparators of a polder whose bits are written to CMP.LATCHED. -/
def latchedWrite (s : State) (p : Nat) (w : Word) : State :=
  forEach ((upto 32).filter fun c => resPol s (resCmp c) == p && nbit w.toNat c) s cmpClear

/-- The actions of registers that have a behaviour of their own; `w` holds only bits with a right. The second answer: the write
ends with an error (a breach of R410). -/
def regAction (s : State) (src : Source) (p a : Nat) (w : Word) : State × Bool :=
  let (b, o, path) := regPlace a
  let i := path.headD 0
  if b < 23 ∧ o = 0xFF00 then
    (if nbit w.toNat 1 then commitDiscard s p b else if nbit w.toNat 0 then commitGo s p b else s, false)
  else match b, o with
  | 0, 0x8 => (forEach ((upto 8).filter fun q => nbit w.toNat q) s fun s q => requestReset s q .prst, false)
  | 0, 0xc => (if w.toNat % 256 = 0x5A then requestReset s p .prself else s, false)
  | 2, 0x120 => (latchConds s i, false)
  | 2, 0x180 => (if nbit w.toNat 0 then gcommit s p w.toNat else s, false)
  | 3, 0x0 => (if w.toNat % 4 = 1 then loadCmd s src p else s, false)
  | 5, 0x10 => culvOpWrite s p (sourceWho src) w
  | 6, 0x4 => (sluDptrWrite s i w, false)
  | 6, 0x8 => (sluCmdWrite s i (w.toNat % 8), false)
  | 9, 0xc => (if nbit w.toNat 31 then cmpClear s i else s, false)
  | 9, 0x800 => (latchedWrite s p w, false)
  | 10, 0x700 => (forceWrite s i (w.toNat % 4), false)
  | 10, 0x800 => (if nbit w.toNat 0 then tripClear s i else s, false)
  | 11, 0x4 => (if nbit w.toNat 0 then portClear s i else s, false)
  | 11, 0x1000 => (cellCtlWrite s i w, false)
  | 13, 0x20 => (fltAckOp s i (fget w fltAck_Classes), false)
  | 13, 0x100 => (if nbit w.toNat 8 then captureRearm s i else s, false)
  | 13, 0x200 => (hkstatClear s w, false)
  | 14, 0x8 => (if w.toNat % 256 = 0xC3 then restart s else if w.toNat % 256 = 0x3C then dgack s else s, false)
  | 14, 0xc => (outreqWrite s (w.toNat % 256), false)
  | 15, 0x810 => (if nbit w.toNat 30 then tctlSet s else s, false)
  | 20, _ => (keepWrite s p o i w, false)
  | 22, 0x0 => (updCmdWrite s w, false)
  | 255, 0x40010 => (readmitWrite s ((a - 0x50000000) / 0x100000) (w.toNat / 256 % 256), false)
  | 255, 0x40040 => (trctlWrite s ((a - 0x50000000) / 0x100000) w, false)
  | 255, 0x40044 => (trcmdWrite s ((a - 0x50000000) / 0x100000) (w.toNat % 4), false)
  | _, _ => (if 16 ≤ b ∧ b < 20 ∧ o = 0x114 ∧ nbit w.toNat 0 then qpush s (b - 16) i else s, false)

/-- A write of a register by polder `p`: its plain fields, then its actions. -/
def regWrite (s : State) (src : Source) (p a : Nat) (w : Word) : State × Bool :=
  let m := rightMask s p a
  if m = 0 then (s, false) else regAction (plainWrite s p a w) src p a (w &&& m)

/-! ## The dike (R402) -/

/-- How a host request ends. -/
inductive HostRes
  /-- Executed; the data of a read. -/
  | ok (data : List Word)
  /-- An error response. -/
  | err
  /-- A breach (R404). -/
  | breach
  /-- No enabled binding names the source (R401). -/
  | unbound
  /-- A form that a remote request may not have (R535). -/
  | format
  /-- A read of an SQ window: a transaction of the port gives the answer (R597). -/
  | sq (port off : Nat)
  deriving DecidableEq, Repr

/-- STATUS of R535. -/
def statusCode (r : HostRes) : Nat :=
  match r with
  | .ok _ => 0
  | .breach => 2
  | .unbound => 3
  | .format => 4
  | _ => 1

/-- The polder whose resource a register belongs to (R21, R37); registers that only carry a polder's number are no
resource. -/
def resourceOf (s : State) (a : Nat) : Option Nat :=
  let b := blockNo a
  if b = 2 ∨ b = 13 ∨ b = 15 ∨ (b = 11 ∧ 0x800 ≤ a % 0x10000 ∧ a % 0x10000 < 0x820) then none else regOwner s a

/-- A polder has a right to a block (R8), or to the registers of an engine (R23). -/
def blockRight (s : State) (p a : Nat) : Bool :=
  if blockNo a = 255 then resPol s (resEngine ((a - 0x50000000) / 0x100000)) == p
  else (blockRegs (blockNo a)).any fun d => d.fields.any fun f => match f.rights with
    | .any => true
    | .sys => p == 0
    | .own => true

/-- The rights check of a register access (R12, R403): the reason of a breach, 0 where it may go on. -/
def regBreach (s : State) (p a : Nat) : Nat :=
  if !blockRight s p a then (if blockNo a = 255 then 2 else 1)
  else if (regAt a).isSome && !(regFields a).any fun f => hasRight s p a f.rights then 1
  else 0

/-- A register access of a bound source that has the right form. A polder in reset makes no culvert operation (R413). -/
def regRequest (s : State) (src : Source) (p : Nat) (write : Bool) (a : Nat) (w : Word) : State × HostRes :=
  if s.dev.phase = .recovery ∧ blockNo a ≠ 22 then (s, .err)
  else if (resourceOf s a).any fun o => inReset s o then (s, .err)
  else if write ∧ a = culvOp ∧ inReset s p then (s, .err)
  else
    let r := regBreach s p a
    if r ≠ 0 then (breach s p (sourceWho src) (bit write) r a, .breach)
    else if write then
      let x := regWrite s src p a w
      (x.1, if x.2 then .breach else .ok [])
    else
      let x := regRead s src p a
      (x.1, .ok [x.2])

/-- How an access outside the register blocks ends, for a host. -/
def hostResOf (r : AccRes) : HostRes :=
  match r with
  | .ok l => .ok l
  | .breach => .breach
  | .sq n off => .sq n off
  | _ => .err

/-- A host request to the address map, through the checks of R402 in their order; `form` is false for a form that its transport
does not allow. -/
def hostRequest (s : State) (src : Source) (write : Bool) (a len : Nat) (data : List Word) (ecc : Ecc) (form : Bool) : State × HostRes :=
  match sourcePolder s src with
  | none => (unboundRequest s src a, .unbound)
  | some p =>
    let isReg := placeOf a == .register
    if placeOf a = .reserved then (unmapped s p write a, .err)
    else if !form then (s, .format)
    else if isReg then
      (if a % 4 ≠ 0 ∨ len ≠ 4 ∨ (write ∧ data.length ≠ 1) then (s, .err) else regRequest s src p write a (data.headD 0))
    else
      let x := access s { p := p, who := sourceWho src, write := write, addr := a, len := len, data := data, gen := none, ecc := ecc }
      (x.1, hostResOf x.2)

/-- A host request of the plain kind: its response stands in `dike.resp`; the response of an SQ window read comes with its
transaction. Nothing answers while the main dies are off or held by HRSTN. -/
def request (s : State) (src : Source) (write : Bool) (a len : Nat) (data : List Word) (ecc : Ecc) : State :=
  if !mainRuns s then s
  else
    let x := hostRequest s src write a len data ecc true
    match x.2 with
    | .ok l => { x.1 with dike := { x.1.dike with resp := ⟨false, l⟩ } }
    | .sq n off => setSq x.1 n { getSq x.1 n with reads := (getSq x.1 n).reads ++ [{ who := .host, off := off, words := len / 4 }] }
    | _ => { x.1 with dike := { x.1.dike with resp := ⟨true, []⟩ } }

/-- A host writes a register. -/
def hostWrite (s : State) (src : Source) (a : Nat) (w : Word) : State := request s src true a 4 [w] .clean

end Sys2Proof.Machine
end

