-- ==== Sys2Proof/Machine/HostIf.lean ====
section
/-! DEFINITION. What hosts do: register writes that command a block, plain register and memory accesses, request frames of the
fabric (R535, R536), frames of an SQ slave port (R606–R609). Each row of a register write is that write, through the dike. -/

namespace Sys2Proof.Machine

/-! ## Plain accesses -/

/-- REGISTER_WRITE: a host writes a register (R7–R13). -/
def execRegisterWrite (src : Source) (addr : BitVec 40) (val : BitVec 32) (s : State) : Host.Outcome State Fault Refusal :=
  .next (request s src true addr.toNat 4 [val] .clean)

/-- REGISTER_READ: a host reads a register (R7–R13, R652). -/
def execRegisterRead (src : Source) (addr : BitVec 40) (s : State) : Host.Outcome State Fault Refusal :=
  .next (request s src false addr.toNat 4 [] .clean)

/-- HOST_MEMORY_ACCESS: a host reads or writes outside the register blocks; `ecc` is what SECDED finds in the words of a
read (R25, R112, R402). -/
def execHostMemoryAccess (src : Source) (write : Bool) (addr : BitVec 40) (len : BitVec 16) (data : List (BitVec 32)) (ecc : Ecc) (s : State) :
    Host.Outcome State Fault Refusal :=
  .next (request s src write addr.toNat len.toNat data ecc)

/-! ## Staging and commit (R68, R72, R73) -/

/-- COMMIT_GO: GO to the COMMIT register of a block. -/
def execCommitGo (src : Source) (blk : Fin 23) (s : State) : Host.Outcome State Fault Refusal := .next (hostWrite s src (blockCommit blk) 1)

/-- COMMIT_DISCARD: DISCARD to the COMMIT register of a block. -/
def execCommitDiscard (src : Source) (blk : Fin 23) (s : State) : Host.Outcome State Fault Refusal :=
  .next (hostWrite s src (blockCommit blk) 2)

/-- GCOMMIT_GO: TICK.GCOMMIT with GO; bit b − 1 of `blocks` stands for block code b. -/
def execGcommitGo (src : Source) (blocks : BitVec 24) (s : State) : Host.Outcome State Fault Refusal :=
  .next (hostWrite s src tickGcommit (fset 1 tickGcommit_Blocks blocks.toNat))

/-! ## SYS -/

/-- SYS_PRST (R41). -/
def execSysPrst (src : Source) (mask : BitVec 8) (s : State) : Host.Outcome State Fault Refusal :=
  .next (hostWrite s src sysPrst (mask.setWidth 32))

/-- SYS_PRSELF (R42). -/
def execSysPrself (src : Source) (key : BitVec 8) (s : State) : Host.Outcome State Fault Refusal :=
  .next (hostWrite s src sysPrself (key.setWidth 32))

/-! ## Engines and trace lanes -/

/-- READMIT: 0xA5 to ENG.PLACE.READMIT (R127). -/
def execReadmit (src : Source) (e : Fin 256) (s : State) : Host.Outcome State Fault Refusal :=
  .next (hostWrite s src (engPlace e) (fset 0 engPlace_Readmit 0xA5))

/-- TRACE_ARM (R160). -/
def execTraceArm (src : Source) (e : Fin 256) (s : State) : Host.Outcome State Fault Refusal := .next (hostWrite s src (engTrcmd e) 1)

/-- TRACE_DISARM (R160). -/
def execTraceDisarm (src : Source) (e : Fin 256) (s : State) : Host.Outcome State Fault Refusal := .next (hostWrite s src (engTrcmd e) 2)

/-- TRACE_FORCE (R160). -/
def execTraceForce (src : Source) (e : Fin 256) (s : State) : Host.Outcome State Fault Refusal := .next (hostWrite s src (engTrcmd e) 3)

/-! ## Pairs and cell-link ports -/

/-- PWM_TRIP_CLEAR (R292). -/
def execPwmTripClear (src : Source) (p : Fin 48) (s : State) : Host.Outcome State Fault Refusal :=
  .next (hostWrite s src (pwmPstat p) (fset 0 pwmPstat_Tripped 1))

/-- PWM_FORCE (R293). -/
def execPwmForce (src : Source) (p : Fin 48) (mode : BitVec 2) (s : State) : Host.Outcome State Fault Refusal :=
  .next (hostWrite s src (pwmPforce p) (mode.setWidth 32))

/-- CL_TRIP_CLEAR (R324). -/
def execClTripClear (src : Source) (n : Fin 48) (s : State) : Host.Outcome State Fault Refusal :=
  .next (hostWrite s src (clnkPstat n) (fset 0 clnkPstat_Tripped 1))

/-- FCLR to cell i (R328). -/
def execFclr (src : Source) (i : Fin 1152) (s : State) : Host.Outcome State Fault Refusal :=
  .next (hostWrite s src (clnkCellctl i) (fset (getReg s (clnkCellctl i) &&& 0x1F) clnkCellctl_Fclr 1))

/-- BYPREQ to cell i (R333). -/
def execBypreq (src : Source) (i : Fin 1152) (s : State) : Host.Outcome State Fault Refusal :=
  .next (hostWrite s src (clnkCellctl i) (fset (getReg s (clnkCellctl i) &&& 0x1F) clnkCellctl_Bypreq 1))

/-- BYPREL to cell i (R334). -/
def execByprel (src : Source) (i : Fin 1152) (s : State) : Host.Outcome State Fault Refusal :=
  .next (hostWrite s src (clnkCellctl i) (fset (getReg s (clnkCellctl i) &&& 0x1F) clnkCellctl_Byprel 1))

/-! ## Culvert operations (R409) -/

/-- The word that CULV.OP takes. -/
def opWord (op : Nat) (page : Fin 4096) (gen : BitVec 16) : Word := BitVec.ofNat 32 (op * 2 ^ 28 + page.val * 2 ^ 16 + gen.toNat)

/-- TAKE. -/
def execTake (src : Source) (page : Fin 4096) (gen : BitVec 16) (s : State) : Host.Outcome State Fault Refusal :=
  .next (hostWrite s src culvOp (opWord 1 page gen))

/-- RENEW. -/
def execRenew (src : Source) (page : Fin 4096) (gen : BitVec 16) (s : State) : Host.Outcome State Fault Refusal :=
  .next (hostWrite s src culvOp (opWord 2 page gen))

/-- RELEASE. -/
def execRelease (src : Source) (page : Fin 4096) (gen : BitVec 16) (s : State) : Host.Outcome State Fault Refusal :=
  .next (hostWrite s src culvOp (opWord 3 page gen))

/-- HANDOFF. -/
def execHandoff (src : Source) (page : Fin 4096) (gen : BitVec 16) (s : State) : Host.Outcome State Fault Refusal :=
  .next (hostWrite s src culvOp (opWord 4 page gen))

/-- ACCEPT. -/
def execAccept (src : Source) (page : Fin 4096) (gen : BitVec 16) (s : State) : Host.Outcome State Fault Refusal :=
  .next (hostWrite s src culvOp (opWord 5 page gen))

/-- CANCEL. -/
def execCancel (src : Source) (page : Fin 4096) (gen : BitVec 16) (s : State) : Host.Outcome State Fault Refusal :=
  .next (hostWrite s src culvOp (opWord 6 page gen))

/-- SEAL. -/
def execSeal (src : Source) (page : Fin 4096) (gen : BitVec 16) (s : State) : Host.Outcome State Fault Refusal :=
  .next (hostWrite s src culvOp (opWord 7 page gen))

/-- UNSEAL. -/
def execUnseal (src : Source) (page : Fin 4096) (gen : BitVec 16) (s : State) : Host.Outcome State Fault Refusal :=
  .next (hostWrite s src culvOp (opWord 8 page gen))

/-! ## Sluices (R435, R437) -/

/-- GO. -/
def execGo (src : Source) (c : Fin 32) (s : State) : Host.Outcome State Fault Refusal := .next (hostWrite s src (sluCmd c) 1)

/-- STOP. -/
def execStop (src : Source) (c : Fin 32) (s : State) : Host.Outcome State Fault Refusal := .next (hostWrite s src (sluCmd c) 2)

/-- RESUME. -/
def execResume (src : Source) (c : Fin 32) (s : State) : Host.Outcome State Fault Refusal := .next (hostWrite s src (sluCmd c) 3)

/-- ABORT. -/
def execAbort (src : Source) (c : Fin 32) (s : State) : Host.Outcome State Fault Refusal := .next (hostWrite s src (sluCmd c) 4)

/-- SLU_DPTR_WRITE. -/
def execSluDptrWrite (src : Source) (c : Fin 32) (val : BitVec 32) (s : State) : Host.Outcome State Fault Refusal :=
  .next (hostWrite s src (sluDptr c) val)

/-! ## Image, faults -/

/-- LOAD to IMG.CTL (R452). -/
def execLoad (src : Source) (s : State) : Host.Outcome State Fault Refusal := .next (hostWrite s src imgCtl 1)

/-- FLT_ACK: bit c − 1 of `classes` stands for class c (R479). -/
def execFltAck (src : Source) (p : Fin 8) (classes : BitVec 4) (s : State) : Host.Outcome State Fault Refusal :=
  .next (hostWrite s src (fltAck p) (fset 0 fltAck_Classes classes.toNat))

/-- FLT_CAPTURE_REARM (R474). -/
def execFltCaptureRearm (src : Source) (p : Fin 8) (s : State) : Host.Outcome State Fault Refusal :=
  .next (hostWrite s src (fltCapa p) (fset 0 fltCapa_Valid 1))

/-- HKSTAT_CLEAR (R476). -/
def execHkstatClear (src : Source) (mask : BitVec 32) (s : State) : Host.Outcome State Fault Refusal :=
  .next (hostWrite s src fltHkstat mask)

/-! ## Safety channel (R498, R499, R506) -/

/-- RESTART. -/
def execRestart (src : Source) (s : State) : Host.Outcome State Fault Refusal := .next (hostWrite s src safeCmd 0xC3)

/-- DGACK. -/
def execDgack (src : Source) (s : State) : Host.Outcome State Fault Refusal := .next (hostWrite s src safeCmd 0x3C)

/-- SAFE_OUTREQ_WRITE. -/
def execSafeOutreqWrite (src : Source) (val : BitVec 8) (s : State) : Host.Outcome State Fault Refusal :=
  .next (hostWrite s src safeOutreq (val.setWidth 32))

/-! ## Fabric time, keep domain, recorder -/

/-- TCTL_SET: SET to RLM.TCTL, its other fields as they are committed (R532). -/
def execTctlSet (src : Source) (s : State) : Host.Outcome State Fault Refusal :=
  .next (hostWrite s src rlmTctl (fset (getReg s rlmTctl) rlmTctl_Set 1))

/-- RTCCMD_SET (R556). -/
def execRtccmdSet (src : Source) (s : State) : Host.Outcome State Fault Refusal := .next (hostWrite s src keepRtccmd 0x5E)

/-- BEACON_TEST (R560). -/
def execBeaconTest (src : Source) (s : State) : Host.Outcome State Fault Refusal := .next (hostWrite s src keepBcmd 0xB7)

/-- RDSEL_WRITE (R567). -/
def execRdselWrite (src : Source) (seq : BitVec 32) (s : State) : Host.Outcome State Fault Refusal := .next (hostWrite s src keepRdsel seq)

/-- LOCK (R568). -/
def execLock (src : Source) (s : State) : Host.Outcome State Fault Refusal := .next (hostWrite s src keepKeycmd 0x4B)

/-- CLEAR (R569). -/
def execClear (src : Source) (s : State) : Host.Outcome State Fault Refusal := .next (hostWrite s src keepClrcmd 0xC1)

/-! ## Update (R575, R576, R580–R588) -/

/-- PROG. -/
def execProg (src : Source) (s : State) : Host.Outcome State Fault Refusal := .next (hostWrite s src updCmd 1)

/-- VERIFY. -/
def execVerify (src : Source) (s : State) : Host.Outcome State Fault Refusal := .next (hostWrite s src updCmd 2)

/-- ARM. -/
def execArm (src : Source) (disrupt : Bool) (s : State) : Host.Outcome State Fault Refusal :=
  .next (hostWrite s src updCmd (fset 3 updCmd_Disrupt (bit disrupt)))

/-- UPD_CANCEL. -/
def execUpdCancel (src : Source) (s : State) : Host.Outcome State Fault Refusal := .next (hostWrite s src updCmd 4)

/-- SVNLOCK. -/
def execSvnlock (src : Source) (key : BitVec 8) (s : State) : Host.Outcome State Fault Refusal :=
  .next (hostWrite s src updCmd (fset 5 updCmd_Key key.toNat))

/-- REVOKE. -/
def execRevoke (src : Source) (key : BitVec 8) (k : Fin 4) (s : State) : Host.Outcome State Fault Refusal :=
  .next (hostWrite s src updCmd (fset (fset 6 updCmd_Key key.toNat) updCmd_Arg k.val))

/-- RECOVER: in ROM recovery, with the header and image that stand in the culvert (R580). -/
def execRecover (src : Source) (x : Slot) (s : State) : Host.Outcome State Fault Refusal :=
  .next <|
    if s.dev.phase = .recovery then
      match sourcePolder s src with
      | some _ => recover { s with dike := { s.dike with resp := ⟨false, []⟩ } } x
      | none => request s src true updCmd 4 [7] .clean
    else request s src true updCmd 4 [7] .clean

/-! ## SQ -/

/-- QPUSH (R601). -/
def execQpush (src : Source) (n sel : Fin 4) (s : State) : Host.Outcome State Fault Refusal := .next (hostWrite s src (sqQpush n sel) 1)

/-! ## Request frames (R535, R536) -/

/-- L of a remote request, and the channel that reaches its address. -/
def frameForm (vc a len : Nat) : Bool :=
  decide (4 ≤ len) && decide (len ≤ 248) && len % 4 == 0 && (vc != 4 || decide (len ≤ 64)) && (placeOf a != .register || (vc == 4 && len == 4))

/-- A request frame for this node: answered from the kept responses, or executed as one host access. `resp` is the type of its
response, which carries data when the access is a read. -/
def requestFrame (s : State) (n : Nat) (h : DWord) (write : Bool) (a len : Nat) (data : List Word) (ecc : Ecc) : State :=
  let src := hdrSrc h
  let vc := hdrVc h
  let pol := hdrPol h
  let seq := hdrSeq h
  let from' : Source := .ralma (BitVec.ofNat 12 src).toFin
  let resp := if write then 0x13 else 0x12
  match (cellGet [] s.rlm.kept (8 * src + vc)).find? fun x => x.1 == seq with
  | some (_, []) => s
  | some (_, t :: l) => answerFrame s src vc pol seq t l
  | none =>
    if s.dev.phase = .recovery ∧ n ≠ 0 then answerFrame s src vc pol seq resp [3, 0, 0, 0]
    else
      let x := hostRequest s from' write a len data ecc (frameForm vc a len && (!write || 4 * data.length == len))
      match x.2 with
      | .sq q off =>
        let s := keepResponse x.1 src vc seq []
        setSq s q { getSq s q with reads := (getSq s q).reads ++ [{ who := .frame src vc pol seq, off := off, words := len / 4 }] }
      | .ok l => answerFrame x.1 src vc pol seq resp ([0, 0, 0, 0] ++ l.flatMap wordBytes)
      | r => answerFrame x.1 src vc pol seq resp [statusCode r, 0, 0, 0]

/-- The payload of RDREQ, and the start of that of WRREQ (R535). -/
def requestBytes (a len : Nat) : List Nat := beBytes 5 a ++ [0] ++ beBytes 2 len

/-- RDREQ: a read request arrives on port n. -/
def execRdreq (n : Fin 8) (hdr : BitVec 64) (addr : BitVec 40) (len : BitVec 16) (ecc : Ecc) (crc : BitVec 32) (s : State) :
    Host.Outcome State Fault Refusal :=
  .next <|
    let (s, ok) := arriveMine s n 0x10 hdr (requestBytes addr.toNat len.toNat) crc
    if ok then requestFrame s n hdr false addr.toNat len.toNat [] ecc else s

/-- WRREQ: a write request arrives on port n, its data as words. -/
def execWrreq (n : Fin 8) (hdr : BitVec 64) (addr : BitVec 40) (len : BitVec 16) (data : List (BitVec 32)) (crc : BitVec 32) (s : State) :
    Host.Outcome State Fault Refusal :=
  .next <|
    let (s, ok) := arriveMine s n 0x11 hdr (requestBytes addr.toNat len.toNat ++ data.flatMap wordBytes) crc
    if ok then requestFrame s n hdr true addr.toNat len.toNat data .clean else s

/-! ## SQ slave mode (R606–R609) -/

/-- The port is a slave; SQ1 is one in ROM recovery (R610). -/
def slaveOn (s : State) (n : Nat) : Bool :=
  mainRuns s && !s.clk.gateA && ((s.dev.phase == .recovery && n == 1) || (getB s (sqCfg n) sqCfg_En && getB s (sqCfg n) sqCfg_Role))

/-- The bytes that the port sends in a frame of `k` bytes: those of a list, then 0x00. -/
def slaveSends (s : State) (n k : Nat) (l : List Nat) : State :=
  setSq s n { getSq s n with out := (l ++ List.replicate k 0).take k }

/-- A request that still runs: the frame is discarded (R608). -/
def slaveBusy (s : State) (n k : Nat) : State := slaveSends s n k [0xB5]

/-- A frame that is rejected (R609). -/
def slaveReject (s : State) (n len op : Nat) : State :=
  let scope := (sourcePolder s (.sq (BitVec.ofNat 2 n).toFin)).getD 0
  let s := setB (setSq s n { getSq s n with result := 4, data := [] }) (sqStat n) sqStat_Frameerr true
  notice s 0x1103 scope [pw n, pw len, pw op]

/-- L of a slave request (R607). -/
def slaveForm (a len : Nat) : Bool := decide (4 ≤ len) && decide (len ≤ 256) && len % 4 == 0 && (placeOf a != .register || len == 4)

/-- An accepted request is executed as one host access; its result shows when the request has ended. -/
def slaveRequest (s : State) (n : Nat) (write : Bool) (a len : Nat) (data : List Word) (ecc : Ecc) : State :=
  let x := hostRequest s (.sq (BitVec.ofNat 2 n).toFin) write a len data ecc true
  let s := setB x.1 (sqStat n) sqStat_Slvbusy true
  let y := { getSq s n with slvBusy := true, slvWait := false, result := statusCode x.2, data := [] }
  match x.2 with
  | .ok l => setSq s n { y with data := l }
  | .sq q off =>
    let s := setSq s n { y with slvWait := true }
    setSq s q { getSq s q with reads := (getSq s q).reads ++ [{ who := .slave n, off := off, words := len / 4 }] }
  | _ => setSq s n y

/-- SLAVE_READ: a READ frame of `k` bytes. A frame whose OP R607 does not list comes with this command too, and is rejected (R609). -/
def execSlaveRead (n : Fin 4) (op : BitVec 8) (addr : BitVec 40) (len : BitVec 16) (k : BitVec 16) (ecc : Ecc) (s : State) : Host.Outcome State Fault Refusal :=
  .next <|
    if !slaveOn s n || op == 2 || op == 3 then s
    else if (getSq s n).slvBusy then slaveBusy s n k.toNat
    else
      let s := slaveSends s n k.toNat [0x4A]
      if op = 1 ∧ k.toNat = 8 ∧ slaveForm addr.toNat len.toNat then slaveRequest s n false addr.toNat len.toNat [] ecc
      else slaveReject s n k.toNat op.toNat

/-- SLAVE_WRITE: a WRITE frame with its header's L and the bytes that follow. -/
def execSlaveWrite (n : Fin 4) (addr : BitVec 40) (len : BitVec 16) (data : List (BitVec 8)) (s : State) : Host.Outcome State Fault Refusal :=
  .next <|
    let k := 8 + data.length
    if !slaveOn s n then s
    else if (getSq s n).slvBusy then slaveBusy s n k
    else
      let s := slaveSends s n k [0x4A]
      if data.length = len.toNat ∧ slaveForm addr.toNat len.toNat then
        let words := (upto (data.length / 4)).map fun i => BitVec.ofNat 32 (beNat (((data.map (·.toNat)).drop (4 * i)).take 4))
        slaveRequest s n true addr.toNat len.toNat words .clean
      else slaveReject s n k 2

/-- FETCH: a FETCH frame of `k` bytes returns the last result. -/
def execFetch (n : Fin 4) (k : BitVec 16) (s : State) : Host.Outcome State Fault Refusal :=
  .next <|
    if !slaveOn s n then s
    else if (getSq s n).slvBusy then slaveBusy s n k.toNat
    else
      let x := getSq s n
      let s := slaveSends s n k.toNat ([0x4A, x.result, 0, 0, 0, 0, 0, 0] ++ x.data.flatMap fun w => beBytes 4 w.toNat)
      if k.toNat % 4 = 0 ∧ 8 ≤ k.toNat then s else slaveReject s n k.toNat 3

/-- SLAVE_REQUEST_DONE: the running request has its result; the status becomes READY. -/
def execSlaveRequestDone (n : Fin 4) (s : State) : Host.Outcome State Fault Refusal :=
  .next <|
    let x := getSq s n
    if x.slvBusy && !x.slvWait then setB (setSq s n { x with slvBusy := false }) (sqStat n) sqStat_Slvbusy false else s

end Sys2Proof.Machine
end

