-- ==== Sys2Proof/Machine/Met.lean ====
section
/-! DEFINITION. The metrology die (R367–R394) and the mailbox (R395–R398). -/

namespace Sys2Proof.Machine

/-- The metrology die runs; in a DTN9256-CA its balls lead nowhere (R2). -/
def metOn (s : State) : Bool := s.met.on && !s.dev.ca

def setMet (s : State) (m : Met) : State := { s with met := m }

/-! ## Parameters (R376, R390) -/

def metKey (pid idx : Nat) : Nat := 256 * pid + idx

/-- The default of a parameter. -/
def metDefault (pid : Nat) : Word :=
  if pid = 0x0001 then 50
  else if pid = 0x0011 ∨ pid = 0x0014 ∨ (0x0028 ≤ pid ∧ pid ≤ 0x002F) then 0x01000000
  else if 0x0021 ≤ pid ∧ pid ≤ 0x0027 then 0xFFFFFFFF
  else if pid = 0x0101 then 100
  else if pid = 0x0102 then 1000
  else if pid = 0x0103 then 100
  else if pid = 0x0104 then 500
  else if pid = 0x0201 then 10000
  else if pid = 0x0202 then 1
  else 0

/-- The number of indices a parameter has; 0 is no parameter. -/
def metCount (pid : Nat) : Nat :=
  if pid = 1 then 1
  else if (0x10 ≤ pid ∧ pid ≤ 0x14) ∨ (0x21 ≤ pid ∧ pid ≤ 0x37) then 16
  else if 0x100 ≤ pid ∧ pid ≤ 0x104 then 6
  else if 0x200 ≤ pid ∧ pid ≤ 0x202 then 4
  else 0

/-- A committed value. -/
def metPar (m : Met) (pid idx : Nat) : Word := (cellFind m.params (metKey pid idx)).getD (metDefault pid)

/-- The value after a commit of what is pending. -/
def metNext (m : Met) (pid idx : Nat) : Word := (cellFind m.pend (metKey pid idx)).getD (metPar m pid idx)

def inRange (lo hi : Int) (i : Int) : Bool := decide (lo ≤ i) && decide (i ≤ hi)

/-- The bounds FBB keep among each other: ascending, unused ones last (R375, R390). -/
def fbbOk (m : Met) (k ch : Nat) (v : Word) : Bool :=
  let below : Word := if k ≤ 1 then 0 else metNext m (0x20 + k - 1) ch
  let above : Word := if k = 7 then 0xFFFFFFFF else metNext m (0x20 + k + 1) ch
  if v = 0xFFFFFFFF then above == 0xFFFFFFFF
  else below != 0xFFFFFFFF && decide (below.toNat < v.toNat) && decide (v.toNat < above.toNat)

/-- The range of a parameter (R390). -/
def metRange (m : Met) (pid idx : Nat) (v : Word) : Bool :=
  let n := v.toNat
  if pid = 1 then n == 50 || n == 60
  else if pid = 0x10 then decide (n < 32) && n / 4 % 4 != 3
  else if pid = 0x11 ∨ pid = 0x14 ∨ (0x28 ≤ pid ∧ pid ≤ 0x2F) then inRange 0x800000 0x1800000 n
  else if pid = 0x12 ∨ (0x30 ≤ pid ∧ pid ≤ 0x37) then inRange (-1024) 1024 v.toInt
  else if pid = 0x13 then inRange (-65536) 65536 v.toInt
  else if 0x21 ≤ pid ∧ pid ≤ 0x27 then fbbOk m (pid - 0x20) idx v
  else if pid = 0x100 then n % 0x80000000 < 256
  else if pid = 0x101 ∨ pid = 0x102 then n != 0
  else if pid = 0x103 ∨ pid = 0x104 then decide (n ≤ 10000)
  else if pid = 0x200 then n % 0x80000000 < 64 && decide (n / 8 % 8 < 4) && decide (n % 8 < 6) && (decide (n / 8 % 8 < 2) || decide (n % 8 < 2))
  else if pid = 0x201 then inRange 1 100000 n
  else inRange 1 10000000 n

/-- Points 0 and 1 are AC points. -/
def isAc (q : Nat) : Bool := decide (q < 2)

/-- The channels of a point from a PTCFG word: voltage and current. -/
def ptChans (q : Nat) (w : Word) : List Nat × List Nat :=
  let n := if isAc q then 3 else 1
  ((upto n).map fun k => w.toNat % 16 + k, (upto n).map fun k => w.toNat / 16 % 16 + k)

/-- The rules of R376 for the values after a commit. -/
def ptRules (m : Met) : Bool :=
  let on := (upto 6).filter fun q => nbit (metNext m 0x100 q).toNat 31
  let pts := on.map fun q => ptChans q (metNext m 0x100 q)
  let us := pts.flatMap fun c => c.1
  let is := pts.flatMap fun c => c.2
  (us ++ is).all (fun c => decide (c < 16)) && decide is.Nodup && is.all fun c => !us.contains c

/-! ## The calibration port (R387–R391) -/

/-- Bytes 1 to 8 of a request or a response: CMD or STATUS, PID, IDX, VALUE (R387). -/
def calBytes (head pid idx : Nat) (v : Word) : List Nat := head :: beBytes 2 pid ++ idx % 256 :: beBytes 4 v.toNat

/-- Answer a request, with the CRC of R306; a value that the spec does not state is free. -/
def calAnswer (s : State) (status pid idx : Nat) (v : Option Word) : State :=
  let w := v.getD (Config.freeWord s.free)
  let s := setMet s { s.met with resp := some ⟨status, pid, idx, w, crc16 (calBytes status pid idx w)⟩ }
  if v.isSome then s else nextFree s

/-- A request is answered only on a die that runs and with a good CRC (R387). -/
def calRequest (s : State) (cmd : Nat) (pid : BitVec 16) (idx : BitVec 8) (value : BitVec 32) (crc : BitVec 16) (f : State → State) : State :=
  if !metOn s then s
  else if crc16 (calBytes cmd pid.toNat idx.toNat value) = crc.toNat then f s
  else setMet s { s.met with resp := none }

/-- Calibration READ. -/
def execRead (pid : BitVec 16) (idx : BitVec 8) (value : BitVec 32) (crc : BitVec 16) (s : State) : Host.Outcome State Fault Refusal :=
  .next <| calRequest s 1 pid idx value crc fun s =>
    let p := pid.toNat
    let i := idx.toNat
    if i < metCount p then calAnswer s 0 p i (some (metPar s.met p i)) else calAnswer s 1 p i none

/-- Calibration WRITE. -/
def execWrite (pid : BitVec 16) (idx : BitVec 8) (value : BitVec 32) (crc : BitVec 16) (s : State) : Host.Outcome State Fault Refusal :=
  .next <| calRequest s 2 pid idx value crc fun s =>
    let p := pid.toNat
    let i := idx.toNat
    if metCount p ≤ i then calAnswer s 1 p i none
    else if !s.met.broken then calAnswer s 3 p i none
    else if metRange s.met p i value then
      calAnswer (setMet s { s.met with pend := cellPut s.met.pend (metKey p i) value }) 0 p i none
    else calAnswer s 2 p i none

/-- The pending values that differ from the committed ones. -/
def metChanges (m : Met) : Cells Word := m.pend.filter fun c => decide (metPar m (c.1 / 256) (c.1 % 256) ≠ c.2)

/-- Calibration COMMIT: checked at once, applied at the next window start, and then answered (R388, R389). -/
def execCommit (pid : BitVec 16) (idx : BitVec 8) (value : BitVec 32) (crc : BitVec 16) (s : State) : Host.Outcome State Fault Refusal :=
  .next <| calRequest s 3 pid idx value crc fun s =>
    let p := pid.toNat
    let i := idx.toNat
    if !s.met.broken then calAnswer s 3 p i none
    else if !ptRules s.met then calAnswer s 2 p i none
    else if 1024 < s.met.log.length + (metChanges s.met).length then calAnswer s 4 p i none
    else setMet s { s.met with commitAsked := some (p, i), resp := none }

/-- Calibration DISCARD. -/
def execDiscard (pid : BitVec 16) (idx : BitVec 8) (value : BitVec 32) (crc : BitVec 16) (s : State) : Host.Outcome State Fault Refusal :=
  .next <| calRequest s 4 pid idx value crc fun s => calAnswer (setMet s { s.met with pend := [], commitAsked := none }) 0 pid.toNat idx.toNat none

/-- Calibration IDENT. -/
def execIdent (pid : BitVec 16) (idx : BitVec 8) (value : BitVec 32) (crc : BitVec 16) (s : State) : Host.Outcome State Fault Refusal :=
  .next <| calRequest s 5 pid idx value crc fun s =>
    let i := idx.toNat
    match pid.toNat with
    | 0 => calAnswer s 0 0 i (some (BitVec.ofNat 32 s.met.ver))
    | 1 => calAnswer s 0 1 i (some s.met.romCrc)
    | 2 => calAnswer s 0 2 i (some s.met.serial)
    | p => calAnswer s 1 p i none

/-- Calibration READLOG. -/
def execReadlog (pid : BitVec 16) (idx : BitVec 8) (value : BitVec 32) (crc : BitVec 16) (s : State) : Host.Outcome State Fault Refusal :=
  .next <| calRequest s 6 pid idx value crc fun s =>
    let p := pid.toNat
    let i := idx.toNat
    if 1023 < p ∨ 7 < i then calAnswer s 1 p i none
    else match s.met.log[p]? with
      | some r => calAnswer s 0 p i (some (r.getD i 0))
      | none => calAnswer s 5 p i none

/-- CAL_REQUEST_GAP: the request is abandoned and not answered (R387). -/
def execCalRequestGap (s : State) : Host.Outcome State Fault Refusal :=
  .next (if metOn s && s.met.commitAsked.isNone then setMet s { s.met with resp := none } else s)

/-- One change: committed, counted, logged, the bytes of a word in the order of the port (R387, R389, R391; assumption log 72). A change of CHCFG
starts the channel's integrator anew (R373). -/
def metChange (m : Met) (c : Nat × Word) : Met :=
  let chg := (m.keep.chg + 1) % 4294967296
  let pid := c.1 / 256
  let idx := c.1 % 256
  let ws : List Word := [BitVec.ofNat 32 chg, BitVec.ofNat 32 (m.keep.windows / 5), BitVec.ofNat 32 (pid * 65536 + idx * 256),
    metPar m pid idx, c.2, m.romCrc, 0]
  let crc : Word := BitVec.ofNat 32 (crc32 (ws.flatMap fun w => beBytes 4 w.toNat))
  let k := m.keep
  let k := if 0x200 ≤ pid then { k with acc := cellDel k.acc idx, due := cellDel k.due idx } else k
  { m with params := cellSet (metDefault pid) m.params c.1 c.2, log := m.log ++ [ws ++ [crc]], keep := { k with chg := chg }
           integ := if pid = 0x10 then cellDel m.integ idx else m.integ }

/-- The pending set at a window start. A WRITE after the COMMIT has joined it, so the rules are judged again: a set that breaks R376, or for
which the log has no room, is refused and stays pending (R389; assumption log 72, DEDUCED). -/
def metApply (s : State) : State :=
  match s.met.commitAsked with
  | some r =>
    let refused (status : Nat) : State := calAnswer (setMet s { s.met with commitAsked := none }) status r.1 r.2 none
    if !ptRules s.met then refused 2
    else if 1024 < s.met.log.length + (metChanges s.met).length then refused 4
    else
    let m := (metChanges s.met).foldl metChange s.met
    let s := setMet s { m with pend := [], commitAsked := none }
    calAnswer s 0 r.1 r.2 (some (BitVec.ofNat 32 s.met.keep.chg))
  | none => s

/-! ## One window (R371–R382) -/

/-- Full scale of a value in 2^-30. -/
def metOne : Nat := 1073741824

/-- The nearest whole number; half way, either neighbour (R371 gives no rule). -/
def roundNear (n d : Int) : Int :=
  let q := (2 * n + d) / (2 * d)
  if (2 * n + d) % (2 * d) = 0 ∧ ¬ Config.roundUp n d then q - 1 else q

/-- The code of a sample of `v` pV at the PGA gain of a CHCFG word (R371, R390). -/
def metCode (cfg : Nat) (v : Int) : Int := clampI (-8388608) 8388607 (roundNear (v * 4 ^ (cfg / 4 % 4) * 8388608) 500000000000)

/-- The codes of a channel in the window: 1,600 samples; a sample not listed is 0 V (short-circuited input). -/
def winCodes (m : Met) (volts : List (List (BitVec 40))) (c : Nat) : List Int :=
  (upto 1600).map fun n => metCode (metPar m 0x10 c).toNat ((volts.getD n []).getD c 0).toInt

/-- A code at a limit in the window (R371). -/
def winOver (l : List Int) : Bool := l.any fun x => x == 8388607 || x == -8388608

/-- Whether the RMS of a window, given by its sum of squares, is at least `b` ppm of full scale (R375). -/
def magAtLeast (sum b : Nat) : Bool := decide (b * b * 1600 * metOne * metOne ≤ 1000000000000 * sum)

/-- The RMS of a window in 2^-20 ppm of full scale. -/
def magPpm (sum : Nat) : Nat := isqrt (1000000000000 * 2 ^ 40 * sum / (1600 * metOne * metOne))

/-- Gain in 2^-32 and delay in 2^-16 samples of a channel in the window (R374, R375). -/
def gainDelay (m : Met) (c : Nat) : Int × Int :=
  if !nbit (metPar m 0x10 c).toNat 4 then (256 * (metPar m 0x11 c).toInt, 256 * (metPar m 0x12 c).toInt)
  else
    let fbb (k : Nat) : Nat := if k = 0 then 0 else (metPar m (0x20 + k) c).toNat
    let sum := cellGet 0 m.mag c
    let seg := if m.firstWin then 0 else (upto 8).foldl (fun b k => if fbb k ≠ 0xFFFFFFFF ∧ magAtLeast sum (fbb k) then k else b) 0
    let g (k : Nat) : Int := 256 * (metPar m (0x28 + k) c).toInt
    let d (k : Nat) : Int := 256 * (metPar m (0x30 + k) c).toInt
    if m.firstWin ∨ seg = 7 ∨ fbb (seg + 1) = 0xFFFFFFFF then (g seg, d seg)
    else
      let lin (a b : Int) : Int :=
        a + fsDiv ((b - a) * ((magPpm sum : Int) - 1048576 * fbb seg)) (1048576 * ((fbb (seg + 1) : Int) - fbb seg))
      (lin (g seg) (g (seg + 1)), lin (d seg) (d (seg + 1)))

/-- The step of the integrator of R373 for codes `x` after `x'`: w in 2^-60 of full scale, the root of FNOM² + 1/4 in 2^-40. -/
def integStep (m : Met) (c : Nat) (w x x' : Int) : Int :=
  let itrim : Int := (metPar m 0x14 c).toNat
  let fnom := (metPar m 1 0).toNat
  let root : Int := isqrt ((4 * fnom * fnom + 1) * 2 ^ 80)
  w - fsDiv (2 * halfPi * w) (8000 * 2 ^ 60) + fsDiv (itrim * halfPi * root * (x + x') * 2 ^ 37) (8000 * 2 ^ 124)

/-- The integrator over a window's values: its outputs, and where it stands at the end. -/
def integrate (m : Met) (c : Nat) (start : Int × Int) (xs : List Int) : List Int × (Int × Int) :=
  xs.foldl (fun r x => let w := integStep m c r.2.1 x r.2.2; (r.1 ++ [w], (w, x))) ([], start)

/-- The channel is of the air-core type (R390). -/
def airCore (m : Met) (c : Nat) : Bool := (metPar m 0x10 c).toNat % 4 == 3

/-- The values of a channel after steps 1 and 2 of R372, in 2^-30 of full scale, and its integrator after them. -/
def stageTwo (m : Met) (c : Nat) (volts : List (List (BitVec 40))) : List Int × (Int × Int) :=
  let xs := (winCodes m volts c).map fun x => x - (metPar m 0x13 c).toInt
  if airCore m c then
    let r := integrate m c (cellGet (0, 0) m.integ c) xs
    (r.1.map fun w => fsDiv w (2 ^ 30), r.2)
  else (xs.map fun x => 128 * x, (0, 0))

/-- The samples `xs` of a channel so late by `num / den` samples, at most 64: the sample itself where that instant is one, else the band-limited
interpolator's value, which the spec bounds for signals and does not give for samples. `old` holds the values before the window (R374, R377). -/
def delayed (free c num den : Nat) (old xs : List Int) : List Int :=
  let k := num / den
  let pad := (upto (64 - old.length)).map fun j => Config.metSample 6 [BitVec.ofNat 32 c, BitVec.ofNat 32 j] free []
  let l := pad ++ old ++ xs
  if num % den = 0 then (l.drop (64 - k)).take xs.length
  else (upto xs.length).map fun n =>
    Config.metSample 0 [BitVec.ofNat 32 c, BitVec.ofNat 32 (num % den), BitVec.ofNat 32 den] free ((l.drop (n + 56 - k)).take (min 16 (9 + k)))

/-- The corrected samples of a channel: s[n] = G · x(n − 8 − D / 256) (R372, R374, R375). -/
def winSamples (m : Met) (free c : Nat) (volts : List (List (BitVec 40))) : List Int :=
  let gd := gainDelay m c
  (delayed free c (8 * 65536 + gd.2).toNat 65536 (cellGet [] m.past c) (stageTwo m c volts).1).map fun y => fsDiv (gd.1 * y) (2 ^ 32)

/-- Corrected samples a quarter period late: of the frequency of the previous window, or of FNOM where that was in error (R377, R378). -/
def quarterLate (m : Met) (free q c : Nat) (us : List Int) : List Int :=
  let f := match cellFind m.freq q with
    | some (f, false) => f
    | _ => 1000 * (metPar m 1 0).toNat
  delayed free c 2000000 (max 40000 f) (cellGet [] m.latest c) us

/-- The last 64 values of a channel at a window's end. -/
def lastOf (xs : List Int) : List Int := xs.drop (xs.length - 64)

def dot (a b : List Int) : Int := (List.zipWith (· * ·) a b).foldl (· + ·) 0

/-- What a window measures at one point. -/
structure PtWin where
  sp : Int
  sq : Int
  us : List (List Int)
  is : List (List Int)
  deriving DecidableEq, Repr

/-- The sums of a point (R377). -/
def ptWindow (m : Met) (free q : Nat) (volts : List (List (BitVec 40))) : PtWin :=
  let ch := ptChans q (metPar m 0x100 q)
  let us := ch.1.map fun c => winSamples m free c volts
  let is := ch.2.map fun c => winSamples m free c volts
  let vs := if isAc q then ch.1.map (fun c => quarterLate m free q c (winSamples m free c volts)) else []
  { sp := (List.zipWith dot us is).foldl (· + ·) 0, sq := (List.zipWith dot vs is).foldl (· + ·) 0, us := us, is := is }

def ptVk (m : Met) (q : Nat) : Nat := (metPar m 0x101 q).toNat
def ptIk (m : Met) (q : Nat) : Nat := (metPar m 0x102 q).toNat

/-- The no-load rule (R380), cleared of its fractions. -/
def noLoad (m : Met) (q : Nat) (w : PtWin) : Bool :=
  let pnl : Int := (metPar m 0x103 q).toNat
  let ist : Int := (metPar m 0x104 q).toNat
  let full : Int := 1600 * metOne * metOne
  (if isAc q then decide (2 * 1000000 * absI w.sp < 3 * pnl * full) else decide (1000000 * absI w.sp < pnl * full)) &&
    w.is.all fun i => decide (1000000000000 * dot i i < ist * ist * full)

/-- The unit of the residuals: 1 mWh in 2^-60 of (0.01 V × 0.001 A) sample sums. -/
def mwh : Int := 2880000000 * metOne * metOne

/-- Add the energy of a window to a register pair (R379). -/
def addEnergy (k : MetKeep) (q pair : Nat) (ew : Int) : MetKeep :=
  let i := 2 * q + pair
  let res := cellGet 0 k.res i + ew
  let up : Int := if mwh ≤ res then res / mwh else 0
  let res := res - up * mwh
  let dn : Int := if res ≤ -mwh then (-res) / mwh else 0
  let res := res + dn * mwh
  let e (r : Nat) : Nat := 4 * q + 2 * pair + r
  let g := cellSet 0 k.energy (e 0) ((cellGet 0 k.energy (e 0) + up.toNat) % 2 ^ 64)
  { k with res := cellSet 0 k.res i res, energy := cellSet 0 g (e 1) ((cellGet 0 g (e 1) + dn.toNat) % 2 ^ 64) }

/-- What a window adds to acc and due of an output (R381, R382). -/
def addPulses (m : Met) (old : MetKeep) (j : Nat) : Met :=
  let sel := (metPar m 0x200 j).toNat
  if !nbit sel 31 then m
  else
    let r := 4 * (sel % 8) + sel / 8 % 8
    let d := cellGet 0 m.keep.energy r - cellGet 0 old.energy r
    let c := (metPar m 0x201 j).toNat
    let ratio := (metPar m 0x202 j).toNat
    let acc := cellGet 0 m.keep.acc j + d * c
    let n := acc / (1000000 * ratio)
    { m with keep := { m.keep with acc := cellSet 0 m.keep.acc j (acc - n * 1000000 * ratio), due := cellSet 0 m.keep.due j (cellGet 0 m.keep.due j + n) } }

/-- The pulses that an output emits in the new window, under the parameters of that window: k = min(due, 100), none of a disabled output
(R382). -/
def takePulses (m : Met) (j : Nat) : Met :=
  if !nbit (metPar m 0x200 j).toNat 31 then { m with sched := cellDel m.sched j }
  else
    let k := min (cellGet 0 m.keep.due j) 100
    { m with keep := { m.keep with due := cellSet 0 m.keep.due j (cellGet 0 m.keep.due j - k) }, sched := cellSet 0 m.sched j k }

/-- A root mean square value scaled by `k` (R378). -/
def rmsWord (k : Nat) (l : List Int) : Word :=
  let n : Int := (k : Int) * k * dot l l
  let d : Int := 1600 * metOne * metOne
  let r : Int := isqrt (n / d).toNat
  wordOfInt (if r * r * d = n then r else r + (if Config.roundUp n d then 1 else 0))

/-- A mean value scaled by `k`. -/
def meanWord (k : Nat) (l : List Int) : Word := wordOfInt (fsDiv ((k : Int) * l.foldl (· + ·) 0) (1600 * metOne))

/-- A mean power in W (R377, R378). -/
def powerWord (m : Met) (q : Nat) (sum : Int) : Word :=
  wordOfInt (fsDiv (ptVk m q * ptIk m q * sum) (100000 * 1600 * metOne * metOne))

/-- The samples of a window after which the sign changes, from sample number `n` on. -/
def crossings : Nat → List Int → List Nat
  | n, a :: b :: t => (if (a < 0) ≠ (b < 0) then [n] else []) ++ crossings (n + 1) (b :: t)
  | _, _ => []

/-- The frequency of an AC point in mHz, and whether it is in error (R378): k + 1 zero crossings are k half periods apart, within the
samples next to the first and the last; how they are placed between samples is free. -/
def ptFreq (m : Met) (free q : Nat) (w : PtWin) : Nat × Bool :=
  let l := w.us.headD []
  let zs := crossings 0 l
  let f := Config.metSample 3 [BitVec.ofNat 32 q, metPar m 1 0] free l
  let k : Int := 4000000 * (zs.length - 1)
  let d : Int := zs.getLastD 0 - zs.headD 0
  let f := (if zs.length < 3 then f else clampI (k / (d + 1)) (-(-k / (d - 1))) f).toNat
  (f, decide (zs.length < 4) || decide (f < 40000) || decide (70000 < f))

/-- The status bits [7:1] the die reports in MBOX.STAT. -/
def metStat (m : Met) (meas : Bool) : Nat :=
  bit m.ovl * 128 + bit (decide (1024 ≤ m.log.length)) * 64 + bit (decide (m.pend ≠ [])) * 32 + bit m.broken * 16 +
    bit m.nverr * 8 + bit m.xtalf * 4 + bit meas * 2

/-- The frame of a window, by MBOX address (R370, R395). A DC point has no Q, U2, U3, I2 and I3: they are 0. What else a point that is not
enabled shows is free. -/
def metFrame (m : Met) (free : Nat) (meas : Bool) (wins : List (Nat × PtWin)) (pstat : Nat) : Cells Word :=
  let w32 (n : Nat) : Word := BitVec.ofNat 32 n
  let f : Cells Word := []
  let put (f : Cells Word) (a : Nat) (w : Word) : Cells Word := cellPut f a w
  let f := put f mboxStat (w32 (metStat m meas))
  let f := put f mboxSeq (w32 m.seq)
  let f := put f mboxChgcnt (w32 m.keep.chg)
  let f := put f mboxSwver (w32 m.ver)
  let f := put f mboxSwcrc m.romCrc
  let f := put f mboxLogcnt (w32 m.log.length)
  let f := put f mboxSealcnt (w32 (m.ovlcnt % 65536 * 65536 + m.keep.sealcnt % 65536))
  let f := put f mboxFreq0 (w32 (cellGet (0, false) m.freq 0).1)
  let f := put f mboxFreq1 (w32 (cellGet (0, false) m.freq 1).1)
  let f := put f mboxPstat (w32 pstat)
  let f := put f mboxSerial m.serial
  (upto 6).foldl (fun f q =>
    let f := (upto 4).foldl (fun f r =>
      let e := cellGet 0 m.keep.energy (4 * q + r)
      put (put f (mboxAimplo q + 8 * r) (w32 e)) (mboxAimplo q + 8 * r + 4) (w32 (e / 2 ^ 32))) f
    match wins.find? fun x => x.1 == q with
    | some (_, w) =>
      let f := put f (mboxP q) (powerWord m q w.sp)
      let f := put f (mboxQ q) (if isAc q then powerWord m q w.sq else 0)
      if isAc q then
        (upto 3).foldl (fun f k =>
          put (put f (mboxU1 q + 4 * k) (rmsWord (ptVk m q) (w.us.getD k []))) (mboxI1 q + 4 * k) (rmsWord (ptIk m q) (w.is.getD k []))) f
      else
        let f := [1, 2].foldl (fun f k => put (put f (mboxU1 q + 4 * k) 0) (mboxI1 q + 4 * k) 0) f
        put (put f (mboxU1 q) (meanWord (ptVk m q) (w.us.headD []))) (mboxI1 q) (meanWord (ptIk m q) (w.is.headD []))
    | none => (upto 8).foldl (fun f k =>
        put f (mboxP q + 4 * k) (if isAc q || k == 0 || k == 2 || k == 5 then wordOfInt (Config.metSample 4 [w32 q, w32 k] free []) else 0)) f) f

/-- The sum of squares of a channel's values after steps 1 and 2, whose root mean square is M (R375). -/
def magOf (m : Met) (c : Nat) (volts : List (List (BitVec 40))) : Nat := let l := (stageTwo m c volts).1; (dot l l).toNat

/-- The energy of one point in the window. -/
def ptEnergy (m : Met) (k : MetKeep) (x : Nat × PtWin) : MetKeep :=
  let q := x.1
  if noLoad m q x.2 then { k with res := cellDel (cellDel k.res (2 * q)) (2 * q + 1) }
  else
    let sc : Int := ptVk m q * ptIk m q
    let k := addEnergy k q 0 (sc * x.2.sp)
    if isAc q then addEnergy k q 1 (sc * x.2.sq) else k

/-- MET_WINDOW_END: the samples of the window are voltages in pV. Energy, retained state, the frame, the pending commit, the pulses of the next
window (R370–R382, R389). -/
def execMetWindowEnd (volts : List (List (BitVec 40))) (s : State) : Host.Outcome State Fault Refusal :=
  .next <|
    if !metOn s then s
    else
      let m := s.met
      let free := s.free
      let meas := !m.nverr && !m.xtalf
      let wins := ((upto 6).filter fun q => nbit (metPar m 0x100 q).toNat 31).map fun q => (q, ptWindow m free q volts)
      let old := m.keep
      let m := if meas then { m with keep := wins.foldl (fun k x => ptEnergy m k x) m.keep } else m
      let m := if meas then (upto 4).foldl (fun m j => addPulses m old j) m else m
      let ac := wins.filter fun x => isAc x.1
      let fr := ac.map fun x => (x.1, ptFreq m free x.1 x.2)
      let povf := (upto 4).foldl (fun n j => n + bit (meas && nbit (metPar m 0x200 j).toNat 31 && decide (100 < cellGet 0 m.keep.due j)) * 2 ^ j) 0
      let pstat := povf * 2 ^ 28 + fr.foldl (fun n x => n + bit x.2.2 * 2 ^ (26 + x.1)) 0 +
        (upto 16).foldl (fun n c => n + bit (winOver (winCodes m volts c)) * 2 ^ (6 + c)) 0 +
        wins.foldl (fun n x => n + bit (noLoad m x.1 x.2) * 2 ^ x.1) 0
      let mag : Cells Nat := (upto 16).foldl (fun c i => cellSet 0 c i (magOf m i volts)) []
      let freq : Cells (Nat × Bool) := fr.foldl (fun f (x : Nat × (Nat × Bool)) => cellPut f x.1 x.2) []
      let integ : Cells (Int × Int) := ((upto 16).filter (airCore m)).foldl (fun f c => cellPut f c (stageTwo m c volts).2) []
      let past : Cells (List Int) := (upto 16).foldl (fun f c => cellPut f c (lastOf (stageTwo m c volts).1)) []
      let latest : Cells (List Int) := (upto 16).foldl (fun f c => cellPut f c (lastOf (winSamples m free c volts))) []
      let m := { m with seq := (m.seq + 1) % 2 ^ 32, freq := freq, past := past, latest := latest, meas := meas
                        mag := mag, integ := integ, firstWin := false, keep := { m.keep with windows := m.keep.windows + 1 } }
      let m := { m with frame := metFrame m free meas wins pstat }
      let m := if m.xtalBack then { m with xtalf := false, xtalBack := false } else m
      let s := metApply (setMet s m)
      let s := setMet s (if meas then (upto 4).foldl takePulses s.met else { s.met with sched := [] })
      nextFree (setMet s { s.met with copyNew := s.met.keep, copyOld := s.met.copyNew })

/-- MET_PULSE: output `j` sends a pulse of the window (R382). -/
def execMetPulse (j : Fin 4) (s : State) : Host.Outcome State Fault Refusal :=
  .next <|
    let n := cellGet 0 s.met.sched j
    if metOn s && n != 0 then
      setMet s { s.met with sched := cellSet 0 s.met.sched j (n - 1), sent := cellSet 0 s.met.sent j (cellGet 0 s.met.sent j + 1) }
    else s

/-! ## Power, crystal, seal (R369, R384–R386, R389) -/

/-- Retained state of which no copy is valid: its values are free, but a DC point has no reactive registers (R395). -/
def lostKeep (free : Nat) : MetKeep :=
  let v (k : Nat) : Nat := (Config.metSample 5 [BitVec.ofNat 32 k] free []).toNat
  let held := (upto 24).filter fun k => isAc (k / 4) || decide (k % 4 < 2)
  { metKeepReset with energy := held.foldl (fun f k => cellSet 0 f k (v k % 2 ^ 64)) [], chg := v 24 % 2 ^ 32, sealcnt := v 25, windows := v 26 }

/-- MET_POWER_UP: which of the two retained copies hold a valid CRC, and whether the seal is broken (R369, R384, R386). The copy that is taken
rewrites the other; an opening that is found now stands in them from the next window's end on. -/
def execMetPowerUp (newOk oldOk broken : Bool) (s : State) : Host.Outcome State Fault Refusal :=
  .next <|
    if s.met.on || s.dev.ca then s
    else
      let m := s.met
      let bad := m.nverr || !(newOk || oldOk)
      let k := if newOk then m.copyNew else if oldOk then m.copyOld else lostKeep s.free
      let now := if broken && !k.sealBroken then { k with sealcnt := k.sealcnt + 1 } else k
      nextFree <| setMet s { m with on := true, broken := broken, keep := { now with sealBroken := broken }, copyNew := k, copyOld := k, nverr := bad
                                    seq := 0, firstWin := true, integ := [], past := [], latest := [], meas := false, xtalf := false, xtalBack := false, freq := [], mag := []
                                    sched := [], pend := [], commitAsked := none, resp := none, selWait := false, ovl := false
                                    out := .silent, frame := [] }

/-- MET_POWER_DOWN: the die stops (R369). -/
def execMetPowerDown (s : State) : Host.Outcome State Fault Refusal :=
  .next (if metOn s then
    setMet s { s.met with on := false, pend := [], commitAsked := none, resp := none, selWait := false, ovl := false
                          out := .silent, sched := [], frame := [] }
  else s)

/-- XTAL_FAULT: the crystal stops or drifts (R385); the pulses of the window that are not sent yet stay due (R382; assumption log 72). -/
def execXtalFault (s : State) : Host.Outcome State Fault Refusal :=
  .next (if metOn s then
    let due := s.met.sched.foldl (fun d x => cellSet 0 d x.1 (cellGet 0 d x.1 + x.2)) s.met.keep.due
    setMet s { s.met with xtalf := true, xtalBack := false, sched := [], keep := { s.met.keep with due := due } }
  else s)

/-- XTAL_RECOVERED: the crystal ran correctly for 1 s; accumulation resumes at the next window start (R385). -/
def execXtalRecovered (s : State) : Host.Outcome State Fault Refusal :=
  .next (if metOn s && s.met.xtalf then setMet s { s.met with xtalBack := true } else s)

/-- SEAL_BROKEN (R386). -/
def execSealBroken (s : State) : Host.Outcome State Fault Refusal :=
  .next (if metOn s && !s.met.broken then
    setMet s { s.met with broken := true, keep := { s.met.keep with sealcnt := s.met.keep.sealcnt + 1, sealBroken := true } }
  else s)

/-- SEAL_INTACT: pending values are discarded; a request under way is answered with status 0x03 (R389). -/
def execSealIntact (s : State) : Host.Outcome State Fault Refusal :=
  .next (if metOn s && s.met.broken then
    let asked := s.met.commitAsked
    let s := setMet s { s.met with broken := false, pend := [], commitAsked := none, keep := { s.met.keep with sealBroken := false } }
    match asked with
    | some r => calAnswer s 3 r.1 r.2 none
    | none => s
  else s)

/-! ## The optical port (R392–R394) -/

/-- The readout's data lines (R393): kWh in thousandths; none where NVERR puts ERR. Its status has MEAS of the last window. -/
def readout (m : Met) : List (List Nat × Option Nat) :=
  let head : List (List Nat × Option Nat) := [([0, 0, 96, 1, 0], some m.serial.toNat), ([0, 0, 0, 2, 0], some m.ver), ([0, 0, 0, 2, 8], some m.romCrc.toNat),
    ([0, 0, 96, 2, 0], some m.keep.chg), ([0, 0, 96, 2, 5], some m.keep.sealcnt), ([0, 0, 97, 97, 0], some (metStat m m.meas / 2))]
  head ++ (upto 6).flatMap fun q =>
    if !nbit (metPar m 0x100 q).toNat 31 then []
    else (upto (if isAc q then 4 else 2)).map fun r =>
      ([1, q + 1, r + 1, 8, 0], if m.nverr then none else some (fsDiv (cellGet 0 m.keep.energy (4 * q + r) : Nat) 1000).toNat)

/-- The digits of a number in a base, at least `w` of them, as characters. -/
def digits (base : Nat) : Nat → Nat → List Nat
  | 0, _ => []
  | w + 1, n => digits base w (n / base) ++ [if n % base < 10 then 0x30 + n % base else 0x37 + n % base]

/-- A number in decimal without leading zeros, at least `w` digits. -/
def decimal (w n : Nat) : List Nat :=
  let l := digits 10 20 n
  l.drop (min (20 - w) ((l.findIdx? (· != 0x30)).getD 20))

/-- A data line: identifier, value in brackets with its unit, CR LF (R393; assumption log 79). -/
def readoutLine (l : List Nat × Option Nat) : List Nat :=
  match l.1 with
  | [a, b, c, d, e] =>
    let id := decimal 1 a ++ [0x2D] ++ decimal 1 b ++ [0x3A] ++ decimal 1 c ++ [0x2E] ++ decimal 1 d ++ [0x2E] ++ decimal 1 e
    let value := match l.2 with
      | none => [0x45, 0x52, 0x52]
      | some v =>
        if a = 1 then
          let n := decimal 4 v
          n.take (n.length - 3) ++ [0x2E] ++ n.drop (n.length - 3) ++ [0x2A] ++
            (if c ≤ 2 then [0x6B, 0x57, 0x68] else [0x6B, 0x76, 0x61, 0x72, 0x68])
        else if c = 0 then (if e = 8 then digits 16 8 v else decimal 1 v)
        else if c = 97 then digits 16 2 v else decimal 1 v
    id ++ [0x28] ++ value ++ [0x29, 0x0D, 0x0A]
  | _ => []

/-- The data message: STX, data lines, "!" CR LF, ETX, and the block check character, the exclusive-or of all after STX (R393; assumption log
79). -/
def readoutText (lines : List (List Nat × Option Nat)) : List Nat :=
  let body := lines.flatMap readoutLine ++ [0x21, 0x0D, 0x0A, 0x03]
  0x02 :: body ++ [body.foldl (fun x c => x ^^^ c) 0]

/-- SIGN_ON, with the address it names (R392, R394). -/
def execSignOn (addr : Option Nat) (s : State) : Host.Outcome State Fault Refusal :=
  .next (if !metOn s || s.met.ovl then s
  else if addr.isNone || addr == some s.met.serial.toNat then setMet s { s.met with selWait := true, out := .ident }
  else s)

/-- OPTION_SELECT with its protocol, baud-rate and mode characters (R392). -/
def execOptionSelect (proto baud mode : BitVec 7) (s : State) : Host.Outcome State Fault Refusal :=
  .next (if !metOn s || s.met.ovl || !s.met.selWait then s
  else if proto = 0x30 ∧ baud = 0x35 ∧ mode = 0x30 then
    setMet s { s.met with selWait := false, out := .readout (readout s.met) (readoutText (readout s.met)) }
  else setMet s { s.met with selWait := false, out := .silent })

/-- OPTION_SELECT_TIMEOUT (R392). -/
def execOptionSelectTimeout (s : State) : Host.Outcome State Fault Refusal :=
  .next (if metOn s && s.met.selWait then setMet s { s.met with selWait := false, out := .silent } else s)

/-- OPTICAL_OVERLOAD (R394). -/
def execOpticalOverload (s : State) : Host.Outcome State Fault Refusal :=
  .next (if metOn s then
    setMet s { s.met with ovl := true, ovlcnt := (s.met.ovlcnt + 1) % 65536, selWait := false, out := .silent } else s)

/-- OPTICAL_QUIET_END (R394). -/
def execOpticalQuietEnd (s : State) : Host.Outcome State Fault Refusal :=
  .next (if metOn s then setMet s { s.met with ovl := false } else s)

/-! ## The mailbox (R370, R395–R398) -/

/-- The compute die is there to receive a frame. -/
def computeOn (s : State) : Bool := s.dev.phase != .off && s.dev.phase != .held

/-- The events of a valid frame, against what the registers held before (R398). -/
def mboxEvents (old s : State) (seen : Bool) : State :=
  let g (t : State) (a : Nat) (f : Fld) : Nat := getF t a f
  let rose (f : Fld) : Bool := g old mboxStat f == 0 && g s mboxStat f == 1
  let w (a : Nat) (f : Fld) : Word := pw (g s a f)
  let new := s
  let s := if g old mboxStat mboxStat_Link = 0 then notice s 0x1302 0 [w mboxSeq mboxSeq_Win] else s
  let s := if seen && g old mboxSealcnt mboxSealcnt_Seal != g new mboxSealcnt mboxSealcnt_Seal then
      notice s 0x1303 0 [w mboxSealcnt mboxSealcnt_Seal] else s
  let s := if seen && g old mboxStat mboxStat_Seal == 1 && g new mboxStat mboxStat_Seal == 0 then
      notice s 0x1304 0 [w mboxSealcnt mboxSealcnt_Seal] else s
  let s := if seen && g old mboxChgcnt mboxChgcnt_Chg != g new mboxChgcnt mboxChgcnt_Chg then
      notice s 0x1305 0 [w mboxChgcnt mboxChgcnt_Chg, getReg new mboxChgcnt - getReg old mboxChgcnt] else s
  let s := if rose mboxStat_Logfull then event s 0x1306 1 0 [w mboxLogcnt mboxLogcnt_N] else s
  let s := if rose mboxStat_Xtalf || rose mboxStat_Nverr then event s 0x1307 1 0 [getReg new mboxStat] else s
  if seen && g old mboxSealcnt mboxSealcnt_Ovlcnt != g new mboxSealcnt mboxSealcnt_Ovlcnt then
    notice s 0x1308 0 [w mboxSealcnt mboxSealcnt_Ovlcnt] else s

/-- MET_FRAME_RECEIVED: the last frame arrives, with a good CRC or not (R370, R398); the die sends none before its first window (R31). -/
def execMetFrameReceived (crcOk : Bool) (s : State) : Host.Outcome State Fault Refusal :=
  .next <|
    if !metOn s || s.met.frame.isEmpty || !computeOn s then s
    else if !crcOk then countF s mboxLinkerr mboxLinkerr_Bad 1
    else
      let t := s.met.frame.foldl (fun t c => setReg t c.1 c.2) s
      let t := setB t mboxStat mboxStat_Link true
      mboxEvents s (setMet t { t.met with seen := true }) s.met.seen

/-- MET_LINK_TIMEOUT: no valid frame for 600 ms (R370). -/
def execMetLinkTimeout (s : State) : Host.Outcome State Fault Refusal :=
  .next (if getB s mboxStat mboxStat_Link then
    event (setB s mboxStat mboxStat_Link false) 0x1301 1 0 [getReg s mboxSeq] else s)

end Sys2Proof.Machine
end

