-- ==== Sys2Proof/Machine/Dispatch.lean ====
section
/-! DEFINITION. One arm for each command: its meaning. -/

namespace Sys2Proof.Machine

/-- A command's effect on everything but the queue. -/
def exec (i : Instr) (s : State) : Host.Outcome State Fault Refusal :=
  match i with
  | .powerOnReset switches loop => Sys2Proof.Machine.execPowerOnReset switches loop s
  | .mainSuppliesLost mon vst => Sys2Proof.Machine.execMainSuppliesLost mon vst s
  | .mainSuppliesReturn switches loop => Sys2Proof.Machine.execMainSuppliesReturn switches loop s
  | .hrstnAssert => Sys2Proof.Machine.execHrstnAssert s
  | .hrstnRelease straps => Sys2Proof.Machine.execHrstnRelease straps s
  | .bootStart dir a b sfdp => Sys2Proof.Machine.execBootStart dir a b sfdp s
  | .tickLoss => Sys2Proof.Machine.execTickLoss s
  | .tickRestart => Sys2Proof.Machine.execTickRestart s
  | .tickEdge => Sys2Proof.Machine.execTickEdge s
  | .commitCutoff => Sys2Proof.Machine.execCommitCutoff s
  | .samplingPoint => Sys2Proof.Machine.execSamplingPoint s
  | .staleStageNotice blk p => Sys2Proof.Machine.execStaleStageNotice blk p s
  | .commitGo src blk => Sys2Proof.Machine.execCommitGo src blk s
  | .commitDiscard src blk => Sys2Proof.Machine.execCommitDiscard src blk s
  | .gcommitGo src blocks => Sys2Proof.Machine.execGcommitGo src blocks s
  | .registerWrite src addr val => Sys2Proof.Machine.execRegisterWrite src addr val s
  | .hostMemoryAccess src write addr len data ecc => Sys2Proof.Machine.execHostMemoryAccess src write addr len data ecc s
  | .hostWriteQueueDrain e => Sys2Proof.Machine.execHostWriteQueueDrain e s
  | .sysPrst src mask => Sys2Proof.Machine.execSysPrst src mask s
  | .sysPrself src key => Sys2Proof.Machine.execSysPrself src key s
  | .polderReloadComplete p ok sect => Sys2Proof.Machine.execPolderReloadComplete p ok sect s
  | .stepStart e w ecc => Sys2Proof.Machine.execStepStart e w ecc s
  | .stateTransferDone p id => Sys2Proof.Machine.execStateTransferDone p id s
  | .segmentEnd e late => Sys2Proof.Machine.execSegmentEnd e late s
  | .lStallEnd e n => Sys2Proof.Machine.execLStallEnd e n s
  | .nop e eow => Sys2Proof.Machine.execNop e eow s
  | .mul e m1 ad ga gb q rnd eow => Sys2Proof.Machine.execMul e m1 ad ga gb q rnd eow s
  | .mac e m1 ad ga gb q rnd eow => Sys2Proof.Machine.execMac e m1 ad ga gb q rnd eow s
  | .msu e m1 ad ga gb q rnd eow => Sys2Proof.Machine.execMsu e m1 ad ga gb q rnd eow s
  | .muld e m1 ad ga gb q rnd eow => Sys2Proof.Machine.execMuld e m1 ad ga gb q rnd eow s
  | .macd e m1 ad ga gb q rnd eow => Sys2Proof.Machine.execMacd e m1 ad ga gb q rnd eow s
  | .msud e m1 ad ga gb q rnd eow => Sys2Proof.Machine.execMsud e m1 ad ga gb q rnd eow s
  | .aclr e m1 ad eow => Sys2Proof.Machine.execAclr e m1 ad eow s
  | .ald e m1 ad ga q eow => Sys2Proof.Machine.execAld e m1 ad ga q eow s
  | .aadd e m1 ad ga q eow => Sys2Proof.Machine.execAadd e m1 ad ga q eow s
  | .aadda e m1 ad as eow => Sys2Proof.Machine.execAadda e m1 ad as eow s
  | .asuba e m1 ad as eow => Sys2Proof.Machine.execAsuba e m1 ad as eow s
  | .asat e m1 ad gb q rnd eow => Sys2Proof.Machine.execAsat e m1 ad gb q rnd eow s
  | .ashl e m1 ad q eow => Sys2Proof.Machine.execAshl e m1 ad q eow s
  | .ashr e m1 ad q rnd eow => Sys2Proof.Machine.execAshr e m1 ad q rnd eow s
  | .aneg e m1 ad eow => Sys2Proof.Machine.execAneg e m1 ad eow s
  | .ldw e gr gb am off ecc eow => Sys2Proof.Machine.execLdw e gr gb am off ecc eow s
  | .stw e gr gb am off eow => Sys2Proof.Machine.execStw e gr gb am off eow s
  | .ldd e gr gb am off ecc eow => Sys2Proof.Machine.execLdd e gr gb am off ecc eow s
  | .std e gr gb am off eow => Sys2Proof.Machine.execStd e gr gb am off eow s
  | .ldh e gr gb am off ecc eow => Sys2Proof.Machine.execLdh e gr gb am off ecc eow s
  | .ldhu e gr gb am off ecc eow => Sys2Proof.Machine.execLdhu e gr gb am off ecc eow s
  | .sth e gr gb am off eow => Sys2Proof.Machine.execSth e gr gb am off eow s
  | .mov e gd ga eow => Sys2Proof.Machine.execMov e gd ga eow s
  | .movi e gd imm eow => Sys2Proof.Machine.execMovi e gd imm eow s
  | .movh e gd imm eow => Sys2Proof.Machine.execMovh e gd imm eow s
  | .add e gd ga gb eow => Sys2Proof.Machine.execAdd e gd ga gb eow s
  | .sub e gd ga gb eow => Sys2Proof.Machine.execSub e gd ga gb eow s
  | .addi e gd ga imm eow => Sys2Proof.Machine.execAddi e gd ga imm eow s
  | .min e gd ga gb eow => Sys2Proof.Machine.execMin e gd ga gb eow s
  | .max e gd ga gb eow => Sys2Proof.Machine.execMax e gd ga gb eow s
  | .abs e gd ga eow => Sys2Proof.Machine.execAbs e gd ga eow s
  | .neg e gd ga eow => Sys2Proof.Machine.execNeg e gd ga eow s
  | .sats e gd ga gb eow => Sys2Proof.Machine.execSats e gd ga gb eow s
  | .shl e gd ga n eow => Sys2Proof.Machine.execShl e gd ga n eow s
  | .shr e gd ga n eow => Sys2Proof.Machine.execShr e gd ga n eow s
  | .shru e gd ga n eow => Sys2Proof.Machine.execShru e gd ga n eow s
  | .and e gd ga gb eow => Sys2Proof.Machine.execAnd e gd ga gb eow s
  | .or e gd ga gb eow => Sys2Proof.Machine.execOr e gd ga gb eow s
  | .xor e gd ga gb eow => Sys2Proof.Machine.execXor e gd ga gb eow s
  | .cmp e ga gb cond n eow => Sys2Proof.Machine.execCmp e ga gb cond n eow s
  | .sel e gd ga gb n eow => Sys2Proof.Machine.execSel e gd ga gb n eow s
  | .req e ga n eow => Sys2Proof.Machine.execReq e ga n eow s
  | .trig e n eow => Sys2Proof.Machine.execTrig e n eow s
  | .rdsf e gd eow => Sys2Proof.Machine.execRdsf e gd eow s
  | .addw e gd ga gb eow => Sys2Proof.Machine.execAddw e gd ga gb eow s
  | .subw e gd ga gb eow => Sys2Proof.Machine.execSubw e gd ga gb eow s
  | .readmit src e => Sys2Proof.Machine.execReadmit src e s
  | .traceArm src e => Sys2Proof.Machine.execTraceArm src e s
  | .traceDisarm src e => Sys2Proof.Machine.execTraceDisarm src e s
  | .traceForce src e => Sys2Proof.Machine.execTraceForce src e s
  | .traceDone e => Sys2Proof.Machine.execTraceDone e s
  | .gfsLowDetection ix => Sys2Proof.Machine.execGfsLowDetection ix s
  | .gfsZeroDetection ix => Sys2Proof.Machine.execGfsZeroDetection ix s
  | .gfsHighDetection ix => Sys2Proof.Machine.execGfsHighDetection ix s
  | .gfsProfileTrip ix => Sys2Proof.Machine.execGfsProfileTrip ix s
  | .gfsZeroExit ix => Sys2Proof.Machine.execGfsZeroExit ix s
  | .gfsRecoveryConfirmed ix => Sys2Proof.Machine.execGfsRecoveryConfirmed ix s
  | .gfsRecoverComplete ix => Sys2Proof.Machine.execGfsRecoverComplete ix s
  | .gfsTrackerLock ix => Sys2Proof.Machine.execGfsTrackerLock ix s
  | .gfsTrackerUnlock ix => Sys2Proof.Machine.execGfsTrackerUnlock ix s
  | .gfsFreqLimitHeld ix => Sys2Proof.Machine.execGfsFreqLimitHeld ix s
  | .gfsVilimLong ix => Sys2Proof.Machine.execGfsVilimLong ix s
  | .ifsEvaluationPoint ix => Sys2Proof.Machine.execIfsEvaluationPoint ix s
  | .ifsEvaluationPublish ix => Sys2Proof.Machine.execIfsEvaluationPublish ix s
  | .ifsFastClear ix => Sys2Proof.Machine.execIfsFastClear ix s
  | .ifsFreqWindowViolation ix => Sys2Proof.Machine.execIfsFreqWindowViolation ix s
  | .ifsVoltageWindowViolation ix => Sys2Proof.Machine.execIfsVoltageWindowViolation ix s
  | .tfsUpdateTick ix => Sys2Proof.Machine.execTfsUpdateTick ix s
  | .tfsSweepRequest ix k => Sys2Proof.Machine.execTfsSweepRequest ix k s
  | .tfsSweepEnd ix k => Sys2Proof.Machine.execTfsSweepEnd ix k s
  | .tfsObserverLost ix => Sys2Proof.Machine.execTfsObserverLost ix s
  | .tfsObserverRegained ix => Sys2Proof.Machine.execTfsObserverRegained ix s
  | .tfsAdaptCycleEnd ix => Sys2Proof.Machine.execTfsAdaptCycleEnd ix s
  | .encCount n lineB level samples => Sys2Proof.Machine.execEncCount n lineB level samples s
  | .encDoubleEvent n samples => Sys2Proof.Machine.execEncDoubleEvent n samples s
  | .encIndexEdge n withDouble samples => Sys2Proof.Machine.execEncIndexEdge n withDouble samples s
  | .encObserverLock n => Sys2Proof.Machine.execEncObserverLock n s
  | .mfsSensorlessValid ix => Sys2Proof.Machine.execMfsSensorlessValid ix s
  | .mfsSensorlessInvalid ix => Sys2Proof.Machine.execMfsSensorlessInvalid ix s
  | .mfsAngleMismatch ix => Sys2Proof.Machine.execMfsAngleMismatch ix s
  | .mfsNoAngleTimeout ix => Sys2Proof.Machine.execMfsNoAngleTimeout ix s
  | .mfsModulationHigh ix => Sys2Proof.Machine.execMfsModulationHigh ix s
  | .mfsIlimLong ix => Sys2Proof.Machine.execMfsIlimLong ix s
  | .carrierPeriodStart k => Sys2Proof.Machine.execCarrierPeriodStart k s
  | .carrierPeak k => Sys2Proof.Machine.execCarrierPeak k s
  | .compareEdge p e => Sys2Proof.Machine.execCompareEdge p e s
  | .deadTimeEnd p => Sys2Proof.Machine.execDeadTimeEnd p s
  | .tripInputActive k level samples => Sys2Proof.Machine.execTripInputActive k level samples s
  | .tripInputInactive k level samples => Sys2Proof.Machine.execTripInputInactive k level samples s
  | .pwmTripClear src p => Sys2Proof.Machine.execPwmTripClear src p s
  | .pwmForce src p mode => Sys2Proof.Machine.execPwmForce src p mode s
  | .pulseEnableInactive sp => Sys2Proof.Machine.execPulseEnableInactive sp s
  | .clTrainEnd n => Sys2Proof.Machine.execClTrainEnd n s
  | .clDiscReceived n recs => Sys2Proof.Machine.execClDiscReceived n recs s
  | .clAckReceived n acks => Sys2Proof.Machine.execClAckReceived n acks s
  | .clRateRelock n recs => Sys2Proof.Machine.execClRateRelock n recs s
  | .clEchoAnswer n p rt => Sys2Proof.Machine.execClEchoAnswer n p rt s
  | .clStepTimeout n => Sys2Proof.Machine.execClStepTimeout n s
  | .clFaultRestart n => Sys2Proof.Machine.execClFaultRestart n s
  | .stsFrame n head hcrc slots => Sys2Proof.Machine.execStsFrame n head hcrc slots s
  | .cellLost ix => Sys2Proof.Machine.execCellLost ix s
  | .cellReturn ix => Sys2Proof.Machine.execCellReturn ix s
  | .inhRepeat n => Sys2Proof.Machine.execInhRepeat n s
  | .selftestStep n => Sys2Proof.Machine.execSelftestStep n s
  | .selftestPassTimeout ix k => Sys2Proof.Machine.execSelftestPassTimeout ix k s
  | .clTripClear src n => Sys2Proof.Machine.execClTripClear src n s
  | .fclr src ix => Sys2Proof.Machine.execFclr src ix s
  | .bypreq src ix => Sys2Proof.Machine.execBypreq src ix s
  | .byprel src ix => Sys2Proof.Machine.execByprel src ix s
  | .slotResultReady g j volts => Sys2Proof.Machine.execSlotResultReady g j volts s
  | .calibrationSwap g est => Sys2Proof.Machine.execCalibrationSwap g est s
  | .sliceMonitorFail g slice est => Sys2Proof.Machine.execSliceMonitorFail g slice est s
  | .acqCalibrationDone g => Sys2Proof.Machine.execAcqCalibrationDone g s
  | .comparatorRawChange c v => Sys2Proof.Machine.execComparatorRawChange c v s
  | .comparatorSuspect c => Sys2Proof.Machine.execComparatorSuspect c s
  | .metPowerUp newOk oldOk broken => Sys2Proof.Machine.execMetPowerUp newOk oldOk broken s
  | .metPowerDown => Sys2Proof.Machine.execMetPowerDown s
  | .metWindowEnd volts => Sys2Proof.Machine.execMetWindowEnd volts s
  | .metFrameReceived crcOk => Sys2Proof.Machine.execMetFrameReceived crcOk s
  | .metLinkTimeout => Sys2Proof.Machine.execMetLinkTimeout s
  | .metPulse j => Sys2Proof.Machine.execMetPulse j s
  | .xtalFault => Sys2Proof.Machine.execXtalFault s
  | .xtalRecovered => Sys2Proof.Machine.execXtalRecovered s
  | .sealBroken => Sys2Proof.Machine.execSealBroken s
  | .sealIntact => Sys2Proof.Machine.execSealIntact s
  | .read pid idx value crc => Sys2Proof.Machine.execRead pid idx value crc s
  | .write pid idx value crc => Sys2Proof.Machine.execWrite pid idx value crc s
  | .commit pid idx value crc => Sys2Proof.Machine.execCommit pid idx value crc s
  | .discard pid idx value crc => Sys2Proof.Machine.execDiscard pid idx value crc s
  | .ident pid idx value crc => Sys2Proof.Machine.execIdent pid idx value crc s
  | .readlog pid idx value crc => Sys2Proof.Machine.execReadlog pid idx value crc s
  | .calRequestGap => Sys2Proof.Machine.execCalRequestGap s
  | .signOn addr => Sys2Proof.Machine.execSignOn addr s
  | .optionSelect proto baud mode => Sys2Proof.Machine.execOptionSelect proto baud mode s
  | .optionSelectTimeout => Sys2Proof.Machine.execOptionSelectTimeout s
  | .opticalOverload => Sys2Proof.Machine.execOpticalOverload s
  | .opticalQuietEnd => Sys2Proof.Machine.execOpticalQuietEnd s
  | .take src page gen => Sys2Proof.Machine.execTake src page gen s
  | .renew src page gen => Sys2Proof.Machine.execRenew src page gen s
  | .release src page gen => Sys2Proof.Machine.execRelease src page gen s
  | .handoff src page gen => Sys2Proof.Machine.execHandoff src page gen s
  | .accept src page gen => Sys2Proof.Machine.execAccept src page gen s
  | .cancel src page gen => Sys2Proof.Machine.execCancel src page gen s
  | .seal src page gen => Sys2Proof.Machine.execSeal src page gen s
  | .unseal src page gen => Sys2Proof.Machine.execUnseal src page gen s
  | .leaseExpiry => Sys2Proof.Machine.execLeaseExpiry s
  | .pageZeroed => Sys2Proof.Machine.execPageZeroed s
  | .recordWrite vst => Sys2Proof.Machine.execRecordWrite vst s
  | .go src c => Sys2Proof.Machine.execGo src c s
  | .stop src c => Sys2Proof.Machine.execStop src c s
  | .resume src c => Sys2Proof.Machine.execResume src c s
  | .abort src c => Sys2Proof.Machine.execAbort src c s
  | .sluDptrWrite src c val => Sys2Proof.Machine.execSluDptrWrite src c val s
  | .descriptorFetched c => Sys2Proof.Machine.execDescriptorFetched c s
  | .sluiceAccessIssue write beats ecc => Sys2Proof.Machine.execSluiceAccessIssue write beats ecc s
  | .sluiceReadResponse c k => Sys2Proof.Machine.execSluiceReadResponse c k s
  | .sluiceWriteResponse c k => Sys2Proof.Machine.execSluiceWriteResponse c k s
  | .sluiceRetry c k ecc => Sys2Proof.Machine.execSluiceRetry c k ecc s
  | .load src => Sys2Proof.Machine.execLoad src s
  | .imgLoadDone p u => Sys2Proof.Machine.execImgLoadDone p u s
  | .fltAck src p classes => Sys2Proof.Machine.execFltAck src p classes s
  | .fltCaptureRearm src p => Sys2Proof.Machine.execFltCaptureRearm src p s
  | .hkstatClear src mask => Sys2Proof.Machine.execHkstatClear src mask s
  | .temperatureSample t0 t1 t2 t3 io warden => Sys2Proof.Machine.execTemperatureSample t0 t1 t2 t3 io warden s
  | .supplyOutOfRange rail mv => Sys2Proof.Machine.execSupplyOutOfRange rail mv s
  | .faultCollectorMismatch => Sys2Proof.Machine.execFaultCollectorMismatch s
  | .spCycle => Sys2Proof.Machine.execSpCycle s
  | .channelLoss tech cause => Sys2Proof.Machine.execChannelLoss tech cause s
  | .sealSwitchChange switches loop => Sys2Proof.Machine.execSealSwitchChange switches loop s
  | .tpoDropoutStart outB => Sys2Proof.Machine.execTpoDropoutStart outB s
  | .tpoLowCheck outB high self => Sys2Proof.Machine.execTpoLowCheck outB high self s
  | .tpoDropoutEnd outB => Sys2Proof.Machine.execTpoDropoutEnd outB s
  | .tpoHighCheck outB high => Sys2Proof.Machine.execTpoHighCheck outB high s
  | .safetyChannelOpen j chB => Sys2Proof.Machine.execSafetyChannelOpen j chB s
  | .discrepancy j => Sys2Proof.Machine.execDiscrepancy j s
  | .breakerDelayEnd => Sys2Proof.Machine.execBreakerDelayEnd s
  | .restart src => Sys2Proof.Machine.execRestart src s
  | .dgack src => Sys2Proof.Machine.execDgack src s
  | .safeOutreqWrite src val => Sys2Proof.Machine.execSafeOutreqWrite src val s
  | .contactorFeedbackTimeout k level => Sys2Proof.Machine.execContactorFeedbackTimeout k level s
  | .contactorDifference k level => Sys2Proof.Machine.execContactorDifference k level s
  | .safeMessageSend => Sys2Proof.Machine.execSafeMessageSend s
  | .safeMessageReceive n k hdr m crc => Sys2Proof.Machine.execSafeMessageReceive n k hdr m crc s
  | .safeOnePath k missing1 => Sys2Proof.Machine.execSafeOnePath k missing1 s
  | .safeConnectionLost k => Sys2Proof.Machine.execSafeConnectionLost k s
  | .degradedSecond => Sys2Proof.Machine.execDegradedSecond s
  | .degradedExpired => Sys2Proof.Machine.execDegradedExpired s
  | .rlmModulePresent n => Sys2Proof.Machine.execRlmModulePresent n s
  | .rlmModuleReadDone n ident rates byte92 => Sys2Proof.Machine.execRlmModuleReadDone n ident rates byte92 s
  | .rlmSyncAcquired n => Sys2Proof.Machine.execRlmSyncAcquired n s
  | .rlmRateLock n => Sys2Proof.Machine.execRlmRateLock n s
  | .rlmBringupTimeout n => Sys2Proof.Machine.execRlmBringupTimeout n s
  | .linkDown n cause => Sys2Proof.Machine.execLinkDown n cause s
  | .link n hdr units crc => Sys2Proof.Machine.execLink n hdr units crc s
  | .linkSend n => Sys2Proof.Machine.execLinkSend n s
  | .moduleDiagRead n temp rxp => Sys2Proof.Machine.execModuleDiagRead n temp rxp s
  | .claim n hdr prio dist epoch root crc => Sys2Proof.Machine.execClaim n hdr prio dist epoch root crc s
  | .claimSend => Sys2Proof.Machine.execClaimSend s
  | .claimDiscard n => Sys2Proof.Machine.execClaimDiscard n s
  | .join n hdr uid want group nunits wantph crc => Sys2Proof.Machine.execJoin n hdr uid want group nunits wantph crc s
  | .joinSend => Sys2Proof.Machine.execJoinSend s
  | .assign n hdr uid addr status phase nunits crc => Sys2Proof.Machine.execAssign n hdr uid addr status phase nunits crc s
  | .allocationFree addr => Sys2Proof.Machine.execAllocationFree addr s
  | .routedFrameForward n hdr data crc => Sys2Proof.Machine.execRoutedFrameForward n hdr data crc s
  | .timeExchangeStart n => Sys2Proof.Machine.execTimeExchangeStart n s
  | .sync n hdr crc => Sys2Proof.Machine.execSync n hdr crc s
  | .follow n hdr t1 tbase per root valid crc => Sys2Proof.Machine.execFollow n hdr t1 tbase per root valid crc s
  | .dreq n hdr crc => Sys2Proof.Machine.execDreq n hdr crc s
  | .dresp n hdr t4 crc => Sys2Proof.Machine.execDresp n hdr t4 crc s
  | .holdoverEntry => Sys2Proof.Machine.execHoldoverEntry s
  | .tctlSet src => Sys2Proof.Machine.execTctlSet src s
  | .alignLocked => Sys2Proof.Machine.execAlignLocked s
  | .alignLost => Sys2Proof.Machine.execAlignLost s
  | .rdreq n hdr addr len ecc crc => Sys2Proof.Machine.execRdreq n hdr addr len ecc crc s
  | .wrreq n hdr addr len data crc => Sys2Proof.Machine.execWrreq n hdr addr len data crc s
  | .eventFrameDrop n => Sys2Proof.Machine.execEventFrameDrop n s
  | .heartSend => Sys2Proof.Machine.execHeartSend s
  | .heart n hdr tick ws crc onTime => Sys2Proof.Machine.execHeart n hdr tick ws crc onTime s
  | .duplexPathLost portB => Sys2Proof.Machine.execDuplexPathLost portB s
  | .mirrorSend p => Sys2Proof.Machine.execMirrorSend p s
  | .mirror n hdr tick k off data crc => Sys2Proof.Machine.execMirror n hdr tick k off data crc s
  | .schedActivate n hdr at' ver crc => Sys2Proof.Machine.execSchedActivate n hdr at' ver crc s
  | .schedPeriodChange n hdr at' per crc => Sys2Proof.Machine.execSchedPeriodChange n hdr at' per crc s
  | .schedCancel n hdr at' kind crc => Sys2Proof.Machine.execSchedCancel n hdr at' kind crc s
  | .ethernetRxFrame e data fcs => Sys2Proof.Machine.execEthernetRxFrame e data fcs s
  | .ethernetTxSlot e => Sys2Proof.Machine.execEthernetTxSlot e s
  | .keepSupplySample vkeep vst vprim teg => Sys2Proof.Machine.execKeepSupplySample vkeep vst vprim teg s
  | .primarySwitchOut => Sys2Proof.Machine.execPrimarySwitchOut s
  | .coldStartDone teg => Sys2Proof.Machine.execColdStartDone teg s
  | .mppMeasure voc => Sys2Proof.Machine.execMppMeasure voc s
  | .rtcFabricSync => Sys2Proof.Machine.execRtcFabricSync s
  | .rtccmdSet src => Sys2Proof.Machine.execRtccmdSet src s
  | .tamperSample levels vst => Sys2Proof.Machine.execTamperSample levels vst s
  | .beaconTest src => Sys2Proof.Machine.execBeaconTest src s
  | .beaconPeriodic vst => Sys2Proof.Machine.execBeaconPeriodic vst s
  | .beaconTransmissionEnd vst => Sys2Proof.Machine.execBeaconTransmissionEnd vst s
  | .keepMeasurement vst vkeep vprim teg temp => Sys2Proof.Machine.execKeepMeasurement vst vkeep vprim teg temp s
  | .recorderScanDone => Sys2Proof.Machine.execRecorderScanDone s
  | .rdselWrite src seq => Sys2Proof.Machine.execRdselWrite src seq s
  | .lock src => Sys2Proof.Machine.execLock src s
  | .clear src => Sys2Proof.Machine.execClear src s
  | .clearZeroingDone => Sys2Proof.Machine.execClearZeroingDone s
  | .prog src => Sys2Proof.Machine.execProg src s
  | .progDone match' => Sys2Proof.Machine.execProgDone match' s
  | .sq0ReadWaitTimeout => Sys2Proof.Machine.execSq0ReadWaitTimeout s
  | .verify src => Sys2Proof.Machine.execVerify src s
  | .verifyDone x => Sys2Proof.Machine.execVerifyDone x s
  | .arm src disrupt => Sys2Proof.Machine.execArm src disrupt s
  | .armLoadDone => Sys2Proof.Machine.execArmLoadDone s
  | .actmarkWritten => Sys2Proof.Machine.execActmarkWritten s
  | .updCancel src => Sys2Proof.Machine.execUpdCancel src s
  | .svnlock src key => Sys2Proof.Machine.execSvnlock src key s
  | .revoke src key k => Sys2Proof.Machine.execRevoke src key k s
  | .recover src x => Sys2Proof.Machine.execRecover src x s
  | .sqTransactionStart n => Sys2Proof.Machine.execSqTransactionStart n s
  | .sqTransactionEnd n rx => Sys2Proof.Machine.execSqTransactionEnd n rx s
  | .qpush src n sel => Sys2Proof.Machine.execQpush src n sel s
  | .sqBusyRetry n sel => Sys2Proof.Machine.execSqBusyRetry n sel s
  | .slaveRead n op addr len k ecc => Sys2Proof.Machine.execSlaveRead n op addr len k ecc s
  | .slaveWrite n addr len data => Sys2Proof.Machine.execSlaveWrite n addr len data s
  | .fetch n k => Sys2Proof.Machine.execFetch n k s
  | .slaveRequestDone n => Sys2Proof.Machine.execSlaveRequestDone n s
  | .bandTableDone table => Sys2Proof.Machine.execBandTableDone table s
  | .hopEnd => Sys2Proof.Machine.execHopEnd s
  | .refclkLost freq phaseC phaseA => Sys2Proof.Machine.execRefclkLost freq phaseC phaseA s
  | .pllUnlock apll phase => Sys2Proof.Machine.execPllUnlock apll phase s
  | .pllRelock apll us => Sys2Proof.Machine.execPllRelock apll us s
  | .registerRead src addr => Sys2Proof.Machine.execRegisterRead src addr s
  | .negReceived n rate0 hdr uid offer vcs safe ack units crc => Sys2Proof.Machine.execNegReceived n rate0 hdr uid offer vcs safe ack units crc s
  | .negSend n => Sys2Proof.Machine.execNegSend n s
  | .moduleAbsent n => Sys2Proof.Machine.execModuleAbsent n s
  | .safetyChannelClosed j chB => Sys2Proof.Machine.execSafetyChannelClosed j chB s
  | .supplyInRange rail mv => Sys2Proof.Machine.execSupplyInRange rail mv s
  | .refclkPresent => Sys2Proof.Machine.execRefclkPresent s
  | .fltAliveToggle => Sys2Proof.Machine.execFltAliveToggle s

end Sys2Proof.Machine
end

