-- ==== Sys2Proof/Safety.lean ====
section
/-! DEFINITION. The words that claims use: the invariant of every state, what a slot of an engine writes, when a host request
passes every check of the dike. -/

namespace Sys2Proof.Claims

open Sys2Proof.Machine

/-- The canonical forms: registers and memory list rising keys, and nothing that stands at its reset value. Equal machines are
then equal data. -/
def Inv (s : State) : Prop := regsWf s.regs = true ∧ Memory.wf s.mem = true

/-- Every byte of memory reads as before, but those in a range. -/
def MemoryKept (s t : State) (lo hi : Nat) : Prop := ∀ a, a < lo ∨ hi ≤ a → rdByte t a = rdByte s a

/-! ## Engines -/

/-- A general register as the word under way leaves it. -/
def outG (s : State) (e r : Nat) : Word := cellGet 0 (getEng s e).nxt.g r

/-- An accumulator as the word under way leaves it. -/
def outA (s : State) (e a : Nat) : BitVec 72 := cellGet 0 (getEng s e).nxt.a a

/-- The predicate flags as the word under way leaves them. -/
def outF (s : State) (e : Nat) : BitVec 4 := (getEng s e).nxt.f

/-- A general register as the slots of the word under way read it: g0 is 0 (R92). -/
def inG (s : State) (e r : Nat) : Word := gprRead (getEng s e) r

/-- An accumulator as the slots of the word under way read it. -/
def inA (s : State) (e a : Nat) : Int := accRead (getEng s e) a

/-- What no slot touches: memory, the output window, the other engines. -/
def SlotFrame (s t : State) (e : Nat) : Prop :=
  t.mem = s.mem ∧ t.win = s.win ∧ ∀ d, d ≠ e → getEng t d = getEng s d

/-- The sticky flags `flag` are noted: with the word still under way they wait for its end; at its end they stand in ENG.ESF
beside what stood there, where no access stalls and no memory error waits for the next fetch (R105, R108). -/
def SlotFlags (s t : State) (e flag : Nat) (eow : Bool) : Prop :=
  (eow = false → (getEng t e).wordFlags = (getEng s e).wordFlags ||| flag ∧ getReg t (engEsf e) = getReg s (engEsf e)) ∧
  (eow = true → (getEng s e).stall = none → (getEng s e).fetchErr = none →
    getReg t (engEsf e) = BitVec.ofNat 32 ((getReg s (engEsf e)).toNat ||| ((getEng s e).wordFlags ||| flag)))

/-- What later words read: the results become visible at the end of the word, and not before (R96). -/
def SlotVisible (s t : State) (e : Nat) (eow : Bool) : Prop :=
  (eow = false → (getEng t e).cur = (getEng s e).cur) ∧
  (eow = true → (getEng s e).stall = none → (getEng t e).cur = (getEng t e).nxt)

/-- A slot wrote general register `gd` (g0 discards it), noted `flag`, and left every other register, the accumulators, the
predicate flags, memory and the other engines as they were. -/
def SlotWrites (s t : State) (e gd : Nat) (w : Word) (flag : Nat) (eow : Bool) : Prop :=
  (∀ r, outG t e r = if r = gd ∧ gd ≠ 0 then w else outG s e r) ∧ (∀ a, outA t e a = outA s e a) ∧ outF t e = outF s e ∧
    SlotFlags s t e flag eow ∧ SlotVisible s t e eow ∧ SlotFrame s t e

/-- A slot wrote accumulator `ad`, and nothing else. -/
def SlotAccumulates (s t : State) (e ad : Nat) (v : BitVec 72) (flag : Nat) (eow : Bool) : Prop :=
  (∀ a, outA t e a = if a = ad then v else outA s e a) ∧ (∀ r, outG t e r = outG s e r) ∧ outF t e = outF s e ∧
    SlotFlags s t e flag eow ∧ SlotVisible s t e eow ∧ SlotFrame s t e

/-- The 32-bit word of a saturated result, and the flag XSAT when it clips (R104, R105). -/
def sat32Word (x : Int) : Word := BitVec.ofInt 32 (max (-2147483648) (min 2147483647 x))
def xsatFlag (x : Int) : Nat := if x < -2147483648 ∨ 2147483647 < x then 1 else 0

/-- The 72-bit accumulator of a saturated result, and the flag of slot M0 or M1 when it clips (R104, R105). -/
def sat72Word (x : Int) : BitVec 72 := BitVec.ofInt 72 (max (-2361183241434822606848) (min 2361183241434822606847 x))
def accFlag (m1 : Bool) (x : Int) : Nat :=
  if x < -2361183241434822606848 ∨ 2361183241434822606847 < x then (if m1 then 4 else 2) else 0

/-- The rounding shift of R101: half of the last bit kept is added when RND is set and Q is not 0. -/
def shifted (x : Int) (q : Nat) (rnd : Bool) : Int := (if rnd ∧ q ≠ 0 then x + 2 ^ (q - 1) else x) / 2 ^ q

/-- The address that an L slot forms in a mode that is not reserved (R100). -/
def slotAddress (s : State) (e am gb : Nat) (off : Int) : Nat :=
  if am = 0 then (((inG s e gb).toInt + 4 * off) % 4294967296).toNat
  else if am = 1 then (inG s e gb).toNat
  else 4 * ((gb * 2048 + (off % 2048).toNat) % 65536)

/-- A general register after the post-modify of mode 0b01 (R100). -/
def afterModify (s : State) (e am gb : Nat) (off : Int) (r : Nat) : Word :=
  if am = 1 ∧ r = gb ∧ gb ≠ 0 then BitVec.ofInt 32 ((inG s e gb).toInt + 4 * off) else outG s e r

/-- Sticky flag `i` is noted: for the end of the word, or in ENG.ESF where the word has ended (R105). -/
def SlotNotes (s t : State) (e i : Nat) (eow : Bool) : Prop :=
  (eow = false → nbit (getEng t e).wordFlags i = true) ∧
  (eow = true → (getEng s e).stall = none → (getEng s e).fetchErr = none → nbit (getReg t (engEsf e)).toNat i = true)

/-- The word a load takes at a physical address: a half sign-extended or zero-extended (R102). -/
def loadValue (s : State) (half uns : Bool) (q : Nat) : Word :=
  if half then (if uns then BitVec.ofNat 32 (rdHalf s q) else BitVec.ofInt 32 (signed 16 (rdHalf s q))) else rdWord s q

/-- A load that R84 refuses: misaligned, nothing there, the output window, a culvert page that the polder may not read. -/
def loadRefused (s : State) (e a w : Nat) : Prop :=
  a % w ≠ 0 ∨ match reach s e a with
    | .window _ => True
    | .none => True
    | .culvert q => pageAllows s ((q - 0x40000000) / 4096) (resPol s (resEngine e)) false = false
    | _ => False

/-- A load that stalls at physical address `q` (R85). -/
def loadWaits (s : State) (e a w q : Nat) : Prop :=
  a % w = 0 ∧ (reach s e a = .shared q ∨
    (reach s e a = .culvert q ∧ pageAllows s ((q - 0x40000000) / 4096) (resPol s (resEngine e)) false = true))

/-- A store that R84, R87 or R283 refuses. -/
def storeRefused (s : State) (e a w : Nat) (pair : Bool) : Prop :=
  a % w ≠ 0 ∨ match reach s e a with
    | .dmem q => 0x1FF00 ≤ q % 0x100000
    | .table _ => True
    | .none => True
    | .shared _ => False
    | .culvert q => pageAllows s ((q - 0x40000000) / 4096) (resPol s (resEngine e)) true = false
    | .window o => windowOwner s o ≠ some (resPol s (resEngine e)) ∨
        (pair = true ∧ windowOwner s (o + 4) ≠ some (resPol s (resEngine e)))

/-- A slot command in a form that no engine ever executes (R98, R100): address mode 0b11, or an odd first register of a pair. -/
def neverRuns : Instr → Bool
  | .ldw _ _ _ am _ _ _ => am == 3
  | .stw _ _ _ am _ _ => am == 3
  | .ldh _ _ _ am _ _ _ => am == 3
  | .ldhu _ _ _ am _ _ _ => am == 3
  | .sth _ _ _ am _ _ => am == 3
  | .ldd _ gr _ am _ _ _ => am == 3 || gr.val % 2 == 1
  | .std _ gr _ am _ _ => am == 3 || gr.val % 2 == 1
  | _ => false

/-- Where an L access goes to the culvert, its polder's queue has room (R415). -/
def stallRoom (s : State) (e a w : Nat) : Prop :=
  a % w = 0 → ∀ q, reach s e a = .culvert q → beatRoom s (resPol s (resEngine e)) = true

/-- A stalled access that the culvert has not executed yet (R415). -/
def stallOpen (st : Stall) : Bool := inCulvert st.addr && st.served.isNone

/-- A stalled access is allowed: as the culvert found it when it executed it, else by the page flags of now; outside the culvert nothing forbids
it (R85, R407). -/
def stallAllowed (s : State) (p : Nat) (st : Stall) : Bool :=
  match st.served with
  | some r => r.1
  | none => !inCulvert st.addr || pageAllows s ((st.addr - 0x40000000) / 4096) p (!st.load)

/-- What a stalled load gets: what the culvert read when it executed it, else what memory holds now. -/
def stallData (s : State) (st : Stall) : List Word :=
  match st.served with
  | some r => r.2
  | none => loadWords s st.half st.unsignedHalf st.pair st.addr

/-- A byte that encoders or comparators deliver 40 ns from here: until then the engine's store of it stays apart (R53). -/
def comesLater (s : State) (e a : Nat) : Prop := isEarly s e = true ∧ ∃ c ∈ s.tick.early, c.1 ≤ a ∧ a < c.1 + 4

/-! ## Hosts -/

/-- A request of source `src`, bound to polder `p`, to the register at `a` passes the checks of R402: the main dies run, no ROM
recovery, a right to the register, no polder reset of the resource's owner, and for a culvert operation none of the polder. -/
def HostReady (s : State) (src : Source) (p a : Nat) : Prop :=
  mainRuns s = true ∧ s.dev.phase ≠ .recovery ∧ sourcePolder s src = some p ∧ regBreach s p a = 0 ∧
    (∀ o, resourceOf s a = some o → inReset s o = false) ∧ (a = culvOp → inReset s p = false)

/-- The request was answered without an error. -/
def Answered (t : State) (data : List Word) : Prop := t.dike.resp = ⟨false, data⟩

/-- The recorder takes `n` more events of this scope now: neither its queue nor the tick's share is full (R417, R564). -/
def RecorderRoom (s : State) (scope n : Nat) : Prop :=
  if s.recorder.scanning then s.recorder.keepQ.length + n ≤ 256
  else (cellGet [] s.recorder.queues scope).length + n ≤ 64 ∧ cellGet 0 s.recorder.placed scope + n ≤ 64

/-- An event stands in the queue of its scope, or of the keep domain while the recorder scans. -/
def Noted (t : State) (code scope : Nat) (params : List Word) : Prop :=
  ∃ e : Event, (e ∈ if t.recorder.scanning then t.recorder.keepQ else cellGet [] t.recorder.queues scope) ∧
    e.code = code ∧ e.scope = scope ∧ e.params = params

/-- The collector holds a fault of at least this class (R467, R471). -/
def FaultHeld (t : State) (code cls scope : Nat) (param : Word) : Prop :=
  ∃ h ∈ t.flt.held, h.code = code ∧ h.scope = scope ∧ h.param = param ∧ cls ≤ h.cls

/-- An event of class 0 is noted; one of a higher class is held as a fault. -/
def Reported (t : State) (code cls scope : Nat) (params : List Word) : Prop :=
  if cls = 0 then Noted t code scope params else FaultHeld t code cls scope (params.headD 0)

/-! ## Ralma frames, function sets -/

/-- A frame of type `type` with this header, payload and CRC arrives on port n as R517–R519 have it: the port is in UP, the channel agreed. -/
def FrameOk (s : State) (n type : Nat) (h : DWord) (data : List Nat) (crc : Word) : Prop :=
  rUp s n = true ∧ hdrType h = type ∧ frameFormed h data crc = true ∧ getFbit s (rlmPstat n) rlmPstat_Vcs (hdrVc h) = true

/-- The same for a routed frame to this node. -/
def RoutedOk (s : State) (n type : Nat) (h : DWord) (data : List Nat) (crc : Word) : Prop :=
  isMine s h = true ∧ FrameOk s n type h data crc

/-- A frame of this type arrives on a port in UP, and is invalid (R518). -/
def FrameBad (s : State) (n type : Nat) (h : DWord) (data : List Nat) (crc : Word) : Prop :=
  rUp s n = true ∧ hdrType h = type ∧ ¬(frameFormed h data crc = true ∧ getFbit s (rlmPstat n) rlmPstat_Vcs (hdrVc h) = true)

/-- The source of a routed frame as a host. -/
def frameSource (h : DWord) : Source := .ralma (BitVec.ofNat 12 (hdrSrc h)).toFin

/-- A frame was only counted as invalid (R518): no register changes but its count, no memory. -/
def OnlyCounted (s t : State) (n : Nat) : Prop :=
  getF t (rlmPerr n) rlmPerr_Crcerr = min 65535 (getF s (rlmPerr n) rlmPerr_Crcerr + 1) ∧ (∀ b, b ≠ rlmPerr n → getReg t b = getReg s b) ∧
    t.rlm.kept = s.rlm.kept ∧ t.mem = s.mem

/-- A frame went out on port n, or waits there for credit (R521). -/
def Sends (t : State) (n : Nat) (f : RFrame) : Prop := (n, f) ∈ t.rlm.sent ∨ f ∈ (getRPort t n).wait

/-- A SCHED frame on port n is taken (R589): by this node, from a source bound to polder 0. -/
def SchedTaken (s : State) (n : Nat) (h : DWord) (data : List Nat) (crc : Word) : Prop :=
  RoutedOk s n 0x0E h data crc ∧ sourcePolder s (frameSource h) = some 0

/-- An activation at fabric time `at'` of the verified image `x` passes the checks of R584. -/
def ArmReady (s : State) (x : Slot) (disrupt : Bool) (at' : Nat) : Prop :=
  s.upd.verified = some x ∧ updState s = 3 ∧ getF s rlmTstat rlmTstat_Align = 2 ∧ (nowTime s).toNat + 100000000 ≤ at' ∧
    ((upto 8).all fun p => row9 (runLayout s p) (subOf x.image p)) = true ∧ (disrupt = true ∨ sameMaps s x.image = true)

/-- Placed segment `i` runs on one engine, and holds segment `id`; its block of `size` bytes lies below the system words, and
apart from the output words at `outs`. -/
def FsAlone (s : State) (i id size : Nat) (f : FsAt) (outs : List Nat) : Prop :=
  fsRuns s i = [f] ∧ f.pl.segId = id ∧ f.pl.live + size ≤ 0x1FF00 ∧
    ∀ a ∈ outs, a % 0x20000 + 4 ≤ f.pl.live ∨ f.pl.live + size ≤ a % 0x20000

/-- An event of a placed segment is reported, where the engine leads its group. -/
def FsReported (s t : State) (f : FsAt) (code cls : Nat) : Prop :=
  f.lead = true → RecorderRoom s f.pl.polder 1 →
    if cls = 0 then ∃ l, Noted t code f.pl.polder (pw f.idx :: l) else FaultHeld t code cls f.pl.polder (pw f.idx)

end Sys2Proof.Claims
end

