-- ==== Sys2Proof/Certificates/Slice0/Obligations.lean ====
section
/-! DEFINITION. The statements for the provers. Each says what a command does, on every state that meets its hypotheses. -/

open Sys2Proof Sys2Proof.Machine Sys2Proof.Claims

/-! ## The machine -/

/-- A step takes the command at the front of the queue and runs it with the queue's rest; on an empty queue the block idles (the
queue and the idle step are the model's: assumption log 1).
The model's own choices in it: assumption log 1. -/
def Obligations.StepRunsFront : Prop :=
  (∀ (s : State) (c : Instr) (rest : List Instr), s.pending = c :: rest → step s = exec c { s with pending := rest }) ∧
  (∀ s : State, s.pending = [] → step s = .next s)

/-- Every command of every constructor completes, in every state: it answers a next state. The one exception is an L-slot operation in
a form that the loader never lets an engine execute (R98, R100): address mode 0b11, or an odd first register of a pair; that is
refused, in every state, under a name of its own.
An L access in a reserved form is never executed (R98, R100): address mode 0b11, or an odd register of a pair.
The bits of a slot (R95, R98–R103): what a command of an executed form encodes to decodes to that command; every command that a
slot's bits spell runs, and while the engine's step runs no words (R97, R112, R470, R625) it acts as NOP. Words written out from the
tables: MAC a2, g3, g4, Q 31, RND; STD g6, [g5], +2; MOVI g7, −1; CMP g1 < g2 into flag 3; a reserved opcode, a reserved address
mode, an odd pair and a set reserved bit spell nothing.
The model's own choices in it: assumption log 57. -/
def Obligations.OnlyReservedFormsStop : Prop :=
  (∀ (c : Instr) (s : State),
     (neverRuns c = false → ∃ t, exec c s = .next t) ∧ (neverRuns c = true → ∃ m, exec c s = .refused (.neverExecuted m))) ∧
  (∀ (s : State) (e : Fin 256) (gr gb : Fin 32) (am : Fin 4) (off : BitVec 11) (ecc : Ecc) (eow : Bool),
     (exec (.ldw e gr gb 3 off ecc eow) s = .refused (.neverExecuted "LDW") ∧
      exec (.stw e gr gb 3 off eow) s = .refused (.neverExecuted "STW") ∧
      exec (.ldh e gr gb 3 off ecc eow) s = .refused (.neverExecuted "LDH") ∧
      exec (.ldhu e gr gb 3 off ecc eow) s = .refused (.neverExecuted "LDHU") ∧
      exec (.sth e gr gb 3 off eow) s = .refused (.neverExecuted "STH")) ∧
     ((am = 3 ∨ gr.val % 2 = 1) →
       exec (.ldd e gr gb am off ecc eow) s = .refused (.neverExecuted "LDD") ∧
       exec (.std e gr gb am off eow) s = .refused (.neverExecuted "STD"))) ∧
  ((∀ (c : Instr) (s t : State) (i b : Nat), encodeSlot c = some (i, b) → exec c s = .next t →
     b < 2 ^ 28 ∧ i < 4 ∧ ∃ e ecc eow, decodeSlot e i b ecc eow = some c) ∧
   (∀ (c : Instr) (s : State) (e : Fin 256) (i b : Nat) (ecc : Ecc) (eow : Bool), decodeSlot e i b ecc eow = some c →
     (∃ t, exec c s = .next t) ∧ (wordRuns s e = false → exec c s = .next s)) ∧
   (∀ (e : Fin 256) (ecc : Ecc) (eow : Bool),
     decodeSlot e 0 0b0001010000110010011111100000 ecc eow = some (.mac e false 2 3 4 31 true eow) ∧
     decodeSlot e 1 0b0001010000110010011111100000 ecc eow = some (.mac e true 2 3 4 31 true eow) ∧
     decodeSlot e 2 0b0010000110001010000000000010 ecc eow = some (.std e 6 5 0 2 eow) ∧
     decodeSlot e 3 0b0001000111001111111111111111 ecc eow = some (.movi e 7 0xFFFF eow) ∧
     decodeSlot e 3 0b1001000000000010001000001011 ecc eow = some (.cmp e 1 2 2 3 eow) ∧
     decodeSlot e 0 0b1000000000000000000000000000 ecc eow = none ∧
     decodeSlot e 0 0b0000000000000000000000000001 ecc eow = none ∧
     decodeSlot e 2 0b0000100000000001100000000000 ecc eow = none ∧
     decodeSlot e 2 0b0001100001000000000000000000 ecc eow = none ∧
     decodeSlot e 3 0b0001000111010000000000000000 ecc eow = none))

/-- Every step keeps the canonical forms of registers and memory.
The model's own choices in it: assumption log 3, 8. -/
def Obligations.StepKeepsCanonicalForm : Prop := ∀ s t : State, Inv s → step s = .next t → Inv t

/-- The state after reset has the canonical forms, an empty queue, and every register at its reset value (R14; where the spec
gives none, the value of assumption log 3).
The model's own choices in it: assumption log 3, 56. -/
def Obligations.ResetIsCanonical : Prop :=
  Inv State.reset ∧ State.reset.pending = [] ∧ ∀ a, getReg State.reset a = regReset a

/-! ## Engine slots -/

/-- The X slot's operations: the result of each, the sticky flag of those that clip, and nothing else (R92, R96, R103–R105).
The X slot's operations that write no general register: NOP writes nothing, CMP one predicate flag. TRIG raises one trigger line
of the tick and REQ writes one request output, both at the end of the word and not before (R94, R96, R103, R159); a group step
writes its output into the voter lane, a migration step writes none (R117, R458).
The model's own choices in it: assumption log 55. -/
def Obligations.XSlotResults : Prop :=
  (∀ (s : State) (e : Fin 256) (gd ga gb : Fin 32) (eow : Bool), wordRuns s e = true →
     let a := inG s e ga
     let b := inG s e gb
     (∃ t, exec (.mov e gd ga eow) s = .next t ∧ SlotWrites s t e gd a 0 eow) ∧
     (∀ imm, ∃ t, exec (.movi e gd imm eow) s = .next t ∧ SlotWrites s t e gd (BitVec.ofInt 32 imm.toInt) 0 eow) ∧
     (∀ imm, ∃ t, exec (.movh e gd imm eow) s = .next t ∧
       SlotWrites s t e gd (BitVec.ofNat 32 (imm.toNat * 65536 + (inG s e gd).toNat % 65536)) 0 eow) ∧
     (∃ t, exec (.add e gd ga gb eow) s = .next t ∧
       SlotWrites s t e gd (sat32Word (a.toInt + b.toInt)) (xsatFlag (a.toInt + b.toInt)) eow) ∧
     (∃ t, exec (.sub e gd ga gb eow) s = .next t ∧
       SlotWrites s t e gd (sat32Word (a.toInt - b.toInt)) (xsatFlag (a.toInt - b.toInt)) eow) ∧
     (∀ imm, ∃ t, exec (.addi e gd ga imm eow) s = .next t ∧
       SlotWrites s t e gd (sat32Word (a.toInt + imm.toInt)) (xsatFlag (a.toInt + imm.toInt)) eow) ∧
     (∃ t, exec (.min e gd ga gb eow) s = .next t ∧ SlotWrites s t e gd (if a.toInt ≤ b.toInt then a else b) 0 eow) ∧
     (∃ t, exec (.max e gd ga gb eow) s = .next t ∧ SlotWrites s t e gd (if a.toInt ≤ b.toInt then b else a) 0 eow) ∧
     (∃ t, exec (.abs e gd ga eow) s = .next t ∧ SlotWrites s t e gd (sat32Word a.toInt.natAbs) (xsatFlag a.toInt.natAbs) eow) ∧
     (∃ t, exec (.neg e gd ga eow) s = .next t ∧ SlotWrites s t e gd (sat32Word (-a.toInt)) (xsatFlag (-a.toInt)) eow) ∧
     (∃ t, exec (.sats e gd ga gb eow) s = .next t ∧
       SlotWrites s t e gd
         (if b.toInt < 0 then 0 else if b.toInt < a.toInt then b else if a.toInt < -b.toInt then -b else a) 0 eow) ∧
     (∀ n, ∃ t, exec (.shl e gd ga n eow) s = .next t ∧
       SlotWrites s t e gd (sat32Word (a.toInt * 2 ^ n.val)) (xsatFlag (a.toInt * 2 ^ n.val)) eow) ∧
     (∀ n, ∃ t, exec (.shr e gd ga n eow) s = .next t ∧ SlotWrites s t e gd (BitVec.ofInt 32 (a.toInt / 2 ^ n.val)) 0 eow) ∧
     (∀ n, ∃ t, exec (.shru e gd ga n eow) s = .next t ∧ SlotWrites s t e gd (BitVec.ofNat 32 (a.toNat / 2 ^ n.val)) 0 eow) ∧
     (∃ t, exec (.and e gd ga gb eow) s = .next t ∧ SlotWrites s t e gd (a &&& b) 0 eow) ∧
     (∃ t, exec (.or e gd ga gb eow) s = .next t ∧ SlotWrites s t e gd (a ||| b) 0 eow) ∧
     (∃ t, exec (.xor e gd ga gb eow) s = .next t ∧ SlotWrites s t e gd (a ^^^ b) 0 eow) ∧
     (∀ n, ∃ t, exec (.sel e gd ga gb n eow) s = .next t ∧
       SlotWrites s t e gd (if (getEng s e).cur.f.getLsbD n then a else b) 0 eow) ∧
     (∃ t, exec (.rdsf e gd eow) s = .next t ∧ SlotWrites s t e gd (getReg s (engEsf e)) 0 eow) ∧
     (∃ t, exec (.addw e gd ga gb eow) s = .next t ∧ SlotWrites s t e gd (a + b) 0 eow) ∧
     (∃ t, exec (.subw e gd ga gb eow) s = .next t ∧ SlotWrites s t e gd (a - b) 0 eow)) ∧
  (∀ (s : State) (e : Fin 256) (ga gb : Fin 32) (eow : Bool), wordRuns s e = true →
     let a := inG s e ga
     let b := inG s e gb
     let kept (t : State) : Prop := (∀ r, outG t e r = outG s e r) ∧ (∀ x, outA t e x = outA s e x) ∧ SlotFrame s t e
     (∃ t, exec (.nop e eow) s = .next t ∧ kept t ∧ outF t e = outF s e ∧ SlotFlags s t e 0 eow ∧ SlotVisible s t e eow) ∧
     (∀ (c : Fin 8) (n : Fin 4), ∃ t, exec (.cmp e ga gb c n eow) s = .next t ∧ kept t ∧ SlotVisible s t e eow ∧
       ∀ i < 4, (outF t e).getLsbD i =
         if i = n then (match c.val with
           | 0 => decide (a = b)
           | 1 => decide (a ≠ b)
           | 2 => decide (a.toInt < b.toInt)
           | 3 => decide (a.toInt ≤ b.toInt)
           | 4 => decide (a.toInt > b.toInt)
           | 5 => decide (a.toInt ≥ b.toInt)
           | 6 => decide (a.toNat < b.toNat)
           | _ => decide (a.toNat ≥ b.toNat))
         else (outF s e).getLsbD i) ∧
     (∀ n : Fin 4, ∃ t, exec (.trig e n eow) s = .next t ∧ kept t ∧ outF t e = outF s e ∧
       (eow = false → (getEng t e).lines = (getEng s e).lines ∧
         ∀ i < 4, nbit (getEng t e).nextLines i = (decide (i = n.val) || nbit (getEng s e).nextLines i)) ∧
       (eow = true → (getEng s e).stall = none → ∀ i < 4,
         nbit (getEng t e).lines i = (decide (i = n.val) || nbit (getEng s e).nextLines i || nbit (getEng s e).lines i))) ∧
     (∀ n : Fin 4, ∃ t, exec (.req e ga n eow) s = .next t ∧ kept t ∧ outF t e = outF s e ∧
       (eow = false → (∀ i, getFbit t (engStat e) engStat_Req i = getFbit s (engStat e) engStat_Req i) ∧
         (getEng t e).reqLane = (getEng s e).reqLane ∧ cellFind (getEng t e).nextReqs n = some (a.getLsbD 0)) ∧
       (eow = true → (getEng s e).stall = none → (getEng s e).fetchErr = none → (getEng s e).nextReqs = [] →
         let migrates := (cellGet polImgReset s.img.pol (resPol s (resEngine e))).migrating.isSome
         (∀ i < 4, getFbit t (engStat e) engStat_Req i =
           if i = n.val ∧ migrates = false ∧ inVoterStep (getEng s e) = false then a.getLsbD 0 else getFbit s (engStat e) engStat_Req i) ∧
         (getEng t e).reqLane = if migrates = false ∧ inVoterStep (getEng s e) = true then cellPut (getEng s e).reqLane n (a.getLsbD 0)
           else (getEng s e).reqLane)))

/-- The M slots' operations: the result of each in its accumulator (of ASAT, in a general register), the sticky flag of those
that clip, and nothing else (R92, R96, R101, R104, R105).
The model's own choices in it: assumption log 55. -/
def Obligations.MSlotResults : Prop :=
  ∀ (s : State) (e : Fin 256) (m1 : Bool) (ad as : Fin 4) (ga gb q : Fin 32) (rnd eow : Bool), wordRuns s e = true →
    let a := inG s e ga
    let b := inG s e gb
    let acc := inA s e ad
    let p := shifted (a.toInt * b.toInt) q rnd
    let pd := shifted ((a.setWidth 16).toInt * (b.setWidth 16).toInt +
      ((a >>> 16).setWidth 16).toInt * ((b >>> 16).setWidth 16).toInt) q rnd
    let sat (t : State) (x : Int) : Prop := SlotAccumulates s t e ad (sat72Word x) (accFlag m1 x) eow
    (∃ t, exec (.mul e m1 ad ga gb q rnd eow) s = .next t ∧ SlotAccumulates s t e ad (BitVec.ofInt 72 p) 0 eow) ∧
    (∃ t, exec (.mac e m1 ad ga gb q rnd eow) s = .next t ∧ sat t (acc + p)) ∧
    (∃ t, exec (.msu e m1 ad ga gb q rnd eow) s = .next t ∧ sat t (acc - p)) ∧
    (∃ t, exec (.muld e m1 ad ga gb q rnd eow) s = .next t ∧ SlotAccumulates s t e ad (BitVec.ofInt 72 pd) 0 eow) ∧
    (∃ t, exec (.macd e m1 ad ga gb q rnd eow) s = .next t ∧ sat t (acc + pd)) ∧
    (∃ t, exec (.msud e m1 ad ga gb q rnd eow) s = .next t ∧ sat t (acc - pd)) ∧
    (∃ t, exec (.aclr e m1 ad eow) s = .next t ∧ SlotAccumulates s t e ad 0 0 eow) ∧
    (∃ t, exec (.ald e m1 ad ga q eow) s = .next t ∧ sat t (a.toInt * 2 ^ q.val)) ∧
    (∃ t, exec (.aadd e m1 ad ga q eow) s = .next t ∧ sat t (acc + a.toInt * 2 ^ q.val)) ∧
    (∃ t, exec (.aadda e m1 ad as eow) s = .next t ∧ sat t (acc + inA s e as)) ∧
    (∃ t, exec (.asuba e m1 ad as eow) s = .next t ∧ sat t (acc - inA s e as)) ∧
    (∃ t, exec (.asat e m1 ad gb q rnd eow) s = .next t ∧
      SlotWrites s t e gb (sat32Word (shifted acc q rnd))
        (if shifted acc q rnd < -2147483648 ∨ 2147483647 < shifted acc q rnd then (if m1 then 16 else 8) else 0) eow) ∧
    (∃ t, exec (.ashl e m1 ad q eow) s = .next t ∧ sat t (acc * 2 ^ q.val)) ∧
    (∃ t, exec (.ashr e m1 ad q rnd eow) s = .next t ∧ SlotAccumulates s t e ad (BitVec.ofInt 72 (shifted acc q rnd)) 0 eow) ∧
    (∃ t, exec (.aneg e m1 ad eow) s = .next t ∧ sat t (-acc))

/-- Loads (R84, R85, R100, R102): an aligned address in the engine's own memories loads at once (0 where SECDED finds an
uncorrectable error, whose flag is noted (R105, R112); in the first 40 ns of a tick without what encoders and comparators deliver
then, R53), an address of the cluster or of a readable culvert page stalls, a culvert access in its polder's queue where that has
room (R415); every other address loads 0 and notes LREF;
the base register of mode 0b01 takes the post-modify unless it is loaded. Memory, the accumulators and the predicate flags stay.
The model's own choices in it: assumption log 35, 55. -/
def Obligations.LoadsByWhereTheyReach : Prop :=
  ∀ (s : State) (e : Fin 256) (gr gb : Fin 32) (am : Fin 4) (off : BitVec 11) (ecc : Ecc) (eow : Bool), am ≠ 3 → wordRuns s e = true →
    let a := slotAddress s e am gb off.toInt
    let p := resPol s (resEngine e)
    let moved := afterModify s e am gb off.toInt
    let kept (t : State) : Prop := (∀ x, outA t e x = outA s e x) ∧ outF t e = outF s e ∧ SlotFrame s t e
    let gives (t : State) (pair : Bool) (x y : Word) : Prop := kept t ∧ ∀ r, outG t e r =
      if pair = true ∧ r = gr.val + 1 then y else if r = gr.val ∧ gr ≠ 0 then x else moved r
    let case (c : Instr) (half uns pair : Bool) : Prop := ∃ t, exec c s = .next t ∧
      (loadRefused s e a (lWidth half pair) → gives t pair 0 0 ∧ SlotNotes s t e 5 eow) ∧
      (∀ q, loadWaits s e a (lWidth half pair) q → (inCulvert q = true → beatRoom s p = true) → kept t ∧ (∀ r, outG t e r = moved r) ∧
        (inCulvert q = true → beatQueue t p = beatQueue s p ++ [.engine e]) ∧
        (getEng t e).stall = some { load := true, half := half, unsignedHalf := uns, pair := pair, addr := q, gr := gr,
                                    data := [], eow := eow }) ∧
      (∀ q, a % lWidth half pair = 0 → (reach s e a = .dmem q ∨ reach s e a = .table q) →
        (if eccBad ecc = true then gives t pair 0 0 else gives t pair (loadValue (seenMem s e) half uns q) (rdWord (seenMem s e) (q + 4))) ∧
        (∀ i, ecc = .single i → SlotNotes s t e 6 eow) ∧ (∀ i, ecc = .double i → SlotNotes s t e 7 eow))
    case (.ldw e gr gb am off ecc eow) false false false ∧ case (.ldh e gr gb am off ecc eow) true false false ∧
    case (.ldhu e gr gb am off ecc eow) true true false ∧ (gr.val % 2 = 0 → case (.ldd e gr gb am off ecc eow) false false true)

/-- Stores (R84, R85, R87, R100, R102, R283): an aligned address in data memory below the system words takes the data at once
(but the words that encoders and comparators deliver after 40 ns, R53), and no other byte changes; a word of the output window of an own pair or cell takes it in this tick; an address of the cluster or
of a writable culvert page stalls with the data, a culvert access in its polder's queue where that has room (R415); every other store changes nothing and notes LREF. No store changes a register
but the base of mode 0b01.
The model's own choices in it: assumption log 35, 55. -/
def Obligations.StoresByWhereTheyReach : Prop :=
  ∀ (s : State) (e : Fin 256) (gr gb : Fin 32) (am : Fin 4) (off : BitVec 11) (eow : Bool), am ≠ 3 → wordRuns s e = true →
    let a := slotAddress s e am gb off.toInt
    let p := resPol s (resEngine e)
    let kept (t : State) : Prop := (∀ r, outG t e r = afterModify s e am gb off.toInt r) ∧ (∀ x, outA t e x = outA s e x) ∧
      outF t e = outF s e ∧ t.win = s.win
    let case (c : Instr) (half pair : Bool) (bytes : List Byte) (data : List Word) : Prop := ∃ t, exec c s = .next t ∧
      (stallRoom s e a (lWidth half pair) → kept t) ∧
      (∀ q, a % lWidth half pair = 0 → reach s e a = .dmem q → q % 0x100000 < 0x1FF00 →
        (∀ i < lWidth half pair, ¬comesLater s e (q + i) → rdByte t (q + i) = bytes.getD i 0) ∧
        (∀ x, comesLater s e x → rdByte t x = rdByte s x) ∧ MemoryKept s t q (q + lWidth half pair)) ∧
      (∀ q, a % lWidth half pair = 0 → (reach s e a = .shared q ∨ (reach s e a = .culvert q ∧ pageAllows s ((q - 0x40000000) / 4096) p true = true)) →
        stallRoom s e a (lWidth half pair) → t.mem = s.mem ∧ (inCulvert q = true → beatQueue t p = beatQueue s p ++ [.engine e]) ∧
        (getEng t e).stall = some { load := false, half := half, unsignedHalf := false, pair := pair, addr := q, gr := gr, data := data, eow := eow }) ∧
      (∀ o, a % lWidth half pair = 0 → reach s e a = .window o → windowOwner s o = some p → (pair = true → windowOwner s (o + 4) = some p) →
        (cellGet polImgReset s.img.pol p).migrating = none → t.mem = s.mem ∧
          windowWord t e (o / 4 * 4) = (if half then
              (if o % 4 = 0 then BitVec.ofNat 32 ((windowWord s e (o / 4 * 4)).toNat / 65536 * 65536 + (data.headD 0).toNat % 65536)
               else BitVec.ofNat 32 ((windowWord s e (o / 4 * 4)).toNat % 65536 + 65536 * ((data.headD 0).toNat % 65536)))
            else data.headD 0) ∧
          (pair = true → windowWord t e (o + 4) = data.getD 1 0)) ∧
      (storeRefused s e a (lWidth half pair) pair → kept t ∧ t.mem = s.mem ∧ SlotNotes s t e 5 eow)
    let x := inG s e gr
    let y := inG s e (gr.val + 1)
    case (.stw e gr gb am off eow) false false [wordByte x 0, wordByte x 1, wordByte x 2, wordByte x 3] [x] ∧
    case (.sth e gr gb am off eow) true false [wordByte x 0, wordByte x 1] [x] ∧
    (gr.val % 2 = 0 → case (.std e gr gb am off eow) false true
      [wordByte x 0, wordByte x 1, wordByte x 2, wordByte x 3, wordByte y 0, wordByte y 1, wordByte y 2, wordByte y 3] [x, y])

/-- L_STALL_END ends a stall, but while a hold stops the engines (R85, R470). The access makes its transfer: in the culvert when the
wheel has come to it (R414, R415), under the page flags of then (R407); a page that forbids it gives a load 0 and notes LREF. The
stall's cycles are counted, and the word ends if it waited for the access alone.
The model's own choices in it: assumption log 35, 55. -/
def Obligations.StalledAccessEnds : Prop :=
  ∀ (s : State) (e : Fin 256) (n : Nat) (st : Stall), (getEng s e).stall = some st →
    let p := resPol s (resEngine e)
    let ok := stallAllowed s p st
    let got := stallData s st
    let now := st.served.isNone || !inCulvert st.addr
    (∃ t, exec (.lStallEnd e n) s = .next t ∧ (s.flt.hold = true → t = s) ∧ (s.flt.hold = false → (getEng t e).stall = none)) ∧
    (s.flt.hold = false → (st.half = false ∨ st.pair = false) →
      (stallOpen st = true → ∀ q, beatQueue s q = if q = p then [.engine e] else []) →
      (∀ r, st.served = some r → r.1 = true → st.load = true → r.2.length = if st.pair then 2 else 1) →
      ∃ t, exec (.lStallEnd e n) s = .next t ∧
        (getEng t e).cycles = (getEng s e).cycles + n + (if st.eow then 1 else 0) ∧ (∀ x, outA t e x = outA s e x) ∧ outF t e = outF s e ∧
        (ok = false → (st.eow = false → nbit (getEng t e).wordFlags 5 = true) ∧
          (st.eow = true → (getEng s e).fetchErr = none → nbit (getReg t (engEsf e)).toNat 5 = true)) ∧
        (st.load = true → t.mem = s.mem ∧ ∀ r, outG t e r =
          if st.pair = true ∧ r = st.gr + 1 then (if ok then got.getD 1 0 else 0)
          else if r = st.gr ∧ st.gr ≠ 0 then (if ok then got.getD 0 0 else 0) else outG s e r) ∧
        (st.load = false → (∀ r, outG t e r = outG s e r) ∧ ((ok && now) = false → t.mem = s.mem) ∧
          ((ok && now) = true → ∀ w, st.data = [w] →
            if st.half then rdHalf t st.addr = w.toNat % 65536 ∧ MemoryKept s t st.addr (st.addr + 2)
            else rdWord t st.addr = w ∧ MemoryKept s t st.addr (st.addr + 4)) ∧
          ((ok && now) = true → st.half = false → ∀ w v, st.data = [w, v] →
            rdWord t st.addr = w ∧ rdWord t (st.addr + 4) = v ∧ MemoryKept s t st.addr (st.addr + 8))))
/-! ## Sequencer, placement, trace -/

/-- STEP_START (R59, R60, R93, R112): with the tick running, the engine idle and no transfer awaited, the next due step starts with
cleared registers at its segment's first word, and ENG.STAT shows BUSY; an uncorrectable error in that word's fetch, or in any fetch
of a placed ROM segment, ends it and leaves memory; with no step due the engine is done for the tick. A step that starts after another of the
tick has ended costs 4 cycles more (R59). A migration segment is no placed one (R458).
The model's own choices in it: assumption log 26, 45, 84. -/
def Obligations.StepStartRunsTheNextDueStep : Prop :=
  ∀ (s : State) (e : Fin 256) (loc : Fin 36864) (ecc : Ecc),
    s.dev.tickRun = true → s.clk.gateC = false → s.flt.hold = false → inReset s (resPol s (resEngine e)) = false →
    (getEng s e).running = none → waitsTransfer s e = false →
    (nextDue s e (getEng s e).nextStep = none → ∃ t, exec (.stepStart e loc ecc) s = .next t ∧ (getEng t e).done = true ∧
      (getEng t e).running = none ∧ t.mem = s.mem ∧ t.regs = s.regs) ∧
    (∀ i kind seg, nextDue s e (getEng s e).nextStep = some (i, kind, seg) →
      let placed := migSteps s e = none ∧ (fsAt s e seg).isSome = true
      let fails := eccBad ecc = true ∧ (loc.val = 32768 + seg ∨ (placed ∧ 32768 ≤ loc.val))
      ∃ t, exec (.stepStart e loc ecc) s = .next t ∧ (getEng t e).running = some ⟨i, resPol s (resEngine e), kind, seg⟩ ∧
        (getEng t e).nextStep = i + 1 ∧ (getEng t e).wp = seg ∧ (getEng t e).cur = engRegsReset ∧ (getEng t e).nxt = engRegsReset ∧
        ((getEng t e).atEnd = true ↔ fails) ∧
        (¬placed ∨ fails → t.mem = s.mem ∧ getB t (engStat e) engStat_Busy = true ∧
          (getEng t e).cycles = (getEng s e).cycles + if (getEng s e).stepEnded then 4 else 0))

/-- SEGMENT_END (R95, R97, R113, R115, R134): the step that has run its last word is over, ENG.STAT no longer shows BUSY, and every
set-point latch whose source step it is holds the source word, unless the step ended after the commit cut-off: then the latch
takes no new value (that any member of a group blocks it is the model's: assumption log 81). While a hold stops the engines nothing ends (R470). After the last group step the engine has the signature of its state area, after the last step of
the tick what its taps show. Memory stays.
The model's own choices in it: assumption log 27, 81. -/
def Obligations.SegmentEndCapturesLatches : Prop :=
  ∀ (s : State) (e : Fin 256) (late : Bool) (r : Running), (getEng s e).running = some r → s.clk.gateC = false → s.flt.hold = false →
    ((getEng s e).atEnd = true ∨ ((fsAt s e r.seg).isSome = true ∧ migSteps s e = none)) →
    ∃ t, exec (.segmentEnd e late) s = .next t ∧ (getEng t e).running = none ∧ (getEng t e).stall = none ∧ t.mem = s.mem ∧
      getB t (engStat e) engStat_Busy = false ∧
      ((r.kind = 1 ∨ migSteps s e = none) → (s.img.latches.map fun c => c.1).Nodup →
        ∀ c ∈ s.img.latches, latSource s c.2 e r.idx = true →
          (late = false → cellFind (getLatch t c.1).caps e = some (rdWord s (dmWord e (latSrcWord c.2)))) ∧
          (late = true → (getLatch t c.1).late = true)) ∧
      (∀ g, sigGroup s e = some g → (r.kind = 1 ∨ migSteps s e ≠ none) → groupStepLeft s e (r.idx + 1) = false → g.len ≠ 0 →
        (getEng t e).sig = some (signature s e g)) ∧
      (nextDue s e (getEng s e).nextStep = none → (getEng t e).tapSnap = some ((getEng s e).tapSnap.getD (tapWords s e)))

/-- HOST_WRITE_QUEUE_DRAIN (R89, R90, R113): after the engine's last step of the tick its trace taps keep memory as it was; an
engine outside placement groups takes every waiting write in arrival order, those held back after those of the queue; a word of a group's state area goes to every member
and the spare once all of them are between steps.
The model's own choices in it: assumption log 28, 31. -/
def Obligations.HostWritesDrainInOrder : Prop :=
  ∀ (s : State) (e : Fin 256), (getEng s e).running = none → nextDue s e (getEng s e).nextStep = none →
    (groupOf s e = none → ∃ t, exec (.hostWriteQueueDrain e) s = .next t ∧ (getEng t e).queue = [] ∧ (getEng t e).held = [] ∧
      (getEng t e).tapSnap = some ((getEng s e).tapSnap.getD (tapWords s e)) ∧
      t.mem = (((getEng s e).queue ++ (getEng s e).held).foldl (fun s w => wrWords s w.addr w.words) s).mem ∧ t.regs = s.regs) ∧
    (∀ w v g, (getEng s e).queue = [w] → (getEng s e).held = [] → w.words = [v] → inStateArea s e w.addr = some g → canApply s e w = true →
      w.addr % 0x100000 ≤ 0x1FFFC →
      ∃ t, exec (.hostWriteQueueDrain e) s = .next t ∧ (getEng t e).queue = [] ∧
        ∀ d ∈ g.members ++ g.spare.toList, rdWord t (engBase d + w.addr % 0x100000) = v)

/-- STATE_TRANSFER_DONE (R116, R122, R123, R127): a shadow copy gives the spare the state area of the first member; a restore gives
every member that of the spare; a seeding gives the re-admitted engine that of the lowest healthy member, and the engine is in the
group again. The transfer is over, and its cycles are counted: at most 1.0 µs of the region's clock (R116, R129).
TRACE_DONE (R160): a lane in POST whose count of records is used up enters DONE, and nothing else changes.
The model's own choices in it: assumption log 26, 29. -/
def Obligations.StateTransfersAndTraceEnd : Prop :=
  (∀ (s : State) (p : Fin 8) (id : Fin 256) (g : Group),
     let k := p.val * 256 + id.val
     let gs := getGroup s k
     let area (u : State) (e : Nat) : List Word := rdWords u (engBase e + 32 * g.base) (8 * g.len)
     s.img.groups.find? (fun g => g.polder == p.val && g.id == id.val) = some g → 32 * (g.base + g.len) ≤ 0x20000 →
     (∀ c m l, gs.xfer = some .shadow → gs.spare = some c → gs.members = m :: l →
       ∃ t, exec (.stateTransferDone p id) s = .next t ∧ area t c = area s m ∧ (getGroup t k).xfer = none ∧ t.regs = s.regs) ∧
     (∀ c, gs.xfer = some .restore → gs.spare = some c →
       ∃ t, exec (.stateTransferDone p id) s = .next t ∧ (∀ m ∈ gs.members, area t m = area s c) ∧ (getGroup t k).xfer = none ∧ t.regs = s.regs) ∧
     (∀ e, gs.xfer = some (.seed e) → (∃ m ∈ gs.members, m ≠ e) →
       ∃ t low, exec (.stateTransferDone p id) s = .next t ∧ low ∈ gs.members ∧ low ≠ e ∧ (∀ m ∈ gs.members, m ≠ e → low ≤ m) ∧
         area t e = area s low ∧ (getGroup t k).xfer = none ∧ e ∉ (getGroup t k).retired ∧
         (if g.triple then e ∈ (getGroup t k).members else (getGroup t k).spare = some e)) ∧
     (gs.xfer ≠ none → (g.members ++ g.spare.toList).Nodup → ∃ t, exec (.stateTransferDone p id) s = .next t ∧
       ∀ m ∈ g.members ++ g.spare.toList, (getEng s m).cycles ≤ (getEng t m).cycles ∧
         (getEng t m).cycles ≤ (getEng s m).cycles + fvMHz s / tempoDiv (getF s (tickRtempo (regionOf m)) tickRtempo_Tempo))) ∧
  (∀ (s : State) (e : Fin 256), getF s (engTrstat e) engTrstat_State = 2 → (getLane s e).left = 0 →
     ∃ t, exec (.traceDone e) s = .next t ∧ getF t (engTrstat e) engTrstat_State = 3 ∧
       (∀ a, a ≠ engTrstat e → getReg t a = getReg s a) ∧ t.mem = s.mem ∧ t.lanes = s.lanes)

/-! ## Carriers and direct outputs -/

/-- CARRIER_PERIOD_START and CARRIER_PEAK (R277, R280, R281, R283, R284, R289): a running carrier takes the set that waits for
its period start, or starts anew; at a period start the pending compares of its pairs with LOADAT 0b00 and 0b01 become active, and
a PIN cause of LEVEL inputs that are no longer active ends; at the peak of a TRI carrier those with LOADAT 0b01 become active. An
active compare stands in the steps that the carrier's P16 of that moment and the pair's format give.
The model's own choices in it: assumption log 23, 69. -/
def Obligations.CarrierEventsLoadCompares : Prop :=
  ∀ (s : State) (k : Fin 32), carRuns s k = true →
    let active (t : State) (p : Nat) (w : Word) : Nat := (compareSteps (getB s (pwmPctl p) pwmPctl_Fmt) (p16 t k) w).1
    (∃ t, exec (.carrierPeriodStart k) s = .next t ∧ t.mem = s.mem ∧
      getCar t k = (match (getCar s k).waiting with
        | none => { getCar s k with e := 0 }
        | some (cc, cp, ch) => { ctl := cc, per := cp, ph := ch, waiting := none, e := freeStart (getCar s k).per (getCar s k).ph cp ch,
                                    base := freeBase (getCar s k) cp ch }) ∧
      ∀ p < 48, pairCar s p = k →
        (getF s (pwmPctl p) pwmPctl_Loadat < 2 →
          (getPair t p).actA = active t p (getPair s p).pendA ∧ (getPair t p).actB = active t p (getPair s p).pendB) ∧
        ((getPair s p).pinHeld = false → activeTrips s p = [] → getB t (pwmPstat p) pwmPstat_Pin = false)) ∧
    (fget (getCar s k).ctl pwmCarctl_Shape = 2 → ∃ t, exec (.carrierPeak k) s = .next t ∧ t.mem = s.mem ∧
      (getCar t k).e = (p16 s k + 1) / 2 ∧
      ∀ p < 48, pairCar s p = k → getF s (pwmPctl p) pwmPctl_Loadat = 1 →
        (getPair t p).actA = active t p (getPair s p).pendA ∧ (getPair t p).actB = active t p (getPair s p).pendB)

/-- COMPARE_EDGE (R277, R283–R285): at elapsed step `e` of a running carrier the pair's reference levels are those of the carrier
value against its active compares: A is high while the value is below CMPA, B is its complement, or in independent mode compares
with CMPB.
DEAD_TIME_END (R286): the output that waited turns on, the other one being off; nothing else of the machine changes.
The model's own choices in it: assumption log 23, 69. -/
def Obligations.CompareEdgeAndDeadTime : Prop :=
  (∀ (s : State) (p : Fin 48) (e : Nat), carRuns s (pairCar s p) = true →
     let k := pairCar s p
     let per := p16 s k
     let v := carrierValue (fget (getCar s k).ctl pwmCarctl_Shape) per (e % max 1 per)
     ∃ t, exec (.compareEdge p e) s = .next t ∧ (getCar t k).e = e % max 1 per ∧
       (getPair t p).refA = decide (v < (getPair s p).actA) ∧
       (getPair t p).refB = (if getF s (pwmPctl p) pwmPctl_Mode = 2 then decide (v < (getPair s p).actB)
         else decide ((getPair s p).actA ≤ v)) ∧ t.mem = s.mem) ∧
  (∀ (s : State) (p : Fin 48), let a := pwmPstat p
     let q := getPair s p
     (q.wantA = true ∧ q.wantB = false ∧ getB s a pwmPstat_Blv = false → ∃ t, exec (.deadTimeEnd p) s = .next t ∧
       getB t a pwmPstat_Alv = true ∧ getB t a pwmPstat_Blv = false ∧ (getPair t p).deadA = false ∧ (getPair t p).deadB = false ∧
       (∀ b, b ≠ a → getReg t b = getReg s b) ∧ t.mem = s.mem ∧ ∀ r, r ≠ p.val → getPair t r = getPair s r) ∧
     (q.wantA = false ∧ q.wantB = true ∧ getB s a pwmPstat_Alv = false → ∃ t, exec (.deadTimeEnd p) s = .next t ∧
       getB t a pwmPstat_Alv = false ∧ getB t a pwmPstat_Blv = true ∧ (getPair t p).deadA = false ∧ (getPair t p).deadB = false ∧
       (∀ b, b ≠ a → getReg t b = getReg s b) ∧ t.mem = s.mem ∧ ∀ r, r ≠ p.val → getPair t r = getPair s r))

/-- TRIP_INPUT_ACTIVE (R288, R300): a level that stays for FLENM1 + 1 samples passes the filter, a shorter one does not; where it is the
level that POL calls active, the filtered line of an enabled input sets LEVEL and SEEN, and event 0x0A01 is reported with its class
and masks; where that class is 0, every pair its masks name has latched a trip with cause PIN, which outlives the line when MODE is
LATCH. TRIP_INPUT_INACTIVE (R288, R289): the other level through the same filter; LEVEL alone goes back.
The model's own choices in it: assumption log 11, 23, 69. -/
def Obligations.TripInputLatchesPairs : Prop :=
  (∀ (s : State) (k : Fin 16) (level : Bool) (samples : BitVec 13), getF s (pwmTripctl k) pwmTripctl_Flenm1 + 1 ≤ samples.toNat →
    level = !getB s (pwmTripctl k) pwmTripctl_Pol →
    getB s (pwmTripctl k) pwmTripctl_En = true → getFbit s pwmTripstat pwmTripstat_Level k = false →
    RecorderRoom s 0 1 →
    let cls := getF s (pwmTripctl k) pwmTripctl_Class
    let named (p : Nat) : Bool := if p < 32 then getFbit s (pwmTripmaskl k) pwmTripmaskl_Pairs p else getFbit s (pwmTripmaskh k) pwmTripmaskh_Pairs (p - 32)
    ∃ t, exec (.tripInputActive k level samples) s = .next t ∧
      getFbit t pwmTripstat pwmTripstat_Level k = true ∧ getFbit t pwmTripstat pwmTripstat_Seen k = true ∧
      Reported t 0x0A01 cls 0 [pw k, getReg s (pwmTripmaskl k), getReg s (pwmTripmaskh k)] ∧
      (cls = 0 → ∀ p < 48, named p = true → getB t (pwmPstat p) pwmPstat_Pin = true ∧ getB t (pwmPstat p) pwmPstat_Tripped = true ∧
        (getB s (pwmTripctl k) pwmTripctl_Mode = false → (getPair t p).pinHeld = true))) ∧
  (∀ (s : State) (k : Fin 16) (level : Bool) (samples : BitVec 13), getF s (pwmTripctl k) pwmTripctl_Flenm1 + 1 ≤ samples.toNat →
    level = getB s (pwmTripctl k) pwmTripctl_Pol → ∃ t, exec (.tripInputInactive k level samples) s = .next t ∧
    (∀ i < 16, getFbit t pwmTripstat pwmTripstat_Level i = if i = k.val then false else getFbit s pwmTripstat pwmTripstat_Level i) ∧
    (∀ a, a ≠ pwmTripstat → getReg t a = getReg s a) ∧ t.pairs = s.pairs ∧ t.mem = s.mem) ∧
  (∀ (s : State) (k : Fin 16) (level : Bool) (samples : BitVec 13), samples.toNat < getF s (pwmTripctl k) pwmTripctl_Flenm1 + 1 →
    exec (.tripInputActive k level samples) s = .next s ∧ exec (.tripInputInactive k level samples) s = .next s)

/-! ## Cell link -/

/-- The start-up of a chain (R307, R308, R312): IDLE, then ENUM; the ACKs of CONFIG lead to RATE; the same records at the new rate
lead to ECHO; the ACKs of TIMING lead to RUN, with RST latched and event 0x0B01, where the checks of R314 hold then, else to FAULT with
0x0B0B (R311); another number of ACKs than cells leads nowhere; 100 ms after FAULT an enabled port starts anew. While the tick is lost
the port sends IDLE in place of its frames (R325).
The model's own choices in it: assumption log 24, 71. -/
def Obligations.ChainStartUpSteps : Prop :=
  ∀ (s : State) (n : Fin 48), let x := getPort s n
    let sends (t : State) (tx : Tx) : Prop := (getPort t n).tx = if s.dev.tickLost then .idle else tx
    (x.step = 1 → ∃ t, exec (.clTrainEnd n) s = .next t ∧ (getPort t n).step = 2 ∧ sends t .enum ∧ portState t n = 1 ∧ t.mem = s.mem ∧
      (getPort t n).line = if s.dev.tickLost then clIdle else linkFrame 0 [0]) ∧
    (∀ acks : Fin 32, acks.val ≠ x.recs.length → exec (.clAckReceived n acks) s = .next s) ∧
    (∀ acks : Fin 32, acks.val = x.recs.length → x.step = 3 → ∃ t, exec (.clAckReceived n acks) s = .next t ∧ (getPort t n).step = 4 ∧ sends t .rate ∧ portState t n = 3) ∧
    (∀ recs, x.step = 4 → recs = x.recs → x.tgt < 4 → ∃ t, exec (.clRateRelock n recs) s = .next t ∧ (getPort t n).step = 5 ∧
      sends t .echo ∧ portState t n = 4 ∧ getF t (clnkPstat n) clnkPstat_Rate = x.tgt) ∧
    (∀ acks : Fin 32, acks.val = x.recs.length → x.step = 6 → timingNow s n = true → RecorderRoom s (portPol s n) 1 → ∃ t, exec (.clAckReceived n acks) s = .next t ∧ (getPort t n).step = 7 ∧ portState t n = 5 ∧
      getB t (clnkPstat n) clnkPstat_Rst = true ∧ getB t (clnkPstat n) clnkPstat_Tripped = true ∧
      (∀ p < x.recs.length, p < 24 → getF t (clnkCellinfo (24 * n + p)) clnkCellinfo_State = if (getCell s (24 * n + p)).byp then 3 else 2) ∧
      Noted t 0x0B01 (portPol s n) [pw n, pw x.recs.length, pw (getF s (clnkPstat n) clnkPstat_Rate)]) ∧
    (∀ acks : Fin 32, acks.val = x.recs.length → x.step = 6 → timingNow s n = false → ∃ t, exec (.clAckReceived n acks) s = .next t ∧
      (getPort t n).step = 0 ∧ FaultHeld t 0x0B0B 2 (portPol s n) (pw n)) ∧
    (portState s n = 6 → getB s (clnkPcfg n) clnkPcfg_En = true → ∃ t, exec (.clFaultRestart n) s = .next t ∧ (getPort t n).step = 1 ∧
      (getPort t n).tx = .idle ∧ portState t n = 1 ∧ getF t (clnkPstat n) clnkPstat_Rate = 0 ∧ (getPort t n).recs = [])

/-- CL_DISC_RECEIVED (R306, R307, R309, R310): records with a wrong CRC are no answer; a chain of NMIN to NEXP cells goes on to CONFIG at the lowest of RMAX and the cells' rates,
with its records, the features common to all of them, and their serial numbers in CELLSER; one below NEXP is reported as 0x0B03; any
other length ends the start-up with 0x0B02.
CL_ECHO_ANSWER (R307, R311, R314): an answer is counted; with the sixteenth of the last position the WAIT values follow from the
delays, and the chain goes on to TIMING when both times of R314 fit, else it enters FAULT with 0x0B0B.
CL_STEP_TIMEOUT (R308): a step is repeated twice; the third failure of step 4 or 5 falls back to CONFIG at the next lower rate with
event 0x0B09; of any other step, or at 250 MBd, it ends in FAULT with 0x0B02.
The model's own choices in it: assumption log 24, 71. -/
def Obligations.DiscoveryEchoAndTimeouts : Prop :=
  (∀ (s : State) (n : Fin 48) (recs : List (BitVec 128)), (getPort s n).step = 2 →
     (recs.all discOk = false → exec (.clDiscReceived n recs) s = .next s) ∧
     (recs.all discOk = true →
     let len := recs.length
     let lo := getF s (clnkPcfg n) clnkPcfg_Nmin
     let hi := getF s (clnkPcfg n) clnkPcfg_Nexp
     (lo ≤ len ∧ len ≤ hi → len ≤ 24 → ∃ t, exec (.clDiscReceived n recs) s = .next t ∧ (getPort t n).step = 3 ∧
       (getPort t n).tx = (if s.dev.tickLost then .idle else .config) ∧ (getPort t n).recs = recs ∧ (getPort t n).feats = recs.foldl (fun m r => m &&& discFeat r) 255 ∧
       (∀ r ∈ recs, (getPort t n).tgt ≤ discRate r) ∧ (getPort t n).tgt ≤ getF s (clnkPcfg n) clnkPcfg_Rmax ∧
       (len < hi → FaultHeld t 0x0B03 1 (portPol s n) (pw n)) ∧
       (∀ p r, recs[p]? = some r → getReg t (clnkCellser (24 * n + p)) = discSerial r)) ∧
     (len < lo ∨ hi < len → ∃ t, exec (.clDiscReceived n recs) s = .next t ∧ (getPort t n).step = 0 ∧
       FaultHeld t 0x0B02 2 (portPol s n) (pw n)))) ∧
  (∀ (s : State) (n : Fin 48) (p : Fin 24) (rt : Nat), (getPort s n).step = 5 → p.val < (getPort s n).recs.length →
     let x := getPort s n
     let r := cellGet (0, 0) x.echo p
     let y := { x with echo := cellPut x.echo p (r.1 + rt, r.2 + 1) }
     let tb := symbolNs (getF s (clnkPstat n) clnkPstat_Rate)
     let tdn := chainDelays y tb
     let len := x.recs.length
     let sum := tdn.getLastD 0 - 6 * (len - 1) * tb
     let da := 5 * getF s (clnkDapply (portPol s n)) clnkDapply_Dapply
     let last : Prop := ∀ q < len, 16 ≤ (cellGet (0, 0) y.echo q).2
     (¬ last → ∃ t, exec (.clEchoAnswer n p rt) s = .next t ∧ (getPort t n).echo = y.echo ∧ (getPort t n).step = 5 ∧ t.regs = s.regs ∧
       t.mem = s.mem ∧ (s.dev.tickLost = false → (getPort t n).tx = .echo ∧ (getPort t n).line = linkFrame 3 [echoNext y])) ∧
     (last → ∃ t, exec (.clEchoAnswer n p rt) s = .next t ∧ (getPort t n).tdn = tdn ∧ (getPort t n).wait = tdn.map (fun d => (da : Int) - d) ∧
       if tarrNs len tb sum + 200 ≤ da ∧ tretNs len tb sum + 1000 ≤ 10 * period s then
         (getPort t n).step = 6 ∧ (getPort t n).tx = (if s.dev.tickLost then .idle else .timing)
       else (getPort t n).step = 0 ∧ FaultHeld t 0x0B0B 2 (portPol s n) (pw n))) ∧
  (∀ (s : State) (n : Fin 48), let x := getPort s n
     2 ≤ x.step → x.step ≤ 6 →
     (x.tries < 2 → ∃ t, exec (.clStepTimeout n) s = .next t ∧ (getPort t n).tries = x.tries + 1 ∧ (getPort t n).step = x.step ∧
       t.regs = s.regs ∧ t.mem = s.mem) ∧
     (2 ≤ x.tries → (x.step = 4 ∨ x.step = 5) → x.tgt ≠ 0 → RecorderRoom s (portPol s n) 1 →
       ∃ t, exec (.clStepTimeout n) s = .next t ∧ (getPort t n).step = 3 ∧ (getPort t n).tgt = x.tgt - 1 ∧ (getPort t n).tx = (if s.dev.tickLost then .idle else .config) ∧
         (getPort t n).tries = 0 ∧ Noted t 0x0B09 (portPol s n) [pw n, pw (x.tgt - 1)]) ∧
     (2 ≤ x.tries → (x.tgt = 0 ∨ (x.step ≠ 4 ∧ x.step ≠ 5)) → ∃ t, exec (.clStepTimeout n) s = .next t ∧ (getPort t n).step = 0 ∧
       FaultHeld t 0x0B02 2 (portPol s n) (pw n)))

/-- The cells of a running port (R306, R316, R320, R323, R332): a frame with a bad header changes no cell and no register; the slots come
in the order ORIG down to 0; a valid one is kept as its cell's last status, a slot with a bad CRC is marked, a missing one changes nothing of the cell; MISSLIM invalid slots make a cell LOST with 0x0B04, 64 valid ones end that; while
SAFE is latched, and in isolation while the ticks run, the lane sends INH (R468); the self-test rotation goes to the next comparator of its list; a comparator without a pass for
24 h is reported as 0x0B08.
The model's own choices in it: assumption log 24, 59, 70. -/
def Obligations.CellStatusAndSelfTest : Prop :=
  (∀ (s : State) (n : Fin 48) (head : BitVec 40) (hcrc : BitVec 16) (slots : List SlotRx), stsHeadOk (getPort s n) head hcrc = false →
    ∃ t, exec (.stsFrame n head hcrc slots) s = .next t ∧ t.cells = s.cells ∧ t.regs = s.regs ∧ t.mem = s.mem ∧
      ∀ q, q ≠ n.val → getPort t q = getPort s q) ∧
  (∀ (s : State) (n : Fin 48) (head : BitVec 40) (hcrc : BitVec 16) (slots : List SlotRx), stsHeadOk (getPort s n) head hcrc = true → portState s n = 5 →
    (getPort s n).recs.length ≤ 24 → ∃ t, exec (.stsFrame n head hcrc slots) s = .next t ∧ t.mem = s.mem ∧ ∀ p < (getPort s n).recs.length, let i := 24 * n.val + p
      match if p ≤ stsOrig head then slots.getD (stsOrig head - p) .missing else .missing with
      | .missing => getCell t i = getCell s i
      | .slot bits crc =>
        if crc16 (beBytes 20 bits.toNat) = crc.toNat then (getCell t i).rx = .good ∧ (getCell t i).last = bits
        else getCell t i = { getCell s i with rx := .bad }) ∧
  (∀ (s : State) (i : Fin 1152), (getCell s i).lost = false → portState s (i / 24) = 5 →
    getF s (clnkPcfg (i / 24)) clnkPcfg_Misslim ≤ (getCell s i).misses →
    ∃ t, exec (.cellLost i) s = .next t ∧ getCell t i = { getCell s i with lost := true } ∧ FaultHeld t 0x0B04 1 (portPol s (i / 24)) (pw i)) ∧
  (∀ (s : State) (i : Fin 1152), (getCell s i).lost = true → 64 ≤ (getCell s i).good →
    ∃ t, exec (.cellReturn i) s = .next t ∧ getCell t i = { getCell s i with lost := false } ∧
      getF t (clnkCellinfo i) clnkCellinfo_State = (if (getCell s i).byp then 3 else if (getCell s i).wdog then 5 else 2) ∧
      (∀ a, a ≠ clnkCellinfo i → getReg t a = getReg s a) ∧ t.mem = s.mem) ∧
  (∀ (s : State) (n : Fin 48), (getB s (clnkPstat n) clnkPstat_Safe = true ∨
      (s.dev.tickRun = true ∧ portPol s n ∈ s.flt.isol ∧ inReset s (portPol s n) = false)) → (getPort s n).tx ≠ .nothing →
    ∃ t, exec (.inhRepeat n) s = .next t ∧ getPort t n = { getPort s n with tx := .inh, line := clInh } ∧ t.regs = s.regs ∧ t.mem = s.mem) ∧
  (∀ (s : State) (n : Fin 48), getB s clnkTstcfg clnkTstcfg_En = true → portState s n = 5 →
    getF s clnkTstcfg clnkTstcfg_Gap ≤ (getPort s n).gap → ∃ t, exec (.selftestStep n) s = .next t ∧ (getPort t n).gap = 0 ∧
      t.regs = s.regs ∧ (rotList s n ≠ [] → (getPort t n).testPend = true ∧ (getPort t n).rot ∈ rotList s n ∧
        ((getPort s n).rotKeep = false → ∀ r ∈ rotList s n, (getPort s n).rot < r →
          (getPort s n).rot < (getPort t n).rot ∧ (getPort t n).rot ≤ r))) ∧
  (∀ (s : State) (i : Fin 1152) (k : Fin 8), getF s (clnkCellinfo i) clnkCellinfo_State = 2 → cellFeat s i 2 = true → (k.val < 4 ∨ cellFeat s i 6 = true) →
    (cellGet (0, 0) (getCell s i).pass k).2 + 86400000000000 ≤ s.time → cellGet 0 (getCell s i).noted k + 86400000000000 ≤ s.time →
    ∃ t, exec (.selftestPassTimeout i k) s = .next t ∧ FaultHeld t 0x0B08 1 (portPol s (i / 24)) (pw i) ∧
      cellGet 0 (getCell t i).noted k = s.time)

/-! ## Encoders, converters, comparators -/

/-- An enabled encoder (R249–R254): a line's new level that stays for FILT samples counts by one, up where A leads B, DIR inverting that,
and a shorter one has no effect; an event on both lines is counted and does not count, its third within 64 ticks is a fault 0x0C02; the
first accepted index edge sets ZREF, a later one is checked against it and a difference noted as 0x0C03; the observer locks after 64
ticks in a row of small errors.
The model's own choices in it: assumption log 18, 32. -/
def Obligations.EncoderCountsAndChecks : Prop :=
  ∀ (s : State) (n : Fin 4) (samples : BitVec 8), getB s (encCtl n) encCtl_En = true →
    let others (t : State) (a : Nat) : Prop := (∀ b, b ≠ a → getReg t b = getReg s b) ∧ t.mem = s.mem
    let pos := getReg s (encCount n) + getReg s (encCorr n)
    let now := s.tick.count.toNat
    let x := getEnc s n
    let recent := (x.recent.filter fun t => decide (now < t + 64)) ++ [now]
    (samples.toNat < getF s (encCtl n) encCtl_Filt → (∀ b v, exec (.encCount n b v samples) s = .next s) ∧
      exec (.encDoubleEvent n samples) s = .next s ∧ ∀ d, exec (.encIndexEdge n d samples) s = .next s) ∧
    (getF s (encCtl n) encCtl_Filt ≤ samples.toNat →
      (∀ v, v ≠ x.lineA → ∃ t, exec (.encCount n false v samples) s = .next t ∧ others t (encCount n) ∧
        (getEnc t n).lineA = v ∧ (getEnc t n).lineB = x.lineB ∧
        getReg t (encCount n) = (if decide (v ≠ x.lineB) = getB s (encCtl n) encCtl_Dir then getReg s (encCount n) - 1 else getReg s (encCount n) + 1)) ∧
      (∀ v, v ≠ x.lineB → ∃ t, exec (.encCount n true v samples) s = .next t ∧ others t (encCount n) ∧
        (getEnc t n).lineA = x.lineA ∧ (getEnc t n).lineB = v ∧
        getReg t (encCount n) = (if decide (v = x.lineA) = getB s (encCtl n) encCtl_Dir then getReg s (encCount n) - 1 else getReg s (encCount n) + 1)) ∧
      (∃ t, exec (.encDoubleEvent n samples) s = .next t ∧ t.mem = s.mem ∧ getReg t (encCount n) = getReg s (encCount n) ∧
        (getEnc t n).doubles = x.doubles + 1 ∧ (getEnc t n).lineA = !x.lineA ∧ (getEnc t n).lineB = !x.lineB ∧
        getB t (encStat n) encStat_Double = true ∧
        getF t (encDblcnt n) encDblcnt_Count = min 65535 (getF s (encDblcnt n) encDblcnt_Count + 1) ∧
        (3 ≤ recent.length → getB s (encStat n) encStat_Degr = false →
          getB t (encStat n) encStat_Degr = true ∧ FaultHeld t 0x0C02 1 (resPol s (resEnc n)) (pw n))) ∧
      (getF s (encCtl n) encCtl_Zmode = 1 → getB s (encStat n) encStat_Zseen = false →
        ∃ t, exec (.encIndexEdge n false samples) s = .next t ∧ getReg t (encZref n) = pos ∧ getB t (encStat n) encStat_Zseen = true ∧ t.mem = s.mem) ∧
      (getF s (encCtl n) encCtl_Zmode = 1 → getB s (encStat n) encStat_Zseen = true → RecorderRoom s (resPol s (resEnc n)) 1 →
        let off := (pos - getReg s (encZref n)).toInt % (max 1 (getF s (encCpr n) encCpr_Cpr) : Nat)
        ∃ t, exec (.encIndexEdge n false samples) s = .next t ∧ t.mem = s.mem ∧ getReg t (encZref n) = getReg s (encZref n) ∧
          (off ≠ 0 → Noted t 0x0C03 (resPol s (resEnc n)) [pw n, BitVec.ofInt 32 off]))) ∧
    (64 ≤ x.run → ∃ t, exec (.encObserverLock n) s = .next t ∧ getB t (encStat n) encStat_Lock = true ∧ others t (encStat n))

/-- SLOT_RESULT_READY (R342, R346, R350–R353, R363): from the first complete tick on the result of an enabled slot is the mean of its conversions, or the
triangular weighting, scaled by 2^18 and rounded half up, 0 while the group calibrates; it goes to the engine word of its one
destination. A conversion is the voltage in nV times gain and 4,096 per V, rounded and limited to 14 bits, corrected by the SCAL word of
its slice, which changes nothing where that word is 0.
The model's own choices in it: assumption log 33. -/
def Obligations.SlotResultIsDelivered : Prop :=
  ∀ (s : State) (g : Fin 8) (j : Fin 32) (volts : List (BitVec 40 × Bool)),
    let p := resPol s (resSlot g j)
    let dst := getF s (acqDest g j 0) acqDest_Target
    let e := dst / 524288
    let codes := (slotCodes s g j (volts.map fun v => v.1.toInt)).1
    let v := if (getGrp s g).calibrating then 0 else slotValue (getB s (acqSlot g j) acqSlot_Filt) codes
    s.dev.tickRun = true → s.tick.whole = true → getB s (acqSlot g j) acqSlot_En = true → getB s (acqGctl g) acqGctl_En = true →
    volts.length = 2 ^ getF s (acqSlot g j) acqSlot_Osrc → inReset s p = false →
    getB s (acqDest g j 0) acqDest_En = true → getB s (acqDest g j 0) acqDest_Kind = false → getB s (acqDest g j 0) acqDest_Statw = false →
    (∀ d, 1 ≤ d → d < 4 → getB s (acqDest g j d) acqDest_En = false) → groupOf s e = none →
    ∃ t, exec (.slotResultReady g j volts) s = .next t ∧ rdWord t (dmWord e (dst % 32768)) = v ∧
      MemoryKept s t (dmWord e (dst % 32768)) (dmWord e (dst % 32768) + 4) ∧
      (∀ l : List Int, codes = l → getB s (acqSlot g j) acqSlot_Filt = false → (getGrp s g).calibrating = false →
        v = sat32Word ((2 * (l.sum * 262144) + l.length) / (2 * l.length))) ∧
      ((∀ i < 5, getReg s (acqScal g i) = 0) → codes = volts.map fun x =>
        max (-8192) (min 8191 ((2 * (x.1.toInt * 2 ^ getF s (acqSlot g j) acqSlot_Gain * 4096) + 1000000000) / 2000000000)))

/-- Converter groups and comparators (R345–R349, R355–R357, R360): what the spare converted gives its estimates, which SCAL then holds; within
the limits they put the spare in service, beyond them they retire it; a failing active slice is replaced at the edge, or, with the spare gone
or bound for another, the group is INVALID; the end of the initial calibration sets CALRDY and SCAL of all five slices; a voltage beyond a threshold is outside, one within by the hysteresis is inside, any other as before; NOW shows it, and
the first one outside latches the comparator and every pair that names it; XN mismatch ticks in
a row make a comparator SUSPECT.
The model's own choices in it: assumption log 33, 76. -/
def Obligations.ConvertersAndComparators : Prop :=
  (∀ (s : State) (g : Fin 8) (est : SliceCal), s.dev.tickRun = true → getB s (acqGctl g) acqGctl_En = true →
    getB s (acqGctl g) acqGctl_Calen = true → getB s (acqGstat g) acqGstat_Calrdy = true → getB s (acqGstat g) acqGstat_Degr = false →
    getF s (acqGctl g) acqGctl_Calt ≤ (getGrp s g).ticks → getF s (acqGstat g) acqGstat_Spare < 5 →
    let sp := getF s (acqGstat g) acqGstat_Spare
    ∃ t, exec (.calibrationSwap g est) s = .next t ∧ t.mem = s.mem ∧ getReg t (acqScal g sp) = estWord (estimates est) ∧
      (if estimateBad (estimates est) = true then FaultHeld t 0x0801 1 0 (pw g) ∧ getB t (acqGstat g) acqGstat_Degr = true
       else getF t (acqGstat g) acqGstat_Spare = (sp + 1) % 5 ∧
        (getGrp t g).active = (getGrp s g).active.map (fun a => if a = (sp + 1) % 5 then sp else a) ∧ (getGrp t g).ticks = 0)) ∧
  (∀ (s : State) (g : Fin 8) (i : Fin 5) (est : BitVec 32), getB s (acqGctl g) acqGctl_En = true → (getGrp s g).calibrating = false →
    i.val ∈ (getGrp s g).active →
    (getB s (acqGstat g) acqGstat_Degr = false → (getGrp s g).replace = none → ∃ t, exec (.sliceMonitorFail g i est) s = .next t ∧
      (getGrp t g).replace = some (i.val, est) ∧ t.regs = s.regs ∧ t.mem = s.mem) ∧
    (((getGrp s g).replace.map fun r => r.1) ≠ some i.val → (getB s (acqGstat g) acqGstat_Degr = true ∨ (getGrp s g).replace.isSome = true) →
      getB s (acqGstat g) acqGstat_Invalid = false →
      ∃ t, exec (.sliceMonitorFail g i est) s = .next t ∧ getB t (acqGstat g) acqGstat_Invalid = true ∧ FaultHeld t 0x0802 2 0 (pw g))) ∧
  (∀ (s : State) (g : GroupCal), let k := g.group
    let est (i : Nat) : Int × Int × Int := estimates (g.slices.getD i ⟨[], [], [], []⟩)
    (getGrp s k).calibrating = true → ∃ t, exec (.acqCalibrationDone g) s = .next t ∧ (getGrp t k).calibrating = false ∧
      getB t (acqGstat k) acqGstat_Calrdy = true ∧ t.mem = s.mem ∧
      (∀ i < 5, getReg t (acqScal k i) = estWord (est i)) ∧
      (if (List.range 5).all (fun i => !estimateBad (est i)) = true then RecorderRoom s 0 1 → Noted t 0x0805 0 [pw k]
       else getB t (acqGstat k) acqGstat_Degr = true ∨ getB t (acqGstat k) acqGstat_Invalid = true)) ∧
  (∀ (s : State) (c : Fin 32) (v : BitVec 40), getB s (cmpCtl c) cmpCtl_En = true →
    let hi : Int := ((getF s (cmpThr c) cmpThr_Hi : Int) - 512) * 3906250
    let lo : Int := ((getF s (cmpThr c) cmpThr_Lo : Int) - 512) * 3906250
    let h : Int := getF s (cmpCtl c) cmpCtl_Hyst * 2000000
    let outside := if hi < v.toInt ∨ v.toInt < lo then true else if lo + h < v.toInt ∧ v.toInt < hi - h then false
      else getB s (cmpStat c) cmpStat_Now
    ∃ t, exec (.comparatorRawChange c v) s = .next t ∧ getB t (cmpStat c) cmpStat_Now = outside ∧ t.mem = s.mem ∧
      getB t (cmpStat c) cmpStat_Latch = (outside || getB s (cmpStat c) cmpStat_Latch) ∧
      (outside = true → getB s (cmpStat c) cmpStat_Latch = false → ∀ p < 48, getFbit s (pwmPctrip p) pwmPctrip_Mask c = true →
        getB t (pwmPstat p) pwmPstat_Cmp = true ∧ (getB s (pwmPstat p) pwmPstat_Cmp = false → getB t (pwmPstat p) pwmPstat_Tripped = true))) ∧
  (∀ (s : State) (c : Fin 32), getB s (cmpXcfg c) cmpXcfg_Xen = true → getF s (cmpXcfg c) cmpXcfg_Xn ≤ (getCmp s c).run →
    getB s (cmpStat c) cmpStat_Suspect = false → ∃ t, exec (.comparatorSuspect c) s = .next t ∧
      getB t (cmpStat c) cmpStat_Suspect = true ∧ FaultHeld t 0x0902 1 (resPol s (resCmp c)) (pw c) ∧ t.mem = s.mem)

/-! ## Metrology die -/

/-- The calibration port of a running die (R306, R387–R391): READ answers the committed value; WRITE keeps a value in its range pending while
the seal is broken, answers 0x02 out of range, 0x03 with the seal intact, 0x01 for no parameter; COMMIT is taken for the next window start
while the rules of R376 hold and the log has room; DISCARD forgets what is pending; IDENT and READLOG answer the program version and a log
word; every answer carries its CRC, and a request with a wrong CRC is not answered.
The model's own choices in it: assumption log 34. -/
def Obligations.CalibrationPortAnswers : Prop :=
  ∀ (s : State) (pid : BitVec 16) (idx : BitVec 8) (v : BitVec 32) (crc : BitVec 16), s.met.on = true → s.dev.ca = false →
    let good (cmd : Nat) : Prop := crc16 ([cmd] ++ beBytes 2 pid.toNat ++ [idx.toNat] ++ beBytes 4 v.toNat) = crc.toNat
    let known := decide (idx.toNat < metCount pid.toNat)
    let sealed (r : CalResp) : Prop := r.crc = crc16 ([r.status] ++ beBytes 2 r.pid ++ [r.idx] ++ beBytes 4 r.value.toNat)
    let answered (t : State) (status : Nat) : Prop := ∃ r, t.met.resp = some r ∧ r.status = status ∧ r.pid = pid.toNat ∧ r.idx = idx.toNat ∧ sealed r
    let gives (t : State) (w : Word) : Prop := ∃ r, t.met.resp = some r ∧ r.status = 0 ∧ r.pid = pid.toNat ∧ r.idx = idx.toNat ∧ r.value = w ∧ sealed r
    let params (t : State) : Prop := t.met.params = s.met.params ∧ t.met.log = s.met.log ∧ t.met.keep = s.met.keep ∧ t.regs = s.regs ∧ t.mem = s.mem
    (good 1 → ∃ t, exec (.read pid idx v crc) s = .next t ∧ params t ∧ t.met.pend = s.met.pend ∧
      if known then gives t (metPar s.met pid.toNat idx.toNat) else answered t 1) ∧
    (good 2 → ∃ t, exec (.write pid idx v crc) s = .next t ∧ params t ∧
      if known = true ∧ s.met.broken = true ∧ metRange s.met pid.toNat idx.toNat v = true then
        answered t 0 ∧ metNext t.met pid.toNat idx.toNat = v ∧ ∀ q k, metKey q k ≠ metKey pid.toNat idx.toNat → metNext t.met q k = metNext s.met q k
      else t.met.pend = s.met.pend ∧ answered t (if known = false then 1 else if s.met.broken then 2 else 3)) ∧
    (good 3 → ∃ t, exec (.commit pid idx v crc) s = .next t ∧ params t ∧ t.met.pend = s.met.pend ∧
      if s.met.broken = true ∧ ptRules s.met = true ∧ s.met.log.length + (metChanges s.met).length ≤ 1024 then
        t.met.commitAsked = some (pid.toNat, idx.toNat)
      else answered t (if s.met.broken = false then 3 else if ptRules s.met = false then 2 else 4)) ∧
    (good 4 → ∃ t, exec (.discard pid idx v crc) s = .next t ∧ params t ∧ t.met.pend = [] ∧ answered t 0) ∧
    (good 5 → ∃ t, exec (.ident pid idx v crc) s = .next t ∧ params t ∧
      (pid = 0 → gives t (BitVec.ofNat 32 s.met.ver)) ∧ (pid = 1 → gives t s.met.romCrc) ∧
      (pid = 2 → gives t s.met.serial) ∧ (2 < pid.toNat → answered t 1)) ∧
    (good 6 → ∃ t, exec (.readlog pid idx v crc) s = .next t ∧ params t ∧ (1023 < pid.toNat ∨ 7 < idx.toNat → answered t 1) ∧
      ∀ r, s.met.log[pid.toNat]? = some r → pid.toNat ≤ 1023 → idx.toNat ≤ 7 → gives t (r.getD idx.toNat 0)) ∧
    (∀ (c : Instr) (k : Nat), (k, c) ∈ [(1, Instr.read pid idx v crc), (2, .write pid idx v crc), (3, .commit pid idx v crc), (4, .discard pid idx v crc),
        (5, .ident pid idx v crc), (6, .readlog pid idx v crc)] → ¬good k →
      ∃ t, exec c s = .next t ∧ t.met = { s.met with resp := none } ∧ t.regs = s.regs ∧ t.mem = s.mem) ∧
    (s.met.commitAsked = none → ∃ t, exec .calRequestGap s = .next t ∧ t.met = { s.met with resp := none } ∧ t.regs = s.regs ∧ t.mem = s.mem)

/-- MET_WINDOW_END (R369, R370, R384, R389, R391): the window counters advance, and the retained state has a new copy beside the last one; a
commit that was asked for and still keeps the rules of R376 and the log's room takes effect as a whole, every change is logged, nothing stays
pending, and it is answered; one that no longer does is refused as a whole (assumption log 72); without one no parameter changes. With NVERR or XTALF no energy is accumulated. MET_PULSE (R382): one of the scheduled pulses is sent.
The mailbox (R31, R370, R395, R398): a frame with a good CRC puts its words into the mailbox registers and sets LINK, one with a bad CRC only
counts; a die that is off, or has had no window yet, sends none; 600 ms without a valid frame clear LINK and report 0x1301.
The model's own choices in it: assumption log 18, 34, 72. -/
def Obligations.MetWindowsAndMailbox : Prop :=
  ((∀ (s : State) (volts : List (List (BitVec 40))), s.met.on = true → s.dev.ca = false → (s.met.pend.map fun c => c.1).Nodup →
     ∃ t, exec (.metWindowEnd volts) s = .next t ∧ t.met.seq = (s.met.seq + 1) % 2 ^ 32 ∧ t.met.keep.windows = s.met.keep.windows + 1 ∧
       t.met.firstWin = false ∧ t.regs = s.regs ∧ t.mem = s.mem ∧ t.met.commitAsked = none ∧
       t.met.copyNew = t.met.keep ∧ t.met.copyOld = s.met.copyNew ∧
       (∀ pid idx, s.met.commitAsked = some (pid, idx) →
         let fits : Prop := ptRules s.met = true ∧ s.met.log.length + (metChanges s.met).length ≤ 1024
         (∃ r, t.met.resp = some r ∧ r.pid = pid ∧ r.idx = idx ∧ (fits → r.status = 0) ∧
           (¬fits → r.status = if ptRules s.met = false then 2 else 4)) ∧
         (fits → t.met.pend = [] ∧ t.met.log.length = s.met.log.length + (metChanges s.met).length ∧
           ∀ q k, k < 256 → metPar t.met q k = metNext s.met q k) ∧
         (¬fits → t.met.params = s.met.params ∧ t.met.pend = s.met.pend ∧ t.met.log = s.met.log)) ∧
       (s.met.commitAsked = none → t.met.params = s.met.params ∧ t.met.pend = s.met.pend ∧ t.met.log = s.met.log ∧
         (s.met.nverr = true ∨ s.met.xtalf = true → t.met.keep.energy = s.met.keep.energy ∧ t.met.keep.res = s.met.keep.res))) ∧
   (∀ (s : State) (j : Fin 4), s.met.on = true → s.dev.ca = false → cellGet 0 s.met.sched j ≠ 0 → ∃ t, exec (.metPulse j) s = .next t ∧
     cellGet 0 t.met.sched j = cellGet 0 s.met.sched j - 1 ∧ cellGet 0 t.met.sent j = cellGet 0 s.met.sent j + 1 ∧
     t.met.keep = s.met.keep ∧ t.regs = s.regs ∧ t.mem = s.mem)) ∧
  ((∀ (s : State) (ok : Bool), s.met.on = false ∨ s.met.frame = [] → exec (.metFrameReceived ok) s = .next s) ∧
   (∀ s : State, s.met.on = true → s.dev.ca = false → s.met.frame ≠ [] → s.dev.phase ≠ .off → s.dev.phase ≠ .held →
     (s.met.frame.map fun c => c.1).Nodup → (∀ c ∈ s.met.frame, 0x60150000 ≤ c.1 ∧ c.1 < 0x60160000) →
     (∃ t, exec (.metFrameReceived true) s = .next t ∧ getB t mboxStat mboxStat_Link = true ∧ t.met.seen = true ∧ t.mem = s.mem ∧
       ∀ c ∈ s.met.frame, c.1 ≠ mboxStat → getReg t c.1 = c.2) ∧
     (∃ t, exec (.metFrameReceived false) s = .next t ∧ getF t mboxLinkerr mboxLinkerr_Bad = min (fldCard mboxLinkerr_Bad - 1) (getF s mboxLinkerr mboxLinkerr_Bad + 1) ∧
       (∀ a, a ≠ mboxLinkerr → getReg t a = getReg s a) ∧ t.met = s.met ∧ t.mem = s.mem)) ∧
   (∀ s : State, getB s mboxStat mboxStat_Link = true → ∃ t, exec .metLinkTimeout s = .next t ∧ getB t mboxStat mboxStat_Link = false ∧
     FaultHeld t 0x1301 1 0 (getReg s mboxSeq) ∧ t.mem = s.mem))

/-- The metrology die's supply, crystal, seal and optical port (R2, R369, R384–R386, R389, R392–R394): power-up starts from the newest retained
copy that is valid, with NVERR when none is, and counts a seal broken meanwhile; power-down, a crystal fault and its end; the seal counts when it
breaks, and what is pending is discarded when it is intact again; sign-on, option select and its time-out, overload and its end. The compute
die's registers do not change. In a DTN9256-CA none of this has an effect.
The model's own choices in it: assumption log 34, 72, 79. -/
def Obligations.MetrologyDieEvents : Prop :=
  (∀ s : State, s.dev.ca = true → ∀ c : Instr,
    ((∃ a b w, c = .metPowerUp a b w) ∨ (∃ v, c = .metWindowEnd v) ∨ (∃ j, c = .metPulse j) ∨ (∃ a, c = .signOn a) ∨ (∃ p b m, c = .optionSelect p b m) ∨
      (∃ p i v k, c = .write p i v k) ∨ c ∈ [.metPowerDown, .xtalFault, .xtalRecovered, .sealBroken, .sealIntact, .opticalOverload]) →
    exec c s = .next s) ∧
  ∀ s : State, s.dev.ca = false →
    let still (t : State) : Prop := t.regs = s.regs ∧ t.mem = s.mem ∧ t.met.params = s.met.params ∧ t.met.log = s.met.log
    let kept (t : State) : Prop := still t ∧ t.met.keep.energy = s.met.keep.energy ∧ t.met.keep.chg = s.met.keep.chg
    (∀ a b broken, s.met.on = false → ∃ t, exec (.metPowerUp a b broken) s = .next t ∧ still t ∧ t.met.on = true ∧ t.met.broken = broken ∧ t.met.seq = 0 ∧
      t.met.nverr = (s.met.nverr || !(a || b)) ∧ t.met.firstWin = true ∧ t.met.frame = [] ∧
      ∀ k, (a = true ∧ k = s.met.copyNew ∨ a = false ∧ b = true ∧ k = s.met.copyOld) → t.met.keep.energy = k.energy ∧ t.met.keep.chg = k.chg ∧
        t.met.keep.sealcnt = k.sealcnt + (if broken && !k.sealBroken then 1 else 0)) ∧
    (s.met.on = true →
      (∃ t, exec .metPowerDown s = .next t ∧ kept t ∧ t.met.on = false ∧ t.met.pend = [] ∧ t.met.sched = []) ∧
      (∃ t, exec .xtalFault s = .next t ∧ kept t ∧ t.met.xtalf = true ∧ t.met.sched = []) ∧
      (s.met.xtalf = true → ∃ t, exec .xtalRecovered s = .next t ∧ kept t ∧ t.met.xtalf = true ∧ t.met.xtalBack = true) ∧
      (s.met.broken = false → ∃ t, exec .sealBroken s = .next t ∧ kept t ∧ t.met.broken = true ∧ t.met.keep.sealcnt = s.met.keep.sealcnt + 1) ∧
      (s.met.broken = true → ∃ t, exec .sealIntact s = .next t ∧ kept t ∧ t.met.broken = false ∧ t.met.pend = [] ∧ t.met.commitAsked = none ∧
        (s.met.commitAsked ≠ none → ∃ r, t.met.resp = some r ∧ r.status = 3)) ∧
      (s.met.ovl = false → ∃ t, exec (.signOn none) s = .next t ∧ kept t ∧ t.met.selWait = true ∧ t.met.out = .ident) ∧
      (∀ a, s.met.ovl = false → ∃ t, exec (.signOn (some a)) s = .next t ∧ kept t ∧
        if a = s.met.serial.toNat then t.met.selWait = true ∧ t.met.out = .ident else t.met = s.met) ∧
      (∀ proto baud mode, s.met.ovl = false → s.met.selWait = true → ∃ t, exec (.optionSelect proto baud mode) s = .next t ∧ kept t ∧ t.met.selWait = false ∧
        if proto = 0x30 ∧ baud = 0x35 ∧ mode = 0x30 then ∃ l, t.met.out = .readout l (readoutText l) ∧ ([0, 0, 96, 1, 0], some s.met.serial.toNat) ∈ l else t.met.out = .silent) ∧
      (s.met.selWait = true → ∃ t, exec .optionSelectTimeout s = .next t ∧ kept t ∧ t.met.selWait = false ∧ t.met.out = .silent) ∧
      (∃ t, exec .opticalOverload s = .next t ∧ kept t ∧ t.met.ovl = true ∧ t.met.ovlcnt = (s.met.ovlcnt + 1) % 65536 ∧ t.met.selWait = false) ∧
      (∃ t, exec .opticalQuietEnd s = .next t ∧ kept t ∧ t.met.ovl = false))


/-! ## Hosts, the dike, staging -/

/-- REGISTER_READ (R10, R26, R27, R404, R652): a read answers the fields that the polder may read; a read of COUNT_LO answers the low half of the
tick counter and keeps the high half for this source, which its next read of COUNT_HI answers; an rc field is 0 after its read; a
read that no right backs ends with an error and counts a breach.
The model's own choices in it: assumption log 6, 51, 68. -/
def Obligations.RegisterReadsAnswer : Prop :=
  ∀ (s : State) (src : Source) (p : Nat),
    let ran (a : Nat) (t : State) : Prop := exec (.registerRead src (BitVec.ofNat 40 a)) s = .next t
    (HostReady s src p tickPeriod → ∃ t, ran tickPeriod t ∧ Answered t [getReg s tickPeriod &&& 0x3FFF] ∧ t.regs = s.regs ∧ t.mem = s.mem) ∧
    (HostReady s src p tickCountLo → ∃ t, ran tickCountLo t ∧ Answered t [BitVec.ofNat 32 s.tick.count.toNat] ∧ t.regs = s.regs ∧
      t.mem = s.mem ∧ ∀ u : State, u.tick.captures = t.tick.captures → HostReady u src p tickCountHi →
        ∃ v, exec (.registerRead src (BitVec.ofNat 40 tickCountHi)) u = .next v ∧ Answered v [BitVec.ofNat 32 (s.tick.count.toNat / 4294967296)]) ∧
    (∀ q : Fin 8, HostReady s src p (poldBrcnt q) → ∃ t, ran (poldBrcnt q) t ∧ Answered t [getReg s (poldBrcnt q)] ∧
      getReg t (poldBrcnt q) = 0 ∧ (∀ a, a ≠ poldBrcnt q → getReg t a = getReg s a) ∧ t.mem = s.mem) ∧
    (∀ q : Fin 8, mainRuns s = true → s.dev.phase ≠ .recovery → sourcePolder s src = some p → p ≠ 0 →
      ∃ t, ran (poldBrcnt q) t ∧ t.dike.resp.err = true ∧ t.mem = s.mem ∧ getReg t (poldBrcnt q) =
        if q.val = p then BitVec.ofNat 32 (min 4294967295 ((getReg s (poldBrcnt q)).toNat + 1)) else getReg s (poldBrcnt q))

/-- HOST_MEMORY_ACCESS (R25, R27, R45, R401, R402): in a memory segment of its own polder a source reads the words that stand there
and writes exactly the words of its request; in a segment of another polder it ends with an error, counted as a breach; at a reserved address with
an error, counted in UNMAP; a source without a binding with an error, counted in UNBOUND: memory stays.
The model's own choices in it: assumption log 6, 51, 68. -/
def Obligations.MemoryAccessesAreChecked : Prop :=
  ∀ (s : State) (src : Source) (p : Nat) (addr : BitVec 40) (len : BitVec 16) (data : List (BitVec 32)) (ecc : Ecc), mainRuns s = true →
    let a := addr.toNat
    let n := len.toNat
    let seg := resPol s (1024 + (a - 0x70000000) / 0x20000)
    let ran (w : Bool) (l : List (BitVec 32)) (t : State) : Prop := exec (.hostMemoryAccess src w addr len l ecc) s = .next t
    (s.dev.phase ≠ .recovery → sourcePolder s src = some p → placeOf a = .shared → formOk a n = true → inReset s seg = false →
      (seg = p → (∃ t, ran false [] t ∧ Answered t (rdWords s a (n / 4)) ∧ t.mem = s.mem ∧ t.regs = s.regs) ∧
        (data.length = n / 4 → ∃ t, ran true data t ∧ Answered t [] ∧ rdWords t a (n / 4) = data ∧ MemoryKept s t a (a + n) ∧ t.regs = s.regs)) ∧
      (seg ≠ p → ∀ w, ∃ t, ran w (if w then List.replicate (n / 4) 0 else []) t ∧ t.dike.resp.err = true ∧ t.mem = s.mem ∧
        getReg t (poldBrcnt p) = BitVec.ofNat 32 (min 4294967295 ((getReg s (poldBrcnt p)).toNat + 1)))) ∧
    (sourcePolder s src = some p → placeOf a = .reserved → ∀ w, ∃ t, ran w data t ∧ t.dike.resp.err = true ∧ t.mem = s.mem ∧
      getF t sysUnmapHi sysUnmapHi_Count = min 65535 (getF s sysUnmapHi sysUnmapHi_Count + 1)) ∧
    (sourcePolder s src = none → ∀ w, ∃ t, ran w data t ∧ t.dike.resp.err = true ∧ t.mem = s.mem ∧
      getReg t poldUnbound = BitVec.ofNat 32 (min 4294967295 ((getReg s poldUnbound).toNat + 1)))

/-- REGISTER_WRITE (R10, R63, R68): a write of ws fields only stages them for the writing polder; of rw fields takes effect at once; of w1c
fields clears the bits written 1; of ro fields changes nothing: for every register whose write has no action of its own, each bit by the
access code of its field and the polder's right to it, and no other register.
The model's own choices in it: assumption log 6, 51, 68. -/
def Obligations.RegisterWritesByAccessCode : Prop :=
  ∀ (s : State) (src : Source) (p : Nat) (v : BitVec 32),
    let ran (a : Nat) (t : State) : Prop := exec (.registerWrite src (BitVec.ofNat 40 a) v) s = .next t ∧ Answered t [] ∧ t.mem = s.mem
    (∀ addr : BitVec 40, let a := addr.toNat
      placeOf a = .register → a % 4 = 0 → HostReady s src p a → actionMask (blockNo a) (regPlace a).2.1 = 0 →
      (∀ (u : State) (w : Word), regAction u src p a w = (u, false)) →
      ∃ t, exec (.registerWrite src addr v) s = .next t ∧ Answered t [] ∧ t.mem = s.mem ∧ (∀ b, b ≠ seenBy a p → getReg t b = getReg s b) ∧
        ∀ i < 32, (getReg t (seenBy a p)).getLsbD i =
          if (accMask s p a .rw).getLsbD i then v.getLsbD i
          else (getReg s (seenBy a p)).getLsbD i && !((accMask s p a .w1c).getLsbD i && v.getLsbD i)) ∧
    (∀ k : Fin 32, HostReady s src p (pwmCarper k) → ∃ t, ran (pwmCarper k) t ∧ t.regs = s.regs ∧
      (∃ g ∈ t.tick.staged, g.pol = p ∧ g.addr = pwmCarper k ∧ fget g.val pwmCarper_Period = fget v pwmCarper_Period ∧
        fget g.val pwmCarper_Frac = fget v pwmCarper_Frac ∧ fget g.mask pwmCarper_Period = 0xFFFFFF ∧ fget g.mask pwmCarper_Frac = 15) ∧
      ∀ g ∈ s.tick.staged, ¬(g.pol = p ∧ g.addr = pwmCarper k) → g ∈ t.tick.staged) ∧
    (∀ q : Fin 8, HostReady s src p (tickHostcond q) → ∃ t, ran (tickHostcond q) t ∧ getF t (tickHostcond q) tickHostcond_Hc = fget v tickHostcond_Hc ∧
      ∀ a, a ≠ tickHostcond q → getReg t a = getReg s a) ∧
    (HostReady s src p sysRstcause → ∃ t, ran sysRstcause t ∧ getReg t sysRstcause = getReg s sysRstcause &&& ~~~(v &&& 15) ∧
      ∀ a, a ≠ sysRstcause → getReg t a = getReg s a) ∧
    (HostReady s src p tickCountLo → ∃ t, ran tickCountLo t ∧ t.regs = s.regs ∧ t.tick = s.tick)

/-- COMMIT_GO, GCOMMIT_GO and COMMIT_DISCARD of polder `p` (R68, R72, R73): GO asks the next cut-off to form the set of a block with a COMMIT
register, of every block that a GCOMMIT names; DISCARD forgets what the polder has staged in the block, and its REF bit; what others
have staged stays. STALE_STAGE_NOTICE (R71): values that stood for 256 ticks are noted once.
The model's own choices in it: assumption log 11, 46, 51. -/
def Obligations.StagedSetsAreCommittedOrDropped : Prop :=
  (∀ (s : State) (src : Source) (p : Nat) (blk : Fin 23), HostReady s src p (blockCommit blk) → commitBlocks.contains blk.val = true →
    (∃ t, exec (.commitGo src blk) s = .next t ∧ Answered t [] ∧ (cellFind t.tick.stageMeta (metaKey blk p)).map (·.go) = some true ∧
      (∀ k, k ≠ metaKey blk p → cellFind t.tick.stageMeta k = cellFind s.tick.stageMeta k) ∧
      t.regs = s.regs ∧ t.tick.staged = s.tick.staged ∧ t.mem = s.mem) ∧
    (∃ t, exec (.commitDiscard src blk) s = .next t ∧ Answered t [] ∧ stagedOf t blk p = [] ∧ getFbit t (blockStagestat blk) stagestat_Ref p = false ∧
      (∀ g ∈ s.tick.staged, ¬(g.pol = p ∧ blockNo g.addr = blk) → g ∈ t.tick.staged) ∧ t.mem = s.mem)) ∧
  (∀ (s : State) (src : Source) (p : Nat) (blocks : BitVec 24), HostReady s src p tickGcommit →
    ∃ t, exec (.gcommitGo src blocks) s = .next t ∧ Answered t [] ∧
      (∀ b ∈ commitBlocks, blocks.getLsbD (blockCode b - 1) = true → (cellFind t.tick.stageMeta (metaKey b p)).map (·.go) = some true) ∧
      t.regs = s.regs ∧ t.tick.staged = s.tick.staged ∧ t.mem = s.mem) ∧
  (∀ (s : State) (blk : Fin 23) (p : Fin 8) (m : StageMeta), cellFind s.tick.stageMeta (metaKey blk p) = some m → 256 ≤ m.age → m.noticed = false →
    stagedOf s blk p ≠ [] → RecorderRoom s 0 1 → ∃ t, exec (.staleStageNotice blk p) s = .next t ∧
      Noted t (blockCode blk * 0x100 + 0xF0) 0 [pw p] ∧ (cellFind t.tick.stageMeta (metaKey blk p)).map (·.noticed) = some true ∧
      t.regs = s.regs ∧ t.tick.staged = s.tick.staged ∧ t.mem = s.mem)

/-- SYS_PRST and SYS_PRSELF (R37, R41, R42): each polder named, or with the key 0x5A the writer's own, gets a reset request for the next
edge, but one that is in reset or has one keeps it; without the key nothing happens.
TRACE_ARM, TRACE_DISARM, TRACE_FORCE and READMIT (R127, R158): the lane's command waits for the next edge; a retired engine is noted for
readmission to its group, another one is not, nor one while a readmission of its group waits or is seeded (the last is the model's:
assumption log 81).
The model's own choices in it: assumption log 30, 51, 81. -/
def Obligations.ResetRequestsAndLaneCommands : Prop :=
  (∀ (s : State) (src : Source) (p : Nat),
     let asked (t : State) (q : Nat) (c : ResetCause) : Prop := cellFind t.dev.resetReq q =
       if inReset s q = true ∨ (cellFind s.dev.resetReq q).isSome = true then cellFind s.dev.resetReq q else some c
     (∀ mask : BitVec 8, HostReady s src p sysPrst → ∃ t, exec (.sysPrst src mask) s = .next t ∧ Answered t [] ∧
       (∀ q : Fin 8, mask.getLsbD q = true → asked t q .prst) ∧
       (∀ q, (8 ≤ q ∨ mask.getLsbD q = false) → cellFind t.dev.resetReq q = cellFind s.dev.resetReq q) ∧ t.regs = s.regs ∧ t.mem = s.mem) ∧
     (∀ key : BitVec 8, HostReady s src p sysPrself → ∃ t, exec (.sysPrself src key) s = .next t ∧ Answered t [] ∧ t.regs = s.regs ∧ t.mem = s.mem ∧
       (if key = 0x5A then asked t p .prself else t.dev = s.dev))) ∧
  (∀ (s : State) (src : Source) (p : Nat) (e : Fin 256),
     (HostReady s src p (engTrcmd e) → ∀ x ∈ [(Instr.traceArm src e, 1), (.traceDisarm src e, 2), (.traceForce src e, 3)],
       ∃ t, exec x.1 s = .next t ∧ Answered t [] ∧ getLane t e = { getLane s e with cmd := x.2 } ∧
         (∀ d, d ≠ e.val → getLane t d = getLane s d) ∧ t.regs = s.regs ∧ t.mem = s.mem) ∧
     (HostReady s src p (engPlace e) → ∃ t, exec (.readmit src e) s = .next t ∧ Answered t [] ∧ t.regs = s.regs ∧ t.mem = s.mem ∧
       if getB s (engPlace e) engPlace_Retired then
         ∀ k g, groupOf s e = some (k, g) → (∀ j, j ≠ k → getGroup t j = getGroup s j) ∧
           getGroup t k = if (getGroup s k).readmit.isSome || seeding (getGroup s k) then getGroup s k else { getGroup s k with readmit := some e }
       else t.groups = s.groups))

/-- PWM_TRIP_CLEAR and CL_TRIP_CLEAR (R37, R292, R324, R468): each latched cause is cleared only where its source has ended (no active
input, no latched comparator, ticks that run with the polder neither in reset nor isolated, pulse enable back, for a port also its chain in
operation), and TRIPPED stays while a cause stays; a force that waited for the clear of a pair takes effect (R293).
The model's own choices in it: assumption log 23, 51. -/
def Obligations.TripClearsKeepLiveCauses : Prop :=
  ∀ (s : State) (src : Source) (q : Nat),
    let calm (o : Nat) : Bool := s.dev.tickRun && !inReset s o && !s.flt.isol.contains o
    let pen := getB s safeStat safeStat_Pen
    (∀ p : Fin 48, let a := pwmPstat p
      HostReady s src q a → ∃ t, exec (.pwmTripClear src p) s = .next t ∧ Answered t [] ∧ t.mem = s.mem ∧
        getB t a pwmPstat_Pin = (getB s a pwmPstat_Pin && !(activeTrips s p).isEmpty) ∧
        getB t a pwmPstat_Cmp = (getB s a pwmPstat_Cmp && namedCmpSet s p) ∧
        getB t a pwmPstat_Rst = (getB s a pwmPstat_Rst && !calm (resPol s (resPair p))) ∧
        getB t a pwmPstat_Safe = (getB s a pwmPstat_Safe && !pen) ∧
        getB t a pwmPstat_Tripped = (getB t a pwmPstat_Pin || getB t a pwmPstat_Cmp || getB t a pwmPstat_Rst || getB t a pwmPstat_Safe) ∧
        ((getPair s p).forceWait = true → getB t a pwmPstat_Tripped = false →
          (getPair t p).forceWait = false ∧ (getPair t p).force = getF s (pwmPforce p) pwmPforce_Mode) ∧
        (∀ r, r ≠ p.val → getPair t r = getPair s r) ∧
        ∀ b, b ≠ a → b ≠ poldEvdrop (resPol s (resPair p)) → getReg t b = getReg s b) ∧
    (∀ n : Fin 48, let a := clnkPstat n
      HostReady s src q a → ∃ t, exec (.clTripClear src n) s = .next t ∧ Answered t [] ∧ t.mem = s.mem ∧ t.ports = s.ports ∧
        getB t a clnkPstat_Rst = (getB s a clnkPstat_Rst && !(calm (portPol s n) && portState s n == 5)) ∧
        getB t a clnkPstat_Safe = (getB s a clnkPstat_Safe && !pen) ∧
        getB t a clnkPstat_Tripped = (getB t a clnkPstat_Rst || getB t a clnkPstat_Safe) ∧ ∀ b, b ≠ a → getReg t b = getReg s b)

/-- PWM_FORCE (R287, R293): on a carrier that runs the force waits for a carrier event and nothing drives yet; on one that does not, an
untripped pair takes it at once, both outputs low. FCLR, BYPREQ, BYPREL (R328, R333, R334): FCLR goes out in the cell's next
slot; BYPREQ bypasses a cell of the chain; BYPREL ends a bypass only without a closed bypass device, latched faults, or the gate's own request.
The model's own choices in it: assumption log 13, 51. -/
def Obligations.ForcesAndCellControls : Prop :=
  ∀ (s : State) (src : Source) (q : Nat),
    (∀ (p : Fin 48) (m : BitVec 2), HostReady s src q (pwmPforce p) →
      ∃ t, exec (.pwmForce src p m) s = .next t ∧ Answered t [] ∧ t.mem = s.mem ∧ getF t (pwmPforce p) pwmPforce_Mode = m.toNat ∧
        (carRuns s (pairCar s p) = true → getPair t p = { getPair s p with forceWait := true } ∧ getReg t (pwmPstat p) = getReg s (pwmPstat p)) ∧
        (carRuns s (pairCar s p) = false → getB s (pwmPstat p) pwmPstat_Tripped = false → (getPair t p).force = m.toNat ∧ (getPair t p).forceWait = false ∧
          getB t (pwmPstat p) pwmPstat_Fact = decide (m ≠ 0) ∧ getB t (pwmPstat p) pwmPstat_Alv = false ∧ getB t (pwmPstat p) pwmPstat_Blv = false)) ∧
    (∀ i : Fin 1152, HostReady s src q (clnkCellctl i) →
      let others (t : State) : Prop := Answered t [] ∧ t.mem = s.mem ∧ ∀ j, j ≠ i.val → getCell t j = getCell s j
      (∃ t, exec (.fclr src i) s = .next t ∧ others t ∧ getCell t i = { getCell s i with fclr := true } ∧ t.regs = s.regs) ∧
      ((getPort s (i / 24)).recs.length ≤ i % 24 → ∃ t, exec (.bypreq src i) s = .next t ∧ others t ∧ getCell t i = getCell s i ∧ t.regs = s.regs) ∧
      ((getCell s i).byp = false → i % 24 < (getPort s (i / 24)).recs.length → ∃ t, exec (.bypreq src i) s = .next t ∧ others t ∧ getCell t i = { getCell s i with byp := true } ∧
        getF t (clnkCellinfo i) clnkCellinfo_State = 3) ∧
      ((getCell s i).byp = true →
        let held := cellFeat s i 3 || nbits (getCell s i).last.toNat 43 40 != 0 || nbit (cellGet 0 s.win (128 + 4 * i.val + 2)).toNat 0
        ∃ t, exec (.byprel src i) s = .next t ∧ others t ∧ getCell t i = { getCell s i with byp := held } ∧
          (held = true → t.regs = s.regs) ∧
          (held = false → getF t (clnkCellinfo i) clnkCellinfo_State = if (getCell s i).lost then 4 else if (getCell s i).wdog then 5 else 2)))

/-! ## Culvert -/

/-- The culvert's operations (R408, R409, R410, R412): TAKE makes a free page its taker's; RENEW gives the lease anew; RELEASE and UNSEAL free a page under a new
generation, to be zeroed; HANDOFF offers it to the target; ACCEPT takes an offered page under a new generation; CANCEL takes it back;
SEAL seals it. OPRES answers status 0 with the generation; a stale generation is refused with status 2 and counted. No other page
changes, and no memory.
LEASE_EXPIRY (R411): exactly the held pages with lease 0 become free under a new generation, and wait to be zeroed. PAGE_ZEROED
(R412): the first waiting page reads 0 and can be taken; nothing else in memory changes.
The model's own choices in it: assumption log 35, 51. -/
def Obligations.CulvertOperationsMovePages : Prop :=
  (∀ (s : State) (src : Source) (p : Nat) (page : Fin 4096) (gen : BitVec 16), HostReady s src p culvOp →
     let arg := banked culvOparg p
     let lease := if getF s arg culvOparg_Lease = 0 then getF s culvCfg culvCfg_Deflease else getF s arg culvOparg_Lease
     let target := getF s arg culvOparg_Target
     let fresh := gen.toNat = pageGen s page
     let moves (c : Instr) (flag : Word) : Prop := ∃ t, exec c s = .next t ∧ Answered t [] ∧ getReg t (culvFlag page) = flag ∧
       getReg t (banked culvOpres p) = BitVec.ofNat 32 (pageGen t page * 65536 + page.val) ∧
       (∀ a, a ≠ culvFlag page → a ≠ banked culvOpres p → getReg t a = getReg s a) ∧ t.mem = s.mem ∧
       (pageState t page = 0 → t.culv.zeroing = s.culv.zeroing ++ [page.val])
     let g := gen.toNat
     (pageState s page = 0 → pageLease s page = 0 → moves (.take src page gen) (flagWord (pageGen s page) lease 0 p 1)) ∧
     (fresh → pageState s page = 1 → pageOwner s page = p →
       moves (.renew src page gen) (flagWord g lease 0 p 1) ∧ moves (.release src page gen) (flagWord (g + 1) 0xFF 0 0 0) ∧
       (target ≠ p → moves (.handoff src page gen) (flagWord g lease target p 2)) ∧ (p = 0 → moves (.seal src page gen) (flagWord g 0 0 0 3))) ∧
     (fresh → pageState s page = 2 → pageTarget s page = p → moves (.accept src page gen) (flagWord (g + 1) lease 0 p 1)) ∧
     (fresh → pageState s page = 2 → pageOwner s page = p → moves (.cancel src page gen) (flagWord g lease 0 p 1)) ∧
     (fresh → pageState s page = 3 → p = 0 → moves (.unseal src page gen) (flagWord (g + 1) 0xFF 0 0 0)) ∧
     (¬fresh → ∀ c ∈ [Instr.renew src page gen, .release src page gen, .handoff src page gen, .accept src page gen, .cancel src page gen],
       ∃ t, exec c s = .next t ∧ Answered t [] ∧ (∀ n : Fin 4096, getReg t (culvFlag n) = getReg s (culvFlag n)) ∧ t.mem = s.mem ∧
         getReg t (banked culvOpres p) = BitVec.ofNat 32 (pageGen s page * 65536 + 2 * 4096 + page.val) ∧
         getF t (banked culvStalecnt p) culvStalecnt_Count = min (fldCard culvStalecnt_Count - 1) (getF s (banked culvStalecnt p) culvStalecnt_Count + 1))) ∧
  ((∀ s : State, Inv s → ∃ t, exec .leaseExpiry s = .next t ∧ t.mem = s.mem ∧ ∀ n : Fin 4096, getReg t (culvFlag n) =
     if (pageState s n = 1 ∨ pageState s n = 2) ∧ pageLease s n = 0 then flagWord (pageGen s n + 1) 0xFF 0 0 0 else getReg s (culvFlag n)) ∧
   (∀ (s : State) (n : Fin 4096) (rest : List Nat), s.culv.zeroing = n.val :: rest → ∃ t, exec .pageZeroed s = .next t ∧
     (∀ k < 4096, rdByte t (pageBase n + k) = 0) ∧ MemoryKept s t (pageBase n) (pageBase n + 4096) ∧ t.culv.zeroing = rest ∧
     getReg t (culvFlag n) = flagWord (pageGen s n) 0 0 0 0 ∧ ∀ a, a ≠ culvFlag n → getReg t a = getReg s a))

/-! ## Sluices -/

/-- The commands of a sluice (R435, R437): GO fetches the first descriptor from IDLE or DONE, or starts the one that waits without a trigger; STOP
pauses, at once when nothing is outstanding; RESUME goes on from where a pause came; ABORT drops all and is IDLE when nothing is outstanding,
else drains (an access that a port is in the middle of ends at that beat, R433); DPTR takes an address in IDLE and DONE. A command with no effect, and any to a disabled sluice, sets CMDERR only.
The model's own choices in it: assumption log 36, 51. -/
def Obligations.SluiceCommandsChangeState : Prop :=
  ∀ (s : State) (src : Source) (p : Nat) (c : Fin 32),
    let x := getSlu s c
    let st := sluState s c
    let cfg := sluCfg c
    let at0 := x.fetching = none ∧ x.outs = []
    let calm := openOut x false = none ∧ openOut x true = none
    let busy := (x.outs.any fun o => !o.failed && !o.again) = true
    let ran (i : Instr) (t : State) : Prop := exec i s = .next t ∧ Answered t [] ∧ t.mem = s.mem ∧ ∀ d, d ≠ c.val → getSlu t d = getSlu s d
    let refused (i : Instr) : Prop := ∃ t, ran i t ∧ getB t (sluStat c) sluStat_Cmderr = true ∧ sluState t c = st ∧ getSlu t c = x ∧
      ∀ a, a ≠ sluStat c → getReg t a = getReg s a
    (HostReady s src p (sluCmd c) →
      (getB s cfg sluCfg_En = false → refused (.go src c) ∧ refused (.stop src c) ∧ refused (.resume src c) ∧ refused (.abort src c)) ∧
      (getB s cfg sluCfg_En = true →
        (st = 0 ∨ st = 5 → x.fetching = none →
          (∃ t, ran (.go src c) t ∧ (getSlu t c).fetching = some (0x70000000 + 64 * getF s (sluDptr c) sluDptr_Addr)) ∧ refused (.stop src c) ∧ refused (.resume src c)) ∧
        (st = 1 → x.stopping = false → getF s cfg sluCfg_Trig = 0 →
          ∃ t, ran (.go src c) t ∧ sluState t c = 2 ∧ getReg t (sluTag c) = x.desc.getD 13 0 ∧ getSlu t c = x) ∧
        (st = 1 ∨ st = 2 → calm → ∃ t, ran (.stop src c) t ∧ (at0 → sluState t c = 3) ∧
          (busy → sluState t c = st ∧ (getSlu t c).stopping = true)) ∧
        (st = 3 → (x.fromWait = true → ∃ t, ran (.resume src c) t ∧ sluState t c = 1 ∧ getSlu t c = x) ∧
          (x.fromWait = false → x.good = true → ∃ t, ran (.resume src c) t ∧ sluState t c = 2 ∧ getSlu t c = x)) ∧
        (1 ≤ st ∧ st ≤ 5 → calm → ∃ t, ran (.abort src c) t ∧ (at0 → sluState t c = 0) ∧
          (busy → sluState t c = 6 ∧ (getSlu t c).buf = [] ∧ (getSlu t c).good = false)))) ∧
    (∀ v : BitVec 32, HostReady s src p (sluDptr c) → (st ≠ 0 ∧ st ≠ 5 → refused (.sluDptrWrite src c v)) ∧
      ((st = 0 ∨ st = 5) → x.fetching = none → ∃ t, ran (.sluDptrWrite src c v) t ∧ getF t (sluDptr c) sluDptr_Addr = fget v sluDptr_Addr ∧
        getSlu t c = x ∧ ∀ a, a ≠ sluDptr c → getReg t a = getReg s a))

/-- DESCRIPTOR_FETCHED (R424, R426, R431, R439): a descriptor from a segment of the channel's polder that passes its check is taken, and waits for its trigger or
runs with its TAG shown; one that fails it halts the channel with cause 4 and reports 0x0705.
SLUICE_ACCESS_ISSUE (R415, R428–R433): the port issues beats, each of them one channel's that is arbitrated anew; without a ready channel
it issues none. The first beat of a new access puts it among the outstanding ones: a read counts its elements read, a write takes its elements from
the buffer; a beat to the culvert joins its polder's queue behind all that waits there. The access takes effect later, at its
response (assumption log 36), so memory stays.
The model's own choices in it: assumption log 35, 36. -/
def Obligations.SluicesFetchAndIssue : Prop :=
  (∀ (s : State) (c : Fin 32) (a : Nat), let x := getSlu s c
     let p := sluPol s c
     let d := rdWords s a 16
     x.fetching = some a → x.outs = [] → placeOf a = .shared → a % 64 = 0 → resPol s (1024 + (a - 0x70000000) / 0x20000) = p → s.dev.phase ≠ .recovery →
       sluState s c ≠ 4 → sluState s c ≠ 6 → x.stopping = false →
       ∃ t, exec (.descriptorFetched c) s = .next t ∧ t.mem = s.mem ∧ (getSlu t c).fetching = none ∧ (getSlu t c).desc = d ∧
         (getSlu t c).good = descOk s p d ∧
         (descOk s p d = true → sluState t c = (if dTrigwait d then 1 else 2) ∧ (dTrigwait d = false → getReg t (sluTag c) = d.getD 13 0) ∧
           getReg t (sluPos0 c) = 0 ∧ getReg t (sluPos1 c) = 0) ∧
         (descOk s p d = false → sluState t c = 4 ∧ getF t (sluStat c) sluStat_Cause = 4 ∧ (0x0705 ∉ x.noted → Reported t 0x0705 1 p [pw c, pw a]))) ∧
  (∀ (s : State) (write : Bool) (ecc : Ecc),
     (∀ b : Fin 8, 1 ≤ b.val → ∃ t, exec (.sluiceAccessIssue write 1 ecc) s = .next t ∧
       exec (.sluiceAccessIssue write b.succ ecc) s = exec (.sluiceAccessIssue write b.castSucc ecc) t) ∧
     (∀ beats : Fin 9, sluArbitrate s write = none → exec (.sluiceAccessIssue write beats ecc) s = .next s) ∧
     ∀ (beats : Fin 9) (c : Nat), beats.val ≤ 1 → sluArbitrate s write = some c →
       let x := getSlu s c
       let p := sluPol s c
       let n := if write then nextWrite x else nextRead x
       let i := if write then x.wPos else x.rPos
       let a := (elemAddr x.desc write i).toNat
       let data := (upto n).flatMap fun k => cellGet [] x.buf (i + k)
       openOut x write = none → (∀ o ∈ x.outs, ¬(o.write = write ∧ o.again = true)) →
       (∀ d ∈ sluicesOf s p, sluPrio s d < sluPrio s c → openOut (getSlu s d) write = none) →
       ∃ t, exec (.sluiceAccessIssue write beats ecc) s = .next t ∧ (∀ d, d ≠ c → getSlu t d = getSlu s d) ∧ t.mem = s.mem ∧
         (∃ o, (getSlu t c).outs = x.outs ++ [o] ∧ o.write = write ∧ o.first = i ∧ o.count = n ∧ o.sent = min n (32 / dEw x.desc) ∧ o.addr = a ∧
           (write = true → o.data = data)) ∧
         (write = false → (getSlu t c).rPos = x.rPos + n ∧ (getSlu t c).wPos = x.wPos ∧ (getSlu t c).buf = x.buf) ∧
         (write = true → (getSlu t c).wPos = x.wPos + n ∧ (getSlu t c).rPos = x.rPos ∧
           ∀ k, x.wPos ≤ k → k < x.wPos + n → cellFind (getSlu t c).buf k = none) ∧
         (inCulvert a = true → beatQueue t p = beatQueue s p ++ [.sluice c write i]))

/-- Responses of a sluice (R414, R415, R427, R429–R431, R438–R440). Before its response an access is executed: at the culvert in its turn on the wheel, in an own segment at the
response. A good read's data waits in the buffer by element; a good write counts its elements, and the last one of the last
descriptor ends the channel in DONE; an access that fails beyond RETRY halts it with cause 1, one that fails earlier waits, and SLUICE_RETRY puts it up for its port
again and counts it.
The model's own choices in it: assumption log 35, 36. -/
def Obligations.SluiceResponsesAdvance : Prop :=
  ∀ (s : State) (c : Fin 32) (k i : Nat) (o : OutAcc), s.clk.gateC = false → sluState s c = 2 → let x := getSlu s c
    let p := sluPol s c
    let len := outLen x.desc o
    let ew := dEw x.desc / 4
    let calm := openOut x false = none ∧ openOut x true = none
    let element (data : List Word) (j : Nat) : List Word := (data.drop (j * ew)).take ew
    let own : Prop := s.dev.phase ≠ .recovery ∧ placeOf o.addr = .shared ∧ formOk o.addr len = true ∧ resPol s (1024 + (o.addr - 0x70000000) / 0x20000) = p
    x.stopping = false →
    (outAt x false k = some (i, o) → o.res = .queued → x.outs = [o] → (∀ q, beatQueue s q = if q = p then [.sluice c false o.first] else []) →
      o.beats = 0 → 1 ≤ o.count → len ≤ 32 → inCulvert o.addr = true → s.dev.phase ≠ .recovery → inReset s p = false →
      (x.desc.getD 1 0).toNat / 65536 = pageGen s (culvPage o.addr) → pageAllows s (culvPage o.addr) p false = true → x.acked ≠ dTotal x.desc →
      ∃ t, exec (.sluiceReadResponse c k) s = .next t ∧ t.mem = s.mem ∧ (getSlu t c).outs = [] ∧ beatQueue t p = [] ∧
        ∀ j < o.count, cellFind (getSlu t c).buf (o.first + j) = some (element (rdWords s o.addr (len / 4)) j)) ∧
    (∀ data, outAt x false k = some (i, o) → (o.res = .ok data ∨ (o.res = .queued ∧ own ∧ data = rdWords s o.addr (len / 4))) → x.acked ≠ dTotal x.desc →
      ∃ t, exec (.sluiceReadResponse c k) s = .next t ∧ t.regs = s.regs ∧ t.mem = s.mem ∧ (getSlu t c).outs = setAt x.outs i none ∧
        (∀ j < o.count, cellFind (getSlu t c).buf (o.first + j) = some (element data j)) ∧
        ∀ j, (j < o.first ∨ o.first + o.count ≤ j) → cellFind (getSlu t c).buf j = cellFind x.buf j) ∧
    (outAt x true k = some (i, o) → ((∃ data, o.res = .ok data) ∨ (o.res = .queued ∧ own ∧ o.data.length = len / 4)) → x.good = true →
      ∃ t, exec (.sluiceWriteResponse c k) s = .next t ∧
        (if o.res = .queued then rdWords t o.addr (len / 4) = o.data ∧ MemoryKept s t o.addr (o.addr + len) else t.mem = s.mem) ∧
        (x.acked + o.count ≠ dTotal x.desc → sluState t c = 2 ∧ (getSlu t c).outs = setAt x.outs i none ∧ (getSlu t c).acked = x.acked + o.count) ∧
        (x.acked + o.count = dTotal x.desc → dLast x.desc = true → sluState t c = 5 ∧ (getSlu t c).good = false ∧
          getF t (sluStat c) sluStat_Dcount = min (fldCard sluStat_Dcount - 1) (getF s (sluStat c) sluStat_Dcount + 1))) ∧
    (∀ b, outAt x b k = some (i, o) → o.res = .err → calm → ∀ cmd, cmd = (if b then Instr.sluiceWriteResponse c k else .sluiceReadResponse c k) →
      (getF s (sluCfg c) sluCfg_Retry < o.fails + 1 → ∃ t, exec cmd s = .next t ∧ sluState t c = 4 ∧ getF t (sluStat c) sluStat_Cause = 1 ∧ t.mem = s.mem) ∧
      (o.fails + 1 ≤ getF s (sluCfg c) sluCfg_Retry → ∃ t, exec cmd s = .next t ∧ t.regs = s.regs ∧ t.mem = s.mem ∧
        (getSlu t c).outs = setAt x.outs i (some { o with failed := true, fails := o.fails + 1 }))) ∧
    (∀ ecc, x.outs = [o] → o.failed = true → ∃ t, exec (.sluiceRetry c 0 ecc) s = .next t ∧ t.mem = s.mem ∧
      getF t (sluRetrycnt c) sluRetrycnt_Count = min (fldCard sluRetrycnt_Count - 1) (getF s (sluRetrycnt c) sluRetrycnt_Count + 1) ∧
      (getSlu t c).outs = [{ o with sent := 0, beats := 0, res := .queued, ecc := ecc, failed := false, again := true }])

/-! ## SQ ports -/

/-- QPUSH and the queues of an SQ master (R600–R604): an entry that passes the checks of R601 joins its select's queue, another sets ERR with its
cause; a free port starts the next select in rotation that has work, a window read first; a transaction's end drops its entry, counts it and stores the words
received little-endian in the buffer; a busy byte keeps the entry for a repeat, which waits for GAP. What goes out is the command, address and dummy cycles of the read or of the
entry, then the entry's words, each most significant byte first (R597, R600). While the APLL gates its output nothing starts or ends
(R625).
The model's own choices in it: assumption log 37. -/
def Obligations.SqQueuesRunInOrder : Prop :=
  (∀ (s : State) (n sel : Fin 4) (rx : List (BitVec 32)), s.clk.gateA = true →
    exec (.sqTransactionStart n) s = .next s ∧ exec (.sqTransactionEnd n rx) s = .next s ∧ exec (.sqBusyRetry n sel) s = .next s) ∧
  ∀ (s : State) (n sel : Fin 4), s.clk.gateA = false → let x := getSq s n
    let q := cellGet [] x.queues sel
    let queue (t : State) : List SqEntry := cellGet [] (getSq t n).queues sel
    (∀ src p, HostReady s src p (sqQpush n sel) → ∃ t, exec (.qpush src n sel) s = .next t ∧ Answered t [] ∧ t.mem = s.mem ∧
      (pushCause s n sel = 0 → queue t = q ++ [⟨getReg s (sqQhdr n sel), getReg s (sqQcmd n sel), getReg s (sqQaddr n sel), getReg s (sqQtx n sel 0), getReg s (sqQtx n sel 1)⟩] ∧
        getF t (sqQstat n sel) sqQstat_Depth = q.length + 1) ∧
      (pushCause s n sel ≠ 0 → queue t = q ∧ getB t (sqQstat n sel) sqQstat_Err = true ∧ getF t (sqQstat n sel) sqQstat_Cause = pushCause s n sel)) ∧
    (x.run = none → getB s (sqCfg n) sqCfg_En = true → getB s (sqCfg n) sqCfg_Role = false →
      ((upto 4).map fun i => (x.rot + i) % 4).find? (sqWork s n) = some sel.val → getF s updStat updStat_State ≠ 1 →
      ∃ t, exec (.sqTransactionStart n) s = .next t ∧ t.mem = s.mem ∧ (getSq t n).rot = (sel.val + 1) % 4 ∧ (getSq t n).queues = x.queues ∧
        ∃ r, (getSq t n).run = some r ∧ r.sel = sel.val ∧ r.sela = getReg s (sqSela n sel) ∧
          if getF s (sqCfg n) sqCfg_Wsel = sel ∧ x.reads ≠ [] then r.read = x.reads.head? ∧ r.entry = none ∧ (getSq t n).reads = x.reads.drop 1 ∧ t.regs = s.regs ∧
            (∀ w ∈ x.reads.head?, (getSq t n).line = readLine (getReg s (sqSela n sel)) (getReg s (sqSelb n sel)) w.off)
          else r.read = none ∧ r.entry = q.head? ∧ (getSq t n).reads = x.reads ∧ getB t (sqQstat n sel) sqQstat_Active = true ∧
            (∀ e ∈ q.head?, (getSq t n).line = entryLine s (getReg s (sqSela n sel)) e)) ∧
    (∀ rx r w, x.run = some r → r.read = some w → w.who = .host → ∃ t, exec (.sqTransactionEnd n rx) s = .next t ∧
      Answered t ((upto w.words).map fun i => rx.getD i 0) ∧ (getSq t n).run = none ∧ t.regs = s.regs ∧ t.mem = s.mem) ∧
    (∀ rx r e, x.run = some r → r.read = none → r.entry = some e → r.sel = sel → r.dropRx = false → fget r.sela sqSela_Wsize = 2 →
      let nw := fget e.hdr sqQhdr_Nwm1 + 1
      let busy := fget r.sela sqSela_Busychk = 1 ∧ (rx.headD 0).toNat / 16777216 = 0xB5
      (¬busy → ∃ t, exec (.sqTransactionEnd n rx) s = .next t ∧ (getSq t n).run = none ∧ queue t = q.drop 1 ∧
        getF t (sqQcnt n sel) sqQcnt_Done = min 65535 (getF s (sqQcnt n sel) sqQcnt_Done + 1) ∧
        (fget e.hdr sqQhdr_Rxen = 0 → t.mem = s.mem) ∧
        (fget e.hdr sqQhdr_Rxen = 1 → rdWords t (bufAddr e.qrx) nw = ((upto nw).map fun i => rx.getD i 0) ∧ MemoryKept s t (bufAddr e.qrx) (bufAddr e.qrx + 4 * nw))) ∧
      (busy → cellGet 0 x.repeats sel < getF s (sqSelb n sel) sqSelb_Blim → ∃ t, exec (.sqTransactionEnd n rx) s = .next t ∧ (getSq t n).run = none ∧
        queue t = q ∧ sel.val ∈ (getSq t n).gap ∧ cellGet 0 (getSq t n).repeats sel = cellGet 0 x.repeats sel + 1 ∧ t.mem = s.mem)) ∧
    (∃ t, exec (.sqBusyRetry n sel) s = .next t ∧ sel.val ∉ (getSq t n).gap ∧ queue t = q ∧ t.regs = s.regs ∧ t.mem = s.mem)

/-- Frames to an SQ slave (R606–R609): a well-formed READ or WRITE frame to a memory segment of the polder that the port is bound to is accepted with 0x4A,
and its result is READY with the words read, or the big-endian words written; of a port without a binding the result is 3; a FETCH frame sends result and data; a frame
while a request runs is answered 0xB5 and discarded; a malformed frame, and one with an unknown OP, leaves result 4 and a notice. SLAVE_REQUEST_DONE ends the running request.
The model's own choices in it: assumption log 37, 52. -/
def Obligations.SlaveFramesAreAnswered : Prop :=
  ∀ (s : State) (n : Fin 4) (addr : BitVec 40) (len : BitVec 16) (data : List (BitVec 8)) (k : BitVec 16) (ecc : Ecc), slaveOn s n = true →
    let x := getSq s n
    let a := addr.toNat
    let l := len.toNat
    let first (b : Nat) (m : Nat) : List Nat := (b :: List.replicate m 0).take m
    let words := (upto (l / 4)).map fun i => BitVec.ofNat 32 (beNat (((data.map (·.toNat)).drop (4 * i)).take 4))
    (∀ op : BitVec 8, x.slvBusy = true → op ≠ 2 → op ≠ 3 → ∀ c ∈ [Instr.slaveRead n op addr len k ecc, .fetch n k], ∃ t, exec c s = .next t ∧ getSq t n = { x with out := first 0xB5 k.toNat } ∧
      t.regs = s.regs ∧ t.mem = s.mem) ∧
    (x.slvBusy = true → x.slvWait = false → ∃ t, exec (.slaveRequestDone n) s = .next t ∧ getSq t n = { x with slvBusy := false } ∧ t.mem = s.mem ∧
      getB t (sqStat n) sqStat_Slvbusy = false) ∧
    (x.slvBusy = false →
      let seg := resPol s (1024 + (a - 0x70000000) / 0x20000)
      let accepted (t : State) (m result : Nat) (d : List Word) : Prop := (getSq t n).out = first 0x4A m ∧ (getSq t n).slvBusy = true ∧
        (getSq t n).slvWait = false ∧ (getSq t n).result = result ∧ (getSq t n).data = d ∧ getB t (sqStat n) sqStat_Slvbusy = true
      (s.dev.phase ≠ .recovery → sourcePolder s (.sq n) = some seg → placeOf a = .shared → formOk a l = true → inReset s seg = false →
        (∃ t, exec (.slaveRead n 1 addr len 8 ecc) s = .next t ∧ accepted t 8 0 (rdWords s a (l / 4)) ∧ t.mem = s.mem) ∧
        (data.length = l → ∃ t, exec (.slaveWrite n addr len data) s = .next t ∧ accepted t (8 + l) 0 [] ∧ rdWords t a (l / 4) = words ∧
          MemoryKept s t a (a + l))) ∧
      (sourcePolder s (.sq n) = none → slaveForm a l = true → ∃ t, exec (.slaveRead n 1 addr len 8 ecc) s = .next t ∧ accepted t 8 3 [] ∧ t.mem = s.mem) ∧
      (k.toNat % 4 = 0 → 8 ≤ k.toNat → ∃ t, exec (.fetch n k) s = .next t ∧ t.regs = s.regs ∧ t.mem = s.mem ∧
        getSq t n = { x with out := (([0x4A, x.result, 0, 0, 0, 0, 0, 0] ++ x.data.flatMap fun (w : Word) => beBytes 4 w.toNat) ++ List.replicate k.toNat 0).take k.toNat }) ∧
      (∀ op : BitVec 8, op ≠ 2 → op ≠ 3 → (k ≠ 8 ∨ op ≠ 1) → RecorderRoom s ((sourcePolder s (.sq n)).getD 0) 1 → ∃ t, exec (.slaveRead n op addr len k ecc) s = .next t ∧ t.mem = s.mem ∧
        (getSq t n).out = first 0x4A k.toNat ∧ (getSq t n).result = 4 ∧ (getSq t n).data = [] ∧ getB t (sqStat n) sqStat_Frameerr = true ∧
        Noted t 0x1103 ((sourcePolder s (.sq n)).getD 0) [pw n, pw k.toNat, pw op.toNat]))

/-! ## Request frames -/

/-- RDREQ and WRREQ (R518, R519, R535, R536): a valid request frame for this node, from a source bound to the polder of the memory segment it names, is executed
as one host access, and its response, status 0 with the words read, is kept under its SEQ; a repeat of a kept request is not executed; a frame with a wrong CRC,
length, type or channel is only counted.
The model's own choices in it: assumption log 52. -/
def Obligations.RequestFramesExecuteOnce : Prop :=
  ∀ (s : State) (n : Fin 8) (hdr : BitVec 64) (addr : BitVec 40) (len : BitVec 16) (data : List (BitVec 32)) (ecc : Ecc) (crc : BitVec 32),
    let a := addr.toNat
    let l := len.toNat
    let form := beBytes 5 a ++ [0] ++ beBytes 2 l
    let seg := resPol s (1024 + (a - 0x70000000) / 0x20000)
    let kept (t : State) : List (Nat × List Nat) := cellGet [] t.rlm.kept (8 * hdrSrc hdr + hdrVc hdr)
    let known := (kept s).find? fun x => x.1 == hdrSeq hdr
    let reads := exec (.rdreq n hdr addr len ecc crc) s
    let writes := exec (.wrreq n hdr addr len data crc) s
    let readOk := RoutedOk s n 0x10 hdr form crc
    let writeOk := RoutedOk s n 0x11 hdr (form ++ data.flatMap wordBytes) crc
    (known = none → s.dev.phase ≠ .recovery → sourcePolder s (frameSource hdr) = some seg → placeOf a = .shared →
      formOk a l = true → frameForm (hdrVc hdr) a l = true → inReset s seg = false →
      (readOk → ∃ t, reads = .next t ∧ (hdrSeq hdr, 0x12 :: [0, 0, 0, 0] ++ (rdWords s a (l / 4)).flatMap wordBytes) ∈ kept t ∧ t.mem = s.mem) ∧
      (writeOk → 4 * data.length = l →
        ∃ t, writes = .next t ∧ (hdrSeq hdr, [0x13, 0, 0, 0, 0]) ∈ kept t ∧ rdWords t a (l / 4) = data ∧ MemoryKept s t a (a + l))) ∧
    (known.isSome = true → ∀ o, ((o = reads ∧ readOk) ∨ (o = writes ∧ writeOk)) → ∃ t, o = .next t ∧ t.mem = s.mem ∧ t.tick = s.tick ∧ t.dike = s.dike) ∧
    (isMine s hdr = true → (FrameBad s n 0x10 hdr form crc → ∃ t, reads = .next t ∧ OnlyCounted s t n) ∧
      (FrameBad s n 0x11 hdr (form ++ data.flatMap wordBytes) crc → ∃ t, writes = .next t ∧ OnlyCounted s t n))

/-! ## Images -/

/-- LOAD, IMG_LOAD_DONE (R446, R449, R452, R453): LOAD by an idle polder starts its loader, else RESULT is BUSY. The loader reads the source as the polder; the
bytes it read are header and sections of the sub-image, `u` says what those sections hold (assumption log 7). The end of a load that could read its source and
whose sub-image passes the checks makes it LOADED, the polder's staged set of IMG with a new age (R71), another shows the code of the first failing check and leaves IDLE. POLDER_RELOAD_COMPLETE (R36): good digests let the
polder's reset end; a bad one keeps it in reset and is a fault of class 2.
The model's own choices in it: assumption log 7, 38, 47, 60, 62. -/
def Obligations.LoadsAndReloadsAreChecked : Prop :=
  (∀ (s : State) (src : Source) (p : Nat), HostReady s src p imgCtl → ∃ t, exec (.load src) s = .next t ∧ Answered t [] ∧ t.mem = s.mem ∧
    let free := imgState s p = 0 ∧ getF s updStat updStat_State ≠ 4 ∧ getF s updStat updStat_State ≠ 5
    (free → imgState t p = 1 ∧ getF t (banked imgStat p) imgStat_Result = 0 ∧ (polImg t p).loading = some src) ∧
    (¬free → imgState t p = imgState s p ∧ getF t (banked imgStat p) imgStat_Result = 0xA ∧ t.img = s.img)) ∧
  (∀ (s : State) (p : Fin 8) (u : SubImage),
    let s' := if (polImg s p).fetchWait then s else loaderRead s p (imgBytes s p / 4 + 1)
    let x := polImg s' p
    let bytes := (x.fetched.flatMap wordBytes).map fun b => BitVec.ofNat 8 b
    let v := { u with header := bytes.take 64, sects := parseSects (bytes.length / 8) (bytes.drop 64) }
    let code := if x.fetchBad then 0xB else subResult s' p (imgBytes s' p) v
    (x.loading = none ∨ x.fetchWait = true → exec (.imgLoadDone p u) s = .next s') ∧
    (x.loading ≠ none → x.fetchWait = false → RecorderRoom s' p 1 →
      ∃ t, exec (.imgLoadDone p u) s = .next t ∧ (polImg t p).loading = none ∧ getF t (banked imgStat p) imgStat_Result = code ∧
        if code = 0 then imgState t p = 2 ∧ (polImg t p).loaded = some v ∧ (cellFind t.tick.stageMeta (metaKey 3 p)).map (·.age) = some 0 ∧
          Noted t 0x0110 p [pw p, v.imgVer, v.layout]
        else imgState t p = 0 ∧ t.mem = s'.mem ∧ Noted t 0x0111 p [pw p, pw code, pw (sectOf v code)])) ∧
  (∀ (s : State) (p : Fin 8) (src : Source), let x := polImg s p
    let a := imgSource s p
    let len := imgBytes s p
    x.loading = some src → x.fetched = [] → x.fetchBad = false → s.dev.phase ≠ .recovery → inReset s p = false → placeOf a = .shared →
      resPol s (1024 + (a - 0x70000000) / 0x20000) = p.val → formOk a len = true →
      loaderRead s p (len / 4 + 1) = setPolImg s p { x with fetched := rdWords s a (len / 4) }) ∧
  (∀ (s : State) (p : Fin 8) (sect : BitVec 16) (r : InReset), cellFind s.dev.inReset p = some r → r.reloaded = false → r.stuck = false →
    (∃ t, exec (.polderReloadComplete p true sect) s = .next t ∧ cellFind t.dev.inReset p = some { r with reloaded := true } ∧ t.regs = s.regs) ∧
    (∃ t, exec (.polderReloadComplete p false sect) s = .next t ∧ cellFind t.dev.inReset p = some { r with stuck := true } ∧ FaultHeld t 0x0117 2 p (pw p) ∧ t.mem = s.mem))

/-! ## Faults -/

/-- FLT_ACK, FLT_CAPTURE_REARM, HKSTAT_CLEAR (R470, R474, R476, R479): an acknowledgement takes the polder's held faults of the named classes 1 to 3, but not those of a
housekeeping source whose condition is present; a rearm empties the capture's valid, overflow and count; a sticky bit clears where its condition has ended.
The model's own choices in it: assumption log 48, 51. -/
def Obligations.FaultsAreAcknowledged : Prop :=
  ∀ (s : State) (src : Source) (q : Nat),
    (∀ (p : Fin 8) (classes : BitVec 4), HostReady s src q (fltAck p) → ∃ t, exec (.fltAck src p classes) s = .next t ∧ Answered t [] ∧ t.mem = s.mem ∧
      (∀ h, h ∈ t.flt.held ↔ h ∈ s.flt.held ∧ ¬(h.scope = p.val ∧ 1 ≤ h.cls ∧ h.cls ≤ 3 ∧ classes.getLsbD (h.cls - 1) = true ∧ hkPresent s h = false)) ∧
      getF t (fltSum p) fltSum_Nunack = min 255 (t.flt.held.filter fun h => h.scope == p.val).length ∧
      ((∃ h ∈ s.flt.held, h.scope = p.val ∧ 1 ≤ h.cls ∧ h.cls ≤ 3 ∧ classes.getLsbD (h.cls - 1) = true ∧ hkPresent s h = true) → getB t (fltSum p) fltSum_Ackref = true)) ∧
    (∀ p : Fin 8, HostReady s src q (fltCapa p) → ∃ t, exec (.fltCaptureRearm src p) s = .next t ∧ Answered t [] ∧ t.mem = s.mem ∧
      getB t (fltCapa p) fltCapa_Valid = false ∧ getB t (fltCapa p) fltCapa_Ovf = false ∧ getF t (fltCapa p) fltCapa_Ovcnt = 0 ∧
      (∀ a, a ≠ fltCapa p → getReg t a = getReg s a) ∧ t.flt = s.flt) ∧
    (∀ mask : BitVec 32, HostReady s src q fltHkstat → ∃ t, exec (.hkstatClear src mask) s = .next t ∧ Answered t [] ∧ t.mem = s.mem ∧
      getReg t fltHkstat = getReg s fltHkstat &&& ~~~(mask &&& ~~~getReg s fltHknow) ∧ (∀ a, a ≠ fltHkstat → getReg t a = getReg s a) ∧ t.flt = s.flt)

/-- Housekeeping sources and pins (R475–R478), while the main dies run; while they do not, nothing is sampled. Each temperature source is present from its level on and ends 5 K below it, a rail's source is present while the
rail is out of its range; what begins without its sticky bit standing is held as a fault. Copies that differ hold the pins in the fault state with a class 4 fault. FLT_ALIVE toggles while
the pins are good.
The model's own choices in it: assumption log 48. -/
def Obligations.HousekeepingSourcesRaiseFaults : Prop :=
  (∀ (s : State) (t0 t1 t2 t3 io warden : BitVec 8), mainRuns s = false → exec (.temperatureSample t0 t1 t2 t3 io warden) s = .next s) ∧
  (∀ (s : State) (t0 t1 t2 t3 io warden : BitVec 8), mainRuns s = true → ∃ t, exec (.temperatureSample t0 t1 t2 t3 io warden) s = .next t ∧ t.mem = s.mem ∧
    ((∀ v ∈ [t0, t1, t2, t3, io, warden], v.toInt < getF s fltTemplim fltTemplim_Warn ∧ v.toInt < getF s fltTemplim fltTemplim_Trip) →
      t.flt = s.flt ∧ ∀ a, a ≠ fltHknow → getReg t a = getReg s a) ∧
    ∀ i (v : BitVec 8), [t0, t1, t2, t3, io, warden][i]? = some v →
      let bit' (b : Nat) (level : Nat) : Bool := if (level : Int) ≤ v.toInt then true else if v.toInt + 5 ≤ level then false else getFbit s fltHknow fltHknow_Src b
      let warn := getF s fltTemplim fltTemplim_Warn
      getFbit t fltHknow fltHknow_Src i = bit' i warn ∧ getFbit t fltHknow fltHknow_Src (8 + i) = bit' (8 + i) (getF s fltTemplim fltTemplim_Trip) ∧
      ((getF s fltTemplim fltTemplim_Trip : Int) ≤ v.toInt → getFbit s fltHknow fltHknow_Src (8 + i) = false → getFbit s fltHkstat fltHkstat_Src (8 + i) = false →
        FaultHeld t (0x0D28 + i) 3 0 (pw i)) ∧
      ((warn : Int) ≤ v.toInt → getFbit s fltHknow fltHknow_Src i = false → getFbit s fltHkstat fltHkstat_Src i = false → FaultHeld t (0x0D20 + i) 1 0 (pw i))) ∧
  (∀ (s : State) (rail : Fin 9) (mv : BitVec 16), (mainRuns s = false ∨ railOk s rail mv.toNat = true) →
    ∃ t, exec (.supplyOutOfRange rail mv) s = .next t ∧ t.regs = s.regs ∧ t.flt = s.flt ∧ t.mem = s.mem) ∧
  (∀ (s : State) (rail : Fin 9) (mv : BitVec 16), (mainRuns s = false ∨ railOk s rail mv.toNat = false) →
    ∃ t, exec (.supplyInRange rail mv) s = .next t ∧ t.regs = s.regs ∧ t.flt = s.flt ∧ t.mem = s.mem) ∧
  (∀ (s : State) (rail : Fin 9) (mv : BitVec 16), mainRuns s = true →
    (railOk s rail mv.toNat = false → ∃ t, exec (.supplyOutOfRange rail mv) s = .next t ∧ t.mem = s.mem ∧ getFbit t fltHknow fltHknow_Src (14 + rail.val) = true ∧
      (getFbit s fltHknow fltHknow_Src (14 + rail.val) = false → getFbit s fltHkstat fltHkstat_Src (14 + rail.val) = false → FaultHeld t (0x0D30 + rail.val) 3 0 (pw rail))) ∧
    (railOk s rail mv.toNat = true → ∃ t, exec (.supplyInRange rail mv) s = .next t ∧ t.mem = s.mem ∧ getFbit t fltHknow fltHknow_Src (14 + rail.val) = false ∧ t.flt = s.flt ∧
      ∀ a, a ≠ fltHknow → getReg t a = getReg s a)) ∧
  (∀ s : State, mainRuns s = false → exec .faultCollectorMismatch s = .next s) ∧
  (∀ s : State, mainRuns s = true → ∃ t, exec .faultCollectorMismatch s = .next t ∧ t.flt.mismatch = true ∧ FaultHeld t 0x0D03 4 0 0 ∧ getB t fltPinstat fltPinstat_Lvl = false ∧ t.mem = s.mem) ∧
  (∀ s : State, ∃ t, exec .fltAliveToggle s = .next t ∧ t.regs = s.regs ∧ t.mem = s.mem ∧
    t.flt = { s.flt with aliveHigh := if getB s fltPinstat fltPinstat_Alive then !s.flt.aliveHigh else s.flt.aliveHigh })

/-! ## Keep domain and recorder -/

/-- The recorder (R417, R562–R564): RECORD_WRITE puts the event that goes ahead into the next slot, with a valid CRC, and gives up the oldest record when all slots
are full; RECORDER_SCAN_DONE puts 0x0F04 first. RDSEL_WRITE (R567) by polder 0 shows the slot of a sequence number; LOCK (R568) fixes the recorder key once; CLEAR (R569) moves
the tail only for a request that nothing refuses, else sets CLRREF, and draws a fresh nonce; CLEAR_ZEROING_DONE drops exactly the cleared records and counts
one write for each slot.
The model's own choices in it: assumption log 41, 60. -/
def Obligations.RecorderWritesReadsClears : Prop :=
  (∀ (s : State) (vst : BitVec 16) (e : Event) (rest : List Event), s.recorder.scanning = false → s.keep.alive = true → 2400 ≤ vst.toNat →
    s.recorder.ahead = e :: rest → e.params.length ≤ 10 →
    let seq := s.recorder.head + 1
    ∃ t, exec (.recordWrite vst) s = .next t ∧ t.mem = s.mem ∧ t.recorder.head = seq ∧ t.recorder.ahead = rest ∧ t.recorder.total = s.recorder.total + 1 ∧
      t.recorder.tail = (if seq - s.recorder.tail = 65536 then s.recorder.tail + 1 else s.recorder.tail) ∧
      ∃ l, cellFind t.recorder.mram (seq.toNat % 65536) = some l ∧ slotValid (seq.toNat % 65536) l = true ∧ l.getD 0 0 = seq ∧
        (l.getD 1 0).toNat % 65536 = e.code % 65536 ∧ (l.getD 1 0).toNat / 65536 % 64 = e.cls % 8 + 8 * (e.scope % 8) ∧
        (l.getD 1 0).toNat / 8388608 = (if e.timeq then 1 else 0) ∧
        (l.drop 4).take 10 = e.params ++ List.replicate (10 - e.params.length) 0) ∧
  (∀ s : State, s.recorder.scanning = true → ∃ t, exec .recorderScanDone s = .next t ∧ t.recorder.scanning = false ∧ t.recorder.head = scanHead s.recorder ∧
    t.recorder.keepQ = s.recorder.keepQ ∧ t.regs = s.regs ∧ t.mem = s.mem ∧
    ∃ e, t.recorder.ahead = e :: s.recorder.ahead ∧ e.code = 0x0F04 ∧ e.params = [scanHead s.recorder, s.recorder.tail, pw (emptySlots s.recorder (scanHead s.recorder)), pw s.recorder.lost]) ∧
  (∀ (s : State) (src : Source) (seq : BitVec 32), HostReady s src 0 keepRdsel →
    let r := s.recorder
    let l := (cellGet [] r.mram (seq.toNat % 65536) ++ List.replicate 16 0).take 16
    ∃ t, exec (.rdselWrite src seq) s = .next t ∧ Answered t [] ∧ t.recorder = r ∧ t.mem = s.mem ∧ (∀ k < 16, getReg t (keepRdw k) = l.getD k 0) ∧
      getB t keepRdstat keepRdstat_Ok = (notOlder seq r.tail && notOlder r.head seq && slotValid (seq.toNat % 65536) l && l.getD 0 0 == seq)) ∧
  (∀ (s : State) (src : Source), HostReady s src 0 keepKeycmd → ∃ t, exec (.lock src) s = .next t ∧ Answered t [] ∧ t.mem = s.mem ∧
    t.recorder = { s.recorder with key := some (s.recorder.key.getD ((upto 8).map fun k => getReg s (keepKeyprg k))) } ∧
    (s.recorder.key = none → getB t keepKeystat keepKeystat_Locked = true)) ∧
  (∀ (s : State) (src : Source), HostReady s src 0 keepClrcmd → let h := getReg s keepClrhead
    ∃ t, exec (.clear src) s = .next t ∧ Answered t [] ∧ t.mem = s.mem ∧ (∃ j, s.free ≤ j ∧ getReg t (keepNoncelo 0) = Config.freeWord j ∧ getReg t (keepNoncelo 1) = Config.freeWord (j + 1)) ∧
      if clearReason s = 0 then t.recorder.tail = h + 1 ∧ t.recorder.clearing = some ((s.recorder.clearing.map fun c => c.1).getD s.recorder.tail, h)
      else t.recorder.tail = s.recorder.tail ∧ t.recorder.clearing = s.recorder.clearing ∧ getB t keepKeystat keepKeystat_Clrref = true) ∧
  (∀ (s : State) (a b : Word), s.recorder.clearing = some (a, b) → ∃ t, exec .clearZeroingDone s = .next t ∧ t.mem = s.mem ∧
    t.recorder.total = s.recorder.total + (b - a + 1).toNat ∧ (t.recorder.total / 65536 ≤ 5000000000 → t.regs = s.regs) ∧ t.recorder.clearing = none ∧ ∀ c, c ∈ t.recorder.mram ↔ c ∈ s.recorder.mram ∧ ¬(notOlder (c.2.getD 0 0) a = true ∧ notOlder b (c.2.getD 0 0) = true))

/-- The keep domain's supplies, clock and inputs (R550–R557, R561): each sample moves VKEEP's hysteresis, the clock, the store's two levels and the source that supplies the domain; the
primary cell goes out when VKEEP is back or the harvester has carried 60 s; the clock follows whole seconds of valid fabric time, or a setting by polder 0 without
it; a tamper level counts when two samples agree, and an enabled active one latches; a measurement is an event.
The beacon (R559, R560): with the store at 3.10 V the periodic trigger, and the TEST key, start a transmission of their KIND with the next number; while one runs, a trigger is
merged into one further transmission of the lowest KIND, which starts at its end.
The model's own choices in it: assumption log 41. -/
def Obligations.KeepDomainFollowsSamples : Prop :=
  (∀ s : State, s.keep.alive = true →
     (∀ vkeep vst vprim teg : BitVec 16, vst.toNat < 2100 → ∃ t, exec (.keepSupplySample vkeep vst vprim teg) s = .next t ∧ t.keep = { s.keep with alive := false } ∧
       t.regs = s.regs ∧ t.mem = s.mem) ∧
     (∀ vkeep vst vprim teg : BitVec 16, 2100 ≤ vst.toNat →
       let on := decide ((if s.keep.vkeepOn then 2900 else 3000) ≤ vkeep.toNat)
       let prim := getB s keepStat keepStat_Primin || (getB s keepPcfg keepPcfg_Primen && !on && decide (vst.toNat < 2200))
       ∃ t, exec (.keepSupplySample vkeep vst vprim teg) s = .next t ∧ t.mem = s.mem ∧ t.keep.vkeepOn = on ∧ t.keep.rtc = s.keep.rtc + 1953125 * ((s.keep.xtal + 4096) / 125) ∧
         getF t keepVmon keepVmon_Vst = vst.toNat ∧ getF t keepVmon keepVmon_Tegoc = teg.toNat ∧ getB t keepStat keepStat_St31 = decide (3100 ≤ vst.toNat) ∧
         getB t keepStat keepStat_St24 = decide (2400 ≤ vst.toNat) ∧
         getF t keepStat keepStat_Src = if on then 0 else if getB s keepPcfg keepPcfg_Hen = true ∧ 1000 ≤ teg.toNat then 1 else if prim then 2 else 3) ∧
     (∃ t, exec .primarySwitchOut s = .next t ∧ t.mem = s.mem ∧
       getB t keepStat keepStat_Primin = (getB s keepStat keepStat_Primin && !(s.keep.vkeepOn || decide (60000 ≤ s.keep.row2)))) ∧
     (∀ teg, s.recorder.scanning = true → RecorderRoom s 0 1 → ∃ t, exec (.coldStartDone teg) s = .next t ∧ Noted t 0x0F40 0 [pw teg.toNat] ∧ t.mem = s.mem) ∧
     (∀ voc : BitVec 16, s.keep.vkeepOn = false → getB s keepPcfg keepPcfg_Hen = true → 1000 ≤ voc.toNat → ∃ t, exec (.mppMeasure voc) s = .next t ∧
       getF t keepVmon keepVmon_Tegoc = voc.toNat ∧ t.keep.vreg = voc.toNat * getF s keepPcfg keepPcfg_Mppk / 256 ∧ t.mem = s.mem) ∧
     (mainOn s = true → getB s rlmTstat rlmTstat_Tvalid = true → ∃ t, exec .rtcFabricSync s = .next t ∧ t.keep.rtc = 64 * (nowTime s).toNat ∧
       getB t keepStat keepStat_Rtcvalid = true ∧ t.mem = s.mem) ∧
     (∀ src, HostReady s src 0 keepRtccmd → ∃ t, exec (.rtccmdSet src) s = .next t ∧ Answered t [] ∧ t.mem = s.mem ∧
       if getB s rlmTstat rlmTstat_Tvalid then t.keep = s.keep ∧ t.regs = s.regs
       else t.keep.rtc = 64 * ((getReg s (keepRtcsetlo 0)).toNat + 4294967296 * (getReg s (keepRtcsetlo 1)).toNat) ∧ getB t keepStat keepStat_Rtcvalid = true) ∧
     (∀ (levels : BitVec 4) (vst : BitVec 16), ∃ t, exec (.tamperSample levels vst) s = .next t ∧ t.keep.tampPrev = levels.toNat ∧ t.mem = s.mem ∧
       ∀ i < 4, let b := levels.getLsbD i
         let same := b == nbit s.keep.tampPrev i
         getFbit t keepTstat keepTstat_Level i = (if same then b else getFbit s keepTstat keepTstat_Level i) ∧
         getFbit t keepTstat keepTstat_Latch i = (getFbit s keepTstat keepTstat_Latch i ||
           (same && getFbit s keepTcfg keepTcfg_En i && b != getFbit s keepTcfg keepTcfg_Pol i))) ∧
     (∀ vst vkeep vprim teg temp : BitVec 16, mainOn s = false → getF s keepBcfg keepBcfg_Measint ≠ 0 → 2400 ≤ vst.toNat → s.recorder.keepQ.length < 256 →
       ∃ t, exec (.keepMeasurement vst vkeep vprim teg temp) s = .next t ∧ t.regs = s.regs ∧ t.mem = s.mem ∧
         ∃ e ∈ t.recorder.keepQ, e.code = 0x0F30 ∧ e.params = [pw vst.toNat, pw vkeep.toNat, pw vprim.toNat, pw teg.toNat, pw temp.toNat])) ∧
  (∀ s : State, getB s keepBcfg keepBcfg_En = true → s.keep.alive = true →
     let starts (t : State) (kind vst : Nat) : Prop := t.keep.bcn = some kind ∧ t.keep.pend = none ∧ t.keep.bseq = (s.keep.bseq + 1) % 65536 ∧
       t.keep.frame.length = 45 ∧ t.keep.frame.take 5 = [0x55, 0x55, 0x55, 0x55, 0xD5] ∧ (t.keep.frame.drop 5).take 8 = beBytes 8 s.dev.uid.toNat ∧
       (t.keep.frame.drop 13).take 3 = beBytes 2 ((s.keep.bseq + 1) % 65536) ++ [kind] ∧ (t.keep.frame.drop 37).take 2 = beBytes 2 vst
     (∀ vst : BitVec 16, mainOn s = false → getF s keepBcfg keepBcfg_Bcnint ≠ 0 → s.keep.bcn = none → s.keep.pend = none → 3100 ≤ vst.toNat →
       ∃ t, exec (.beaconPeriodic vst) s = .next t ∧ starts t 2 vst.toNat ∧ t.regs = s.regs ∧ t.mem = s.mem) ∧
     (∀ src, HostReady s src 0 keepBcmd → s.keep.bcn = none → s.keep.pend = none → 3100 ≤ getF s keepVmon keepVmon_Vst →
       ∃ t, exec (.beaconTest src) s = .next t ∧ Answered t [] ∧ starts t 5 (getF s keepVmon keepVmon_Vst) ∧ t.mem = s.mem) ∧
     (∀ src k, HostReady s src 0 keepBcmd → s.keep.bcn = some k → ∃ t, exec (.beaconTest src) s = .next t ∧ Answered t [] ∧ t.keep.bcn = some k ∧
       t.keep.pend = some (min 5 (s.keep.pend.getD 5)) ∧ t.regs = s.regs ∧ t.mem = s.mem) ∧
     (∀ (vst : BitVec 16) k, s.keep.bcn = some k →
       (s.keep.pend = none → ∃ t, exec (.beaconTransmissionEnd vst) s = .next t ∧ t.keep = { s.keep with bcn := none, pend := none } ∧ t.regs = s.regs ∧ t.mem = s.mem) ∧
       (∀ j, s.keep.pend = some j → 3100 ≤ vst.toNat → ∃ t, exec (.beaconTransmissionEnd vst) s = .next t ∧ starts t j vst.toNat ∧ t.mem = s.mem)))


/-! ## Safety channel -/

/-- The safe state (R485–R488, R495–R499): it is demanded when a rail of the lines or a technology fails, with every enabled pair tripped; each cycle of the safety processor reads inputs, switches and
outputs, takes its rail down in the safe state and opens the switches of the outputs that it decides to de-energise; where the Warden is lost it does not wait for its cycle; RESTART ends it only under its conditions; the outputs follow their requests and permission; the breaker opens when its delay ends.
Degraded mode and the seal (R490, R505, R506, R509): a change of the switches only shows; the degraded time counts down in seconds, and its end demands the safe
state; DGACK ends degraded mode when no fault is left.
The model's own choices in it: assumption log 39, 82. -/
def Obligations.SafeStateIsDemandedAndEnded : Prop :=
  ((∀ s : State, let kept := s.safe.switchP &&& wantedP s
     ∃ t, exec .spCycle s = .next t ∧ t.safe = { s.safe with cycles := s.safe.cycles + 1, switchP := kept, safeP := getB s safeStat safeStat_Safest, imageP := (s.safe.opened, kept, getF s safeOutst safeOutst_Ener) } ∧ t.mem = s.mem ∧
     getB t safeStat safeStat_Sprail = (getB s safeStat safeStat_Sprail && !getB s safeStat safeStat_Safest) ∧ ∀ a, a ≠ safeStat → getReg t a = getReg s a) ∧
   (∀ (s : State) (sp : Bool), ∃ t, exec (.pulseEnableInactive sp) s = .next t ∧ t.mem = s.mem ∧ getB t safeStat safeStat_Pen = false ∧
     getB t safeStat (if sp then safeStat_Sprail else safeStat_Wrail) = false ∧
     (getB s safeStat safeStat_Pen = true → ∀ p < 48, getF s (pwmPctl p) pwmPctl_Mode ≠ 0 → getB t (pwmPstat p) pwmPstat_Safe = true ∧ getB t (pwmPstat p) pwmPstat_Tripped = true)) ∧
   (∀ (s : State) (tech cause : BitVec 32), ∃ t, exec (.channelLoss tech cause) s = .next t ∧ t.mem = s.mem ∧ getB t safeStat safeStat_Safest = true ∧
     getB t safeStat safeStat_Pen = false ∧ getB t safeStat safeStat_Wrail = false ∧ t.safe.brkOpen = true ∧ FaultHeld t 0x0E12 4 0 tech ∧ t.flt.hold = true ∧
     (Config.wardenLost tech = true → getB t safeStat safeStat_Sprail = false)) ∧
   (∀ (s : State) (src : Source), HostReady s src 0 safeCmd → ∃ t, exec (.restart src) s = .next t ∧ Answered t [] ∧ t.mem = s.mem ∧
     (restartOk s = true → getB t safeStat safeStat_Safest = false ∧ getB t safeStat safeStat_Pen = true ∧ getB t safeStat safeStat_Wrail = true ∧
       getB t safeStat safeStat_Sprail = true ∧ getF t safeOutst safeOutst_Fail = 0 ∧ t.safe.brkOpen = false) ∧
     (restartOk s = false → RecorderRoom s 0 1 → t.safe = s.safe ∧ t.regs = s.regs ∧ Noted t 0x0E0E 0 [getReg s safeStat])) ∧
   (∀ (s : State) (src : Source) (v : BitVec 8), HostReady s src 0 safeOutreq → ∃ t, exec (.safeOutreqWrite src v) s = .next t ∧ Answered t [] ∧ t.mem = s.mem ∧
     getF t safeOutreq safeOutreq_Req = v.toNat ∧
     (∀ k < 8, getFbit t safeOutst safeOutst_Ener k = (v.getLsbD k && outUsed s k && !getFbit s safeOutst safeOutst_Fail k &&
       (if k < 2 then !s.safe.brkOpen && (getFbit s safeOutst safeOutst_Ener k || !getB s safeStat safeStat_Safest) else getB s safeStat safeStat_Pen))) ∧
     getB t safeStat safeStat_Brk = (getFbit t safeOutst safeOutst_Ener 0 && getFbit t safeOutst safeOutst_Ener 1)) ∧
   (∀ s : State, s.safe.brkPend = true → ∃ t, exec .breakerDelayEnd s = .next t ∧ t.mem = s.mem ∧ t.safe.brkOpen = true ∧ t.safe.brkPend = false ∧
     getFbit t safeOutst safeOutst_Ener 0 = false ∧ getFbit t safeOutst safeOutst_Ener 1 = false ∧ getB t safeStat safeStat_Brk = false)) ∧
  ((∀ (s : State) (switches : BitVec 16) (loop : Bool), (getF s safeCfg safeCfg_Switches ≠ switches.toNat ∨ s.safe.loopClosed ≠ loop) → RecorderRoom s 0 1 →
     ∃ t, exec (.sealSwitchChange switches loop) s = .next t ∧ t.mem = s.mem ∧ getF t safeCfg safeCfg_Switches = switches.toNat ∧ t.safe = { s.safe with loopClosed := loop } ∧
       getB t safeStat safeStat_Setpend = true ∧ getF t safeCfg safeCfg_Adopted = getF s safeCfg safeCfg_Adopted ∧ Noted t 0x0E0F 0 [pw switches.toNat]) ∧
   (∀ s : State,
     let expired (t : State) : Prop := getB t safeStat safeStat_Expired = true ∧ getB t safeStat safeStat_Safest = true ∧ getB t safeStat safeStat_Pen = false ∧ t.safe.brkOpen = true
     (1 < (getReg s safeDgrem).toNat → ∃ t, exec .degradedSecond s = .next t ∧ getReg t safeDgrem = getReg s safeDgrem - 1 ∧ getB t safeStat safeStat_Degr = true ∧
       (∀ a, a ≠ safeDgrem → a ≠ safeStat → getReg t a = getReg s a) ∧ (getB s safeStat safeStat_Degr = true → getReg t safeStat = getReg s safeStat) ∧ t.mem = s.mem) ∧
     (getReg s safeDgrem = 1 → getB s safeStat safeStat_Expired = false → ∃ t, exec .degradedSecond s = .next t ∧ getReg t safeDgrem = 0 ∧ expired t ∧ t.mem = s.mem) ∧
     (getReg s safeDgrem = 0 → getB s safeStat safeStat_Degr = true → getB s safeStat safeStat_Expired = false → ∃ t, exec .degradedExpired s = .next t ∧ getReg t safeDgrem = 0 ∧ expired t ∧ t.mem = s.mem)) ∧
   (∀ (s : State) (src : Source), HostReady s src 0 safeCmd → getB s safeStat safeStat_Degr = true → ∃ t, exec (.dgack src) s = .next t ∧ Answered t [] ∧ t.mem = s.mem ∧
     if s.safe.faults.isEmpty then getB t safeStat safeStat_Degr = false ∧ getB t safeStat safeStat_Expired = false ∧ getReg t safeDgrem = 0 ∧ t.safe = { s.safe with second := false }
     else t.regs = s.regs ∧ t.safe = s.safe))

/-- Safety inputs, test pulses and contactors (R492, R493, R500): an open channel of a used pair, outside the 400 µs of its own test dropout, and a discrepancy, demand the safe state; a closed one ends the pair's open state but not a discrepancy; a channel that reads high in its
output's dropout is a channel fault; feedback that differs from the command is a failure, and demands the safe state for an output that is off.
The model's own choices in it: assumption log 39. -/
def Obligations.SafetyInputsAreChecked : Prop :=
  ∀ s : State,
    let demanded (t : State) : Prop := getB t safeStat safeStat_Safest = true ∧ getB t safeStat safeStat_Pen = false ∧ t.mem = s.mem
    (∀ (j : Fin 8) (b : Bool), pairUsed s j = true → let c := if b then 8 + j.val else j.val
      (nbit s.safe.blank (bit b) = true → exec (.safetyChannelOpen j b) s = .next s) ∧
      (nbit s.safe.blank (bit b) = false → ∃ t, exec (.safetyChannelOpen j b) s = .next t ∧ demanded t ∧ nbit t.safe.opened c = true ∧ pairSt t j ≠ 0) ∧
      (∃ t, exec (.safetyChannelClosed j b) s = .next t ∧ t.mem = s.mem ∧ nbit t.safe.opened c = false ∧ getReg t safeStat = getReg s safeStat ∧ t.safe.disc = s.safe.disc ∧
        pairSt t j = if nbit s.safe.disc j then 2 else if nbit s.safe.opened (if b then j.val else 8 + j.val) then 1 else 0)) ∧
    (∀ j : Fin 8, pairUsed s j = true → nbit s.safe.opened j ≠ nbit s.safe.opened (8 + j.val) → nbit s.safe.disc j = false →
      ∃ t, exec (.discrepancy j) s = .next t ∧ demanded t ∧ nbit t.safe.disc j = true ∧ pairSt t j = 2 ∧ FaultHeld t 0x0E02 1 0 (pw j)) ∧
    (∀ outB : Bool, let d := if outB then 1 else 0
      (∃ t, exec (.tpoDropoutStart outB) s = .next t ∧ nbit t.safe.dropout d = true ∧ nbit t.safe.blank d = true ∧ t.regs = s.regs ∧ t.mem = s.mem) ∧
      (∃ t, exec (.tpoDropoutEnd outB) s = .next t ∧ nbit t.safe.dropout d = false ∧ t.regs = s.regs ∧ t.mem = s.mem) ∧
      (∀ (high : BitVec 8) (self : Bool), nbit s.safe.dropout d = true → ∃ t, exec (.tpoLowCheck outB high self) s = .next t ∧ t.mem = s.mem ∧
        (∀ j < 8, pairUsed s j = true → high.getLsbD j = true → getFbit t safeInflt (if outB then safeInflt_Chb else safeInflt_Cha) j = true) ∧
        (self = true → getB t safeInflt (if outB then safeInflt_Tpob else safeInflt_Tpoa) = true)) ∧
      (nbit s.safe.dropout d = false → ∃ t, exec (.tpoHighCheck outB false) s = .next t ∧ t.mem = s.mem ∧ getB t safeInflt (if outB then safeInflt_Tpob else safeInflt_Tpoa) = true) ∧
      (nbit s.safe.dropout d = false → cellFind s.safe.faults (16 + d) = none → ∃ t, exec (.tpoHighCheck outB true) s = .next t ∧ t.mem = s.mem ∧
        getB t safeInflt (if outB then safeInflt_Tpob else safeInflt_Tpoa) = false)) ∧
    (∀ (k : Fin 8) (level : Bool), outUsed s k = true →
      let on := getFbit s safeOutst safeOutst_Ener k
      let cmd := if nbit s.safe.moved k then Instr.contactorFeedbackTimeout k level else .contactorDifference k level
      ∃ t, exec cmd s = .next t ∧ t.mem = s.mem ∧ getFbit t safeOutst safeOutst_Cfb k = level ∧
        (level ≠ on → getFbit t safeOutst safeOutst_Fail k = getFbit s safeOutst safeOutst_Fail k ∧ getReg t safeStat = getReg s safeStat) ∧
        (level = on → (nbit s.safe.moved k = true ∨ getFbit s safeOutst safeOutst_Fail k = false) → getFbit t safeOutst safeOutst_Fail k = true ∧ (on = false → demanded t)))

/-- Safe messages (R501–R503): every connection in use sends one copy on each channel, in SAFE frames to its partner; of a valid copy whose partner with its SEQ is equal the data applies, and demands the safe state when its
demand bit is set; an invalid copy, like an invalid frame, is only counted; one silent channel puts the connection on one path; silence of both loses it and demands the safe state.
The model's own choices in it: assumption log 39, 60. -/
def Obligations.SafeMessagesApplyOrDemand : Prop :=
  (∀ s : State, ∃ t, exec .safeMessageSend s = .next t ∧ t.regs = s.regs ∧ t.mem = s.mem ∧ ∀ k < 8, connOn s k = true →
    (getConn t k).tx = ((getConn s k).tx + 1) % 65536 ∧ (getConn t k).sent = [msgPayload s k false (nowTime s).toNat, msgPayload s k true (nowTime s).toNat] ∧
    (addressed s = true → ∀ vc1 : Bool, let vc := if vc1 then 1 else 0
      ∀ n ∈ routePorts s vc (connNode s k) none, rUp s n = true → getFbit s (rlmPstat n) rlmPstat_Vcs vc = true → getB s (rlmPstat n) rlmPstat_Safeok = true →
        ∃ f, Sends t n f ∧ f.dst = connNode s k ∧ f.vc = vc ∧ f.type = 0x0B ∧ f.data = msgPayload s k vc1 (nowTime s).toNat)) ∧
  (∀ (s : State) (n k : Fin 8) (hdr : BitVec 64) (m : List (BitVec 8)) (crc : BitVec 32), FrameBad s n 0x0B hdr (m.map (·.toNat)) crc → isMine s hdr = true →
    ∃ t, exec (.safeMessageReceive n k hdr m crc) s = .next t ∧ t.safe = s.safe ∧ OnlyCounted s t n) ∧
  (∀ (s : State) (n k : Fin 8) (hdr : BitVec 64) (m : List (BitVec 8)) (crc : BitVec 32), RoutedOk s n 0x0B hdr (m.map (·.toNat)) crc → connOn s k = true →
    let b := m.map (·.toNat)
    let vc1 := hdrVc hdr == 1
    let seq := beNat ((b.drop 2).take 2)
    let data := beNat ((b.drop 12).take 2)
    (copyValid s k vc1 b = false → ∃ t, exec (.safeMessageReceive n k hdr m crc) s = .next t ∧ t.safe = s.safe ∧ t.mem = s.mem ∧
      getF t (safeConnst k) safeConnst_Bad = min 65535 (getF s (safeConnst k) safeConnst_Bad + 1) ∧ ∀ a, a ≠ safeConnst k → getReg t a = getReg s a) ∧
    (copyValid s k vc1 b = true → (getConn s k).copies = [⟨!vc1, seq, beNat ((b.drop 4).take 8), data⟩] →
      ∃ t, exec (.safeMessageReceive n k hdr m crc) s = .next t ∧ t.mem = s.mem ∧ getF t (safeConnst k) safeConnst_State = 2 ∧
        getB t (safeConnst k) safeConnst_Rdemand = nbit data 0 ∧ (nbit data 0 = true → getB t safeStat safeStat_Safest = true ∧ getB t safeStat safeStat_Pen = false))) ∧
  (∀ (s : State) (k : Fin 8) (missing1 : Bool) (y : Copy), (getConn s k).copies = [y] → y.chan ≠ missing1 → getF s (safeConnst k) safeConnst_State ≠ 0 →
    getF s (safeConnst k) safeConnst_State ≠ 3 → ∃ t, exec (.safeOnePath k missing1) s = .next t ∧ t.mem = s.mem ∧ getF t (safeConnst k) safeConnst_State = 3 ∧
      (cellFind t.safe.faults (32 + k.val)).isSome = true ∧ FaultHeld t 0x0E08 1 0 (pw k)) ∧
  (∀ (s : State) (k : Fin 8), getF s (safeConnst k) safeConnst_State ≠ 0 → getF s (safeConnst k) safeConnst_State ≠ 4 →
    ∃ t, exec (.safeConnectionLost k) s = .next t ∧ t.mem = s.mem ∧ getF t (safeConnst k) safeConnst_State = 4 ∧ getB t safeStat safeStat_Safest = true ∧
      getB t safeStat safeStat_Pen = false ∧ FaultHeld t 0x0E09 1 0 (pw k))

/-! ## Ralma links, fabric time -/

/-- The bring-up of a Ralma port (R513–R516): a module present in DOWN leads to reading it, its rates to SYNC, sync to NEG; a NEG with ACK and the own one sent with it
agree rate and channels, and at rate 0 the link is UP, else in SWITCH; lock with an acknowledged NEG is UP, with the partner's credits. A NEG at rate 0 in SWITCH or UP starts NEG again, an invalid one is only counted; time-outs go back; a link that goes down or
loses its module is reported. The cause words of 0x1002 are free (assumption log 42).
The model's own choices in it: assumption log 10, 42. -/
def Obligations.RalmaPortsComeUpAndGoDown : Prop :=
  ∀ (s : State) (n : Fin 8), let x := getRPort s n
    let a := rlmPstat n
    (mainRuns s = true → getB s (rlmPcfg n) rlmPcfg_En = true → getB s (rlmPcfg n) rlmPcfg_Mode = false → rState s n = 0 → ∃ t, exec (.rlmModulePresent n) s = .next t ∧ rState t n = 1 ∧
      getFbit t (rlmModdiag n) rlmModdiag_Stat 0 = true ∧ t.mem = s.mem) ∧
    (rState s n = 1 → (∀ rates b92, ∃ t, exec (.rlmModuleReadDone n 0x03 rates b92) s = .next t ∧ rState t n = 2 ∧ getRPort t n = { x with mods := rates.toNat } ∧
        getF t a rlmPstat_Rate = 0 ∧ getFbit t (rlmModdiag n) rlmModdiag_Stat 2 = b92.getLsbD 6 ∧ t.flt = s.flt ∧ t.mem = s.mem) ∧
      (∀ id rates b92, id ≠ 0x03 → ∀ c ∈ [Instr.rlmModuleReadDone n id rates b92, .rlmBringupTimeout n], ∃ t, exec c s = .next t ∧ rState t n = 2 ∧ (getRPort t n).mods = 1 ∧
        FaultHeld t 0x1004 1 0 (pw n) ∧ t.mem = s.mem)) ∧
    (rState s n = 2 → ∃ t, exec (.rlmSyncAcquired n) s = .next t ∧ rState t n = 3 ∧
      getRPort t n = { x with ack := false, ackSent := false, pAck := false, lock := false } ∧ t.mem = s.mem) ∧
    (rState s n = 2 ∨ rState s n = 3 → ∃ t, exec (.rlmBringupTimeout n) s = .next t ∧ rState t n = 0 ∧ (getRPort t n).noted = true ∧ t.mem = s.mem ∧
      (x.noted = false → RecorderRoom s 0 1 → Noted t 0x1003 0 [pw n, pw (if rState s n = 2 then 3 else 4)])) ∧
    (rState s n = 4 → ∃ t, exec (.rlmBringupTimeout n) s = .next t ∧ rState t n = 2 ∧ getF t a rlmPstat_Rate = 0 ∧
      getF t a rlmPstat_Cap = getF s a rlmPstat_Cap % 2 ^ getF s a rlmPstat_Rate ∧ t.mem = s.mem) ∧
    (rState s n = 3 ∨ rState s n = 4 → ∃ t f, exec (.negSend n) s = .next t ∧ t.rlm.sent = [(n.val, f)] ∧ f.type = 2 ∧ f.vc = 7 ∧ f.dst = 0 ∧ f.data = negPayload s n ∧ t.mem = s.mem) ∧
    (∀ r, rState s n = 3 → x.pAck = true → (x.ackSent = true ∨ x.ack = true) → commonRate (ownOffer s n) x.offer = some r → nbit x.vcs 4 = true → nbit x.vcs 7 = true →
      getFbit s (rlmPcfg n) rlmPcfg_Vcmask 4 = true → getFbit s (rlmPcfg n) rlmPcfg_Vcmask 7 = true → ∃ t, exec (.negSend n) s = .next t ∧
        rState t n = (if r = 0 then 5 else 4) ∧ getF t a rlmPstat_Rate = r ∧ getF t a rlmPstat_Vcs = getF s (rlmPcfg n) rlmPcfg_Vcmask &&& x.vcs ∧
        getB t a rlmPstat_Safeok = (getB s (rlmPcfg n) rlmPcfg_Safe && x.safe)) ∧
    (∀ (hdr uid : BitVec 64) (offer vcs : BitVec 8) safe ack units (crc : BitVec 32), hdrType hdr = 2 →
      let formed := frameFormed hdr (negBytes uid.toNat offer.toNat vcs.toNat safe ack (units.map (·.toNat))) crc
      let cmd (rate0 : Bool) := Instr.negReceived n rate0 hdr uid offer vcs safe ack units crc
      (formed = false → (rState s n = 3 ∨ rState s n = 4 ∨ rState s n = 5) → ∀ r0, ∃ t, exec (cmd r0) s = .next t ∧ OnlyCounted s t n) ∧
      (formed = true →
        (rState s n = 3 → ∃ t, exec (cmd true) s = .next t ∧ (getRPort t n).ack = true ∧ (getRPort t n).offer = offer.toNat ∧ (getRPort t n).vcs = vcs.toNat ∧
          (getRPort t n).units = units.map (·.toNat) ∧ t.mem = s.mem) ∧
        (rState s n = 4 ∨ rState s n = 5 → ∃ t, exec (cmd true) s = .next t ∧ rState t n = 3 ∧ (getRPort t n).ack = true ∧
          (getRPort t n).ackSent = false ∧ (getRPort t n).pAck = ack ∧ t.mem = s.mem ∧ (rState s n = 5 → FaultHeld t 0x1002 1 0 (pw n))) ∧
        (rState s n = 4 → ack = true → x.lock = true → ∃ t, exec (cmd false) s = .next t ∧ rState t n = 5 ∧ t.mem = s.mem))) ∧
    (rState s n = 4 → ∃ t, exec (.rlmRateLock n) s = .next t ∧ (getRPort t n).lock = true ∧ t.mem = s.mem ∧ (x.pAck = false → t.regs = s.regs) ∧
      (x.pAck = true → rState t n = 5 ∧ (∀ k, creditOf t n k = creditAll s x.units k) ∧ (RecorderRoom s 0 1 →
        Noted t 0x1001 0 [pw n, pw (getF s a rlmPstat_Rate), pw (getF s a rlmPstat_Vcs)]))) ∧
    (∀ cause, rUp s n = true → ∃ t, exec (.linkDown n cause) s = .next t ∧ rState t n = 0 ∧ (getRPort t n).claim = none ∧ (getRPort t n).owed = [] ∧
      FaultHeld t 0x1002 1 0 (pw n) ∧ t.mem = s.mem) ∧
    (getB s (rlmPcfg n) rlmPcfg_En = true → getB s (rlmPcfg n) rlmPcfg_Mode = false → ∃ t, exec (.moduleAbsent n) s = .next t ∧ rState t n = 0 ∧
      getReg t (rlmModdiag n) = 0 ∧ FaultHeld t 0x1004 1 0 (pw n) ∧ t.mem = s.mem) ∧
    (∀ temp rxp, getFbit s (rlmModdiag n) rlmModdiag_Stat 2 = true → ∃ t, exec (.moduleDiagRead n temp rxp) s = .next t ∧
      getF t (rlmModdiag n) rlmModdiag_Temp = temp.toNat ∧ getF t (rlmModdiag n) rlmModdiag_Rxp = rxp.toNat ∧ (∀ b, b ≠ rlmModdiag n → getReg t b = getReg s b) ∧ t.mem = s.mem)

/-- Links, claims, addresses, routed frames (R521, R524, R526–R529, R537): a LINK frame gives credit back; the claims decide root and parent; the root gives a free
address to its JOIN and none that another UID holds, other nodes pass JOINs to their parent; an ASSIGN gives this node its address; a routed frame goes on with its TTL one lower, or is dropped and
counted.
The model's own choices in it: assumption log 42. -/
def Obligations.RalmaFramesAndAddresses : Prop :=
  (∀ f : RFrame, f.dst < 4096 → f.src < 4096 → f.vc < 8 → f.type < 32 → f.pol < 8 → f.ttl < 64 → f.seq < 16384 → f.data.length ≤ 256 →
    headerFrame (frameHeader f) f.data = f ∧ hdrLen (frameHeader f) = f.data.length ∧
      (f.vc ∈ typeVcs f.type → frameFormed (frameHeader f) f.data (frameCrc (frameHeader f) f.data) = true)) ∧
  ∀ (s : State) (n : Fin 8), let x := getRPort s n
    let elected (t : State) (u : State) : Prop := t.rlm.best = (bestClaim u).1 ∧ t.rlm.parent = (bestClaim u).2 ∧ isRoot t = (bestClaim u).2.isNone ∧ t.mem = s.mem
    let carries (p vc : Nat) : Prop := rUp s p = true ∧ getFbit s (rlmPstat p) rlmPstat_Vcs vc = true
    (∀ (hdr : BitVec 64) (crc : BitVec 32),
      (∀ (units : List (BitVec 16)) (vc k u : Nat), FrameOk s n 1 hdr (linkBytes (units.map (·.toNat))) crc → vc < 8 → x.owed = [(vc, k, u)] → x.wait = [] →
        ∃ t, exec (.link n hdr units crc) s = .next t ∧ creditOut (getRPort t n).owed k = u - min ((units.map (·.toNat)).getD vc 0) u ∧ t.regs = s.regs ∧ t.mem = s.mem) ∧
      (∀ (prio dist : BitVec 8) (epoch : BitVec 16) (root : BitVec 64), FrameOk s n 3 hdr (claimBytes prio.toNat dist.toNat epoch.toNat root.toNat) crc →
        let c : Claim := { prio := prio.toNat, root := root.toNat, epoch := epoch.toNat, dist := min 255 (dist.toNat + 1) }
        ∃ t, exec (.claim n hdr prio dist epoch root crc) s = .next t ∧ (getRPort t n).claim = some c ∧ elected t (setRPort s n { x with claim := some c })) ∧
      (∀ (uid : BitVec 64) (want nunits wantph : BitVec 16), FrameOk s n 4 hdr (joinBytes uid.toNat want.toNat 0 nunits.toNat wantph.toNat) crc → isRoot s = true → want.toNat < 4096 →
        (cellFind s.rlm.allocs want.toNat = none → ∃ t f, exec (.join n hdr uid want 0 nunits wantph crc) s = .next t ∧ cellFind t.rlm.allocs want.toNat = some ⟨uid.toNat, 0, none⟩ ∧
          cellFind t.rlm.learned want.toNat = some (2 ^ n.val) ∧ Sends t n f ∧ f.type = 5 ∧ f.data = assignBytes uid.toNat want.toNat 0 0xFFFF nunits.toNat ∧ t.mem = s.mem) ∧
        (∀ y, cellFind s.rlm.allocs want.toNat = some y → y.uid ≠ uid.toNat → ∃ t f, exec (.join n hdr uid want 0 nunits wantph crc) s = .next t ∧ t.rlm.allocs = s.rlm.allocs ∧
          Sends t n f ∧ f.data = assignBytes uid.toNat 0xFFFF 1 0xFFFF nunits.toNat ∧ t.mem = s.mem)) ∧
      (∀ uid want group nunits wantph p, FrameOk s n 4 hdr (joinBytes uid.toNat want.toNat group.toNat nunits.toNat wantph.toNat) crc → isRoot s = false → s.rlm.parent = some p →
        p ≠ n.val → carries p 7 → ∃ t f, exec (.join n hdr uid want group nunits wantph crc) s = .next t ∧ Sends t p f ∧
        f.type = 4 ∧ f.data = joinBytes uid.toNat want.toNat group.toNat nunits.toNat wantph.toNat ∧ cellFind t.rlm.joins uid.toNat = some (n.val + 8 * s.time) ∧ t.mem = s.mem) ∧
      (∀ (addr phase nunits : BitVec 16), isRoot s = false → getF s rlmGrpcfg rlmGrpcfg_Group = 0 →
        (addr.toNat < 4096 → FrameOk s n 5 hdr (assignBytes s.dev.uid.toNat addr.toNat 0 phase.toNat nunits.toNat) crc →
          ∃ t, exec (.assign n hdr s.dev.uid addr 0 phase nunits crc) s = .next t ∧ getF t rlmNode rlmNode_Addr = addr.toNat ∧ getB t rlmNode rlmNode_Addrv = true ∧
          t.rlm.prev = some addr.toNat ∧ t.mem = s.mem) ∧
        (FrameOk s n 5 hdr (assignBytes s.dev.uid.toNat 0xFFFF 1 phase.toNat nunits.toNat) crc →
          ∃ t, exec (.assign n hdr s.dev.uid 0xFFFF 1 phase nunits crc) s = .next t ∧ getB t rlmNode rlmNode_Addrv = false ∧ FaultHeld t 0x1007 1 0 (pw (wantAddr s)) ∧ t.mem = s.mem))) ∧
    (carries n 7 → ∃ t f, exec (.linkSend n) s = .next t ∧ (getRPort t n).ret = [] ∧ Sends t n f ∧ f.type = 1 ∧
        f.data = linkBytes ((upto 8).map (cellGet 0 x.ret)) ∧ t.regs = s.regs ∧ t.mem = s.mem) ∧
    (mainRuns s = true → ∃ t, exec .claimSend s = .next t ∧ t.rlm.epoch = (if isRoot s then (s.rlm.epoch + 1) % 65536 else s.rlm.epoch) ∧
      t.rlm.best = (bestClaim { s with rlm := { s.rlm with epoch := t.rlm.epoch } }).1 ∧ t.mem = s.mem) ∧
    (mainRuns s = true → ∃ t, exec (.claimDiscard n) s = .next t ∧ (getRPort t n).claim = none ∧ elected t (setRPort s n { x with claim := none })) ∧
    (∀ p, s.rlm.parent = some p → settled s = true → carries p 7 → ∃ t f, exec .joinSend s = .next t ∧ Sends t p f ∧ f.type = 4 ∧
      f.data = joinBytes (ownUid s) (wantAddr s) (getF s rlmGrpcfg rlmGrpcfg_Group) (getF s rlmGrpcfg rlmGrpcfg_Nunits) (getF s rlmGrpstat rlmGrpstat_Cphase) ∧ t.mem = s.mem) ∧
    (∀ addr : Fin 4096, (isRoot s = false ∨ getF s rlmNode rlmNode_Addr ≠ addr.val) → ∃ t, exec (.allocationFree addr) s = .next t ∧ cellFind t.rlm.allocs addr = none ∧
      cellFind t.rlm.learned addr = none ∧ t.regs = s.regs ∧ t.mem = s.mem) ∧
    (∀ (hdr : BitVec 64) (data : List (BitVec 8)) (crc : BitVec 32), let l := data.map (·.toNat)
      (FrameBad s n (hdrType hdr) hdr l crc → ∃ t, exec (.routedFrameForward n hdr data crc) s = .next t ∧ t.rlm.sent = [] ∧ OnlyCounted s t n) ∧
      (FrameOk s n (hdrType hdr) hdr l crc → 11 ≤ hdrType hdr →
        (isMine s hdr = true → ∃ t, exec (.routedFrameForward n hdr data crc) s = .next t ∧ t.rlm.sent = [] ∧ t.regs = s.regs ∧ t.mem = s.mem) ∧
        (isMine s hdr = false →
          (∀ m, 1 < hdrTtl hdr → routePorts s (hdrVc hdr) (hdrDst hdr) (some n.val) = [m] → carries m (hdrVc hdr) → (hdrType hdr = 11 → getB s (rlmPstat m) rlmPstat_Safeok = true) →
            ((hdrVc hdr = 4 ∨ hdrVc hdr = 5) → vcWeight s (hdrVc hdr) (hdrPol hdr) ≠ 0) →
            ∃ t, exec (.routedFrameForward n hdr data crc) s = .next t ∧ Sends t m { headerFrame hdr l with ttl := hdrTtl hdr - 1 } ∧ t.mem = s.mem) ∧
          (hdrTtl hdr ≤ 1 ∨ routePorts s (hdrVc hdr) (hdrDst hdr) (some n.val) = [] → ∃ t, exec (.routedFrameForward n hdr data crc) s = .next t ∧ t.rlm.sent = [] ∧
            getF t (rlmPerr n) rlmPerr_Drop = min (fldCard rlmPerr_Drop - 1) (getF s (rlmPerr n) rlmPerr_Drop + 1) ∧ t.mem = s.mem)))) ∧
    (∀ f, x.wait.find? (fun f => f.type == 0x14 && f.src == getF s rlmNode rlmNode_Addr) = some f → ∃ t, exec (.eventFrameDrop n) s = .next t ∧
      (getRPort t n).wait = x.wait.erase f ∧ getF t rlmEvdst rlmEvdst_Drop = min (fldCard rlmEvdst_Drop - 1) (getF s rlmEvdst rlmEvdst_Drop + 1) ∧
      (∀ b, b ≠ rlmEvdst → getReg t b = getReg s b) ∧ t.mem = s.mem)

/-- Fabric time and tick alignment (R531–R534): the master of a link sends SYNC and FOLLOW and answers DREQ with its time; the slave keeps its capture times, takes TBASE from
a valid FOLLOW, and from DRESP gets delay and offset: within STEPTH it steers, beyond it steps its time; holdover, lock and loss of lock are shown and reported; TCTL.SET moves the root's time and TBASE alike. Halves of odd numbers
round freely (assumption log 42).
The model's own choices in it: assumption log 9, 42. -/
def Obligations.FabricTimeFollowsTheMaster : Prop :=
  ∀ (s : State) (n : Fin 8), let now := (nowTime s).toNat
    (rUp s n = true → getFbit s (rlmPstat n) rlmPstat_Vcs 2 = true → isParent s n = false → ∃ t f g, exec (.timeExchangeStart n) s = .next t ∧ Sends t n f ∧ f.type = 6 ∧
      Sends t n g ∧ g.type = 7 ∧ g.data = followBytes now (get64 s (rlmTbaselo 0)) (period s) s.rlm.best.root (if getB s rlmTstat rlmTstat_Tvalid then 1 else 0) ∧
      t.regs = s.regs ∧ t.mem = s.mem) ∧
    (∀ (hdr : BitVec 64) (crc : BitVec 32),
      (FrameOk s n 8 hdr [] crc → isParent s n = false → ∃ t f, exec (.dreq n hdr crc) s = .next t ∧ Sends t n f ∧ f.type = 9 ∧ f.data = beBytes 8 now ∧ t.regs = s.regs ∧ t.mem = s.mem) ∧
      (isParent s n = true →
        (FrameOk s n 6 hdr [] crc → ∃ t, exec (.sync n hdr crc) s = .next t ∧ t.rlm.t2 = now ∧ t.time = s.time ∧ t.regs = s.regs ∧ t.mem = s.mem) ∧
        (∀ (t1 tbase : BitVec 64) (per : BitVec 16) (root : BitVec 64) (valid : BitVec 8), root.toNat = s.rlm.best.root → valid ≠ 0 →
          FrameOk s n 7 hdr (followBytes t1.toNat tbase.toNat per.toNat root.toNat valid.toNat) crc → ∃ t f, exec (.follow n hdr t1 tbase per root valid crc) s = .next t ∧
          get64 t (rlmTbaselo 0) = tbase.toNat ∧ t.rlm.t1 = t1.toNat ∧ t.rlm.t3 = now ∧ t.rlm.follow = some (tbase.toNat, per.toNat, root.toNat) ∧ Sends t n f ∧ f.type = 8 ∧
          t.time = s.time ∧ t.mem = s.mem) ∧
        (∀ t4 : BitVec 64, FrameOk s n 9 hdr (beBytes 8 t4.toNat) crc → s.rlm.follow.isSome = true →
          let up : Int := (s.rlm.t2 : Int) - s.rlm.t1
          let down : Int := (t4.toNat : Int) - s.rlm.t3
          let o := halve (up - down - signed 16 (getF s (rlmPdly n) rlmPdly_Asym))
          ∃ t, exec (.dresp n hdr t4 crc) s = .next t ∧ getB t rlmTstat rlmTstat_Tvalid = true ∧ getB t rlmTstat rlmTstat_Holdover = false ∧
            t.rlm.exchanged = true ∧ getF t (rlmPdly n) rlmPdly_Ldly = unsigned 16 (halve (up + down)) ∧ t.mem = s.mem ∧
            if o.natAbs ≤ 1000 * getF s rlmTctl rlmTctl_Stepth then t.rlm.steer = o ∧ t.time = s.time
            else t.rlm.steer = 0 ∧ t.time = unsigned 64 ((s.time : Int) - o)))) ∧
    (∀ p, s.rlm.parent = some p → getB s rlmTstat rlmTstat_Holdover = false → ∃ t, exec .holdoverEntry s = .next t ∧ getB t rlmTstat rlmTstat_Holdover = true ∧
      FaultHeld t 0x1008 1 0 (pw p) ∧ t.mem = s.mem) ∧
    (getF s rlmTstat rlmTstat_Align = 1 → 64 ≤ s.rlm.goodRun → ∃ t, exec .alignLocked s = .next t ∧ getF t rlmTstat rlmTstat_Align = 2 ∧
      (∀ b, b ≠ rlmTstat → getReg t b = getReg s b) ∧ t.mem = s.mem) ∧
    (getF s rlmTstat rlmTstat_Align = 2 → 64 ≤ s.rlm.badRun → ∃ t, exec .alignLost s = .next t ∧ getF t rlmTstat rlmTstat_Align = 1 ∧
      FaultHeld t 0x100A 1 0 (wordOfInt (signed 16 (getF s rlmTstat rlmTstat_Terr))) ∧ t.mem = s.mem) ∧
    (∀ src, HostReady s src 0 rlmTctl → let step : Int := (get64 s (rlmTsetlo 0) : Int) - now
      ∃ t, exec (.tctlSet src) s = .next t ∧ Answered t [] ∧ t.mem = s.mem ∧
        if isRoot s then t.time = unsigned 64 ((s.time : Int) + step) ∧ get64 t (rlmTbaselo 0) = unsigned 64 ((get64 s (rlmTbaselo 0) : Int) + step)
        else t.time = s.time ∧ get64 t (rlmTbaselo 0) = get64 s (rlmTbaselo 0))

/-! ## Duplex pairs, Ethernet -/

/-- Duplex pairs and Ethernet ports (R540, R541, R544, R546): HEART goes out on both paths with the tick count, and shows the scores; a received HEART of this tick counts, and marks its path; 8 ticks
without one lose it; only the partner's frames count; the unit ACTIVE sends its mirror ranges, the other keeps what arrives; a received frame fills the next free slot of its ring, a full ring or a bad frame is counted; a full
transmit slot is sent and freed.
The model's own choices in it: assumption log 43, 44. -/
def Obligations.DuplexAndEthernetFrames : Prop :=
  (∀ s : State, getB s rlmDupcfg rlmDupcfg_En = true →
    (s.dev.tickRun = true → addressed s = true → ∃ t f, exec .heartSend s = .next t ∧ f.type = 0x0C ∧ f.vc = 3 ∧ f.dst = getF s rlmDupcfg rlmDupcfg_Partner ∧ f.data.length = 36 ∧
      f.data.take 4 = beBytes 4 s.tick.count.toNat ∧ (∀ n ∈ dupPorts s, rUp s n = true → getFbit s (rlmPstat n) rlmPstat_Vcs 3 = true → Sends t n f) ∧ t.mem = s.mem ∧
      ∀ p < 8, getF t (rlmDupst p) rlmDupst_Score = (if paired s p then dupScore s p else 0) ∧ dupRole t p = dupRole s p) ∧
    (∀ (n : Fin 8) (hdr : BitVec 64) (tick : BitVec 32) (ws : List (BitVec 32)) (crc : BitVec 32), RoutedOk s n 0x0C hdr (heartBytes tick.toNat (ws.map (·.toNat))) crc →
      hdrSrc hdr = getF s rlmDupcfg rlmDupcfg_Partner → n.val = getF s rlmDupcfg rlmDupcfg_Porta → ∃ t, exec (.heart n hdr tick ws crc true) s = .next t ∧
      getFbit t rlmDuppath rlmDuppath_Ok 0 = true ∧ t.rlm.missA = 0 ∧ t.rlm.heart = (if tick = s.tick.count.setWidth 32 then some ws else s.rlm.heart) ∧ t.mem = s.mem) ∧
    (∀ portB : Bool, 8 ≤ (if portB then s.rlm.missB else s.rlm.missA) → getFbit s rlmDuppath rlmDuppath_Ok (bit portB) = true → ∃ t, exec (.duplexPathLost portB) s = .next t ∧
      getFbit t rlmDuppath rlmDuppath_Ok (bit portB) = false ∧ FaultHeld t 0x100E 1 0 (pw (getF s rlmDupcfg (if portB then rlmDupcfg_Portb else rlmDupcfg_Porta))) ∧ t.mem = s.mem)) ∧
  (∀ (s : State) (p : Fin 8), s.dev.tickRun = true →
    let n := getF s rlmDupcfg (if getFbit s rlmDuppath rlmDuppath_Ok 0 then rlmDupcfg_Porta else rlmDupcfg_Portb)
    (∀ d, dupRole s p = 2 → (upto 8).flatMap (mirFrames s p) = [d] → addressed s = true → rUp s n = true → getFbit s (rlmPstat n) rlmPstat_Vcs 3 = true → ∃ t f, exec (.mirrorSend p) s = .next t ∧ Sends t n f ∧ f.type = 0x0D ∧ f.pol = p.val ∧ f.data = d ∧
      t.regs = s.regs ∧ t.mem = s.mem) ∧
    (dupRole s p ≠ 2 → ∃ t, exec (.mirrorSend p) s = .next t ∧ t.rlm.sent = [] ∧ t.regs = s.regs ∧ t.mem = s.mem)) ∧
  (∀ (s : State) (n : Fin 8) (hdr : BitVec 64) (tick : BitVec 32) (k : BitVec 8) (off : BitVec 16) (data : List (BitVec 32)) (crc : BitVec 32), let p := hdrPol hdr
    RoutedOk s n 0x0D hdr (mirBytes tick.toNat k.toNat off.toNat data) crc → hdrSrc hdr = getF s rlmDupcfg rlmDupcfg_Partner → paired s p = true → (dupRole s p = 1 ∨ dupRole s p = 3) →
    ∃ t, exec (.mirror n hdr tick k off data crc) s = .next t ∧ t.rlm.mirror = s.rlm.mirror ++ [(tick.toNat, p, k.toNat, off.toNat, data)] ∧ t.regs = s.regs ∧ t.mem = s.mem) ∧
  (∀ (s : State) (e : Fin 2), ethOn s e = true →
    (∀ (data : List (BitVec 8)) (fcs : BitVec 32), let a := ringSlot s e 0 (getEth s e).rx
      let good := ethFcs (data.map (·.toNat)) = wordBytes fcs
      (¬good ∨ data.length < 60 ∨ 1518 < data.length → ∃ t, exec (.ethernetRxFrame e data fcs) s = .next t ∧ t.mem = s.mem ∧ t.eth = s.eth ∧
        getF t (rlmEthcnt e) rlmEthcnt_Rxerr = min (fldCard rlmEthcnt_Rxerr - 1) (getF s (rlmEthcnt e) rlmEthcnt_Rxerr + 1)) ∧
      (good → 60 ≤ data.length → data.length ≤ 1518 → ethMine s e (data.map (·.toNat)) = true →
        (nbit (rdWord s a).toNat 31 = true → ∃ t, exec (.ethernetRxFrame e data fcs) s = .next t ∧ t.mem = s.mem ∧ t.eth = s.eth ∧
          getF t (rlmEthcnt e) rlmEthcnt_Rxdrop = min (fldCard rlmEthcnt_Rxdrop - 1) (getF s (rlmEthcnt e) rlmEthcnt_Rxdrop + 1)) ∧
        (nbit (rdWord s a).toNat 31 = false → ∃ t, exec (.ethernetRxFrame e data fcs) s = .next t ∧ rdWord t a = pw (2 ^ 31 + data.length) ∧ t.regs = s.regs ∧
          (∀ i < data.length, rdByte t (a + 4 + i) = data.getD i 0) ∧ MemoryKept s t a (a + 4 + data.length) ∧
          (getEth t e).rx = ((getEth s e).rx + 1) % ringSlots s e 0))) ∧
    (let a := ringSlot s e 1 (getEth s e).tx
     nbit (rdWord s a).toNat 31 = true → ∃ t, exec (.ethernetTxSlot e) s = .next t ∧ rdWord t a = rdWord s a &&& 0x7FFFFFFF ∧ MemoryKept s t a (a + 4) ∧ t.regs = s.regs ∧
        (let l := (upto ((rdWord s a).toNat % 2048)).map fun i => (rdByte s (a + 4 + i)).toNat
         (getEth t e).sent = l ++ ethFcs l) ∧ (getEth t e).tx = ((getEth s e).tx + 1) % ringSlots s e 1))

/-! ## Update -/

/-- Writing, verifying and arming the inactive slot (R581–R584, R587, R588): PROG at the start of a page writes its culvert page, ACTMARK erased, and an offset inside a page or outside the slot is refused; the read-back
decides; a read of the SQ0 window that waited too long ends with an error; VERIFY leads to VERIFIED or IDLE with its RESULT; ARM with every check passed leads to ARMING, and to ARMED when the image stands in
the shadow banks; a refused one is reported; CANCEL leads back; the running slot's mark is one above the other's.
The model's own choices in it: assumption log 49. -/
def Obligations.UpdateWritesVerifiesArms : Prop :=
  ∀ s : State,
    (∀ src, HostReady s src 0 updCmd → let off := (getReg s updProgoff).toNat
      let stays (t : State) (result : Nat) : Prop := getF t updStat updStat_Result = result ∧ updState t = updState s ∧ t.upd = s.upd
      (∃ t, exec (.prog src) s = .next t ∧ Answered t [] ∧ t.mem = s.mem ∧
        (updBusy s = true → stays t 0xA) ∧
        (updBusy s = false → off % 4096 ≠ 0 ∨ outsideSlot s off = true → stays t 0xE ∧ FaultHeld t 0x1203 1 0 (pw off)) ∧
        (updBusy s = false → off % 4096 = 0 → outsideSlot s off = false → updState t = 1 ∧ t.upd.prog = some off ∧ t.upd.verified = none ∧
          ∀ i < 4096, cellGet 0xFF t.upd.flash (off + i) =
            if off = 0 ∧ 0xFF8 ≤ i ∧ i < 0xFFC then 0xFF else rdByte s (pageBase (getF s updProgsrc updProgsrc_Page) + i))) ∧
      (∃ t, exec (.verify src) s = .next t ∧ Answered t [] ∧ t.mem = s.mem ∧
        if updBusy s = true ∨ updState s = 5 then stays t 0xA else updState t = 2 ∧ getF t updStat updStat_Result = 0) ∧
      (∀ disrupt x, ArmReady s x disrupt (actAt s) → ∃ t, exec (.arm src disrupt) s = .next t ∧ Answered t [] ∧ t.mem = s.mem ∧ updState t = 4 ∧
        getF t updStat updStat_Result = 0 ∧ t.upd.disrupt = disrupt ∧ t.upd.loaded = false ∧ get64 t (updActticklo 0) = targetTick s (actAt s) % 2 ^ 48) ∧
      (∀ disrupt, (s.upd.verified = none ∨ updState s ≠ 3) → ∃ t, exec (.arm src disrupt) s = .next t ∧ Answered t [] ∧ t.mem = s.mem ∧ updState t = updState s ∧
        getF t updStat updStat_Result = 0xF ∧ FaultHeld t 0x1207 1 0 (pw 0xF)) ∧
      (∃ t, exec (.updCancel src) s = .next t ∧ Answered t [] ∧ t.mem = s.mem ∧
        if updState s = 5 ∧ s.upd.actDue = false then updState t = 3 ∧ t.upd = { s.upd with loaded := false } else t.regs = s.regs ∧ t.upd = s.upd)) ∧
    (∀ ok off, s.upd.prog = some off → ∃ t, exec (.progDone ok) s = .next t ∧ t.mem = s.mem ∧ t.upd.prog = none ∧ updState t = 0 ∧
      getF t updStat updStat_Result = (if ok then 0 else 0xE) ∧ (ok = false → FaultHeld t 0x1203 1 0 (pw off))) ∧
    (∀ r rest, updState s = 1 → getF s (sqCfg 0) sqCfg_Wsel = 0 → (getSq s 0).reads = r :: rest → r.who = .host → ∃ t, exec .sq0ReadWaitTimeout s = .next t ∧
      t.dike.resp = ⟨true, []⟩ ∧ (getSq t 0).reads = rest ∧ t.regs = s.regs ∧ t.mem = s.mem) ∧
    (∀ x, updState s = 2 → RecorderRoom s 0 1 → let r := slotResult s x
      ∃ t, exec (.verifyDone x) s = .next t ∧ t.mem = s.mem ∧ updState t = (if r = 0 then 3 else 0) ∧ getF t updStat updStat_Result = r ∧ Noted t 0x1204 0 [pw r, x.image.imgVer] ∧
        (r = 0 → t.upd.verified = some x ∧ getReg t updInactver = x.image.imgVer)) ∧
    (∀ x, updState s = 4 → s.upd.verified = some x → ∃ t, exec .armLoadDone s = .next t ∧ updState t = 5 ∧ t.upd.loaded = true ∧ t.pending = s.pending) ∧
    (getB s updStat updStat_Marked = false → let n := getF s updStat updStat_Slot
      ∃ t, exec .actmarkWritten s = .next t ∧ getReg t (updMarka n) = getReg s (updMarka (1 - n)) + 1 ∧ getB t updStat updStat_Marked = true ∧ t.mem = s.mem)

/-- Boot, keys, scheduled actions, ROM recovery (R575–R580, R589–R591): BOOT_START takes the newest slot that passes, else enters ROM recovery with 0x1202; the SVN counter only advances; SCHED frames arm, set the period change and cancel; RECOVER of a good image restarts.
The model's own choices in it: assumption log 7, 49. -/
def Obligations.BootKeysAndSchedule : Prop :=
  ∀ s : State,
    (∀ dir a b sfdp, s.dev.phase = .released →
      (∀ k x, (bootTries s.upd.prefer a b).find? (fun y => slotResult s y.2 == 0) = some (k, x) → (∃ d, directory dir = some d ∧ dirOk sfdp d.1 d.2.1 d.2.2 = true) →
        ∃ t, exec (.bootStart dir a b sfdp) s = .next t ∧ t.dev.phase = .loaded ∧ t.img.bootLoad = some (k, x.image, x.params) ∧ getF t updStat updStat_Slot = k ∧
          getB t updStat updStat_Marked = (s.upd.prefer != some k) ∧           t.upd.keyHash = x.keyHash ∧ getReg t (updMarka 0) = a.actMark ∧ getReg t (updMarka 1) = b.actMark ∧ t.mem = s.mem) ∧
      (directory dir = none → ∃ t w, exec (.bootStart dir a b sfdp) s = .next t ∧ t.dev.phase = .recovery ∧ updState t = 6 ∧ FaultHeld t 0x1202 2 0 w ∧
        (∀ c, 0x40000000 ≤ c → c < 0x41000000 → rdByte t c = 0) ∧ MemoryKept s t 0x40000000 0x41000000)) ∧
    (∀ src, HostReady s src 0 updCmd →
      (∃ t, exec (.svnlock src 0x9D) s = .next t ∧ Answered t [] ∧ t.mem = s.mem ∧ otpSvn t = max (otpSvn s) (min (getReg s imgActsvn).toNat 127)) ∧
      (∀ key : BitVec 8, key ≠ 0x9D → ∃ t, exec (.svnlock src key) s = .next t ∧ Answered t [] ∧ t.regs = s.regs ∧ t.mem = s.mem)) ∧
    (∀ (n : Fin 8) (hdr at' : BitVec 64) (crc : BitVec 32),
      (∀ ver, SchedTaken s n hdr (schedBytes 1 at'.toNat ver.toNat) crc →
        (∀ x, ArmReady s x false at'.toNat → s.dev.phase = .running → getReg s updInactver = ver → ∃ t, exec (.schedActivate n hdr at' ver crc) s = .next t ∧ updState t = 4 ∧
          t.upd.disrupt = false ∧ actAt t = at'.toNat ∧ t.mem = s.mem) ∧
        (getReg s updInactver ≠ ver → ∃ t, exec (.schedActivate n hdr at' ver crc) s = .next t ∧ updState t = updState s ∧ FaultHeld t 0x1207 1 0 (pw 0xF) ∧ t.mem = s.mem)) ∧
      (∀ per : BitVec 32, SchedTaken s n hdr (schedBytes 2 at'.toNat per.toNat) crc →
        if per.toNat < 16384 then ∃ t, exec (.schedPeriodChange n hdr at' per crc) s = .next t ∧ get64 t (updPchatlo 0) = at'.toNat ∧ t.mem = s.mem ∧
          getB t updPchper updPchper_Valid = true ∧ getF t updPchper updPchper_Period = per.toNat
        else ∃ t, exec (.schedPeriodChange n hdr at' per crc) s = .next t ∧ getReg t updPchper = getReg s updPchper ∧ FaultHeld t 0x1207 1 0 (pw 0xF) ∧ t.mem = s.mem) ∧
      (SchedTaken s n hdr (schedBytes 3 at'.toNat 2) crc → RecorderRoom s 0 1 → getB s updPchper updPchper_Valid = true → s.upd.pchDue = false →
        ∃ t, exec (.schedCancel n hdr at' 2 crc) s = .next t ∧ t.mem = s.mem ∧ t.upd = s.upd ∧
        getB t updPchper updPchper_Valid = decide (get64 s (updPchatlo 0) ≠ at'.toNat) ∧ Noted t 0x120A 0 [if get64 s (updPchatlo 0) = at'.toNat then 1 else 0, 2, pw at'.toNat])) ∧
    (∀ src p x, s.dev.phase = .recovery → sourcePolder s src = some p → let size := s.upd.dirSize.getD (newSlotSize s.upd.sfdp)
      let room := decide (0x1000 + getF s updProglen updProglen_Len ≤ size * 65536)
      (slotResult s x = 0 → room = true → ∃ t, exec (.recover src x) s = .next t ∧ t.dev.phase = .released ∧ getB t sysRstcause sysRstcause_Hrstn = true ∧ t.mem = []) ∧
      (slotResult s x ≠ 0 ∨ room = false → ∃ t, exec (.recover src x) s = .next t ∧ t.dev.phase = .recovery ∧ t.mem = s.mem ∧
        getF t updStat updStat_Result = if slotResult s x ≠ 0 then slotResult s x else 0xE))

/-- REVOKE (R576): with its key it sets the revoke bit of SKHk, and no other, unless SKHk is the key of the running slot or no other SKH would stay unrevoked; without it, it changes nothing. -/
def Obligations.RevokeBlowsOneFuse : Prop :=
  ∀ (s : State) (src : Source) (k : Fin 4), HostReady s src 0 updCmd →
    let revoked (u : State) (j : Nat) : Bool := getFbit u updOtpkey updOtpkey_Revoked j
    let active : Prop := s.img.active.isSome = true ∧ s.dev.skh.getD k 0 = s.upd.keyHash
    let other : Prop := ∃ j < 4, j ≠ k.val ∧ revoked s j = false
    (other → ¬active → ∃ t, exec (.revoke src 0x9D k) s = .next t ∧ Answered t [] ∧ t.mem = s.mem ∧ ∀ j < 4, revoked t j = (revoked s j || j == k.val)) ∧
    (active ∨ ¬other → ∃ t, exec (.revoke src 0x9D k) s = .next t ∧ Answered t [] ∧ t.regs = s.regs ∧ t.mem = s.mem) ∧
    (∀ key : BitVec 8, key ≠ 0x9D → ∃ t, exec (.revoke src key k) s = .next t ∧ Answered t [] ∧ t.regs = s.regs ∧ t.mem = s.mem)

/-! ## Resets, clocks, tick boundary -/

/-- The resets of the whole device (R29, R30, R32, R33, R39, R40, R60, R483, R613): power-on reset, loss and return of the main supplies and HRSTN leave every register of the main dies at its reset value and
memory zero, with their RSTCAUSE bit; HRSTN's release starts clocks and ticks unless the straps are reserved; tick loss stops the ticks, brings every polder to mode 0, drops what was formed for the edge and
is a fault of class 3; the tick restarts with the APLL's lock. Where no reset value is given, zero is the model's (assumption log 3, 45).
The model's own choices in it: assumption log 3, 45, 61, 82. -/
def Obligations.ResetsLeaveTheirState : Prop :=
  ∀ s : State,
    let cleared (t : State) : Prop := t.mem = [] ∧ t.pending = s.pending ∧ ∀ a, survives a = false → getReg t a = regReset a
    (∀ switches loop, ∃ t, exec (.powerOnReset switches loop) s = .next t ∧ cleared t ∧ t.dev.phase = .held ∧ getReg t sysRstcause = fset 0 sysRstcause_Por 1 ∧
      getF t safeCfg safeCfg_Switches = switches.toNat ∧ t.recorder.tail = s.recorder.tail ∧ t.recorder.mram = s.recorder.mram ∧ t.met.keep = s.met.keep) ∧
    (∀ mon vst, mainOn s = true → s.keep.alive = true → ∃ t, exec (.mainSuppliesLost mon vst) s = .next t ∧ cleared t ∧ t.dev.phase = .off ∧ mainOn t = false ∧
      ((s.recorder.scanning = true ∧ s.recorder.keepQ.length + 9 ≤ 256) ∨ (s.recorder.scanning = false ∧ vst.toNat < 2400 ∧ s.recorder.keepQ.length < 256) → ∃ e ∈ t.recorder.keepQ, e.code = 0x0F20 ∧ e.params = [mon, pw vst.toNat])) ∧
    (∀ switches loop, s.dev.phase = .off → RecorderRoom s 0 1 → ∃ t, exec (.mainSuppliesReturn switches loop) s = .next t ∧ cleared t ∧ t.dev.phase = .held ∧ mainOn t = true ∧
      getReg t sysRstcause = fset 0 sysRstcause_Keepsurv 1) ∧
    (s.dev.phase ≠ .off → ∃ t, exec .hrstnAssert s = .next t ∧ cleared t ∧ t.dev.phase = .held ∧ getB t sysRstcause sysRstcause_Hrstn = true ∧ t.keep = s.keep ∧ t.recorder.mram = s.recorder.mram) ∧
    (∀ straps : BitVec 2, s.dev.phase = .held → ∃ t, exec (.hrstnRelease straps) s = .next t ∧ t.dev.phase = .released ∧ getF t clkRefcfg clkRefcfg_Rsel = straps.toNat ∧ mainOn t = true ∧ t.mem = s.mem ∧
      if straps = 3 then t.dev.tickRun = s.dev.tickRun
      else t.dev.tickRun = true ∧ getB t clkStat clkStat_Refok = true ∧ getB t clkStat clkStat_Alock = true ∧ getB t clkStat clkStat_Srch = true) ∧
    (s.dev.tickRun = true → ∃ t, exec .tickLoss s = .next t ∧ t.dev.tickRun = false ∧ t.dev.tickLost = true ∧ getB t sysRstcause sysRstcause_Tickloss = true ∧
      (∀ p < 8, curMode t p = 0) ∧ t.tick.sets = [] ∧ t.tick.nextMode = [] ∧ FaultHeld t 0x0310 3 0 0 ∧ getB t updPchper updPchper_Valid = false) ∧
    (s.dev.tickRun = false → s.dev.tickLost = true → getB s clkStat clkStat_Alock = true → ∃ t, exec .tickRestart s = .next t ∧ t.dev.tickRun = true ∧ t.dev.tickLost = false ∧ t.mem = s.mem ∧
      ∀ p, p ∈ t.flt.isol ↔ p ∈ s.flt.isol ∧ (inReset s p = true ∨ (cellFind s.dev.resetReq p).isSome = true))

/-- The clocks and the tick boundary (R54, R63, R64, R615, R618, R619, R622–R625): the band table ends the search and decides which profiles are valid; a hop ends with its event; an unlocked PLL gates its output, counts and is a fault of
class 3, the APLL's stops the ticks; loss of REFCLK gates both and takes the Ralma links down; relock releases; the ball of a gated PLL is low. The cut-off forms the set that GO asked for; the sampling point shows the condition bits and picks the first rule that
matches; an edge moves the count. The phase words and the code of the PLL in 0x0204 are free (assumption log 45).
The model's own choices in it: assumption log 10, 45, 50, 61, 73, 75. -/
def Obligations.ClocksAndTickBoundary : Prop :=
  ∀ s : State,
    (∀ table : List (BitVec 16 × BitVec 16), getB s clkStat clkStat_Srch = true → let bands := table.map fun b => (b.1.toNat, b.2.toNat)
      ∃ t, exec (.bandTableDone table) s = .next t ∧ getB t clkStat clkStat_Srch = false ∧ getB t clkStat clkStat_Clock = true ∧ t.clk.bands = bands ∧ t.mem = s.mem ∧
        ∀ k < 8, getB t (clkCprof k) clkCprof_Valid = (getB s (clkCprof k) clkCprof_En && (bandFor bands (getF s (clkCprof k) clkCprof_Freq)).isSome)) ∧
    (getB s clkStat clkStat_Hop = true → RecorderRoom s 0 1 → ∃ t, exec .hopEnd s = .next t ∧ getB t clkStat clkStat_Hop = false ∧
      Noted t 0x0205 0 [pw s.clk.hopFrom, pw (getF s clkCsel clkCsel_Prof), pw (fvMHz s)] ∧ t.mem = s.mem) ∧
    (pllsRun s = true →
      (∀ phase, s.clk.gateC = false → ∃ t, exec (.pllUnlock false phase) s = .next t ∧ t.clk.gateC = true ∧ getB t clkStat clkStat_Clock = false ∧ lockPinC t = false ∧ t.mem = s.mem ∧
        getF t clkLoss clkLoss_Closs = min (fldCard clkLoss_Closs - 1) (getF s clkLoss clkLoss_Closs + 1) ∧ getFbit t fltHknow fltHknow_Src 23 = true ∧
        (getFbit s fltHknow fltHknow_Src 23 = false → getFbit s fltHkstat fltHkstat_Src 23 = false → FaultHeld t 0x0201 3 0 phase)) ∧
      (∀ phase, s.clk.gateA = false → ∃ t, exec (.pllUnlock true phase) s = .next t ∧ t.clk.gateA = true ∧ getB t clkStat clkStat_Alock = false ∧ lockPinA t = false ∧ t.dev.tickRun = false ∧
        (getFbit s fltHknow fltHknow_Src 24 = false → getFbit s fltHkstat fltHkstat_Src 24 = false → FaultHeld t 0x0202 3 0 phase)) ∧
      (∀ freq phaseC phaseA, getB s clkStat clkStat_Refok = true → ∃ t, exec (.refclkLost freq phaseC phaseA) s = .next t ∧ getB t clkStat clkStat_Refok = false ∧ t.clk.gateC = true ∧ t.clk.gateA = true ∧
        t.dev.tickRun = false ∧ (∀ n < 8, rUp s n = true → rState t n = 0) ∧
        (getFbit s fltHknow fltHknow_Src 25 = false → getFbit s fltHkstat fltHkstat_Src 25 = false → FaultHeld t 0x0203 3 0 freq)) ∧
      (∃ t, exec .refclkPresent s = .next t ∧ getB t clkStat clkStat_Refok = true ∧ getFbit t fltHknow fltHknow_Src 25 = false ∧ t.flt = s.flt ∧ t.mem = s.mem)) ∧
    (∀ us, getB s clkStat clkStat_Refok = true → RecorderRoom s 0 1 →
      (s.clk.gateA = true → ∃ t, exec (.pllRelock true us) s = .next t ∧ t.clk.gateA = false ∧ getB t clkStat clkStat_Alock = true ∧ lockPinA t = pllsRun s ∧ getFbit t fltHknow fltHknow_Src 24 = false ∧
        Noted t 0x0204 0 [Config.causeWord 0x0204 1, us] ∧ t.mem = s.mem) ∧
      (s.clk.gateC = true → s.clk.resumeC = false → ∃ t, exec (.pllRelock false us) s = .next t ∧ t.clk.gateC = true ∧ t.clk.resumeC = true ∧ getFbit t fltHknow fltHknow_Src 23 = false ∧
        Noted t 0x0204 0 [Config.causeWord 0x0204 0, us] ∧ t.mem = s.mem)) ∧
    (s.dev.tickRun = true →
      (∀ blk p m, s.tick.stageMeta = [(metaKey blk p, m)] → m.go = true → blk ≠ 3 → p < 8 → ∃ t, exec .commitCutoff s = .next t ∧ t.mem = s.mem ∧
        t.tick.sets = s.tick.sets ++ [{ pol := p, blk := blk, vals := stagedOf s blk p }] ∧ stagedOf t blk p = []) ∧
      (∃ t, exec .samplingPoint s = .next t ∧ t.mem = s.mem ∧ ∀ p < 8, cellGet 0 s.tick.condLatch p < 65536 →
        let bits := cellGet 0 s.tick.condLatch p ||| condNow s p
        getF t (tickCond p) tickCond_Cond = bits ∧ (inReset s p = true → cellFind t.tick.nextMode p = none) ∧
          (inReset s p = false → getB s (fltSum p) fltSum_Modehold = false → cellFind t.tick.nextMode p = firstRule (cellGet [] s.img.rules p) (curMode s p) bits)) ∧
      (s.upd.actDue = false → ∃ t, exec .tickEdge s = .next t ∧ t.tick.count = BitVec.ofNat 48 (nextCount s)))

/-! ## Function sets -/

/-- The grid and islanding function sets (R170, R181–R187, R197, R207, R216, R219): each detection of the grid set takes the first row of R183 that holds, once in a tick; tracker lock, unlock and the long conditions change their bit and are
reported once. The islanding set's evaluation point closes the window, a publication counts the evaluation and its valid bins, a fast trigger ends 2,048 ticks after the last, a window violation is ISLANDED with its cause. The words of the
block at and above 0xC0 (grid) and 0x140 (islanding) are the model's layout (assumption log 16, 17).
The model's own choices in it: assumption log 16, 17, 18, 19, 63, 64, 66, 83. -/
def Obligations.GridAndIslandingSets : Prop :=
  (∀ (s : State) (i : Fin 256) (f : FsAt), FsAlone s i 1 0x200 f [fxN s f 0x10, fxN s f 0x10 + 4, fxN s f 0x10 + 8, fxN s f 0x14, fxN s f 0x14 + 4, fxN s f 0x18] →
    let st := gfsState s f
    let dip := 1 ≤ st ∧ st ≤ 3
    let gone := dip ∧ fxN s f 0x68 ≤ lvN s f 0xE4
    let zero := fxN s f 0x4C ≤ lvN s f 0xCC
    let high := fxN s f 0x4C ≤ lvN s f 0xD0
    let low := fxN s f 0x4C ≤ lvN s f 0xC8 ∨ (nbit (fxN s f 0x20) 15 = true ∧ fxN s f 0x50 ≤ lvN s f 0xD4)
    let leads (c : Instr) (new : Nat) : Prop := ∃ t, exec c s = .next t ∧ gfsState t f = new ∧ lvN t f 0x134 = 1 ∧ (new ≠ st → lvN t f 0x84 = new)
    (lvN s f 0x134 = 0 →
      (zero → st ≠ 5 → ¬gone → leads (.gfsZeroDetection i) 2) ∧
      (high → ¬zero → st ≠ 5 → ¬gone → leads (.gfsHighDetection i) 3) ∧
      (low → ¬zero → ¬high → st ≠ 5 → st ≠ 2 → ¬gone → leads (.gfsLowDetection i) 1) ∧
      (gone → leads (.gfsProfileTrip i) 5) ∧
      (st = 2 → fxN s f 0x4C ≤ lvN s f 0xD8 → ¬gone → ¬zero → ¬high → leads (.gfsZeroExit i) 1) ∧
      (dip → lvN s f 0xDC ≠ 0 → fxN s f 0x64 * 100 ≤ lvN s f 0xDC * fxN s f 0x00 → ¬gone → ¬zero → ¬high → (low → st = 2) → (st = 2 → lvN s f 0xD8 < fxN s f 0x4C) → leads (.gfsRecoveryConfirmed i) 4) ∧
      (st = 5 → gfsCode s f = 0 → lvN s f 0xE0 ≠ 0 → fxN s f 0x64 * 100 ≤ lvN s f 0xE0 * fxN s f 0x00 → leads (.gfsRecoveryConfirmed i) 0)) ∧
    (st = 4 → gfsRampDone s f = true → ¬zero → ¬high → ¬low → leads (.gfsRecoverComplete i) 0) ∧
    (st ≠ 2 → 200000000 ≤ lvN s f 0xF0 * fxN s f 0x00 * fxN s f 0x04 → ∃ t, exec (.gfsTrackerLock i) s = .next t ∧ lvBit t f 0x80 0 = true) ∧
    (st ≠ 2 → 100 ≤ lvN s f 0xF4 → ∃ t, exec (.gfsTrackerUnlock i) s = .next t ∧ lvBit t f 0x80 0 = false ∧ (lvBit s f 0x15C 0 = true → FsReported s t f 0x1401 0)) ∧
    (lvN s f 0xFC = 0 → 200000000 ≤ lvN s f 0xF8 * fxN s f 0x00 * fxN s f 0x04 → ∃ t, exec (.gfsFreqLimitHeld i) s = .next t ∧ lvN t f 0xFC = 1 ∧ FsReported s t f 0x1406 1) ∧
    (lvN s f 0x104 = 0 → 100000000 ≤ lvN s f 0x100 * fxN s f 0x00 → ∃ t, exec (.gfsVilimLong i) s = .next t ∧ lvN t f 0x104 = 1 ∧ FsReported s t f 0x1408 0)) ∧
  (∀ (s : State) (i : Fin 256) (f : FsAt), FsAlone s i 2 0x400 f [fxN s f 0x14] →
    let st := ifsState s f
    (lvN s f 0x154 = 1 → ∃ t, exec (.ifsEvaluationPoint i) s = .next t ∧ lvN t f 0x154 = 0 ∧ lvN t f 0x158 = 1 ∧ t.regs = s.regs ∧
      lvN t f 0x15C = (if lvN s f 0x14C < 4092 then 1 else 0) ∧ lvN t f 0x160 = (if 4092 ≤ lvN s f 0x150 then 1 else 0)) ∧
    (ifsPublishes s f = true → let base := st == 2 || st == 3
      let es := ifsEst s f
      let sum := es.foldl (fun n b => n + b.i) 0
      let valid := ((upto 16).filter fun b => ifsBinCounts s f es base sum b).length
      ∃ t, exec (.ifsEvaluationPublish i) s = .next t ∧ lvN t f 0x158 = 0 ∧ lvN t f 0x94 = (lvN s f 0x1C0 + 1) % 4294967296 ∧ lvN t f 0x90 = valid ∧
        lvBit t f 0x80 7 = (lvN s f 0x15C == 1 || decide (valid < fxN s f 0x38))) ∧
    (2048 ≤ lvN s f 0x16C → ∃ t, exec (.ifsFastClear i) s = .next t ∧ lvBit t f 0x80 2 = false ∧ lvN t f 0x170 = 0 ∧ t.regs = s.regs) ∧
    (lvN s f 0x164 = 0 → 1 ≤ st → st ≤ 3 → lvBit s f 0x168 1 = false → ifsPublishes s f = false →
      (ifsFreqViol s f = true → ∃ t, exec (.ifsFreqWindowViolation i) s = .next t ∧ lvN t f 0x84 = 4 ∧ lvN t f 0xA4 = 4 ∧ FsReported s t f 0x1503 0) ∧
      (ifsVoltViol s f = true → ∃ t, exec (.ifsVoltageWindowViolation i) s = .next t ∧ lvN t f 0x84 = 4 ∧ lvN t f 0xA4 = 5 ∧ FsReported s t f 0x1503 0)))

/-- The tracking and machine function sets (R234, R238–R240, R245, R247, R261, R266, R271): an update tick gives each string its mean voltage; a due string waits for its sweep; the end of a sweep is reported; the observer is lost and regained; at the
end of a cycle KOPT moves toward the better half within its limits. The sensorless angle becomes valid and invalid; mismatch, missing angle, modulation and current limit are reported once; without an angle the references are 0. The words
of the block at and above 0x300 (tracking) and 0x100 (machine) are the model's layout (assumption log 16, 19–21).
The model's own choices in it: assumption log 16, 18, 20, 21, 64, 67, 78. -/
def Obligations.TrackingAndMachineSets : Prop :=
  (∀ (s : State) (i : Fin 256) (f : FsAt), FsAlone s i 3 0x1000 f (if fxN s f 0 = 0 then (upto 32).map fun k => fxN s f 0x14 + 4 * k else [fxN s f 0x10, fxN s f 0x14]) →
    (fxN s f 0 = 0 →
      (lvN s f 0xF04 = 1 → ∃ t, exec (.tfsUpdateTick i) s = .next t ∧ lvN t f 0xF04 = 0 ∧ ∀ k < pvN s f,
        lv t f (pvMon k) = qw (fsDiv (lvS s f (pvRec k)) (max 1 (fxI s f 0x20))) ∧ lvL t f (pvRec k) = 0) ∧
      (∀ k : Fin 32, k.val < pvN s f →
        (pvOn s f k = true → pvSweeping s f k = false → lvBit s f (pvFlag k) 3 = false → lvN s f 0x48 * 100000000 ≤ lvN s f (pvRec k + 40) * fxN s f 0x04 →
          ∃ t, exec (.tfsSweepRequest i k) s = .next t ∧ lvBit t f 0x88 k = true) ∧
        (pvSweeping s f k = true → pvNsw s f ≤ lvN s f (pvRec k + 36) → ∃ t, exec (.tfsSweepEnd i k) s = .next t ∧ pvSweeping t f k = false ∧ lvBit t f 0x84 k = false ∧ lvN t f (pvRec k + 40) = 0 ∧
          FsReported s t f 0x1601 0))) ∧
    (fxN s f 0 = 1 →
      (lvBit s f 0x340 1 = false → lvN s f 0x308 ≠ 0 → fxN s f 0x38 * 100000 ≤ lvN s f 0x308 * fxN s f 0x04 → ∃ t, exec (.tfsObserverLost i) s = .next t ∧ lvBit t f 0x80 1 = true ∧
        FsReported s t f 0x1605 1) ∧
      (lvBit s f 0x340 1 = true → 64 ≤ lvN s f 0x30C → ∃ t, exec (.tfsObserverRegained i) s = .next t ∧ lvBit t f 0x80 1 = false) ∧
      (lvN s f 0x50 = 1 → lvN s f 0x54 * 100000000 ≤ lvL s f 0x310 * fxN s f 0x04 →
        let k := lvI s f 0x33C
        let d := fsDiv (k * lvI s f 0x58) 2147483648
        let want := if wtBetter s f = 1 then k + d else if wtBetter s f = 2 then k - d else k
        ∃ t, exec (.tfsAdaptCycleEnd i) s = .next t ∧ lvI t f 0x33C = max (lvI s f 0x48) (min (lvI s f 0x4C) want) ∧ lvL t f 0x310 = 0))) ∧
  (∀ (s : State) (i : Fin 256) (f : FsAt), FsAlone s i 4 0x200 f [fxN s f 0x1C, fxN s f 0x1C + 4, fxN s f 0x1C + 8, fxN s f 0x20, fxN s f 0x20 + 4] →
    (64 ≤ lvN s f 0x114 → ∃ t, exec (.mfsSensorlessValid i) s = .next t ∧ lvBit t f 0x80 4 = true ∧ t.regs = s.regs) ∧
    (100 * absI (lvI s f 0x120) < 100 * fxI s f 0x58 - one28 ∨ 16 ≤ lvN s f 0x118 → ∃ t, exec (.mfsSensorlessInvalid i) s = .next t ∧ lvBit t f 0x80 4 = false ∧ t.regs = s.regs) ∧
    (lvN s f 0x150 = 0 → 100 ≤ lvN s f 0x128 → ∃ t, exec (.mfsAngleMismatch i) s = .next t ∧ lvN t f 0x150 = 1 ∧ FsReported s t f 0x1703 1) ∧
    (mfsCode s f ≠ 0 → lvN s f 0x14C = 0 → 64 ≤ lvN s f 0x194 → ∃ t, exec (.mfsNoAngleTimeout i) s = .next t ∧ lvN t f 0x14C = 1 ∧ lvN t f 0x84 = 0 ∧ lvN t f 0x88 = 0 ∧
      lvN t f 0x8C = 0 ∧ FsReported s t f 0x1701 2) ∧
    (lvN s f 0x138 = 0 → 10 ≤ lvN s f 0x134 → ∃ t, exec (.mfsModulationHigh i) s = .next t ∧ lvN t f 0x138 = 1 ∧ FsReported s t f 0x1706 1) ∧
    (lvN s f 0x130 = 0 → 100000000 ≤ lvN s f 0x12C * fxN s f 0x00 → ∃ t, exec (.mfsIlimLong i) s = .next t ∧ lvN t f 0x130 = 1 ∧ FsReported s t f 0x1704 0))

/-! ## Rules stated whole -/

/-- R25, R26: outside the register blocks, a host access whose form is wrong, and a write to a window that is only read, end with an error response. No part of either is executed, and neither is a breach:
nothing but the response changes. -/
def Obligations.RefusedFormsAreNotExecuted : Prop :=
  ∀ (s : State) (src : Source) (p : Nat) (write : Bool) (addr : BitVec 40) (len : BitVec 16) (data : List (BitVec 32)) (ecc : Ecc),
    mainRuns s = true → s.dev.phase ≠ .recovery → sourcePolder s src = some p → placeOf addr.toNat ≠ .reserved → placeOf addr.toNat ≠ .register →
    let a := addr.toNat
    let n := len.toNat
    let form : Prop := a % 4 = 0 ∧ n % 4 = 0 ∧ 4 ≤ n ∧ n ≤ 256 ∧ a / 4096 = (a + n - 1) / 4096
    (¬form ∨ (write = true ∧ readOnly (placeOf a) = true ∧ (ownerOf s a = none ∨ ownerOf s a = some p))) →
      exec (.hostMemoryAccess src write addr len data ecc) s = .next { s with dike := { s.dike with resp := ⟨true, []⟩ } }

/-- R347: a spare whose estimate shows more than 64 LSB of offset, 2 % of gain error or 15 ps of skew (OFF counts 1/16 LSB, GERR 0.02 %, SKEW 0.2 ps) is retired: it stays the spare, event 0x0801 is recorded, DEGR and its RETIRED bit are
set, the active slices and their estimates stay; from then on the rotation is stopped. -/
def Obligations.RetiredSliceStaysTheSpare : Prop :=
  (∀ (s : State) (g : Fin 8) (est : SliceCal), s.dev.tickRun = true → getB s (acqGctl g) acqGctl_En = true → getB s (acqGctl g) acqGctl_Calen = true →
    getB s (acqGstat g) acqGstat_Calrdy = true → getB s (acqGstat g) acqGstat_Degr = false → getF s (acqGctl g) acqGctl_Calt ≤ (getGrp s g).ticks →
    getF s (acqGstat g) acqGstat_Spare < 5 →
    1024 < (estimates est).1.natAbs ∨ 100 < (estimates est).2.1.natAbs ∨ 75 < (estimates est).2.2.natAbs →
    ∃ t, exec (.calibrationSwap g est) s = .next t ∧ FaultHeld t 0x0801 1 0 (pw g) ∧ getB t (acqGstat g) acqGstat_Degr = true ∧
      getFbit t (acqGstat g) acqGstat_Retired (getF s (acqGstat g) acqGstat_Spare) = true ∧
      getF t (acqGstat g) acqGstat_Spare = getF s (acqGstat g) acqGstat_Spare ∧ (getGrp t g).active = (getGrp s g).active ∧ t.mem = s.mem ∧
      ∀ i < 5, i ≠ getF s (acqGstat g) acqGstat_Spare → getReg t (acqScal g i) = getReg s (acqScal g i)) ∧
  (∀ (s : State) (g : Fin 8) (est : SliceCal), getB s (acqGstat g) acqGstat_Degr = true → exec (.calibrationSwap g est) s = .next s)
end

