-- ==== Sys2Proof/Laws/Cells.lean ====
section
/-! SUPPORT. Laws of the sparse maps: a read after a write, what a write leaves, the canonical form. -/

namespace Sys2Proof.Machine

variable {α : Type}

/-! ## Reading after writing -/

theorem cellFind_put_same (m : Cells α) (k : Nat) (v : α) : cellFind (cellPut m k v) k = some v := by
  induction m with
  | nil => simp [cellPut, cellFind]
  | cons c t ih =>
    obtain ⟨j, u⟩ := c
    simp only [cellPut]
    split
    · simp [cellFind]
    · split
      · simp [cellFind]
      · rename_i h1 h2
        rw [cellFind, if_neg (by omega), ih]

theorem cellFind_put_other (m : Cells α) {k i : Nat} (v : α) (h : i ≠ k) : cellFind (cellPut m k v) i = cellFind m i := by
  induction m with
  | nil => simp [cellPut, cellFind, Ne.symm h]
  | cons c t ih =>
    obtain ⟨j, u⟩ := c
    simp only [cellPut]
    split
    · rw [cellFind, if_neg (Ne.symm h)]
    · split
      · rename_i h1 h2
        subst h2
        rw [cellFind, cellFind, if_neg (Ne.symm h), if_neg (Ne.symm h)]
      · rw [cellFind, cellFind, ih]

theorem cellFind_filter_out (m : Cells α) (p : Nat × α → Bool) (k : Nat) (h : ∀ v, p (k, v) = false) :
    cellFind (m.filter p) k = none := by
  induction m with
  | nil => rfl
  | cons c t ih =>
    obtain ⟨j, u⟩ := c
    by_cases hp : p (j, u)
    · rw [List.filter_cons_of_pos hp, cellFind, if_neg (by rintro rfl; simp [h u] at hp), ih]
    · rw [List.filter_cons_of_neg hp, ih]

theorem cellFind_filter_in (m : Cells α) (p : Nat × α → Bool) (k : Nat) (h : ∀ v, p (k, v) = true) :
    cellFind (m.filter p) k = cellFind m k := by
  induction m with
  | nil => rfl
  | cons c t ih =>
    obtain ⟨j, u⟩ := c
    by_cases hp : p (j, u)
    · rw [List.filter_cons_of_pos hp, cellFind, cellFind, ih]
    · rw [List.filter_cons_of_neg hp, ih, cellFind, if_neg (by rintro rfl; exact hp (h u))]

theorem cellFind_del_same (m : Cells α) (k : Nat) : cellFind (cellDel m k) k = none :=
  cellFind_filter_out m _ k (by simp)

theorem cellFind_del_other (m : Cells α) {k i : Nat} (h : i ≠ k) : cellFind (cellDel m k) i = cellFind m i :=
  cellFind_filter_in m _ i (by intro v; simpa using h)

/-- A read after a write to the same key gives the value written. -/
@[simp] theorem cellGet_set_same [DecidableEq α] (d : α) (m : Cells α) (k : Nat) (v : α) : cellGet d (cellSet d m k v) k = v := by
  unfold cellGet cellSet
  split
  · rename_i h; simp [cellFind_del_same, h]
  · simp [cellFind_put_same]

/-- A write leaves every other key alone. -/
theorem cellGet_set_other [DecidableEq α] (d d' : α) (m : Cells α) {k i : Nat} (v : α) (h : i ≠ k) :
    cellGet d' (cellSet d m k v) i = cellGet d' m i := by
  unfold cellGet cellSet
  split
  · rw [cellFind_del_other m h]
  · rw [cellFind_put_other m v h]

@[simp] theorem cellGet_put_same (d : α) (m : Cells α) (k : Nat) (v : α) : cellGet d (cellPut m k v) k = v := by
  simp [cellGet, cellFind_put_same]

theorem cellGet_put_other (d : α) (m : Cells α) {k i : Nat} (v : α) (h : i ≠ k) : cellGet d (cellPut m k v) i = cellGet d m i := by
  simp [cellGet, cellFind_put_other m v h]

/-- A cleared range holds nothing. -/
theorem cellFind_clear_in (m : Cells α) {lo hi k : Nat} (h1 : lo ≤ k) (h2 : k < hi) : cellFind (cellClear m lo hi) k = none :=
  cellFind_filter_out m _ k (by intro v; simp; omega)

/-- Clearing a range leaves every key outside it alone. -/
theorem cellFind_clear_out (m : Cells α) {lo hi k : Nat} (h : k < lo ∨ hi ≤ k) : cellFind (cellClear m lo hi) k = cellFind m k :=
  cellFind_filter_in m _ k (by intro v; simpa using h)

/-! ## The canonical form -/

theorem cellsRise_le {m : Cells α} {lo lo' : Nat} (h : lo' ≤ lo) (hm : cellsRise lo m = true) : cellsRise lo' m = true := by
  cases m with
  | nil => rfl
  | cons c t =>
    obtain ⟨j, u⟩ := c
    simp only [cellsRise, Bool.and_eq_true, decide_eq_true_eq] at hm ⊢
    exact ⟨by omega, hm.2⟩

theorem cellsRise_put {m : Cells α} {lo k : Nat} (v : α) (hk : lo ≤ k) (hm : cellsRise lo m = true) :
    cellsRise lo (cellPut m k v) = true := by
  induction m generalizing lo with
  | nil => simp [cellPut, cellsRise, hk]
  | cons c t ih =>
    obtain ⟨j, u⟩ := c
    simp only [cellsRise, Bool.and_eq_true, decide_eq_true_eq] at hm
    simp only [cellPut]
    split
    · rename_i h
      simp only [cellsRise, Bool.and_eq_true, decide_eq_true_eq]
      exact ⟨hk, by omega, hm.2⟩
    · split
      · rename_i h1 h2
        subst h2
        simp only [cellsRise, Bool.and_eq_true, decide_eq_true_eq]
        exact hm
      · simp only [cellsRise, Bool.and_eq_true, decide_eq_true_eq]
        exact ⟨hm.1, ih (by omega) hm.2⟩

theorem cellsRise_filter {m : Cells α} {lo : Nat} (p : Nat × α → Bool) (hm : cellsRise lo m = true) :
    cellsRise lo (m.filter p) = true := by
  induction m generalizing lo with
  | nil => rfl
  | cons c t ih =>
    obtain ⟨j, u⟩ := c
    simp only [cellsRise, Bool.and_eq_true, decide_eq_true_eq] at hm
    by_cases hp : p (j, u)
    · rw [List.filter_cons_of_pos hp]
      simp only [cellsRise, Bool.and_eq_true, decide_eq_true_eq]
      exact ⟨hm.1, ih hm.2⟩
    · rw [List.filter_cons_of_neg hp]
      exact ih (cellsRise_le (by omega) hm.2)

theorem cellPut_all {m : Cells α} {k : Nat} {v : α} {p : Nat × α → Bool} (hv : p (k, v) = true) (hm : m.all p = true) :
    (cellPut m k v).all p = true := by
  induction m with
  | nil => simp [cellPut, hv]
  | cons c t ih =>
    obtain ⟨j, u⟩ := c
    simp only [List.all_cons, Bool.and_eq_true] at hm
    simp only [cellPut]
    split
    · simp only [List.all_cons, Bool.and_eq_true]; exact ⟨hv, hm⟩
    · split
      · simp only [List.all_cons, Bool.and_eq_true]; exact ⟨hv, hm.2⟩
      · simp only [List.all_cons, Bool.and_eq_true]; exact ⟨hm.1, ih hm.2⟩

theorem filter_all {m : Cells α} {p : Nat × α → Bool} (q : Nat × α → Bool) (hm : m.all p = true) : (m.filter q).all p = true := by
  rw [List.all_eq_true] at hm ⊢
  intro c hc
  exact hm c (List.mem_filter.mp hc).1

/-- A write keeps the canonical form of a map whose default is one value. -/
theorem cellsWf_set [DecidableEq α] {d : α} {m : Cells α} (k : Nat) (v : α) (hm : cellsWf d m = true) :
    cellsWf d (cellSet d m k v) = true := by
  simp only [cellsWf, Bool.and_eq_true] at hm ⊢
  unfold cellSet
  split
  · exact ⟨cellsRise_filter _ hm.1, filter_all _ hm.2⟩
  · rename_i h
    exact ⟨cellsRise_put v (Nat.zero_le k) hm.1, cellPut_all (by simpa using h) hm.2⟩

/-- Dropping entries keeps the canonical form. -/
theorem cellsWf_filter [DecidableEq α] {d : α} {m : Cells α} (p : Nat × α → Bool) (hm : cellsWf d m = true) :
    cellsWf d (m.filter p) = true := by
  simp only [cellsWf, Bool.and_eq_true] at hm ⊢
  exact ⟨cellsRise_filter p hm.1, filter_all p hm.2⟩

/-! ## Registers and memory -/

/-- A write keeps the canonical form of the register map. -/
theorem regsWf_set {m : Cells Word} (a : Nat) (w : Word) (hm : regsWf m = true) : regsWf (cellSet (regReset a) m a w) = true := by
  simp only [regsWf, Bool.and_eq_true] at hm ⊢
  unfold cellSet
  split
  · exact ⟨cellsRise_filter _ hm.1, filter_all _ hm.2⟩
  · rename_i h
    exact ⟨cellsRise_put w (Nat.zero_le a) hm.1, cellPut_all (by simpa using h) hm.2⟩

/-- Dropping entries keeps the canonical form of the register map. -/
theorem regsWf_filter {m : Cells Word} (p : Nat × Word → Bool) (hm : regsWf m = true) : regsWf (m.filter p) = true := by
  simp only [regsWf, Bool.and_eq_true] at hm ⊢
  exact ⟨cellsRise_filter p hm.1, filter_all p hm.2⟩

/-- Writing a byte keeps memory canonical. -/
theorem wrByte_wf {s : State} (a : Nat) (b : Byte) (h : Memory.wf s.mem = true) : Memory.wf (wrByte s a b).mem = true :=
  cellsWf_set a b h

theorem wrWord_wf {s : State} (a : Nat) (w : Word) (h : Memory.wf s.mem = true) : Memory.wf (wrWord s a w).mem = true :=
  wrByte_wf _ _ (wrByte_wf _ _ (wrByte_wf _ _ (wrByte_wf _ _ h)))

theorem wrHalf_wf {s : State} (a h : Nat) (hm : Memory.wf s.mem = true) : Memory.wf (wrHalf s a h).mem = true :=
  wrByte_wf _ _ (wrByte_wf _ _ hm)

theorem wrWords_wf {s : State} (l : List Word) (a : Nat) (h : Memory.wf s.mem = true) : Memory.wf (wrWords s a l).mem = true := by
  induction l generalizing s a with
  | nil => exact h
  | cons w t ih => exact ih _ (wrWord_wf a w h)

theorem zeroMem_wf {s : State} (lo hi : Nat) (h : Memory.wf s.mem = true) : Memory.wf (zeroMem s lo hi).mem = true :=
  cellsWf_filter _ h

end Sys2Proof.Machine
end

