-- ==== Sys2Proof/Laws/State.lean ====
section
/-! SUPPORT. Laws of the named writes over State: what each one writes reads back, and every field it does not name is as
before. The frame lemmas are conjunctions, which simp uses part by part. -/

namespace Sys2Proof.Machine

/-! ## Registers -/

/-- A register reads what was written into it. -/
@[simp] theorem getReg_setReg_same (s : State) (a : Nat) (w : Word) : getReg (setReg s a w) a = w :=
  cellGet_set_same (regReset a) s.regs a w

/-- Writing a register leaves every other register alone. -/
theorem getReg_setReg_other (s : State) {a b : Nat} (w : Word) (h : b ≠ a) : getReg (setReg s a w) b = getReg s b :=
  cellGet_set_other (regReset a) (regReset b) s.regs w h

/-- At reset every register reads its reset value. -/
@[simp] theorem getReg_reset (a : Nat) : getReg State.reset a = regReset a := rfl

/-- Writing a field leaves every other register alone. -/
theorem getReg_setF_other (s : State) {a b : Nat} (f : Fld) (v : Nat) (h : b ≠ a) : getReg (setF s a f v) b = getReg s b :=
  getReg_setReg_other s _ h

/-- Writing a one-bit field leaves every other register alone. -/
theorem getReg_setB_other (s : State) {a b : Nat} (f : Fld) (v : Bool) (h : b ≠ a) : getReg (setB s a f v) b = getReg s b :=
  getReg_setReg_other s _ h

/-! ## Memory -/

@[simp] theorem rdByte_wrByte_same (s : State) (a : Nat) (b : Byte) : rdByte (wrByte s a b) a = b :=
  cellGet_set_same 0 s.mem a b

theorem rdByte_wrByte_other (s : State) {a i : Nat} (b : Byte) (h : i ≠ a) : rdByte (wrByte s a b) i = rdByte s i :=
  cellGet_set_other 0 0 s.mem b h

/-- A word write leaves every byte outside its four bytes alone. -/
theorem rdByte_wrWord_other (s : State) {a i : Nat} (w : Word) (h : i < a ∨ a + 4 ≤ i) : rdByte (wrWord s a w) i = rdByte s i := by
  simp only [wrWord]
  rw [rdByte_wrByte_other _ _ (by omega), rdByte_wrByte_other _ _ (by omega), rdByte_wrByte_other _ _ (by omega),
    rdByte_wrByte_other _ _ (by omega)]

/-- The bytes of a word give the word. -/
theorem wordOfBytes_wordByte (w : Word) : wordOfBytes (wordByte w 0) (wordByte w 1) (wordByte w 2) (wordByte w 3) = w := by
  apply BitVec.eq_of_toNat_eq
  have := w.isLt
  simp only [wordOfBytes, wordByte, BitVec.toNat_ofNat]
  omega

/-- A word reads what was written into it. -/
@[simp] theorem rdWord_wrWord_same (s : State) (a : Nat) (w : Word) : rdWord (wrWord s a w) a = w := by
  simp only [rdWord, wrWord]
  rw [rdByte_wrByte_other _ _ (by omega : a ≠ a + 3), rdByte_wrByte_other _ _ (by omega : a ≠ a + 2),
    rdByte_wrByte_other _ _ (by omega : a ≠ a + 1), rdByte_wrByte_same,
    rdByte_wrByte_other _ _ (by omega : a + 1 ≠ a + 3), rdByte_wrByte_other _ _ (by omega : a + 1 ≠ a + 2), rdByte_wrByte_same,
    rdByte_wrByte_other _ _ (by omega : a + 2 ≠ a + 3), rdByte_wrByte_same, rdByte_wrByte_same]
  exact wordOfBytes_wordByte w

/-! ## The units' inner states read back -/

@[simp] theorem getEng_setEng_same (s : State) (k : Nat) (x : Eng) : getEng (setEng s k x) k = x := cellGet_set_same _ _ k x
theorem getEng_setEng_other (s : State) {k j : Nat} (x : Eng) (h : j ≠ k) : getEng (setEng s k x) j = getEng s j := cellGet_set_other _ _ _ x h

@[simp] theorem getGroup_setGroup_same (s : State) (k : Nat) (x : GroupSt) : getGroup (setGroup s k x) k = x := cellGet_set_same _ _ k x
theorem getGroup_setGroup_other (s : State) {k j : Nat} (x : GroupSt) (h : j ≠ k) : getGroup (setGroup s k x) j = getGroup s j := cellGet_set_other _ _ _ x h

@[simp] theorem getLatch_setLatch_same (s : State) (k : Nat) (x : LatchSt) : getLatch (setLatch s k x) k = x := cellGet_set_same _ _ k x
theorem getLatch_setLatch_other (s : State) {k j : Nat} (x : LatchSt) (h : j ≠ k) : getLatch (setLatch s k x) j = getLatch s j := cellGet_set_other _ _ _ x h

@[simp] theorem getLane_setLane_same (s : State) (k : Nat) (x : Lane) : getLane (setLane s k x) k = x := cellGet_set_same _ _ k x
theorem getLane_setLane_other (s : State) {k j : Nat} (x : Lane) (h : j ≠ k) : getLane (setLane s k x) j = getLane s j := cellGet_set_other _ _ _ x h

@[simp] theorem getCar_setCar_same (s : State) (k : Nat) (x : Car) : getCar (setCar s k x) k = x := cellGet_set_same _ _ k x
theorem getCar_setCar_other (s : State) {k j : Nat} (x : Car) (h : j ≠ k) : getCar (setCar s k x) j = getCar s j := cellGet_set_other _ _ _ x h

@[simp] theorem getPair_setPair_same (s : State) (k : Nat) (x : Pair) : getPair (setPair s k x) k = x := cellGet_set_same _ _ k x
theorem getPair_setPair_other (s : State) {k j : Nat} (x : Pair) (h : j ≠ k) : getPair (setPair s k x) j = getPair s j := cellGet_set_other _ _ _ x h

@[simp] theorem getPort_setPort_same (s : State) (k : Nat) (x : Port) : getPort (setPort s k x) k = x := cellGet_set_same _ _ k x
theorem getPort_setPort_other (s : State) {k j : Nat} (x : Port) (h : j ≠ k) : getPort (setPort s k x) j = getPort s j := cellGet_set_other _ _ _ x h

@[simp] theorem getCell_setCell_same (s : State) (k : Nat) (x : Cell) : getCell (setCell s k x) k = x := cellGet_set_same _ _ k x
theorem getCell_setCell_other (s : State) {k j : Nat} (x : Cell) (h : j ≠ k) : getCell (setCell s k x) j = getCell s j := cellGet_set_other _ _ _ x h

@[simp] theorem getEnc_setEnc_same (s : State) (k : Nat) (x : Enc) : getEnc (setEnc s k x) k = x := cellGet_set_same _ _ k x
theorem getEnc_setEnc_other (s : State) {k j : Nat} (x : Enc) (h : j ≠ k) : getEnc (setEnc s k x) j = getEnc s j := cellGet_set_other _ _ _ x h

@[simp] theorem getGrp_setGrp_same (s : State) (k : Nat) (x : Grp) : getGrp (setGrp s k x) k = x := cellGet_set_same _ _ k x
theorem getGrp_setGrp_other (s : State) {k j : Nat} (x : Grp) (h : j ≠ k) : getGrp (setGrp s k x) j = getGrp s j := cellGet_set_other _ _ _ x h

@[simp] theorem getCmp_setCmp_same (s : State) (k : Nat) (x : Cmp) : getCmp (setCmp s k x) k = x := cellGet_set_same _ _ k x
theorem getCmp_setCmp_other (s : State) {k j : Nat} (x : Cmp) (h : j ≠ k) : getCmp (setCmp s k x) j = getCmp s j := cellGet_set_other _ _ _ x h

@[simp] theorem getSlu_setSlu_same (s : State) (k : Nat) (x : Slu) : getSlu (setSlu s k x) k = x := cellGet_set_same _ _ k x
theorem getSlu_setSlu_other (s : State) {k j : Nat} (x : Slu) (h : j ≠ k) : getSlu (setSlu s k x) j = getSlu s j := cellGet_set_other _ _ _ x h

@[simp] theorem getSq_setSq_same (s : State) (k : Nat) (x : SqPort) : getSq (setSq s k x) k = x := cellGet_set_same _ _ k x
theorem getSq_setSq_other (s : State) {k j : Nat} (x : SqPort) (h : j ≠ k) : getSq (setSq s k x) j = getSq s j := cellGet_set_other _ _ _ x h

@[simp] theorem getEth_setEth_same (s : State) (k : Nat) (x : Eth) : getEth (setEth s k x) k = x := cellGet_set_same _ _ k x
theorem getEth_setEth_other (s : State) {k j : Nat} (x : Eth) (h : j ≠ k) : getEth (setEth s k x) j = getEth s j := cellGet_set_other _ _ _ x h

/-! ## Frames -/

@[simp] theorem setReg_frame (s : State) (a : Nat) (w : Word) :
    (setReg s a w).mem = s.mem ∧ (setReg s a w).pending = s.pending ∧ (setReg s a w).free = s.free ∧ (setReg s a w).time = s.time ∧
    (setReg s a w).dev = s.dev ∧ (setReg s a w).tick = s.tick ∧ (setReg s a w).dike = s.dike ∧ (setReg s a w).culv = s.culv ∧
    (setReg s a w).flt = s.flt ∧ (setReg s a w).recorder = s.recorder ∧ (setReg s a w).img = s.img ∧ (setReg s a w).eng = s.eng ∧
    (setReg s a w).win = s.win ∧ (setReg s a w).groups = s.groups ∧ (setReg s a w).latches = s.latches ∧
    (setReg s a w).lanes = s.lanes ∧ (setReg s a w).pairs = s.pairs ∧ (setReg s a w).cars = s.cars ∧
    (setReg s a w).cmpLast = s.cmpLast ∧ (setReg s a w).grps = s.grps ∧ (setReg s a w).cmps = s.cmps ∧ (setReg s a w).ports = s.ports ∧
    (setReg s a w).cells = s.cells ∧ (setReg s a w).enc = s.enc ∧ (setReg s a w).fsHist = s.fsHist ∧
    (setReg s a w).fsChips = s.fsChips ∧ (setReg s a w).met = s.met ∧ (setReg s a w).slus = s.slus ∧ (setReg s a w).sluRot = s.sluRot ∧
    (setReg s a w).sqs = s.sqs ∧ (setReg s a w).safe = s.safe ∧ (setReg s a w).clk = s.clk ∧ (setReg s a w).keep = s.keep ∧
    (setReg s a w).rlm = s.rlm ∧ (setReg s a w).eth = s.eth ∧ (setReg s a w).upd = s.upd := by
  and_intros <;> rfl

@[simp] theorem setF_frame (s : State) (a : Nat) (f : Fld) (v : Nat) :
    (setF s a f v).mem = s.mem ∧ (setF s a f v).pending = s.pending ∧ (setF s a f v).free = s.free ∧ (setF s a f v).time = s.time ∧
    (setF s a f v).dev = s.dev ∧ (setF s a f v).tick = s.tick ∧ (setF s a f v).dike = s.dike ∧ (setF s a f v).culv = s.culv ∧
    (setF s a f v).flt = s.flt ∧ (setF s a f v).recorder = s.recorder ∧ (setF s a f v).img = s.img ∧ (setF s a f v).eng = s.eng ∧
    (setF s a f v).win = s.win ∧ (setF s a f v).groups = s.groups ∧ (setF s a f v).latches = s.latches ∧
    (setF s a f v).lanes = s.lanes ∧ (setF s a f v).pairs = s.pairs ∧ (setF s a f v).cars = s.cars ∧
    (setF s a f v).cmpLast = s.cmpLast ∧ (setF s a f v).grps = s.grps ∧ (setF s a f v).cmps = s.cmps ∧ (setF s a f v).ports = s.ports ∧
    (setF s a f v).cells = s.cells ∧ (setF s a f v).enc = s.enc ∧ (setF s a f v).fsHist = s.fsHist ∧
    (setF s a f v).fsChips = s.fsChips ∧ (setF s a f v).met = s.met ∧ (setF s a f v).slus = s.slus ∧ (setF s a f v).sluRot = s.sluRot ∧
    (setF s a f v).sqs = s.sqs ∧ (setF s a f v).safe = s.safe ∧ (setF s a f v).clk = s.clk ∧ (setF s a f v).keep = s.keep ∧
    (setF s a f v).rlm = s.rlm ∧ (setF s a f v).eth = s.eth ∧ (setF s a f v).upd = s.upd := by
  and_intros <;> rfl

@[simp] theorem setB_frame (s : State) (a : Nat) (f : Fld) (b : Bool) :
    (setB s a f b).mem = s.mem ∧ (setB s a f b).pending = s.pending ∧ (setB s a f b).free = s.free ∧ (setB s a f b).time = s.time ∧
    (setB s a f b).dev = s.dev ∧ (setB s a f b).tick = s.tick ∧ (setB s a f b).dike = s.dike ∧ (setB s a f b).culv = s.culv ∧
    (setB s a f b).flt = s.flt ∧ (setB s a f b).recorder = s.recorder ∧ (setB s a f b).img = s.img ∧ (setB s a f b).eng = s.eng ∧
    (setB s a f b).win = s.win ∧ (setB s a f b).groups = s.groups ∧ (setB s a f b).latches = s.latches ∧
    (setB s a f b).lanes = s.lanes ∧ (setB s a f b).pairs = s.pairs ∧ (setB s a f b).cars = s.cars ∧
    (setB s a f b).cmpLast = s.cmpLast ∧ (setB s a f b).grps = s.grps ∧ (setB s a f b).cmps = s.cmps ∧ (setB s a f b).ports = s.ports ∧
    (setB s a f b).cells = s.cells ∧ (setB s a f b).enc = s.enc ∧ (setB s a f b).fsHist = s.fsHist ∧
    (setB s a f b).fsChips = s.fsChips ∧ (setB s a f b).met = s.met ∧ (setB s a f b).slus = s.slus ∧ (setB s a f b).sluRot = s.sluRot ∧
    (setB s a f b).sqs = s.sqs ∧ (setB s a f b).safe = s.safe ∧ (setB s a f b).clk = s.clk ∧ (setB s a f b).keep = s.keep ∧
    (setB s a f b).rlm = s.rlm ∧ (setB s a f b).eth = s.eth ∧ (setB s a f b).upd = s.upd := by
  and_intros <;> rfl

@[simp] theorem setFbit_frame (s : State) (a : Nat) (f : Fld) (i : Nat) (b : Bool) :
    (setFbit s a f i b).mem = s.mem ∧ (setFbit s a f i b).pending = s.pending ∧ (setFbit s a f i b).free = s.free ∧
    (setFbit s a f i b).time = s.time ∧ (setFbit s a f i b).dev = s.dev ∧ (setFbit s a f i b).tick = s.tick ∧
    (setFbit s a f i b).dike = s.dike ∧ (setFbit s a f i b).culv = s.culv ∧ (setFbit s a f i b).flt = s.flt ∧
    (setFbit s a f i b).recorder = s.recorder ∧ (setFbit s a f i b).img = s.img ∧ (setFbit s a f i b).eng = s.eng ∧
    (setFbit s a f i b).win = s.win ∧ (setFbit s a f i b).groups = s.groups ∧ (setFbit s a f i b).latches = s.latches ∧
    (setFbit s a f i b).lanes = s.lanes ∧ (setFbit s a f i b).pairs = s.pairs ∧ (setFbit s a f i b).cars = s.cars ∧
    (setFbit s a f i b).cmpLast = s.cmpLast ∧ (setFbit s a f i b).grps = s.grps ∧ (setFbit s a f i b).cmps = s.cmps ∧
    (setFbit s a f i b).ports = s.ports ∧ (setFbit s a f i b).cells = s.cells ∧ (setFbit s a f i b).enc = s.enc ∧
    (setFbit s a f i b).fsHist = s.fsHist ∧ (setFbit s a f i b).fsChips = s.fsChips ∧ (setFbit s a f i b).met = s.met ∧
    (setFbit s a f i b).slus = s.slus ∧ (setFbit s a f i b).sluRot = s.sluRot ∧ (setFbit s a f i b).sqs = s.sqs ∧
    (setFbit s a f i b).safe = s.safe ∧ (setFbit s a f i b).clk = s.clk ∧ (setFbit s a f i b).keep = s.keep ∧
    (setFbit s a f i b).rlm = s.rlm ∧ (setFbit s a f i b).eth = s.eth ∧ (setFbit s a f i b).upd = s.upd := by
  and_intros <;> rfl

@[simp] theorem countF_frame (s : State) (a : Nat) (f : Fld) (k : Nat) :
    (countF s a f k).mem = s.mem ∧ (countF s a f k).pending = s.pending ∧ (countF s a f k).free = s.free ∧
    (countF s a f k).time = s.time ∧ (countF s a f k).dev = s.dev ∧ (countF s a f k).tick = s.tick ∧ (countF s a f k).dike = s.dike ∧
    (countF s a f k).culv = s.culv ∧ (countF s a f k).flt = s.flt ∧ (countF s a f k).recorder = s.recorder ∧
    (countF s a f k).img = s.img ∧ (countF s a f k).eng = s.eng ∧ (countF s a f k).win = s.win ∧ (countF s a f k).groups = s.groups ∧
    (countF s a f k).latches = s.latches ∧ (countF s a f k).lanes = s.lanes ∧ (countF s a f k).pairs = s.pairs ∧
    (countF s a f k).cars = s.cars ∧ (countF s a f k).cmpLast = s.cmpLast ∧ (countF s a f k).grps = s.grps ∧
    (countF s a f k).cmps = s.cmps ∧ (countF s a f k).ports = s.ports ∧ (countF s a f k).cells = s.cells ∧
    (countF s a f k).enc = s.enc ∧ (countF s a f k).fsHist = s.fsHist ∧ (countF s a f k).fsChips = s.fsChips ∧
    (countF s a f k).met = s.met ∧ (countF s a f k).slus = s.slus ∧ (countF s a f k).sluRot = s.sluRot ∧ (countF s a f k).sqs = s.sqs ∧
    (countF s a f k).safe = s.safe ∧ (countF s a f k).clk = s.clk ∧ (countF s a f k).keep = s.keep ∧ (countF s a f k).rlm = s.rlm ∧
    (countF s a f k).eth = s.eth ∧ (countF s a f k).upd = s.upd := by
  and_intros <;> rfl

@[simp] theorem setBits_frame (s : State) (a : Nat) (m v : Word) :
    (setBits s a m v).mem = s.mem ∧ (setBits s a m v).pending = s.pending ∧ (setBits s a m v).free = s.free ∧
    (setBits s a m v).time = s.time ∧ (setBits s a m v).dev = s.dev ∧ (setBits s a m v).tick = s.tick ∧
    (setBits s a m v).dike = s.dike ∧ (setBits s a m v).culv = s.culv ∧ (setBits s a m v).flt = s.flt ∧
    (setBits s a m v).recorder = s.recorder ∧ (setBits s a m v).img = s.img ∧ (setBits s a m v).eng = s.eng ∧
    (setBits s a m v).win = s.win ∧ (setBits s a m v).groups = s.groups ∧ (setBits s a m v).latches = s.latches ∧
    (setBits s a m v).lanes = s.lanes ∧ (setBits s a m v).pairs = s.pairs ∧ (setBits s a m v).cars = s.cars ∧
    (setBits s a m v).cmpLast = s.cmpLast ∧ (setBits s a m v).grps = s.grps ∧ (setBits s a m v).cmps = s.cmps ∧
    (setBits s a m v).ports = s.ports ∧ (setBits s a m v).cells = s.cells ∧ (setBits s a m v).enc = s.enc ∧
    (setBits s a m v).fsHist = s.fsHist ∧ (setBits s a m v).fsChips = s.fsChips ∧ (setBits s a m v).met = s.met ∧
    (setBits s a m v).slus = s.slus ∧ (setBits s a m v).sluRot = s.sluRot ∧ (setBits s a m v).sqs = s.sqs ∧
    (setBits s a m v).safe = s.safe ∧ (setBits s a m v).clk = s.clk ∧ (setBits s a m v).keep = s.keep ∧ (setBits s a m v).rlm = s.rlm ∧
    (setBits s a m v).eth = s.eth ∧ (setBits s a m v).upd = s.upd := by
  and_intros <;> rfl

@[simp] theorem resetRegs_frame (s : State) (lo hi : Nat) :
    (resetRegs s lo hi).mem = s.mem ∧ (resetRegs s lo hi).pending = s.pending ∧ (resetRegs s lo hi).free = s.free ∧
    (resetRegs s lo hi).time = s.time ∧ (resetRegs s lo hi).dev = s.dev ∧ (resetRegs s lo hi).tick = s.tick ∧
    (resetRegs s lo hi).dike = s.dike ∧ (resetRegs s lo hi).culv = s.culv ∧ (resetRegs s lo hi).flt = s.flt ∧
    (resetRegs s lo hi).recorder = s.recorder ∧ (resetRegs s lo hi).img = s.img ∧ (resetRegs s lo hi).eng = s.eng ∧
    (resetRegs s lo hi).win = s.win ∧ (resetRegs s lo hi).groups = s.groups ∧ (resetRegs s lo hi).latches = s.latches ∧
    (resetRegs s lo hi).lanes = s.lanes ∧ (resetRegs s lo hi).pairs = s.pairs ∧ (resetRegs s lo hi).cars = s.cars ∧
    (resetRegs s lo hi).cmpLast = s.cmpLast ∧ (resetRegs s lo hi).grps = s.grps ∧ (resetRegs s lo hi).cmps = s.cmps ∧
    (resetRegs s lo hi).ports = s.ports ∧ (resetRegs s lo hi).cells = s.cells ∧ (resetRegs s lo hi).enc = s.enc ∧
    (resetRegs s lo hi).fsHist = s.fsHist ∧ (resetRegs s lo hi).fsChips = s.fsChips ∧ (resetRegs s lo hi).met = s.met ∧
    (resetRegs s lo hi).slus = s.slus ∧ (resetRegs s lo hi).sluRot = s.sluRot ∧ (resetRegs s lo hi).sqs = s.sqs ∧
    (resetRegs s lo hi).safe = s.safe ∧ (resetRegs s lo hi).clk = s.clk ∧ (resetRegs s lo hi).keep = s.keep ∧
    (resetRegs s lo hi).rlm = s.rlm ∧ (resetRegs s lo hi).eth = s.eth ∧ (resetRegs s lo hi).upd = s.upd := by
  and_intros <;> rfl

@[simp] theorem set64_frame (s : State) (a v : Nat) :
    (set64 s a v).mem = s.mem ∧ (set64 s a v).pending = s.pending ∧ (set64 s a v).free = s.free ∧ (set64 s a v).time = s.time ∧
    (set64 s a v).dev = s.dev ∧ (set64 s a v).tick = s.tick ∧ (set64 s a v).dike = s.dike ∧ (set64 s a v).culv = s.culv ∧
    (set64 s a v).flt = s.flt ∧ (set64 s a v).recorder = s.recorder ∧ (set64 s a v).img = s.img ∧ (set64 s a v).eng = s.eng ∧
    (set64 s a v).win = s.win ∧ (set64 s a v).groups = s.groups ∧ (set64 s a v).latches = s.latches ∧ (set64 s a v).lanes = s.lanes ∧
    (set64 s a v).pairs = s.pairs ∧ (set64 s a v).cars = s.cars ∧ (set64 s a v).cmpLast = s.cmpLast ∧ (set64 s a v).grps = s.grps ∧
    (set64 s a v).cmps = s.cmps ∧ (set64 s a v).ports = s.ports ∧ (set64 s a v).cells = s.cells ∧ (set64 s a v).enc = s.enc ∧
    (set64 s a v).fsHist = s.fsHist ∧ (set64 s a v).fsChips = s.fsChips ∧ (set64 s a v).met = s.met ∧ (set64 s a v).slus = s.slus ∧
    (set64 s a v).sluRot = s.sluRot ∧ (set64 s a v).sqs = s.sqs ∧ (set64 s a v).safe = s.safe ∧ (set64 s a v).clk = s.clk ∧
    (set64 s a v).keep = s.keep ∧ (set64 s a v).rlm = s.rlm ∧ (set64 s a v).eth = s.eth ∧ (set64 s a v).upd = s.upd := by
  and_intros <;> rfl

@[simp] theorem wrByte_frame (s : State) (a : Nat) (b : Byte) :
    (wrByte s a b).regs = s.regs ∧ (wrByte s a b).pending = s.pending ∧ (wrByte s a b).free = s.free ∧ (wrByte s a b).time = s.time ∧
    (wrByte s a b).dev = s.dev ∧ (wrByte s a b).tick = s.tick ∧ (wrByte s a b).dike = s.dike ∧ (wrByte s a b).culv = s.culv ∧
    (wrByte s a b).flt = s.flt ∧ (wrByte s a b).recorder = s.recorder ∧ (wrByte s a b).img = s.img ∧ (wrByte s a b).eng = s.eng ∧
    (wrByte s a b).win = s.win ∧ (wrByte s a b).groups = s.groups ∧ (wrByte s a b).latches = s.latches ∧
    (wrByte s a b).lanes = s.lanes ∧ (wrByte s a b).pairs = s.pairs ∧ (wrByte s a b).cars = s.cars ∧
    (wrByte s a b).cmpLast = s.cmpLast ∧ (wrByte s a b).grps = s.grps ∧ (wrByte s a b).cmps = s.cmps ∧ (wrByte s a b).ports = s.ports ∧
    (wrByte s a b).cells = s.cells ∧ (wrByte s a b).enc = s.enc ∧ (wrByte s a b).fsHist = s.fsHist ∧
    (wrByte s a b).fsChips = s.fsChips ∧ (wrByte s a b).met = s.met ∧ (wrByte s a b).slus = s.slus ∧ (wrByte s a b).sluRot = s.sluRot ∧
    (wrByte s a b).sqs = s.sqs ∧ (wrByte s a b).safe = s.safe ∧ (wrByte s a b).clk = s.clk ∧ (wrByte s a b).keep = s.keep ∧
    (wrByte s a b).rlm = s.rlm ∧ (wrByte s a b).eth = s.eth ∧ (wrByte s a b).upd = s.upd := by
  and_intros <;> rfl

@[simp] theorem wrWord_frame (s : State) (a : Nat) (w : Word) :
    (wrWord s a w).regs = s.regs ∧ (wrWord s a w).pending = s.pending ∧ (wrWord s a w).free = s.free ∧ (wrWord s a w).time = s.time ∧
    (wrWord s a w).dev = s.dev ∧ (wrWord s a w).tick = s.tick ∧ (wrWord s a w).dike = s.dike ∧ (wrWord s a w).culv = s.culv ∧
    (wrWord s a w).flt = s.flt ∧ (wrWord s a w).recorder = s.recorder ∧ (wrWord s a w).img = s.img ∧ (wrWord s a w).eng = s.eng ∧
    (wrWord s a w).win = s.win ∧ (wrWord s a w).groups = s.groups ∧ (wrWord s a w).latches = s.latches ∧
    (wrWord s a w).lanes = s.lanes ∧ (wrWord s a w).pairs = s.pairs ∧ (wrWord s a w).cars = s.cars ∧
    (wrWord s a w).cmpLast = s.cmpLast ∧ (wrWord s a w).grps = s.grps ∧ (wrWord s a w).cmps = s.cmps ∧ (wrWord s a w).ports = s.ports ∧
    (wrWord s a w).cells = s.cells ∧ (wrWord s a w).enc = s.enc ∧ (wrWord s a w).fsHist = s.fsHist ∧
    (wrWord s a w).fsChips = s.fsChips ∧ (wrWord s a w).met = s.met ∧ (wrWord s a w).slus = s.slus ∧ (wrWord s a w).sluRot = s.sluRot ∧
    (wrWord s a w).sqs = s.sqs ∧ (wrWord s a w).safe = s.safe ∧ (wrWord s a w).clk = s.clk ∧ (wrWord s a w).keep = s.keep ∧
    (wrWord s a w).rlm = s.rlm ∧ (wrWord s a w).eth = s.eth ∧ (wrWord s a w).upd = s.upd := by
  and_intros <;> rfl

@[simp] theorem wrHalf_frame (s : State) (a h : Nat) :
    (wrHalf s a h).regs = s.regs ∧ (wrHalf s a h).pending = s.pending ∧ (wrHalf s a h).free = s.free ∧ (wrHalf s a h).time = s.time ∧
    (wrHalf s a h).dev = s.dev ∧ (wrHalf s a h).tick = s.tick ∧ (wrHalf s a h).dike = s.dike ∧ (wrHalf s a h).culv = s.culv ∧
    (wrHalf s a h).flt = s.flt ∧ (wrHalf s a h).recorder = s.recorder ∧ (wrHalf s a h).img = s.img ∧ (wrHalf s a h).eng = s.eng ∧
    (wrHalf s a h).win = s.win ∧ (wrHalf s a h).groups = s.groups ∧ (wrHalf s a h).latches = s.latches ∧
    (wrHalf s a h).lanes = s.lanes ∧ (wrHalf s a h).pairs = s.pairs ∧ (wrHalf s a h).cars = s.cars ∧
    (wrHalf s a h).cmpLast = s.cmpLast ∧ (wrHalf s a h).grps = s.grps ∧ (wrHalf s a h).cmps = s.cmps ∧ (wrHalf s a h).ports = s.ports ∧
    (wrHalf s a h).cells = s.cells ∧ (wrHalf s a h).enc = s.enc ∧ (wrHalf s a h).fsHist = s.fsHist ∧
    (wrHalf s a h).fsChips = s.fsChips ∧ (wrHalf s a h).met = s.met ∧ (wrHalf s a h).slus = s.slus ∧ (wrHalf s a h).sluRot = s.sluRot ∧
    (wrHalf s a h).sqs = s.sqs ∧ (wrHalf s a h).safe = s.safe ∧ (wrHalf s a h).clk = s.clk ∧ (wrHalf s a h).keep = s.keep ∧
    (wrHalf s a h).rlm = s.rlm ∧ (wrHalf s a h).eth = s.eth ∧ (wrHalf s a h).upd = s.upd := by
  and_intros <;> rfl

@[simp] theorem zeroMem_frame (s : State) (lo hi : Nat) :
    (zeroMem s lo hi).regs = s.regs ∧ (zeroMem s lo hi).pending = s.pending ∧ (zeroMem s lo hi).free = s.free ∧
    (zeroMem s lo hi).time = s.time ∧ (zeroMem s lo hi).dev = s.dev ∧ (zeroMem s lo hi).tick = s.tick ∧
    (zeroMem s lo hi).dike = s.dike ∧ (zeroMem s lo hi).culv = s.culv ∧ (zeroMem s lo hi).flt = s.flt ∧
    (zeroMem s lo hi).recorder = s.recorder ∧ (zeroMem s lo hi).img = s.img ∧ (zeroMem s lo hi).eng = s.eng ∧
    (zeroMem s lo hi).win = s.win ∧ (zeroMem s lo hi).groups = s.groups ∧ (zeroMem s lo hi).latches = s.latches ∧
    (zeroMem s lo hi).lanes = s.lanes ∧ (zeroMem s lo hi).pairs = s.pairs ∧ (zeroMem s lo hi).cars = s.cars ∧
    (zeroMem s lo hi).cmpLast = s.cmpLast ∧ (zeroMem s lo hi).grps = s.grps ∧ (zeroMem s lo hi).cmps = s.cmps ∧
    (zeroMem s lo hi).ports = s.ports ∧ (zeroMem s lo hi).cells = s.cells ∧ (zeroMem s lo hi).enc = s.enc ∧
    (zeroMem s lo hi).fsHist = s.fsHist ∧ (zeroMem s lo hi).fsChips = s.fsChips ∧ (zeroMem s lo hi).met = s.met ∧
    (zeroMem s lo hi).slus = s.slus ∧ (zeroMem s lo hi).sluRot = s.sluRot ∧ (zeroMem s lo hi).sqs = s.sqs ∧
    (zeroMem s lo hi).safe = s.safe ∧ (zeroMem s lo hi).clk = s.clk ∧ (zeroMem s lo hi).keep = s.keep ∧ (zeroMem s lo hi).rlm = s.rlm ∧
    (zeroMem s lo hi).eth = s.eth ∧ (zeroMem s lo hi).upd = s.upd := by
  and_intros <;> rfl

@[simp] theorem nextFree_frame (s : State) :
    (nextFree s).regs = s.regs ∧ (nextFree s).mem = s.mem ∧ (nextFree s).pending = s.pending ∧ (nextFree s).time = s.time ∧
    (nextFree s).dev = s.dev ∧ (nextFree s).tick = s.tick ∧ (nextFree s).dike = s.dike ∧ (nextFree s).culv = s.culv ∧
    (nextFree s).flt = s.flt ∧ (nextFree s).recorder = s.recorder ∧ (nextFree s).img = s.img ∧ (nextFree s).eng = s.eng ∧
    (nextFree s).win = s.win ∧ (nextFree s).groups = s.groups ∧ (nextFree s).latches = s.latches ∧ (nextFree s).lanes = s.lanes ∧
    (nextFree s).pairs = s.pairs ∧ (nextFree s).cars = s.cars ∧ (nextFree s).cmpLast = s.cmpLast ∧ (nextFree s).grps = s.grps ∧
    (nextFree s).cmps = s.cmps ∧ (nextFree s).ports = s.ports ∧ (nextFree s).cells = s.cells ∧ (nextFree s).enc = s.enc ∧
    (nextFree s).fsHist = s.fsHist ∧ (nextFree s).fsChips = s.fsChips ∧ (nextFree s).met = s.met ∧ (nextFree s).slus = s.slus ∧
    (nextFree s).sluRot = s.sluRot ∧ (nextFree s).sqs = s.sqs ∧ (nextFree s).safe = s.safe ∧ (nextFree s).clk = s.clk ∧
    (nextFree s).keep = s.keep ∧ (nextFree s).rlm = s.rlm ∧ (nextFree s).eth = s.eth ∧ (nextFree s).upd = s.upd := by
  and_intros <;> rfl

@[simp] theorem setEng_frame (s : State) (e : Nat) (x : Eng) :
    (setEng s e x).regs = s.regs ∧ (setEng s e x).mem = s.mem ∧ (setEng s e x).pending = s.pending ∧ (setEng s e x).free = s.free ∧
    (setEng s e x).time = s.time ∧ (setEng s e x).dev = s.dev ∧ (setEng s e x).tick = s.tick ∧ (setEng s e x).dike = s.dike ∧
    (setEng s e x).culv = s.culv ∧ (setEng s e x).flt = s.flt ∧ (setEng s e x).recorder = s.recorder ∧ (setEng s e x).img = s.img ∧
    (setEng s e x).win = s.win ∧ (setEng s e x).groups = s.groups ∧ (setEng s e x).latches = s.latches ∧
    (setEng s e x).lanes = s.lanes ∧ (setEng s e x).pairs = s.pairs ∧ (setEng s e x).cars = s.cars ∧
    (setEng s e x).cmpLast = s.cmpLast ∧ (setEng s e x).grps = s.grps ∧ (setEng s e x).cmps = s.cmps ∧ (setEng s e x).ports = s.ports ∧
    (setEng s e x).cells = s.cells ∧ (setEng s e x).enc = s.enc ∧ (setEng s e x).fsHist = s.fsHist ∧
    (setEng s e x).fsChips = s.fsChips ∧ (setEng s e x).met = s.met ∧ (setEng s e x).slus = s.slus ∧ (setEng s e x).sluRot = s.sluRot ∧
    (setEng s e x).sqs = s.sqs ∧ (setEng s e x).safe = s.safe ∧ (setEng s e x).clk = s.clk ∧ (setEng s e x).keep = s.keep ∧
    (setEng s e x).rlm = s.rlm ∧ (setEng s e x).eth = s.eth ∧ (setEng s e x).upd = s.upd := by
  and_intros <;> rfl

@[simp] theorem setGroup_frame (s : State) (k : Nat) (g : GroupSt) :
    (setGroup s k g).regs = s.regs ∧ (setGroup s k g).mem = s.mem ∧ (setGroup s k g).pending = s.pending ∧
    (setGroup s k g).free = s.free ∧ (setGroup s k g).time = s.time ∧ (setGroup s k g).dev = s.dev ∧ (setGroup s k g).tick = s.tick ∧
    (setGroup s k g).dike = s.dike ∧ (setGroup s k g).culv = s.culv ∧ (setGroup s k g).flt = s.flt ∧
    (setGroup s k g).recorder = s.recorder ∧ (setGroup s k g).img = s.img ∧ (setGroup s k g).eng = s.eng ∧
    (setGroup s k g).win = s.win ∧ (setGroup s k g).latches = s.latches ∧ (setGroup s k g).lanes = s.lanes ∧
    (setGroup s k g).pairs = s.pairs ∧ (setGroup s k g).cars = s.cars ∧ (setGroup s k g).cmpLast = s.cmpLast ∧
    (setGroup s k g).grps = s.grps ∧ (setGroup s k g).cmps = s.cmps ∧ (setGroup s k g).ports = s.ports ∧
    (setGroup s k g).cells = s.cells ∧ (setGroup s k g).enc = s.enc ∧ (setGroup s k g).fsHist = s.fsHist ∧
    (setGroup s k g).fsChips = s.fsChips ∧ (setGroup s k g).met = s.met ∧ (setGroup s k g).slus = s.slus ∧
    (setGroup s k g).sluRot = s.sluRot ∧ (setGroup s k g).sqs = s.sqs ∧ (setGroup s k g).safe = s.safe ∧ (setGroup s k g).clk = s.clk ∧
    (setGroup s k g).keep = s.keep ∧ (setGroup s k g).rlm = s.rlm ∧ (setGroup s k g).eth = s.eth ∧ (setGroup s k g).upd = s.upd := by
  and_intros <;> rfl

@[simp] theorem setLatch_frame (s : State) (k : Nat) (l : LatchSt) :
    (setLatch s k l).regs = s.regs ∧ (setLatch s k l).mem = s.mem ∧ (setLatch s k l).pending = s.pending ∧
    (setLatch s k l).free = s.free ∧ (setLatch s k l).time = s.time ∧ (setLatch s k l).dev = s.dev ∧ (setLatch s k l).tick = s.tick ∧
    (setLatch s k l).dike = s.dike ∧ (setLatch s k l).culv = s.culv ∧ (setLatch s k l).flt = s.flt ∧
    (setLatch s k l).recorder = s.recorder ∧ (setLatch s k l).img = s.img ∧ (setLatch s k l).eng = s.eng ∧
    (setLatch s k l).win = s.win ∧ (setLatch s k l).groups = s.groups ∧ (setLatch s k l).lanes = s.lanes ∧
    (setLatch s k l).pairs = s.pairs ∧ (setLatch s k l).cars = s.cars ∧ (setLatch s k l).cmpLast = s.cmpLast ∧
    (setLatch s k l).grps = s.grps ∧ (setLatch s k l).cmps = s.cmps ∧ (setLatch s k l).ports = s.ports ∧
    (setLatch s k l).cells = s.cells ∧ (setLatch s k l).enc = s.enc ∧ (setLatch s k l).fsHist = s.fsHist ∧
    (setLatch s k l).fsChips = s.fsChips ∧ (setLatch s k l).met = s.met ∧ (setLatch s k l).slus = s.slus ∧
    (setLatch s k l).sluRot = s.sluRot ∧ (setLatch s k l).sqs = s.sqs ∧ (setLatch s k l).safe = s.safe ∧ (setLatch s k l).clk = s.clk ∧
    (setLatch s k l).keep = s.keep ∧ (setLatch s k l).rlm = s.rlm ∧ (setLatch s k l).eth = s.eth ∧ (setLatch s k l).upd = s.upd := by
  and_intros <;> rfl

@[simp] theorem setLane_frame (s : State) (e : Nat) (l : Lane) :
    (setLane s e l).regs = s.regs ∧ (setLane s e l).mem = s.mem ∧ (setLane s e l).pending = s.pending ∧ (setLane s e l).free = s.free ∧
    (setLane s e l).time = s.time ∧ (setLane s e l).dev = s.dev ∧ (setLane s e l).tick = s.tick ∧ (setLane s e l).dike = s.dike ∧
    (setLane s e l).culv = s.culv ∧ (setLane s e l).flt = s.flt ∧ (setLane s e l).recorder = s.recorder ∧ (setLane s e l).img = s.img ∧
    (setLane s e l).eng = s.eng ∧ (setLane s e l).win = s.win ∧ (setLane s e l).groups = s.groups ∧
    (setLane s e l).latches = s.latches ∧ (setLane s e l).pairs = s.pairs ∧ (setLane s e l).cars = s.cars ∧
    (setLane s e l).cmpLast = s.cmpLast ∧ (setLane s e l).grps = s.grps ∧ (setLane s e l).cmps = s.cmps ∧
    (setLane s e l).ports = s.ports ∧ (setLane s e l).cells = s.cells ∧ (setLane s e l).enc = s.enc ∧
    (setLane s e l).fsHist = s.fsHist ∧ (setLane s e l).fsChips = s.fsChips ∧ (setLane s e l).met = s.met ∧
    (setLane s e l).slus = s.slus ∧ (setLane s e l).sluRot = s.sluRot ∧ (setLane s e l).sqs = s.sqs ∧ (setLane s e l).safe = s.safe ∧
    (setLane s e l).clk = s.clk ∧ (setLane s e l).keep = s.keep ∧ (setLane s e l).rlm = s.rlm ∧ (setLane s e l).eth = s.eth ∧
    (setLane s e l).upd = s.upd := by
  and_intros <;> rfl

@[simp] theorem setCar_frame (s : State) (k : Nat) (c : Car) :
    (setCar s k c).regs = s.regs ∧ (setCar s k c).mem = s.mem ∧ (setCar s k c).pending = s.pending ∧ (setCar s k c).free = s.free ∧
    (setCar s k c).time = s.time ∧ (setCar s k c).dev = s.dev ∧ (setCar s k c).tick = s.tick ∧ (setCar s k c).dike = s.dike ∧
    (setCar s k c).culv = s.culv ∧ (setCar s k c).flt = s.flt ∧ (setCar s k c).recorder = s.recorder ∧ (setCar s k c).img = s.img ∧
    (setCar s k c).eng = s.eng ∧ (setCar s k c).win = s.win ∧ (setCar s k c).groups = s.groups ∧ (setCar s k c).latches = s.latches ∧
    (setCar s k c).lanes = s.lanes ∧ (setCar s k c).pairs = s.pairs ∧ (setCar s k c).cmpLast = s.cmpLast ∧
    (setCar s k c).grps = s.grps ∧ (setCar s k c).cmps = s.cmps ∧ (setCar s k c).ports = s.ports ∧ (setCar s k c).cells = s.cells ∧
    (setCar s k c).enc = s.enc ∧ (setCar s k c).fsHist = s.fsHist ∧ (setCar s k c).fsChips = s.fsChips ∧ (setCar s k c).met = s.met ∧
    (setCar s k c).slus = s.slus ∧ (setCar s k c).sluRot = s.sluRot ∧ (setCar s k c).sqs = s.sqs ∧ (setCar s k c).safe = s.safe ∧
    (setCar s k c).clk = s.clk ∧ (setCar s k c).keep = s.keep ∧ (setCar s k c).rlm = s.rlm ∧ (setCar s k c).eth = s.eth ∧
    (setCar s k c).upd = s.upd := by
  and_intros <;> rfl

@[simp] theorem setPair_frame (s : State) (p : Nat) (q : Pair) :
    (setPair s p q).regs = s.regs ∧ (setPair s p q).mem = s.mem ∧ (setPair s p q).pending = s.pending ∧ (setPair s p q).free = s.free ∧
    (setPair s p q).time = s.time ∧ (setPair s p q).dev = s.dev ∧ (setPair s p q).tick = s.tick ∧ (setPair s p q).dike = s.dike ∧
    (setPair s p q).culv = s.culv ∧ (setPair s p q).flt = s.flt ∧ (setPair s p q).recorder = s.recorder ∧ (setPair s p q).img = s.img ∧
    (setPair s p q).eng = s.eng ∧ (setPair s p q).win = s.win ∧ (setPair s p q).groups = s.groups ∧
    (setPair s p q).latches = s.latches ∧ (setPair s p q).lanes = s.lanes ∧ (setPair s p q).cars = s.cars ∧
    (setPair s p q).cmpLast = s.cmpLast ∧ (setPair s p q).grps = s.grps ∧ (setPair s p q).cmps = s.cmps ∧
    (setPair s p q).ports = s.ports ∧ (setPair s p q).cells = s.cells ∧ (setPair s p q).enc = s.enc ∧
    (setPair s p q).fsHist = s.fsHist ∧ (setPair s p q).fsChips = s.fsChips ∧ (setPair s p q).met = s.met ∧
    (setPair s p q).slus = s.slus ∧ (setPair s p q).sluRot = s.sluRot ∧ (setPair s p q).sqs = s.sqs ∧ (setPair s p q).safe = s.safe ∧
    (setPair s p q).clk = s.clk ∧ (setPair s p q).keep = s.keep ∧ (setPair s p q).rlm = s.rlm ∧ (setPair s p q).eth = s.eth ∧
    (setPair s p q).upd = s.upd := by
  and_intros <;> rfl

@[simp] theorem setPort_frame (s : State) (n : Nat) (x : Port) :
    (setPort s n x).regs = s.regs ∧ (setPort s n x).mem = s.mem ∧ (setPort s n x).pending = s.pending ∧ (setPort s n x).free = s.free ∧
    (setPort s n x).time = s.time ∧ (setPort s n x).dev = s.dev ∧ (setPort s n x).tick = s.tick ∧ (setPort s n x).dike = s.dike ∧
    (setPort s n x).culv = s.culv ∧ (setPort s n x).flt = s.flt ∧ (setPort s n x).recorder = s.recorder ∧ (setPort s n x).img = s.img ∧
    (setPort s n x).eng = s.eng ∧ (setPort s n x).win = s.win ∧ (setPort s n x).groups = s.groups ∧
    (setPort s n x).latches = s.latches ∧ (setPort s n x).lanes = s.lanes ∧ (setPort s n x).pairs = s.pairs ∧
    (setPort s n x).cars = s.cars ∧ (setPort s n x).cmpLast = s.cmpLast ∧ (setPort s n x).grps = s.grps ∧
    (setPort s n x).cmps = s.cmps ∧ (setPort s n x).cells = s.cells ∧ (setPort s n x).enc = s.enc ∧ (setPort s n x).fsHist = s.fsHist ∧
    (setPort s n x).fsChips = s.fsChips ∧ (setPort s n x).met = s.met ∧ (setPort s n x).slus = s.slus ∧
    (setPort s n x).sluRot = s.sluRot ∧ (setPort s n x).sqs = s.sqs ∧ (setPort s n x).safe = s.safe ∧ (setPort s n x).clk = s.clk ∧
    (setPort s n x).keep = s.keep ∧ (setPort s n x).rlm = s.rlm ∧ (setPort s n x).eth = s.eth ∧ (setPort s n x).upd = s.upd := by
  and_intros <;> rfl

@[simp] theorem setCell_frame (s : State) (i : Nat) (x : Cell) :
    (setCell s i x).regs = s.regs ∧ (setCell s i x).mem = s.mem ∧ (setCell s i x).pending = s.pending ∧ (setCell s i x).free = s.free ∧
    (setCell s i x).time = s.time ∧ (setCell s i x).dev = s.dev ∧ (setCell s i x).tick = s.tick ∧ (setCell s i x).dike = s.dike ∧
    (setCell s i x).culv = s.culv ∧ (setCell s i x).flt = s.flt ∧ (setCell s i x).recorder = s.recorder ∧ (setCell s i x).img = s.img ∧
    (setCell s i x).eng = s.eng ∧ (setCell s i x).win = s.win ∧ (setCell s i x).groups = s.groups ∧
    (setCell s i x).latches = s.latches ∧ (setCell s i x).lanes = s.lanes ∧ (setCell s i x).pairs = s.pairs ∧
    (setCell s i x).cars = s.cars ∧ (setCell s i x).cmpLast = s.cmpLast ∧ (setCell s i x).grps = s.grps ∧
    (setCell s i x).cmps = s.cmps ∧ (setCell s i x).ports = s.ports ∧ (setCell s i x).enc = s.enc ∧ (setCell s i x).fsHist = s.fsHist ∧
    (setCell s i x).fsChips = s.fsChips ∧ (setCell s i x).met = s.met ∧ (setCell s i x).slus = s.slus ∧
    (setCell s i x).sluRot = s.sluRot ∧ (setCell s i x).sqs = s.sqs ∧ (setCell s i x).safe = s.safe ∧ (setCell s i x).clk = s.clk ∧
    (setCell s i x).keep = s.keep ∧ (setCell s i x).rlm = s.rlm ∧ (setCell s i x).eth = s.eth ∧ (setCell s i x).upd = s.upd := by
  and_intros <;> rfl

@[simp] theorem setEnc_frame (s : State) (n : Nat) (x : Enc) :
    (setEnc s n x).regs = s.regs ∧ (setEnc s n x).mem = s.mem ∧ (setEnc s n x).pending = s.pending ∧ (setEnc s n x).free = s.free ∧
    (setEnc s n x).time = s.time ∧ (setEnc s n x).dev = s.dev ∧ (setEnc s n x).tick = s.tick ∧ (setEnc s n x).dike = s.dike ∧
    (setEnc s n x).culv = s.culv ∧ (setEnc s n x).flt = s.flt ∧ (setEnc s n x).recorder = s.recorder ∧ (setEnc s n x).img = s.img ∧
    (setEnc s n x).eng = s.eng ∧ (setEnc s n x).win = s.win ∧ (setEnc s n x).groups = s.groups ∧ (setEnc s n x).latches = s.latches ∧
    (setEnc s n x).lanes = s.lanes ∧ (setEnc s n x).pairs = s.pairs ∧ (setEnc s n x).cars = s.cars ∧
    (setEnc s n x).cmpLast = s.cmpLast ∧ (setEnc s n x).grps = s.grps ∧ (setEnc s n x).cmps = s.cmps ∧ (setEnc s n x).ports = s.ports ∧
    (setEnc s n x).cells = s.cells ∧ (setEnc s n x).fsHist = s.fsHist ∧ (setEnc s n x).fsChips = s.fsChips ∧
    (setEnc s n x).met = s.met ∧ (setEnc s n x).slus = s.slus ∧ (setEnc s n x).sluRot = s.sluRot ∧ (setEnc s n x).sqs = s.sqs ∧
    (setEnc s n x).safe = s.safe ∧ (setEnc s n x).clk = s.clk ∧ (setEnc s n x).keep = s.keep ∧ (setEnc s n x).rlm = s.rlm ∧
    (setEnc s n x).eth = s.eth ∧ (setEnc s n x).upd = s.upd := by
  and_intros <;> rfl

@[simp] theorem setGrp_frame (s : State) (g : Nat) (x : Grp) :
    (setGrp s g x).regs = s.regs ∧ (setGrp s g x).mem = s.mem ∧ (setGrp s g x).pending = s.pending ∧ (setGrp s g x).free = s.free ∧
    (setGrp s g x).time = s.time ∧ (setGrp s g x).dev = s.dev ∧ (setGrp s g x).tick = s.tick ∧ (setGrp s g x).dike = s.dike ∧
    (setGrp s g x).culv = s.culv ∧ (setGrp s g x).flt = s.flt ∧ (setGrp s g x).recorder = s.recorder ∧ (setGrp s g x).img = s.img ∧
    (setGrp s g x).eng = s.eng ∧ (setGrp s g x).win = s.win ∧ (setGrp s g x).groups = s.groups ∧ (setGrp s g x).latches = s.latches ∧
    (setGrp s g x).lanes = s.lanes ∧ (setGrp s g x).pairs = s.pairs ∧ (setGrp s g x).cars = s.cars ∧
    (setGrp s g x).cmpLast = s.cmpLast ∧ (setGrp s g x).cmps = s.cmps ∧ (setGrp s g x).ports = s.ports ∧
    (setGrp s g x).cells = s.cells ∧ (setGrp s g x).enc = s.enc ∧ (setGrp s g x).fsHist = s.fsHist ∧
    (setGrp s g x).fsChips = s.fsChips ∧ (setGrp s g x).met = s.met ∧ (setGrp s g x).slus = s.slus ∧ (setGrp s g x).sluRot = s.sluRot ∧
    (setGrp s g x).sqs = s.sqs ∧ (setGrp s g x).safe = s.safe ∧ (setGrp s g x).clk = s.clk ∧ (setGrp s g x).keep = s.keep ∧
    (setGrp s g x).rlm = s.rlm ∧ (setGrp s g x).eth = s.eth ∧ (setGrp s g x).upd = s.upd := by
  and_intros <;> rfl

@[simp] theorem setCmp_frame (s : State) (c : Nat) (x : Cmp) :
    (setCmp s c x).regs = s.regs ∧ (setCmp s c x).mem = s.mem ∧ (setCmp s c x).pending = s.pending ∧ (setCmp s c x).free = s.free ∧
    (setCmp s c x).time = s.time ∧ (setCmp s c x).dev = s.dev ∧ (setCmp s c x).tick = s.tick ∧ (setCmp s c x).dike = s.dike ∧
    (setCmp s c x).culv = s.culv ∧ (setCmp s c x).flt = s.flt ∧ (setCmp s c x).recorder = s.recorder ∧ (setCmp s c x).img = s.img ∧
    (setCmp s c x).eng = s.eng ∧ (setCmp s c x).win = s.win ∧ (setCmp s c x).groups = s.groups ∧ (setCmp s c x).latches = s.latches ∧
    (setCmp s c x).lanes = s.lanes ∧ (setCmp s c x).pairs = s.pairs ∧ (setCmp s c x).cars = s.cars ∧
    (setCmp s c x).cmpLast = s.cmpLast ∧ (setCmp s c x).grps = s.grps ∧ (setCmp s c x).ports = s.ports ∧
    (setCmp s c x).cells = s.cells ∧ (setCmp s c x).enc = s.enc ∧ (setCmp s c x).fsHist = s.fsHist ∧
    (setCmp s c x).fsChips = s.fsChips ∧ (setCmp s c x).met = s.met ∧ (setCmp s c x).slus = s.slus ∧ (setCmp s c x).sluRot = s.sluRot ∧
    (setCmp s c x).sqs = s.sqs ∧ (setCmp s c x).safe = s.safe ∧ (setCmp s c x).clk = s.clk ∧ (setCmp s c x).keep = s.keep ∧
    (setCmp s c x).rlm = s.rlm ∧ (setCmp s c x).eth = s.eth ∧ (setCmp s c x).upd = s.upd := by
  and_intros <;> rfl

@[simp] theorem setSlu_frame (s : State) (c : Nat) (x : Slu) :
    (setSlu s c x).regs = s.regs ∧ (setSlu s c x).mem = s.mem ∧ (setSlu s c x).pending = s.pending ∧ (setSlu s c x).free = s.free ∧
    (setSlu s c x).time = s.time ∧ (setSlu s c x).dev = s.dev ∧ (setSlu s c x).tick = s.tick ∧ (setSlu s c x).dike = s.dike ∧
    (setSlu s c x).culv = s.culv ∧ (setSlu s c x).flt = s.flt ∧ (setSlu s c x).recorder = s.recorder ∧ (setSlu s c x).img = s.img ∧
    (setSlu s c x).eng = s.eng ∧ (setSlu s c x).win = s.win ∧ (setSlu s c x).groups = s.groups ∧ (setSlu s c x).latches = s.latches ∧
    (setSlu s c x).lanes = s.lanes ∧ (setSlu s c x).pairs = s.pairs ∧ (setSlu s c x).cars = s.cars ∧
    (setSlu s c x).cmpLast = s.cmpLast ∧ (setSlu s c x).grps = s.grps ∧ (setSlu s c x).cmps = s.cmps ∧ (setSlu s c x).ports = s.ports ∧
    (setSlu s c x).cells = s.cells ∧ (setSlu s c x).enc = s.enc ∧ (setSlu s c x).fsHist = s.fsHist ∧
    (setSlu s c x).fsChips = s.fsChips ∧ (setSlu s c x).met = s.met ∧ (setSlu s c x).sluRot = s.sluRot ∧ (setSlu s c x).sqs = s.sqs ∧
    (setSlu s c x).safe = s.safe ∧ (setSlu s c x).clk = s.clk ∧ (setSlu s c x).keep = s.keep ∧ (setSlu s c x).rlm = s.rlm ∧
    (setSlu s c x).eth = s.eth ∧ (setSlu s c x).upd = s.upd := by
  and_intros <;> rfl

@[simp] theorem setSq_frame (s : State) (n : Nat) (x : SqPort) :
    (setSq s n x).regs = s.regs ∧ (setSq s n x).mem = s.mem ∧ (setSq s n x).pending = s.pending ∧ (setSq s n x).free = s.free ∧
    (setSq s n x).time = s.time ∧ (setSq s n x).dev = s.dev ∧ (setSq s n x).tick = s.tick ∧ (setSq s n x).dike = s.dike ∧
    (setSq s n x).culv = s.culv ∧ (setSq s n x).flt = s.flt ∧ (setSq s n x).recorder = s.recorder ∧ (setSq s n x).img = s.img ∧
    (setSq s n x).eng = s.eng ∧ (setSq s n x).win = s.win ∧ (setSq s n x).groups = s.groups ∧ (setSq s n x).latches = s.latches ∧
    (setSq s n x).lanes = s.lanes ∧ (setSq s n x).pairs = s.pairs ∧ (setSq s n x).cars = s.cars ∧ (setSq s n x).cmpLast = s.cmpLast ∧
    (setSq s n x).grps = s.grps ∧ (setSq s n x).cmps = s.cmps ∧ (setSq s n x).ports = s.ports ∧ (setSq s n x).cells = s.cells ∧
    (setSq s n x).enc = s.enc ∧ (setSq s n x).fsHist = s.fsHist ∧ (setSq s n x).fsChips = s.fsChips ∧ (setSq s n x).met = s.met ∧
    (setSq s n x).slus = s.slus ∧ (setSq s n x).sluRot = s.sluRot ∧ (setSq s n x).safe = s.safe ∧ (setSq s n x).clk = s.clk ∧
    (setSq s n x).keep = s.keep ∧ (setSq s n x).rlm = s.rlm ∧ (setSq s n x).eth = s.eth ∧ (setSq s n x).upd = s.upd := by
  and_intros <;> rfl

@[simp] theorem setEth_frame (s : State) (e : Nat) (x : Eth) :
    (setEth s e x).regs = s.regs ∧ (setEth s e x).mem = s.mem ∧ (setEth s e x).pending = s.pending ∧ (setEth s e x).free = s.free ∧
    (setEth s e x).time = s.time ∧ (setEth s e x).dev = s.dev ∧ (setEth s e x).tick = s.tick ∧ (setEth s e x).dike = s.dike ∧
    (setEth s e x).culv = s.culv ∧ (setEth s e x).flt = s.flt ∧ (setEth s e x).recorder = s.recorder ∧ (setEth s e x).img = s.img ∧
    (setEth s e x).eng = s.eng ∧ (setEth s e x).win = s.win ∧ (setEth s e x).groups = s.groups ∧ (setEth s e x).latches = s.latches ∧
    (setEth s e x).lanes = s.lanes ∧ (setEth s e x).pairs = s.pairs ∧ (setEth s e x).cars = s.cars ∧
    (setEth s e x).cmpLast = s.cmpLast ∧ (setEth s e x).grps = s.grps ∧ (setEth s e x).cmps = s.cmps ∧ (setEth s e x).ports = s.ports ∧
    (setEth s e x).cells = s.cells ∧ (setEth s e x).enc = s.enc ∧ (setEth s e x).fsHist = s.fsHist ∧
    (setEth s e x).fsChips = s.fsChips ∧ (setEth s e x).met = s.met ∧ (setEth s e x).slus = s.slus ∧ (setEth s e x).sluRot = s.sluRot ∧
    (setEth s e x).sqs = s.sqs ∧ (setEth s e x).safe = s.safe ∧ (setEth s e x).clk = s.clk ∧ (setEth s e x).keep = s.keep ∧
    (setEth s e x).rlm = s.rlm ∧ (setEth s e x).upd = s.upd := by
  and_intros <;> rfl

@[simp] theorem setRPort_frame (s : State) (n : Nat) (x : RPort) :
    (setRPort s n x).regs = s.regs ∧ (setRPort s n x).mem = s.mem ∧ (setRPort s n x).pending = s.pending ∧
    (setRPort s n x).free = s.free ∧ (setRPort s n x).time = s.time ∧ (setRPort s n x).dev = s.dev ∧ (setRPort s n x).tick = s.tick ∧
    (setRPort s n x).dike = s.dike ∧ (setRPort s n x).culv = s.culv ∧ (setRPort s n x).flt = s.flt ∧
    (setRPort s n x).recorder = s.recorder ∧ (setRPort s n x).img = s.img ∧ (setRPort s n x).eng = s.eng ∧
    (setRPort s n x).win = s.win ∧ (setRPort s n x).groups = s.groups ∧ (setRPort s n x).latches = s.latches ∧
    (setRPort s n x).lanes = s.lanes ∧ (setRPort s n x).pairs = s.pairs ∧ (setRPort s n x).cars = s.cars ∧
    (setRPort s n x).cmpLast = s.cmpLast ∧ (setRPort s n x).grps = s.grps ∧ (setRPort s n x).cmps = s.cmps ∧
    (setRPort s n x).ports = s.ports ∧ (setRPort s n x).cells = s.cells ∧ (setRPort s n x).enc = s.enc ∧
    (setRPort s n x).fsHist = s.fsHist ∧ (setRPort s n x).fsChips = s.fsChips ∧ (setRPort s n x).met = s.met ∧
    (setRPort s n x).slus = s.slus ∧ (setRPort s n x).sluRot = s.sluRot ∧ (setRPort s n x).sqs = s.sqs ∧
    (setRPort s n x).safe = s.safe ∧ (setRPort s n x).clk = s.clk ∧ (setRPort s n x).keep = s.keep ∧ (setRPort s n x).eth = s.eth ∧
    (setRPort s n x).upd = s.upd := by
  and_intros <;> rfl

@[simp] theorem setPolImg_frame (s : State) (p : Nat) (x : PolImg) :
    (setPolImg s p x).regs = s.regs ∧ (setPolImg s p x).mem = s.mem ∧ (setPolImg s p x).pending = s.pending ∧
    (setPolImg s p x).free = s.free ∧ (setPolImg s p x).time = s.time ∧ (setPolImg s p x).dev = s.dev ∧
    (setPolImg s p x).tick = s.tick ∧ (setPolImg s p x).dike = s.dike ∧ (setPolImg s p x).culv = s.culv ∧
    (setPolImg s p x).flt = s.flt ∧ (setPolImg s p x).recorder = s.recorder ∧ (setPolImg s p x).eng = s.eng ∧
    (setPolImg s p x).win = s.win ∧ (setPolImg s p x).groups = s.groups ∧ (setPolImg s p x).latches = s.latches ∧
    (setPolImg s p x).lanes = s.lanes ∧ (setPolImg s p x).pairs = s.pairs ∧ (setPolImg s p x).cars = s.cars ∧
    (setPolImg s p x).cmpLast = s.cmpLast ∧ (setPolImg s p x).grps = s.grps ∧ (setPolImg s p x).cmps = s.cmps ∧
    (setPolImg s p x).ports = s.ports ∧ (setPolImg s p x).cells = s.cells ∧ (setPolImg s p x).enc = s.enc ∧
    (setPolImg s p x).fsHist = s.fsHist ∧ (setPolImg s p x).fsChips = s.fsChips ∧ (setPolImg s p x).met = s.met ∧
    (setPolImg s p x).slus = s.slus ∧ (setPolImg s p x).sluRot = s.sluRot ∧ (setPolImg s p x).sqs = s.sqs ∧
    (setPolImg s p x).safe = s.safe ∧ (setPolImg s p x).clk = s.clk ∧ (setPolImg s p x).keep = s.keep ∧ (setPolImg s p x).rlm = s.rlm ∧
    (setPolImg s p x).eth = s.eth ∧ (setPolImg s p x).upd = s.upd := by
  and_intros <;> rfl

/-! ## Folds -/

/-- What every element's effect keeps, the fold keeps. -/
theorem forEach_keeps {α β : Type} (π : State → β) (l : List α) (s : State) (f : State → α → State)
    (h : ∀ s x, π (f s x) = π s) : π (forEach l s f) = π s := by
  unfold forEach
  induction l generalizing s with
  | nil => rfl
  | cons x t ih => rw [List.foldl_cons, ih, h]

/-- What every element's effect preserves, the fold preserves. -/
theorem forEach_preserves {α : Type} (P : State → Prop) (l : List α) (s : State) (f : State → α → State)
    (h : ∀ s x, P s → P (f s x)) (hs : P s) : P (forEach l s f) := by
  unfold forEach
  induction l generalizing s with
  | nil => exact hs
  | cons x t ih => exact ih _ (h s x hs)

/-- A conditional effect preserves what its effect preserves. -/
theorem when'_preserves (P : State → Prop) (b : Bool) (f : State → State) (s : State) (h : P s → P (f s)) (hs : P s) :
    P (when' b f s) := by
  unfold when'
  split
  · exact h hs
  · exact hs

end Sys2Proof.Machine
end

