-- ==== Sys2Proof/Laws/Fields.lean ====
section
/-! SUPPORT. Laws of register fields and numbered bits: a written field reads back, and leaves the other fields of its word alone. -/

namespace Sys2Proof.Machine

/-- A field lies inside a register. -/
def fldOk (f : Fld) : Bool := decide (f.lo ≤ f.hi) && decide (f.hi < 32)

/-- Two fields share no bit. -/
def fldApart (f g : Fld) : Bool := decide (f.hi < g.lo) || decide (g.hi < f.lo)

/-! ## Numbered bits -/

theorem nbit_eq_testBit (n i : Nat) : nbit n i = n.testBit i := by
  unfold nbit
  rw [Nat.testBit_eq_decide_div_mod_eq, beq_eq_decide]

/-- Two numbers that agree below bit i, and above it, agree in every bit but i. -/
theorem testBit_split (i j a b r : Nat) (hr : r < 2 ^ i) (hab : a / 2 = b / 2) (h : j ≠ i) : (2 ^ i * a + r).testBit j = (2 ^ i * b + r).testBit j := by
  rw [Nat.testBit_two_pow_mul_add a hr, Nat.testBit_two_pow_mul_add b hr]
  split
  · rfl
  · obtain ⟨k, hk⟩ : ∃ k, j - i = k + 1 := ⟨j - i - 1, by omega⟩
    rw [hk, Nat.testBit_succ, Nat.testBit_succ, hab]

/-- The bit that is written reads back; every other bit stays. -/
theorem nbit_nbitSet (n i j : Nat) (b : Bool) : nbit (nbitSet n i b) j = if j = i then b else nbit n j := by
  by_cases h : nbit n i = b
  · unfold nbitSet
    rw [if_pos h]
    split
    · rename_i e; rw [e]; exact h
    · rfl
  · have hr : n % 2 ^ i < 2 ^ i := Nat.mod_lt _ (Nat.two_pow_pos i)
    have hn : n = 2 ^ i * (n / 2 ^ i) + n % 2 ^ i := (Nat.div_add_mod n (2 ^ i)).symm
    have hset : nbitSet n i b = 2 ^ i * (2 * (n / 2 ^ i / 2) + bit b) + n % 2 ^ i := by
      unfold nbitSet
      rw [if_neg h]
      cases b with
      | true =>
        have hq : n / 2 ^ i % 2 = 0 := by
          simp only [nbit, Bool.not_eq_true, beq_eq_false_iff_ne] at h
          omega
        have : 2 * (n / 2 ^ i / 2) + bit true = n / 2 ^ i + 1 := by rw [show bit true = 1 from rfl]; omega
        rw [this, Nat.mul_add]
        simp only [if_true]
        omega
      | false =>
        have hq : n / 2 ^ i % 2 = 1 := by
          simp only [nbit, Bool.not_eq_false, beq_iff_eq] at h
          exact h
        have : n / 2 ^ i = 2 * (n / 2 ^ i / 2) + bit false + 1 := by rw [show bit false = 0 from rfl]; omega
        rw [if_neg (by decide)]
        generalize 2 * (n / 2 ^ i / 2) + bit false = q at this ⊢
        rw [this, Nat.mul_add] at hn
        omega
    simp only [nbit_eq_testBit]
    rw [hset]
    split
    · rename_i e
      rw [e, Nat.testBit_two_pow_mul_add _ hr, if_neg (by omega), Nat.sub_self, Nat.testBit_zero]
      cases b <;> simp [bit]
    · rename_i e
      conv_rhs => rw [hn]
      exact testBit_split i j _ _ _ hr (by cases b <;> simp [bit]; omega) e

/-! ## Fields of a word -/

theorem testBit_fget (w : Word) (f : Fld) (i : Nat) : (fget w f).testBit i = (decide (i < f.hi + 1 - f.lo) && w.getLsbD (f.lo + i)) := by
  unfold fget fldCard
  rw [Nat.testBit_mod_two_pow, Nat.testBit_div_two_pow, BitVec.testBit_toNat, Nat.add_comm i]

/-- A field's bits after it is written, bit by bit. -/
theorem getLsbD_fset (w : Word) (f : Fld) (v i : Nat) (h : fldOk f = true) (hi : i < 32) :
    (fset w f v).getLsbD i = if f.lo ≤ i ∧ i ≤ f.hi then v.testBit (i - f.lo) else w.getLsbD i := by
  simp only [fldOk, Bool.and_eq_true, decide_eq_true_eq] at h
  unfold fset fldMask fldCard
  simp only [BitVec.getLsbD_or, BitVec.getLsbD_and, BitVec.getLsbD_not, BitVec.getLsbD_ofNat, hi, decide_true, Bool.true_and,
    Nat.testBit_mul_two_pow, Nat.testBit_two_pow_sub_one, Nat.testBit_mod_two_pow]
  by_cases h1 : f.lo ≤ i
  · by_cases h2 : i ≤ f.hi
    · have : i - f.lo < f.hi + 1 - f.lo := by omega
      simp [h1, h2, this]
    · have : ¬ i - f.lo < f.hi + 1 - f.lo := by omega
      simp [h1, h2, this]
  · simp [h1]

/-- A written field reads back, cut to its width. -/
theorem fget_fset_same (w : Word) (f : Fld) (v : Nat) (h : fldOk f = true) : fget (fset w f v) f = v % fldCard f := by
  have h' := h
  simp only [fldOk, Bool.and_eq_true, decide_eq_true_eq] at h'
  apply Nat.eq_of_testBit_eq
  intro i
  rw [testBit_fget, fldCard, Nat.testBit_mod_two_pow]
  by_cases hi : i < f.hi + 1 - f.lo
  · rw [getLsbD_fset w f v _ h (by omega), if_pos (by omega)]
    simp [hi]
  · simp [hi]

/-- Another field of the word stays. -/
theorem fget_fset_other (w : Word) (f g : Fld) (v : Nat) (h : fldOk f = true) (hg : fldOk g = true) (hd : fldApart f g = true) :
    fget (fset w f v) g = fget w g := by
  have hg' := hg
  simp only [fldOk, Bool.and_eq_true, decide_eq_true_eq] at hg'
  simp only [fldApart, Bool.or_eq_true, decide_eq_true_eq] at hd
  apply Nat.eq_of_testBit_eq
  intro i
  rw [testBit_fget, testBit_fget]
  by_cases hi : i < g.hi + 1 - g.lo
  · rw [getLsbD_fset w f v _ h (by omega), if_neg (by omega)]
  · simp [hi]

theorem fget_lt (w : Word) (f : Fld) : fget w f < fldCard f := Nat.mod_lt _ (Nat.two_pow_pos _)

/-! ## Fields of a register -/

theorem getF_setF_same (s : State) (a : Nat) (f : Fld) (v : Nat) (h : fldOk f = true) : getF (setF s a f v) a f = v % fldCard f := by
  unfold getF setF
  rw [getReg_setReg_same, fget_fset_same _ _ _ h]

theorem getF_setF_field (s : State) (a : Nat) (f g : Fld) (v : Nat) (h : fldOk f = true) (hg : fldOk g = true) (hd : fldApart f g = true) :
    getF (setF s a f v) a g = getF s a g := by
  unfold getF setF
  rw [getReg_setReg_same, fget_fset_other _ _ _ _ h hg hd]

theorem getF_setF_other (s : State) {a b : Nat} (f g : Fld) (v : Nat) (h : b ≠ a) : getF (setF s a f v) b g = getF s b g := by
  unfold getF
  rw [getReg_setF_other s f v h]

theorem getF_setReg_other (s : State) {a b : Nat} (g : Fld) (w : Word) (h : b ≠ a) : getF (setReg s a w) b g = getF s b g := by
  unfold getF
  rw [getReg_setReg_other s w h]

theorem getB_setB_same (s : State) (a : Nat) (f : Fld) (b : Bool) (h : fldOk f = true) : getB (setB s a f b) a f = b := by
  have h' := h
  simp only [fldOk, Bool.and_eq_true, decide_eq_true_eq] at h'
  unfold getB setB
  rw [getF_setF_same _ _ _ _ h]
  have h2 : 2 ≤ fldCard f := by
    unfold fldCard
    calc 2 = 2 ^ 1 := rfl
      _ ≤ 2 ^ (f.hi + 1 - f.lo) := Nat.pow_le_pow_right (by omega) (by omega)
  cases b <;> simp [bit, Nat.mod_eq_of_lt (show 1 < fldCard f by omega)]

theorem getB_setB_field (s : State) (a : Nat) (f g : Fld) (b : Bool) (h : fldOk f = true) (hg : fldOk g = true) (hd : fldApart f g = true) :
    getB (setB s a f b) a g = getB s a g := by
  unfold getB setB
  rw [getF_setF_field _ _ _ _ _ h hg hd]

theorem getB_setB_other (s : State) {a c : Nat} (f g : Fld) (b : Bool) (h : c ≠ a) : getB (setB s a f b) c g = getB s c g := by
  unfold getB setB
  rw [getF_setF_other _ _ _ _ h]

theorem getF_setB_other (s : State) {a c : Nat} (f g : Fld) (b : Bool) (h : c ≠ a) : getF (setB s a f b) c g = getF s c g :=
  getF_setF_other s f g _ h

theorem getF_setB_field (s : State) (a : Nat) (f g : Fld) (b : Bool) (h : fldOk f = true) (hg : fldOk g = true) (hd : fldApart f g = true) :
    getF (setB s a f b) a g = getF s a g := getF_setF_field s a f g _ h hg hd

theorem getB_setF_other (s : State) {a c : Nat} (f g : Fld) (v : Nat) (h : c ≠ a) : getB (setF s a f v) c g = getB s c g := by
  unfold getB
  rw [getF_setF_other _ _ _ _ h]

theorem getB_setF_field (s : State) (a : Nat) (f g : Fld) (v : Nat) (h : fldOk f = true) (hg : fldOk g = true) (hd : fldApart f g = true) :
    getB (setF s a f v) a g = getB s a g := by
  unfold getB
  rw [getF_setF_field _ _ _ _ _ h hg hd]

theorem getB_setReg_other (s : State) {a b : Nat} (g : Fld) (w : Word) (h : b ≠ a) : getB (setReg s a w) b g = getB s b g := by
  unfold getB
  rw [getF_setReg_other s g w h]

/-- A numbered bit of a field, inside the field, reads back; the field's other bits stay. -/
theorem getFbit_setFbit (s : State) (a : Nat) (f : Fld) (i j : Nat) (b : Bool) (h : fldOk f = true) (hj : j < f.hi + 1 - f.lo) :
    getFbit (setFbit s a f i b) a f j = if j = i then b else getFbit s a f j := by
  unfold getFbit setFbit
  rw [getF_setF_same _ _ _ _ h]
  have : nbit (nbitSet (getF s a f) i b % fldCard f) j = nbit (nbitSet (getF s a f) i b) j := by
    rw [nbit_eq_testBit, nbit_eq_testBit, fldCard, Nat.testBit_mod_two_pow]
    simp [hj]
  rw [this, nbit_nbitSet]

theorem getFbit_setFbit_other (s : State) {a c : Nat} (f g : Fld) (i j : Nat) (b : Bool) (h : c ≠ a) :
    getFbit (setFbit s a f i b) c g j = getFbit s c g j := by
  unfold getFbit setFbit
  rw [getF_setF_other _ _ _ _ h]

/-- A count stops at the field's highest value. -/
theorem getF_countF (s : State) (a : Nat) (f : Fld) (k : Nat) (h : fldOk f = true) :
    getF (countF s a f k) a f = min (fldCard f - 1) (getF s a f + k) := by
  have h1 : 0 < fldCard f := Nat.two_pow_pos _
  unfold countF satInc
  rw [getF_setF_same _ _ _ _ h, Nat.mod_eq_of_lt (by omega)]

end Sys2Proof.Machine
end

