-- ==== Sys2Proof/Laws/Faults.lean ====
section
/-! SUPPORT. Laws of events and faults: what recording an event, collecting a fault and demanding the safe state can change; that
a notice is noted where there is room, and a collected fault is held. -/

namespace Sys2Proof.Machine

/-- The state but for what events and faults change: registers, free values, requested resets, condition latches, the collector,
the recorder, pairs, cell-link ports, the safety channel. -/
def calm (s : State) : State :=
  { s with regs := [], free := 0, dev := { s.dev with resetReq := [] }, tick := { s.tick with condLatch := [] }, flt := fltReset,
           recorder := recReset, pairs := [], ports := [], safe := safeReset }

/-! ## Lists of numbers -/

theorem mem_upto {n x : Nat} : x ∈ upto n ↔ x < n := by
  induction n with
  | zero => simp [upto]
  | succ n ih => simp only [upto, List.mem_append, ih, List.mem_singleton]; omega

/-- What every element's effect preserves, for the elements of the list, the fold preserves. -/
theorem forEach_preserves_mem {α : Type} (P : State → Prop) (l : List α) (s : State) (f : State → α → State)
    (h : ∀ s x, x ∈ l → P s → P (f s x)) (hs : P s) : P (forEach l s f) := by
  unfold forEach
  induction l generalizing s with
  | nil => exact hs
  | cons x t ih => exact ih _ (fun s y hy => h s y (List.mem_cons_of_mem _ hy)) (h s x (List.mem_cons_self) hs)

/-! ## What an event leaves alone -/

@[simp] theorem calm_setReg (s : State) (a : Nat) (w : Word) : calm (setReg s a w) = calm s := rfl
@[simp] theorem calm_setF (s : State) (a : Nat) (f : Fld) (v : Nat) : calm (setF s a f v) = calm s := rfl
@[simp] theorem calm_setB (s : State) (a : Nat) (f : Fld) (b : Bool) : calm (setB s a f b) = calm s := rfl
@[simp] theorem calm_setFbit (s : State) (a : Nat) (f : Fld) (i : Nat) (b : Bool) : calm (setFbit s a f i b) = calm s := rfl
@[simp] theorem calm_countF (s : State) (a : Nat) (f : Fld) (k : Nat) : calm (countF s a f k) = calm s := rfl
@[simp] theorem calm_setPair (s : State) (p : Nat) (q : Pair) : calm (setPair s p q) = calm s := rfl
@[simp] theorem calm_setPort (s : State) (n : Nat) (x : Port) : calm (setPort s n x) = calm s := rfl
@[simp] theorem calm_nextFree (s : State) : calm (nextFree s) = calm s := rfl

/-- A fold of effects that leave the calm part alone leaves it alone. -/
theorem calm_forEach {α : Type} (l : List α) (s : State) (f : State → α → State) (h : ∀ s x, calm (f s x) = calm s) :
    calm (forEach l s f) = calm s := forEach_keeps calm l s f h

theorem calm_when' (b : Bool) (f : State → State) (s : State) (h : ∀ s, calm (f s) = calm s) : calm (when' b f s) = calm s := by
  unfold when'
  split
  · exact h s
  · rfl

@[simp] theorem calm_enqueueKeep (s : State) (e : Event) : calm (enqueueKeep s e) = calm s := by
  unfold enqueueKeep
  dsimp only
  split <;> rfl

@[simp] theorem calm_enqueue (s : State) (e : Event) : calm (enqueue s e) = calm s := by
  unfold enqueue
  dsimp only
  split
  · exact calm_enqueueKeep s e
  · split <;> rfl

@[simp] theorem calm_notice (s : State) (code scope : Nat) (l : List Word) : calm (notice s code scope l) = calm s := by
  unfold notice
  rw [calm_nextFree, calm_enqueue]

@[simp] theorem calm_latchAllConds (s : State) : calm (latchAllConds s) = calm s := calm_forEach _ _ _ fun _ _ => rfl

@[simp] theorem calm_refreshPins (s : State) : calm (refreshPins s) = calm s := rfl

@[simp] theorem calm_refreshSum (s : State) (p : Nat) : calm (refreshSum s p) = calm s := rfl

@[simp] theorem calm_startModeHold (s : State) (p : Nat) : calm (startModeHold s p) = calm s := by
  unfold startModeHold
  split <;> rfl

@[simp] theorem calm_driveOutputs (s : State) (p : Nat) (a b : Bool) : calm (driveOutputs s p a b) = calm s := rfl

@[simp] theorem calm_pairRefresh (s : State) (p : Nat) (st : Bool) : calm (pairRefresh s p st) = calm s := by
  unfold pairRefresh
  dsimp only
  split
  · rw [calm_driveOutputs]
    rfl
  · split
    · rw [calm_driveOutputs]
      rfl
    · rfl

@[simp] theorem calm_pairTrip (s : State) (p : Nat) (f : Fld) : calm (pairTrip s p f) = calm s := by
  unfold pairTrip
  dsimp only
  rw [calm_pairRefresh, calm_setB, calm_setB]

@[simp] theorem calm_pairTripRst (s : State) (p : Nat) : calm (pairTripRst s p) = calm s := by
  unfold pairTripRst
  rw [calm_pairTrip, calm_setPair]

@[simp] theorem calm_portInh (s : State) (n : Nat) : calm (portInh s n) = calm s := by
  unfold portInh
  split <;> rfl

@[simp] theorem calm_portTripRst (s : State) (n : Nat) : calm (portTripRst s n) = calm s := by
  unfold portTripRst
  rw [calm_setB, calm_setB]

@[simp] theorem calm_portSafe (s : State) (n : Nat) : calm (portSafe s n) = calm s := by
  unfold portSafe
  rw [calm_portInh, calm_setB, calm_setB]

@[simp] theorem calm_safePairs (s : State) : calm (safePairs s) = calm s := by
  refine calm_forEach _ _ _ fun s p => ?_
  split
  · exact calm_pairRefresh _ _ _
  · exact calm_pairTrip _ _ _

@[simp] theorem calm_lineOff (s : State) : calm (lineOff s) = calm s := by
  unfold lineOff
  rw [calm_forEach _ _ _ calm_portSafe, calm_safePairs]

@[simp] theorem calm_refreshOuts (s : State) : calm (refreshOuts s) = calm s := by
  unfold refreshOuts
  dsimp only
  rw [calm_setB]
  refine calm_forEach _ _ _ fun s k => ?_
  split <;> rfl

/-- A demand of the safe state changes nothing but what faults change. -/
@[simp] theorem calm_demandBy (s : State) (brk : Nat) (own : Bool) : calm (demandBy s brk own) = calm s := by
  unfold demandBy
  dsimp only
  rw [calm_refreshOuts]
  split
  · rw [calm_lineOff]; rfl
  · rfl

@[simp] theorem calm_demand (s : State) (brk : Nat) : calm (demand s brk) = calm s := calm_demandBy s brk true

@[simp] theorem calm_refreshFaults (s : State) : calm (refreshFaults s) = calm s := by
  have h : calm (forEach (upto 8) s fun s p => startModeHold (refreshSum s p) p) = calm s :=
    calm_forEach _ _ _ fun s p => by rw [calm_startModeHold, calm_refreshSum]
  unfold refreshFaults
  generalize forEach (upto 8) s (fun s p => startModeHold (refreshSum s p) p) = x at h ⊢
  dsimp only
  rw [calm_latchAllConds, calm_refreshPins]
  split
  · rw [calm_notice, calm_demand, calm_setB]
    exact h
  · rw [calm_setB]
    exact h

@[simp] theorem calm_requestReset (s : State) (p : Nat) (c : ResetCause) : calm (requestReset s p c) = calm s := by
  unfold requestReset
  split <;> rfl

@[simp] theorem calm_tripPolder (s : State) (p : Nat) : calm (tripPolder s p) = calm s := by
  unfold tripPolder
  rw [calm_forEach _ _ _ calm_portTripRst, calm_forEach _ _ _ calm_pairTripRst]

@[simp] theorem calm_isolate (s : State) (p : Nat) (r : Bool) : calm (isolate s p r) = calm s := by
  have h : calm (forEach (portsOf s p) (tripPolder s p) portInh) = calm s := (calm_forEach _ _ _ calm_portInh).trans (calm_tripPolder s p)
  unfold isolate
  dsimp only
  split
  · rw [calm_requestReset]
    exact h
  · exact h

@[simp] theorem calm_captureFault (s : State) (e : Event) (esc : Bool) : calm (captureFault s e esc) = calm s := by
  unfold captureFault
  dsimp only
  split <;> rfl

/-- Collecting a fault changes nothing but what faults change. -/
@[simp] theorem calm_collect (s : State) (code cls scope : Nat) (l : List Word) (hk : Option Nat) (r : Bool) :
    calm (collect s code cls scope l hk r) = calm s := by
  unfold collect
  dsimp only
  rw [calm_refreshFaults, calm_when' _ _ _ (fun s => by rw [calm_demand]; rfl), calm_when' _ _ _ (fun s => calm_forEach _ _ _ fun s p => calm_isolate s p _),
    calm_when' _ _ _ (fun s => calm_isolate s scope r), calm_when' _ _ _ (fun s => by rfl)]
  have h : ∀ (b : Bool) (e : Event) (esc : Bool) (s : State), calm (if b then captureFault s e esc else s) = calm s := by
    intro b e esc s
    split
    · exact calm_captureFault s e esc
    · rfl
  rw [h]
  change calm (when' _ _ _) = _
  rw [calm_when' _ _ _ (fun s => calm_notice s _ _ _), calm_enqueue, calm_when' _ _ _ (fun s => by rw [calm_setB]), calm_nextFree]

@[simp] theorem calm_event (s : State) (code cls scope : Nat) (l : List Word) : calm (event s code cls scope l) = calm s := by
  unfold event
  split
  · exact calm_notice _ _ _ _
  · exact calm_collect _ _ _ _ _ _ _

@[simp] theorem calm_hkBegin (s : State) (b code cls : Nat) (l : List Word) : calm (hkBegin s b code cls l) = calm s := by
  unfold hkBegin
  dsimp only
  split
  · rfl
  · split
    · rfl
    · rw [calm_collect]; rfl

@[simp] theorem calm_hkEnd (s : State) (b : Nat) : calm (hkEnd s b) = calm s := rfl

/-- The fields that two states with the same calm part share. -/
theorem calm_fields {s t : State} (h : calm t = calm s) :
    t.mem = s.mem ∧ t.pending = s.pending ∧ t.time = s.time ∧ t.dev.phase = s.dev.phase ∧ t.dev.tickRun = s.dev.tickRun ∧
    t.dev.tickLost = s.dev.tickLost ∧ t.dev.inReset = s.dev.inReset ∧ t.tick.count = s.tick.count ∧ t.tick.staged = s.tick.staged ∧
    t.tick.stageMeta = s.tick.stageMeta ∧ t.tick.sets = s.tick.sets ∧ t.tick.nextMode = s.tick.nextMode ∧ t.dike = s.dike ∧
    t.culv = s.culv ∧ t.img = s.img ∧ t.eng = s.eng ∧ t.win = s.win ∧ t.groups = s.groups ∧ t.latches = s.latches ∧ t.lanes = s.lanes ∧
    t.cars = s.cars ∧ t.grps = s.grps ∧ t.cmps = s.cmps ∧ t.cells = s.cells ∧ t.enc = s.enc ∧ t.fsHist = s.fsHist ∧ t.fsChips = s.fsChips ∧
    t.met = s.met ∧
    t.slus = s.slus ∧ t.sqs = s.sqs ∧ t.clk = s.clk ∧ t.keep = s.keep ∧ t.rlm = s.rlm ∧ t.eth = s.eth ∧ t.upd = s.upd :=
  ⟨congrArg (·.mem) h, congrArg (·.pending) h, congrArg (·.time) h, congrArg (·.dev.phase) h, congrArg (·.dev.tickRun) h,
   congrArg (·.dev.tickLost) h, congrArg (·.dev.inReset) h, congrArg (·.tick.count) h, congrArg (·.tick.staged) h,
   congrArg (·.tick.stageMeta) h, congrArg (·.tick.sets) h, congrArg (·.tick.nextMode) h, congrArg (·.dike) h, congrArg (·.culv) h,
   congrArg (·.img) h, congrArg (·.eng) h, congrArg (·.win) h, congrArg (·.groups) h, congrArg (·.latches) h, congrArg (·.lanes) h,
   congrArg (·.cars) h, congrArg (·.grps) h, congrArg (·.cmps) h, congrArg (·.cells) h, congrArg (·.enc) h, congrArg (·.fsHist) h,
   congrArg (·.fsChips) h,
   congrArg (·.met) h, congrArg (·.slus) h, congrArg (·.sqs) h, congrArg (·.clk) h, congrArg (·.keep) h, congrArg (·.rlm) h,
   congrArg (·.eth) h, congrArg (·.upd) h⟩

/-- Memory after a fault, an event, a demand. -/
@[simp] theorem collect_mem (s : State) (code cls scope : Nat) (l : List Word) (hk : Option Nat) (r : Bool) :
    (collect s code cls scope l hk r).mem = s.mem := (calm_fields (calm_collect s code cls scope l hk r)).1
@[simp] theorem event_mem (s : State) (code cls scope : Nat) (l : List Word) : (event s code cls scope l).mem = s.mem :=
  (calm_fields (calm_event s code cls scope l)).1
@[simp] theorem notice_mem (s : State) (code scope : Nat) (l : List Word) : (notice s code scope l).mem = s.mem :=
  (calm_fields (calm_notice s code scope l)).1
@[simp] theorem demand_mem (s : State) (brk : Nat) : (demand s brk).mem = s.mem := (calm_fields (calm_demand s brk)).1
@[simp] theorem refreshFaults_mem (s : State) : (refreshFaults s).mem = s.mem := (calm_fields (calm_refreshFaults s)).1

/-! ## The faults held -/

theorem flt_enqueue (s : State) (e : Event) : (enqueue s e).flt = s.flt := by
  unfold enqueue enqueueKeep
  dsimp only
  split
  · split <;> rfl
  · split <;> rfl

/-- A notice leaves the collector alone. -/
@[simp] theorem flt_notice (s : State) (code scope : Nat) (l : List Word) : (notice s code scope l).flt = s.flt := by
  unfold notice nextFree
  exact flt_enqueue _ _

theorem flt_pairTrip (s : State) (p : Nat) (f : Fld) : (pairTrip s p f).flt = s.flt := by
  unfold pairTrip pairRefresh
  dsimp only
  split
  · rfl
  · split <;> rfl

theorem flt_portInh (s : State) (n : Nat) : (portInh s n).flt = s.flt := by
  unfold portInh
  split <;> rfl

theorem flt_tripPolder (s : State) (p : Nat) : (tripPolder s p).flt = s.flt := by
  unfold tripPolder
  rw [forEach_keeps (·.flt) (portsOf s p) _ portTripRst (fun _ _ => rfl), forEach_keeps (·.flt) (pairsOf s p) s pairTripRst (fun s n => flt_pairTrip _ n _)]

theorem flt_requestReset (s : State) (p : Nat) (c : ResetCause) : (requestReset s p c).flt = s.flt := by
  unfold requestReset
  split <;> rfl

/-- Isolation leaves the faults held alone. -/
theorem held_isolate (s : State) (p : Nat) (r : Bool) : (isolate s p r).flt.held = s.flt.held := by
  have h : (forEach (portsOf s p) (tripPolder s p) portInh).flt = s.flt :=
    (forEach_keeps (·.flt) _ _ portInh fun s n => flt_portInh s n).trans (flt_tripPolder s p)
  unfold isolate
  generalize forEach (portsOf s p) (tripPolder s p) portInh = x at h ⊢
  dsimp only
  split
  · rw [flt_requestReset]
    exact congrArg (·.held) h
  · exact congrArg (·.held) h

/-- A demand of the safe state leaves the collector alone. -/
theorem flt_demand (s : State) (brk : Nat) : (demand s brk).flt = s.flt := by
  have ho (s : State) : (refreshOuts s).flt = s.flt := by
    unfold refreshOuts
    show (setB _ _ _ _).flt = _
    refine forEach_keeps (·.flt) _ _ _ fun s k => ?_
    dsimp only
    split <;> rfl
  have hl (s : State) : (lineOff s).flt = s.flt := by
    unfold lineOff safePairs
    rw [forEach_keeps (·.flt) (upto 48) _ portSafe (fun s n => flt_portInh _ n)]
    refine forEach_keeps (·.flt) _ _ _ fun s p => ?_
    split
    · unfold pairRefresh
      dsimp only
      split
      · rfl
      · split <;> rfl
    · exact flt_pairTrip _ _ _
  unfold demand demandBy
  dsimp only
  rw [ho]
  split
  · rw [hl]; rfl
  · rfl

/-- What follows a change of the held faults does not change them. -/
theorem held_refreshFaults (s : State) : (refreshFaults s).flt.held = s.flt.held := by
  have h : (forEach (upto 8) s fun s p => startModeHold (refreshSum s p) p).flt = s.flt :=
    forEach_keeps (·.flt) _ _ _ fun s p => by
      show (startModeHold (refreshSum s p) p).flt = s.flt
      unfold startModeHold
      split <;> rfl
  have hc (s : State) : (latchAllConds s).flt = s.flt := forEach_keeps (·.flt) _ _ _ fun _ _ => rfl
  have hp (s : State) : (refreshPins s).flt.held = s.flt.held := rfl
  unfold refreshFaults
  generalize forEach (upto 8) s (fun s p => startModeHold (refreshSum s p) p) = x at h ⊢
  dsimp only
  rw [hc, hp]
  split
  · rw [flt_notice, flt_demand]
    exact congrArg (·.held) h
  · exact congrArg (·.held) h

/-- A collected fault joins the faults held, one class higher where it escalates (R467, R471). -/
theorem held_collect (s : State) (code cls scope : Nat) (l : List Word) (hk : Option Nat) (r : Bool) :
    ∃ h : Held, (collect s code cls scope l hk r).flt.held = s.flt.held ++ [h] ∧ h.code = code ∧ h.scope = scope ∧ h.param = l.headD 0 ∧
      cls ≤ h.cls ∧ h.hk = hk := by
  have hw (b : Bool) (f : State → State) (s : State) (hf : ∀ s, (f s).flt.held = s.flt.held) : (when' b f s).flt.held = s.flt.held := by
    unfold when'
    split
    · exact hf s
    · rfl
  unfold collect
  dsimp only
  rw [held_refreshFaults, hw _ _ _ (fun s => by rw [flt_demand]; rfl),
    hw _ _ _ (fun s => by exact forEach_keeps (·.flt.held) _ _ _ fun s p => held_isolate s p _), hw _ _ _ (fun s => by exact held_isolate s scope r),
    hw _ _ _ (fun s => by rfl)]
  have hcap (b : Bool) (e : Event) (esc : Bool) (s : State) : (if b then captureFault s e esc else s).flt.held = s.flt.held := by
    split
    · unfold captureFault
      dsimp only
      split <;> rfl
    · rfl
  rw [hcap]
  dsimp only
  rw [hw _ _ _ (fun s => by rw [flt_notice]), flt_enqueue, hw _ _ _ (fun s => by rfl)]
  refine ⟨_, rfl, rfl, rfl, rfl, ?_, rfl⟩
  dsimp only
  split <;> omega

/-! ## Events noted -/

/-- An event is queued where its scope has room, or the keep domain's queue has while the recorder scans. -/
theorem enqueue_queues (s : State) (e : Event)
    (h : if s.recorder.scanning then s.recorder.keepQ.length + 1 ≤ 256
         else (cellGet [] s.recorder.queues e.scope).length + 1 ≤ 64 ∧ cellGet 0 s.recorder.placed e.scope + 1 ≤ 64) :
    (enqueue s e).recorder.scanning = s.recorder.scanning ∧
      e ∈ (if s.recorder.scanning then (enqueue s e).recorder.keepQ else cellGet [] (enqueue s e).recorder.queues e.scope) := by
  unfold enqueue enqueueKeep
  dsimp only
  by_cases hs : s.recorder.scanning = true
  · rw [if_pos hs] at h
    rw [if_pos hs, if_neg (by omega)]
    exact ⟨rfl, by rw [if_pos hs]; exact List.mem_append_right _ (List.mem_singleton.mpr rfl)⟩
  · rw [if_neg hs] at h
    rw [if_neg hs, if_neg (by omega)]
    refine ⟨rfl, ?_⟩
    rw [if_neg hs]
    show e ∈ cellGet [] (cellSet [] s.recorder.queues e.scope _) e.scope
    rw [cellGet_set_same]
    exact List.mem_append_right _ (List.mem_singleton.mpr rfl)

end Sys2Proof.Machine
end

