-- ==== Sys2Proof/Laws/FaultRegs.lean ====
section
/-! SUPPORT. Laws of events and faults on registers: every register but those of `faultReg` reads as before. -/

namespace Sys2Proof.Machine

/-- The registers that events, faults and demands write: PWM.PSTAT, CLNK.PSTAT, FLT.SUM and the captures, FLT.PINSTAT,
SAFE.STAT, SAFE.OUTST, POLD.EVDROP. -/
def faultReg (a : Nat) : Prop :=
  (∃ p, p < 48 ∧ a = pwmPstat p) ∨ (∃ n, n < 48 ∧ a = clnkPstat n) ∨ (fltSum 0 ≤ a ∧ a < fltHkstat) ∨ a = fltPinstat ∨ a = safeStat ∨
    a = safeOutst ∨ ∃ p, p < 8 ∧ a = poldEvdrop p

theorem faultReg_pair {a : Nat} (h : ¬faultReg a) {p : Nat} (hp : p < 48) : a ≠ pwmPstat p := fun e => h (.inl ⟨p, hp, e⟩)
theorem faultReg_port {a : Nat} (h : ¬faultReg a) {n : Nat} (hn : n < 48) : a ≠ clnkPstat n := fun e => h (.inr (.inl ⟨n, hn, e⟩))
theorem faultReg_flt {a b : Nat} (h : ¬faultReg a) (h1 : fltSum 0 ≤ b) (h2 : b < fltHkstat) : a ≠ b :=
  fun e => h (.inr (.inr (.inl ⟨e ▸ h1, e ▸ h2⟩)))
theorem faultReg_pins {a : Nat} (h : ¬faultReg a) : a ≠ fltPinstat := fun e => h (.inr (.inr (.inr (.inl e))))
theorem faultReg_stat {a : Nat} (h : ¬faultReg a) : a ≠ safeStat := fun e => h (.inr (.inr (.inr (.inr (.inl e)))))
theorem faultReg_outst {a : Nat} (h : ¬faultReg a) : a ≠ safeOutst := fun e => h (.inr (.inr (.inr (.inr (.inr (.inl e))))))
theorem faultReg_drop {a : Nat} (h : ¬faultReg a) {p : Nat} (hp : p < 8) : a ≠ poldEvdrop p :=
  fun e => h (.inr (.inr (.inr (.inr (.inr (.inr ⟨p, hp, e⟩))))))

theorem faultReg_sum {a : Nat} (h : ¬faultReg a) {p : Nat} (hp : p < 8) : a ≠ fltSum p :=
  faultReg_flt h (by simp only [fltSum]; omega) (by simp only [fltSum, fltHkstat]; omega)
theorem faultReg_capa {a : Nat} (h : ¬faultReg a) {p : Nat} (hp : p < 8) : a ≠ fltCapa p :=
  faultReg_flt h (by simp only [fltSum, fltCapa]; omega) (by simp only [fltCapa, fltHkstat]; omega)
theorem faultReg_capb {a : Nat} (h : ¬faultReg a) {p : Nat} (hp : p < 8) : a ≠ fltCapb p :=
  faultReg_flt h (by simp only [fltSum, fltCapb]; omega) (by simp only [fltCapb, fltHkstat]; omega)
theorem faultReg_captl {a : Nat} (h : ¬faultReg a) {p : Nat} (hp : p < 8) : a ≠ fltCaptl p :=
  faultReg_flt h (by simp only [fltSum, fltCaptl]; omega) (by simp only [fltCaptl, fltHkstat]; omega)
theorem faultReg_capth {a : Nat} (h : ¬faultReg a) {p : Nat} (hp : p < 8) : a ≠ fltCapth p :=
  faultReg_flt h (by simp only [fltSum, fltCapth]; omega) (by simp only [fltCapth, fltHkstat]; omega)

/-- Two states read a register alike. -/
def SameReg (a : Nat) (s t : State) : Prop := getReg t a = getReg s a

theorem SameReg.trans {a : Nat} {s t u : State} (h2 : SameReg a t u) (h1 : SameReg a s t) : SameReg a s u := Eq.trans h2 h1

theorem SameReg.of_regs {a : Nat} {s t : State} (h : t.regs = s.regs) : SameReg a s t := by
  unfold SameReg getReg
  rw [h]

theorem sameReg_forEach {α : Type} {a : Nat} (l : List α) (s : State) (f : State → α → State) (h : ∀ s x, x ∈ l → SameReg a s (f s x)) :
    SameReg a s (forEach l s f) :=
  forEach_preserves_mem (fun t => SameReg a s t) l s f (fun t x hx ht => (h t x hx).trans ht) rfl

theorem sameReg_when' {a : Nat} (b : Bool) (f : State → State) (s : State) (h : SameReg a s (f s)) : SameReg a s (when' b f s) := by
  unfold when'
  split
  · exact h
  · exact SameReg.of_regs rfl

theorem sameReg_setReg {a b : Nat} (s : State) (w : Word) (h : a ≠ b) : SameReg a s (setReg s b w) := getReg_setReg_other s w h
theorem sameReg_setF {a b : Nat} (s : State) (f : Fld) (v : Nat) (h : a ≠ b) : SameReg a s (setF s b f v) := getReg_setF_other s f v h
theorem sameReg_setB {a b : Nat} (s : State) (f : Fld) (v : Bool) (h : a ≠ b) : SameReg a s (setB s b f v) := getReg_setB_other s f v h
theorem sameReg_setFbit {a b : Nat} (s : State) (f : Fld) (i : Nat) (v : Bool) (h : a ≠ b) : SameReg a s (setFbit s b f i v) := getReg_setF_other s f _ h
theorem sameReg_countF {a b : Nat} (s : State) (f : Fld) (k : Nat) (h : a ≠ b) : SameReg a s (countF s b f k) := getReg_setF_other s f _ h

theorem sameReg_enqueue {a : Nat} (h : ¬faultReg a) (s : State) (e : Event) (hp : e.scope < 8) : SameReg a s (enqueue s e) := by
  unfold enqueue enqueueKeep
  dsimp only
  split
  · split <;> exact SameReg.of_regs rfl
  · split
    · exact sameReg_countF _ _ _ (faultReg_drop h hp)
    · exact SameReg.of_regs rfl

theorem sameReg_notice {a : Nat} (h : ¬faultReg a) (s : State) (code scope : Nat) (l : List Word) (hp : scope < 8) :
    SameReg a s (notice s code scope l) := sameReg_enqueue h s _ hp

theorem sameReg_driveOutputs {a : Nat} (h : ¬faultReg a) (s : State) (p : Nat) (wa wb : Bool) (hp : p < 48) : SameReg a s (driveOutputs s p wa wb) :=
  ((sameReg_setB _ _ _ (faultReg_pair h hp)).trans (sameReg_setB _ _ _ (faultReg_pair h hp))).trans (SameReg.of_regs (t := setPair s p _) rfl)

theorem sameReg_pairRefresh {a : Nat} (h : ¬faultReg a) (s : State) (p : Nat) (st : Bool) (hp : p < 48) : SameReg a s (pairRefresh s p st) := by
  unfold pairRefresh
  dsimp only
  split
  · exact (sameReg_driveOutputs h _ p _ _ hp).trans (SameReg.of_regs (t := setPair s p _) rfl)
  · split
    · exact (sameReg_driveOutputs h _ p _ _ hp).trans (SameReg.of_regs (t := setPair s p _) rfl)
    · exact SameReg.of_regs rfl

theorem sameReg_pairTrip {a : Nat} (h : ¬faultReg a) (s : State) (p : Nat) (f : Fld) (hp : p < 48) : SameReg a s (pairTrip s p f) :=
  (sameReg_pairRefresh h _ p false hp).trans ((sameReg_setB _ _ _ (faultReg_pair h hp)).trans (sameReg_setB _ _ _ (faultReg_pair h hp)))

theorem sameReg_portInh {a : Nat} (s : State) (n : Nat) : SameReg a s (portInh s n) := by
  unfold portInh
  split <;> exact SameReg.of_regs rfl

theorem sameReg_portTripRst {a : Nat} (h : ¬faultReg a) (s : State) (n : Nat) (hn : n < 48) : SameReg a s (portTripRst s n) :=
  (sameReg_setB _ _ _ (faultReg_port h hn)).trans (sameReg_setB _ _ _ (faultReg_port h hn))

theorem sameReg_portSafe {a : Nat} (h : ¬faultReg a) (s : State) (n : Nat) (hn : n < 48) : SameReg a s (portSafe s n) :=
  (sameReg_portInh _ n).trans ((sameReg_setB _ _ _ (faultReg_port h hn)).trans (sameReg_setB _ _ _ (faultReg_port h hn)))

theorem sameReg_lineOff {a : Nat} (h : ¬faultReg a) (s : State) : SameReg a s (lineOff s) := by
  have h1 : SameReg a s (safePairs s) := sameReg_forEach _ _ _ fun s p hp => by
    split
    · exact sameReg_pairRefresh h s p false (mem_upto.mp hp)
    · exact sameReg_pairTrip h s p _ (mem_upto.mp hp)
  exact (sameReg_forEach _ (safePairs s) _ fun s n hn => sameReg_portSafe h s n (mem_upto.mp hn)).trans h1

theorem sameReg_demand {a : Nat} (h : ¬faultReg a) (s : State) (brk : Nat) : SameReg a s (demand s brk) := by
  have ho (s : State) : SameReg a s (refreshOuts s) := (sameReg_setB _ _ _ (faultReg_stat h)).trans
    (sameReg_forEach _ s _ fun s k _ => by
      dsimp only
      split
      · exact SameReg.of_regs rfl
      · exact sameReg_setFbit _ _ _ _ (faultReg_outst h))
  have hs := faultReg_stat h
  unfold demand demandBy
  dsimp only
  refine (ho _).trans ?_
  split
  · exact (sameReg_lineOff h _).trans ((sameReg_setB _ _ _ hs).trans ((sameReg_setB _ _ _ hs).trans (sameReg_setB _ _ _ hs)))
  · exact (sameReg_setB _ _ _ hs).trans ((sameReg_setB _ _ _ hs).trans (sameReg_setB _ _ _ hs))

theorem sameReg_refreshFaults {a : Nat} (h : ¬faultReg a) (s : State) : SameReg a s (refreshFaults s) := by
  have h1 : SameReg a s (forEach (upto 8) s fun s p => startModeHold (refreshSum s p) p) := sameReg_forEach _ _ _ fun s p hp => by
    have hq := faultReg_sum h (mem_upto.mp hp)
    have h2 : SameReg a s (refreshSum s p) := (sameReg_setB _ _ _ hq).trans ((sameReg_setF _ _ _ hq).trans (sameReg_setF _ _ _ hq))
    refine SameReg.trans ?_ h2
    unfold startModeHold
    split
    · exact sameReg_setB _ _ _ hq
    · exact SameReg.of_regs rfl
  have hl (s : State) : SameReg a s (latchAllConds s) := sameReg_forEach _ _ _ fun _ _ _ => SameReg.of_regs rfl
  have hp (s : State) : SameReg a s (refreshPins s) := (sameReg_setB _ _ _ (faultReg_pins h)).trans (sameReg_setB _ _ _ (faultReg_pins h))
  unfold refreshFaults
  generalize forEach (upto 8) s (fun s p => startModeHold (refreshSum s p) p) = x at h1 ⊢
  dsimp only
  refine ((hl _).trans (hp _)).trans (SameReg.trans ?_ h1)
  split
  · exact (sameReg_notice h _ _ _ _ (by decide)).trans ((sameReg_demand h _ 0).trans (sameReg_setB _ _ _ (faultReg_stat h)))
  · exact sameReg_setB _ _ _ (faultReg_stat h)

theorem sameReg_tripPolder {a : Nat} (h : ¬faultReg a) (s : State) (p : Nat) : SameReg a s (tripPolder s p) := by
  have h1 : SameReg a s (forEach (pairsOf s p) s pairTripRst) := sameReg_forEach _ _ _ fun s k hk =>
    sameReg_pairTrip h _ k _ (mem_upto.mp (List.mem_of_mem_filter hk))
  refine SameReg.trans ?_ h1
  exact sameReg_forEach _ _ _ fun s n hn => sameReg_portTripRst h s n (mem_upto.mp (List.mem_of_mem_filter hn))

theorem sameReg_isolate {a : Nat} (h : ¬faultReg a) (s : State) (p : Nat) (r : Bool) : SameReg a s (isolate s p r) := by
  have hq (s : State) : SameReg a s (requestReset s p .isolation) := by
    unfold requestReset
    split <;> exact SameReg.of_regs rfl
  have h1 : SameReg a s (forEach (portsOf s p) (tripPolder s p) portInh) :=
    (sameReg_forEach _ _ portInh fun s n _ => sameReg_portInh s n).trans (sameReg_tripPolder h s p)
  unfold isolate
  generalize forEach (portsOf s p) (tripPolder s p) portInh = x at h1 ⊢
  dsimp only
  split
  · exact (hq _).trans h1
  · exact h1

theorem sameReg_captureFault {a : Nat} (h : ¬faultReg a) (s : State) (e : Event) (esc : Bool) (hp : e.scope < 8) : SameReg a s (captureFault s e esc) := by
  have hc := faultReg_capa h hp
  unfold captureFault
  dsimp only
  split
  · exact (sameReg_countF _ _ _ hc).trans (sameReg_setB _ _ _ hc)
  · exact (sameReg_setReg _ _ (faultReg_capth h hp)).trans ((sameReg_setReg _ _ (faultReg_captl h hp)).trans
      ((sameReg_setReg _ _ (faultReg_capb h hp)).trans ((sameReg_setF _ _ _ hc).trans ((sameReg_setF _ _ _ hc).trans
      ((sameReg_setB _ _ _ hc).trans (sameReg_setB _ _ _ hc))))))

/-- A collected fault leaves every other register alone. -/
theorem sameReg_collect {a : Nat} (h : ¬faultReg a) (s : State) (code cls scope : Nat) (l : List Word) (hk : Option Nat) (r : Bool) (hp : scope < 8) :
    SameReg a s (collect s code cls scope l hk r) := by
  have hcap (b : Bool) (e : Event) (esc : Bool) (s : State) (he : e.scope < 8) : SameReg a s (if b then captureFault s e esc else s) := by
    split
    · exact sameReg_captureFault h s e esc he
    · exact SameReg.of_regs rfl
  have hd (s : State) : SameReg a s (demand (setB { s with flt := { s.flt with hold := true } } safeStat safeStat_Hold true) 0) :=
    (sameReg_demand h _ 0).trans ((sameReg_setB _ _ _ (faultReg_stat h)).trans (SameReg.of_regs (t := { s with flt := { s.flt with hold := true } }) rfl))
  unfold collect
  dsimp only
  refine (sameReg_refreshFaults h _).trans ?_
  refine (sameReg_when' _ _ _ (hd _)).trans ?_
  refine (sameReg_when' _ _ _ (sameReg_forEach _ _ _ fun s p _ => sameReg_isolate h s p _)).trans ?_
  refine (sameReg_when' _ _ _ (sameReg_isolate h _ scope r)).trans ?_
  refine (sameReg_when' _ _ _ (SameReg.of_regs rfl)).trans ?_
  refine (hcap _ _ _ _ hp).trans ?_
  refine SameReg.trans (sameReg_when' (a := a) _ _ _ (sameReg_notice h _ _ _ _ hp)) ?_
  refine (sameReg_enqueue h _ _ hp).trans ?_
  exact sameReg_when' _ _ _ (sameReg_setB _ _ _ (faultReg_sum h hp))

theorem sameReg_event {a : Nat} (h : ¬faultReg a) (s : State) (code cls scope : Nat) (l : List Word) (hp : scope < 8) :
    SameReg a s (event s code cls scope l) := by
  unfold event
  split
  · exact sameReg_notice h s code scope l hp
  · exact sameReg_collect h s code cls scope l none true hp

end Sys2Proof.Machine
end

