-- ==== Sys2Proof/Laws/Claims.lean ====
section
/-! SUPPORT. Laws of the words that claims use: a notice is noted, a fault is held, a host's request that passes the dike is
executed. -/

namespace Sys2Proof.Claims

open Sys2Proof.Machine

/-- A notice of a scope with room is noted. -/
theorem noted_notice {s : State} {code scope : Nat} {l : List Word} (h : RecorderRoom s scope 1) : Noted (notice s code scope l) code scope l := by
  have := enqueue_queues s { code := code, cls := 0, scope := scope, params := l, time := nowTime s } h
  refine ⟨{ code := code, cls := 0, scope := scope, params := l, time := nowTime s }, ?_, rfl, rfl, rfl⟩
  show _ ∈ if (enqueue s _).recorder.scanning = true then (enqueue s _).recorder.keepQ else cellGet [] (enqueue s _).recorder.queues scope
  rw [this.1]
  exact this.2

/-- A collected fault is held. -/
theorem faultHeld_collect {s : State} {code cls scope : Nat} {l : List Word} {hk : Option Nat} {r : Bool} :
    FaultHeld (collect s code cls scope l hk r) code cls scope (l.headD 0) := by
  obtain ⟨h, e, h1, h2, h3, h4, -⟩ := held_collect s code cls scope l hk r
  exact ⟨h, by rw [e]; exact List.mem_append_right _ (List.mem_singleton.mpr rfl), h1, h2, h3, h4⟩

/-- A fault that was held is still held after another is collected. -/
theorem faultHeld_kept {s : State} {code cls scope : Nat} {w : Word} (h : FaultHeld s code cls scope w) {code' cls' scope' : Nat} {l : List Word}
    {hk : Option Nat} {r : Bool} : FaultHeld (collect s code' cls' scope' l hk r) code cls scope w := by
  obtain ⟨x, e, -⟩ := held_collect s code' cls' scope' l hk r
  obtain ⟨y, hy, h⟩ := h
  exact ⟨y, by rw [e]; exact List.mem_append_left _ hy, h⟩

/-- An event is reported, one of class 0 where its scope has room. -/
theorem reported_event {s : State} {code cls scope : Nat} {l : List Word} (h : cls = 0 → RecorderRoom s scope 1) :
    Reported (event s code cls scope l) code cls scope l := by
  unfold Reported event
  by_cases hc : cls = 0
  · rw [if_pos hc, if_pos hc]
    exact noted_notice (h hc)
  · rw [if_neg hc, if_neg hc]
    exact faultHeld_collect

/-- A housekeeping source that begins, its sticky bit clear, is held as a fault. -/
theorem faultHeld_hkBegin {s : State} {b code cls : Nat} {l : List Word} (h1 : getFbit s fltHknow fltHknow_Src b = false)
    (h2 : getFbit s fltHkstat fltHkstat_Src b = false) : FaultHeld (hkBegin s b code cls l) code cls 0 (l.headD 0) := by
  have h3 : getFbit (setFbit s fltHknow fltHknow_Src b true) fltHkstat fltHkstat_Src b = false := by
    rw [getFbit_setFbit_other s _ _ _ _ _ (by decide)]
    exact h2
  unfold hkBegin
  rw [h1]
  simp only [Bool.false_eq_true, if_false]
  rw [h3]
  exact faultHeld_collect

/-- What a host's write does once it has passed the checks of R402: the register takes it, and the response says whether it was a breach. -/
theorem hostWrite_ready {s : State} {src : Source} {p a : Nat} (h : HostReady s src p a) (ha : placeOf a = .register) (h4 : a % 4 = 0) (w : Word) :
    hostWrite s src a w =
      { (regWrite s src p a w).1 with dike := { (regWrite s src p a w).1.dike with resp := if (regWrite s src p a w).2 then ⟨true, []⟩ else ⟨false, []⟩ } } := by
  obtain ⟨h1, h2, h3, h5, h6, h7⟩ := h
  have hr : ((resourceOf s a).any fun o => inReset s o) = false := by
    cases e : resourceOf s a with
    | none => rfl
    | some o => exact h6 o e
  have hreq : hostRequest s src true a 4 [w] .clean true = ((regWrite s src p a w).1, if (regWrite s src p a w).2 then .breach else .ok []) := by
    unfold hostRequest
    rw [h3]
    simp only [ha, List.length_singleton]
    rw [if_neg (by simp), if_neg (by simp), if_pos (by rfl), if_neg (by omega)]
    unfold regRequest
    rw [if_neg (fun x => h2 x.1), hr, h5, if_neg (by simp), if_neg (by rintro ⟨-, x, y⟩; simp [h7 x] at y)]
    rfl
  unfold hostWrite request
  rw [h1, hreq]
  simp only [Bool.not_true, Bool.false_eq_true, if_false]
  cases (regWrite s src p a w).2 <;> rfl

/-- What a host's read answers once it has passed the checks of R402. -/
theorem hostRead_ready {s : State} {src : Source} {p a : Nat} (h : HostReady s src p a) (ha : placeOf a = .register) (h4 : a % 4 = 0) :
    request s src false a 4 [] .clean =
      { (regRead s src p a).1 with dike := { (regRead s src p a).1.dike with resp := ⟨false, [(regRead s src p a).2]⟩ } } := by
  obtain ⟨h1, h2, h3, h5, h6, -⟩ := h
  have hr : ((resourceOf s a).any fun o => inReset s o) = false := by
    cases e : resourceOf s a with
    | none => rfl
    | some o => exact h6 o e
  have hreq : hostRequest s src false a 4 [] .clean true = ((regRead s src p a).1, .ok [(regRead s src p a).2]) := by
    unfold hostRequest
    rw [h3]
    simp only [ha, List.length_nil]
    rw [if_neg (by simp), if_neg (by simp), if_pos (by rfl), if_neg (by simp; omega)]
    unfold regRequest
    rw [if_neg (fun x => h2 x.1), hr, h5, if_neg (by simp), if_neg (by simp)]
    rfl
  unfold request
  rw [h1, hreq]
  rfl

/-- The invariant and the canonical form of memory after a write. -/
theorem inv_wrWord {s : State} (a : Nat) (w : Word) (h : Inv s) : Inv (wrWord s a w) := ⟨h.1, wrWord_wf a w h.2⟩
theorem inv_wrByte {s : State} (a : Nat) (b : Byte) (h : Inv s) : Inv (wrByte s a b) := ⟨h.1, wrByte_wf a b h.2⟩
theorem inv_zeroMem {s : State} (lo hi : Nat) (h : Inv s) : Inv (zeroMem s lo hi) := ⟨h.1, zeroMem_wf lo hi h.2⟩
theorem inv_setReg {s : State} (a : Nat) (w : Word) (h : Inv s) : Inv (setReg s a w) := ⟨regsWf_set a w h.1, h.2⟩
theorem inv_setF {s : State} (a : Nat) (f : Fld) (v : Nat) (h : Inv s) : Inv (setF s a f v) := inv_setReg a _ h
theorem inv_setB {s : State} (a : Nat) (f : Fld) (b : Bool) (h : Inv s) : Inv (setB s a f b) := inv_setReg a _ h
theorem inv_setFbit {s : State} (a : Nat) (f : Fld) (i : Nat) (b : Bool) (h : Inv s) : Inv (setFbit s a f i b) := inv_setReg a _ h
theorem inv_countF {s : State} (a : Nat) (f : Fld) (k : Nat) (h : Inv s) : Inv (countF s a f k) := inv_setReg a _ h

end Sys2Proof.Claims
end

