-- ==== Sys2Proof/Laws/Slots.lean ====
section
/-! SUPPORT. Laws of the engine's slots: what the end of a slot and of a word can change; a slot on registers writes what it says, once and
for all such slots. -/

namespace Sys2Proof.Claims

open Sys2Proof.Machine

/-- What the end of a slot leaves alone: memory, the output window, the other engines, the results of the word. -/
structure SlotKeeps (s t : State) (e : Nat) : Prop where
  mem : t.mem = s.mem
  win : t.win = s.win
  other : ∀ d, d ≠ e → getEng t d = getEng s d
  nxt : (getEng t e).nxt = (getEng s e).nxt
  cur : (getEng t e).cur = (getEng s e).cur

theorem SlotKeeps.rfl' {s : State} {e : Nat} : SlotKeeps s s e := ⟨rfl, rfl, fun _ _ => rfl, rfl, rfl⟩

theorem SlotKeeps.trans {s t u : State} {e : Nat} (h2 : SlotKeeps t u e) (h1 : SlotKeeps s t e) : SlotKeeps s u e :=
  ⟨h2.mem.trans h1.mem, h2.win.trans h1.win, fun d hd => (h2.other d hd).trans (h1.other d hd), h2.nxt.trans h1.nxt, h2.cur.trans h1.cur⟩

/-- A write of the engine's own state that keeps its registers. -/
theorem slotKeeps_setEng {s : State} {e : Nat} {x : Eng} (h1 : x.nxt = (getEng s e).nxt) (h2 : x.cur = (getEng s e).cur) : SlotKeeps s (setEng s e x) e :=
  ⟨rfl, rfl, fun _ hd => getEng_setEng_other s x hd, by rw [getEng_setEng_same]; exact h1, by rw [getEng_setEng_same]; exact h2⟩

/-- What faults and events do is no engine's business. -/
theorem slotKeeps_calm {s t : State} (e : Nat) (h : calm t = calm s) : SlotKeeps s t e := by
  have he : t.eng = s.eng := congrArg (·.eng) h
  have hg (d : Nat) : getEng t d = getEng s d := by unfold getEng; rw [he]
  exact ⟨congrArg (·.mem) h, congrArg (·.win) h, fun d _ => hg d, by rw [hg], by rw [hg]⟩

theorem slotKeeps_raiseEsf (s : State) (e mask : Nat) : SlotKeeps s (raiseEsf s e mask) e :=
  (slotKeeps_calm e (calm_setReg _ _ _)).trans (slotKeeps_setEng rfl rfl)

theorem slotKeeps_eccRecord (s : State) (e loc : Nat) (k : Ecc) (meets : Bool) : SlotKeeps s (eccRecord s e loc k meets) e := by
  unfold eccRecord
  dsimp only
  cases k with
  | clean => exact SlotKeeps.rfl'
  | single i =>
    have h : SlotKeeps s (setReg (countF s (engEcc e) engEcc_Ccount 1) (engEcc e)
        ((getReg (countF s (engEcc e) engEcc_Ccount 1) (engEcc e) &&& 0xFFFF0000) ||| BitVec.ofNat 32 (loc % 65536))) e :=
      (slotKeeps_calm e (calm_setReg _ _ _)).trans (slotKeeps_calm e (calm_countF _ _ _ _))
    dsimp only
    split
    · exact (slotKeeps_calm e (calm_notice _ _ _ _)).trans h
    · exact h
  | double i =>
    dsimp only
    refine (slotKeeps_calm e (calm_event _ _ _ _ _)).trans ?_
    have h (w : Word) : SlotKeeps s (setReg s (engEcc e) w) e := slotKeeps_calm e (calm_setReg _ _ _)
    split
    · exact SlotKeeps.trans (slotKeeps_setEng rfl rfl) (h _)
    · exact h _

theorem slotKeeps_eccMeet (s : State) (e loc : Nat) (k : Ecc) (meets : Bool) : SlotKeeps s (eccMeet s e loc k meets) e := by
  unfold eccMeet
  split
  · exact SlotKeeps.rfl'
  · exact (slotKeeps_eccRecord _ e _ _ _).trans (slotKeeps_raiseEsf s e _)

theorem slotKeeps_fetchCheck (s : State) (e : Nat) : SlotKeeps s (fetchCheck s e) e := by
  unfold fetchCheck
  dsimp only
  split
  · split
    · have h (w : Nat) (k : Ecc) : SlotKeeps s (eccMeet (setEng s e { getEng s e with fetchErr := none }) e (0x8000 + 4096 * execBank s e + w) k true) e :=
        (slotKeeps_eccMeet _ e _ k true).trans (slotKeeps_setEng rfl rfl)
      split
      · exact SlotKeeps.trans (slotKeeps_setEng rfl rfl) (h _ _)
      · exact h _ _
    · exact SlotKeeps.rfl'
  · exact SlotKeeps.rfl'

/-- No error waits at the fetch: nothing happens there. -/
theorem fetchCheck_none {s : State} {e : Nat} (h : (getEng s e).fetchErr = none) : fetchCheck s e = s := by
  unfold fetchCheck
  dsimp only
  rw [h]

/-- What a request output that a word wrote changes: its lane or its register bit, nothing else of the slot's. -/
theorem setRequest_spec (s : State) (e n : Nat) (v : Bool) :
    SlotKeeps s (setRequest s e n v) e ∧ (getEng (setRequest s e n v) e).fetchErr = (getEng s e).fetchErr ∧
    SameReg (engEsf e) s (setRequest s e n v) := by
  unfold setRequest
  dsimp only
  split
  · exact ⟨SlotKeeps.rfl', rfl, rfl⟩
  · split
    · exact ⟨slotKeeps_setEng rfl rfl, by rw [getEng_setEng_same], rfl⟩
    · exact ⟨⟨rfl, rfl, fun _ _ => rfl, rfl, rfl⟩, rfl, sameReg_setFbit s _ _ _ (by simp only [engEsf, engStat]; omega)⟩

/-- The request outputs that a word wrote, all of them. -/
theorem setRequests_spec (l : List (Nat × Bool)) (s : State) (e : Nat) :
    SlotKeeps s (forEach l s fun s c => setRequest s e c.1 c.2) e ∧
    (getEng (forEach l s fun s c => setRequest s e c.1 c.2) e).fetchErr = (getEng s e).fetchErr ∧
    SameReg (engEsf e) s (forEach l s fun s c => setRequest s e c.1 c.2) :=
  forEach_preserves (fun t => SlotKeeps s t e ∧ (getEng t e).fetchErr = (getEng s e).fetchErr ∧ SameReg (engEsf e) s t) l s _
    (fun t c h => ⟨(setRequest_spec t e c.1 c.2).1.trans h.1, (setRequest_spec t e c.1 c.2).2.1.trans h.2.1, (setRequest_spec t e c.1 c.2).2.2.trans h.2.2⟩)
    ⟨SlotKeeps.rfl', rfl, rfl⟩

/-- The end of a word makes its results visible (R96), and its flags stick (R105). -/
theorem endWord_spec (s : State) (e : Nat) :
    (endWord s e).mem = s.mem ∧ (endWord s e).win = s.win ∧ (∀ d, d ≠ e → getEng (endWord s e) d = getEng s d) ∧
    (getEng (endWord s e) e).nxt = (getEng s e).nxt ∧ (getEng (endWord s e) e).cur = (getEng s e).nxt ∧
    ((getEng s e).fetchErr = none →
      getReg (endWord s e) (engEsf e) = BitVec.ofNat 32 ((getReg s (engEsf e)).toNat ||| (getEng s e).wordFlags)) := by
  unfold endWord
  dsimp only
  generalize hx : ({ getEng s e with
    cur := (getEng s e).nxt, wordFlags := 0, cycles := (getEng s e).cycles + 1, reps := _, wp := _, atEnd := _
    lines := _, nextLines := _, nextReqs := _ } : Eng) = x
  have hcur : x.cur = (getEng s e).nxt := by rw [← hx]
  have hnxt : x.nxt = (getEng s e).nxt := by rw [← hx]
  have herr : x.fetchErr = (getEng s e).fetchErr := by rw [← hx]
  obtain ⟨r1, r2, r3⟩ := setRequests_spec (getEng s e).nextReqs (setEng s e x) e
  rw [getEng_setEng_same, herr] at r2
  generalize forEach (getEng s e).nextReqs (setEng s e x) (fun s c => setRequest s e c.1 c.2) = z at r1 r2 r3 ⊢
  have h1 : SlotKeeps (setEng s e x) (if (getEng s e).wordFlags = 0 then z else raiseEsf z e (getEng s e).wordFlags) e := by
    split
    · exact r1
    · exact (slotKeeps_raiseEsf _ e _).trans r1
  have h2 : getReg (if (getEng s e).wordFlags = 0 then z else raiseEsf z e (getEng s e).wordFlags) (engEsf e) =
      BitVec.ofNat 32 ((getReg s (engEsf e)).toNat ||| (getEng s e).wordFlags) := by
    split
    · rename_i h
      rw [h, Nat.or_zero]
      rw [show getReg z (engEsf e) = getReg s (engEsf e) from r3, BitVec.ofNat_toNat]
      simp
    · unfold raiseEsf
      dsimp only
      rw [getReg_setReg_same]
      show BitVec.ofNat 32 ((getReg z (engEsf e)).toNat ||| _) = _
      rw [show getReg z (engEsf e) = getReg s (engEsf e) from r3]
  have h3 : (getEng (if (getEng s e).wordFlags = 0 then z else raiseEsf z e (getEng s e).wordFlags) e).fetchErr = (getEng s e).fetchErr := by
    split
    · exact r2
    · unfold raiseEsf
      dsimp only
      show (getEng (setEng _ _ _) e).fetchErr = _
      rw [getEng_setEng_same, r2]
  generalize (if (getEng s e).wordFlags = 0 then z else raiseEsf z e (getEng s e).wordFlags) = y at h1 h2 h3 ⊢
  have h4 (t : State) (ht : SlotKeeps y t e) : t.mem = s.mem ∧ t.win = s.win ∧ (∀ d, d ≠ e → getEng t d = getEng s d) ∧
      (getEng t e).nxt = (getEng s e).nxt ∧ (getEng t e).cur = (getEng s e).nxt := by
    have h5 := ht.trans h1
    refine ⟨h5.mem, h5.win, fun d hd => (h5.other d hd).trans (getEng_setEng_other s x hd), ?_, ?_⟩
    · rw [h5.nxt, getEng_setEng_same, hnxt]
    · rw [h5.cur, getEng_setEng_same, hcur]
  split
  · have := h4 y SlotKeeps.rfl'
    exact ⟨this.1, this.2.1, this.2.2.1, this.2.2.2.1, this.2.2.2.2, fun _ => h2⟩
  · have := h4 _ (slotKeeps_fetchCheck y e)
    refine ⟨this.1, this.2.1, this.2.2.1, this.2.2.2.1, this.2.2.2.2, fun h => ?_⟩
    rw [fetchCheck_none (h3.trans h)]
    exact h2

/-- What the end of a slot can do. -/
theorem afterSlot_spec (s : State) (e : Nat) (eow : Bool) :
    (afterSlot s e eow).mem = s.mem ∧ (afterSlot s e eow).win = s.win ∧ (∀ d, d ≠ e → getEng (afterSlot s e eow) d = getEng s d) ∧
    (getEng (afterSlot s e eow) e).nxt = (getEng s e).nxt ∧ (eow = false → afterSlot s e eow = s) ∧
    (eow = true → (getEng s e).stall = none → (getEng (afterSlot s e eow) e).cur = (getEng s e).nxt ∧
      ((getEng s e).fetchErr = none →
        getReg (afterSlot s e eow) (engEsf e) = BitVec.ofNat 32 ((getReg s (engEsf e)).toNat ||| (getEng s e).wordFlags))) := by
  unfold afterSlot
  cases eow with
  | false => exact ⟨rfl, rfl, fun _ _ => rfl, rfl, fun _ => rfl, fun h => absurd h (by decide)⟩
  | true =>
    rw [if_pos rfl]
    split
    · rename_i st hst
      exact ⟨rfl, rfl, fun d hd => getEng_setEng_other _ _ hd, by rw [getEng_setEng_same], fun h => absurd h (by decide),
        fun _ h => absurd (h.symm.trans hst) (by simp)⟩
    · obtain ⟨h1, h2, h3, h4, h5, h6⟩ := endWord_spec s e
      exact ⟨h1, h2, h3, h4, fun h => absurd h (by decide), fun _ _ => ⟨h5, h6⟩⟩

/-- While the step runs no words a slot acts as NOP. -/
theorem inWord_idle {s : State} {e : Nat} {f : State → State} (h : wordRuns s e = false) : inWord s e f = s := if_neg (by rw [h]; decide)

theorem inWord_runs {s : State} {e : Nat} {f : State → State} (h : wordRuns s e = true) : inWord s e f = f s := if_pos h

/-- A slot on registers that changes the word's results and flags alone: its frame, its flags, what later words read. -/
theorem regSlot_spec {s : State} {e flag : Nat} {eow : Bool} {f : Eng → Eng} (hw : wordRuns s e = true) (h1 : (f (getEng s e)).wordFlags = (getEng s e).wordFlags ||| flag)
    (h2 : (f (getEng s e)).stall = (getEng s e).stall) (h3 : (f (getEng s e)).fetchErr = (getEng s e).fetchErr)
    (h4 : (f (getEng s e)).cur = (getEng s e).cur) :
    (getEng (regSlot s e eow f) e).nxt = (f (getEng s e)).nxt ∧ SlotFlags s (regSlot s e eow f) e flag eow ∧
      SlotVisible s (regSlot s e eow f) e eow ∧ SlotFrame s (regSlot s e eow f) e := by
  rw [show regSlot s e eow f = _ from if_pos hw]
  obtain ⟨a1, a2, a3, a4, a5, a6⟩ := afterSlot_spec (setEng s e (f (getEng s e))) e eow
  rw [getEng_setEng_same] at a4 a6
  refine ⟨a4, ⟨fun h => ?_, fun h hs hf => ?_⟩, ⟨fun h => ?_, fun h hs => ?_⟩, a1, a2, fun d hd => (a3 d hd).trans (getEng_setEng_other _ _ hd)⟩
  · rw [a5 h, getEng_setEng_same]
    exact ⟨h1, rfl⟩
  · rw [(a6 h (h2.trans hs)).2 (h3.trans hf), h1]
    rfl
  · rw [a5 h, getEng_setEng_same, h4]
  · rw [(a6 h (h2.trans hs)).1, a4]

/-- Every X-slot operation that gives a general register: once for all. -/
theorem slotWrites_regSlot {s : State} {e gd flag : Nat} {w : Word} {eow : Bool} {f : Eng → Eng} (hw : wordRuns s e = true)
    (h : f (getEng s e) = { gprWrite (getEng s e) gd w with wordFlags := (getEng s e).wordFlags ||| flag }) :
    SlotWrites s (regSlot s e eow f) e gd w flag eow := by
  have hk : ∀ x : Eng, (gprWrite x gd w).stall = x.stall ∧ (gprWrite x gd w).fetchErr = x.fetchErr ∧ (gprWrite x gd w).cur = x.cur ∧
      (gprWrite x gd w).nxt.a = x.nxt.a ∧ (gprWrite x gd w).nxt.f = x.nxt.f := by
    intro x
    unfold gprWrite
    split <;> exact ⟨rfl, rfl, rfl, rfl, rfl⟩
  obtain ⟨k1, k2, k3, k4, k5⟩ := hk (getEng s e)
  obtain ⟨a1, a2, a3, a4⟩ := regSlot_spec (s := s) (e := e) (flag := flag) (eow := eow) (f := f) hw (by rw [h]) (by rw [h]; exact k1) (by rw [h]; exact k2) (by rw [h]; exact k3)
  rw [h] at a1
  refine ⟨fun r => ?_, fun a => ?_, ?_, a2, a3, a4⟩
  · unfold outG
    rw [a1]
    show cellGet 0 (gprWrite (getEng s e) gd w).nxt.g r = _
    unfold gprWrite
    by_cases hg : gd = 0
    · rw [if_pos hg, if_neg (by tauto)]
    · rw [if_neg hg]
      by_cases hr : r = gd
      · subst hr
        rw [if_pos ⟨rfl, hg⟩]
        exact cellGet_set_same _ _ _ _
      · rw [if_neg (by tauto)]
        exact cellGet_set_other _ _ _ _ hr
  · unfold outA
    rw [a1]
    exact congrArg (fun m => cellGet 0 m a) k4
  · unfold outF
    rw [a1]
    exact k5

/-- Every M-slot operation that gives an accumulator: once for all. -/
theorem slotAccumulates_regSlot {s : State} {e ad flag : Nat} {v : BitVec 72} {eow : Bool} {f : Eng → Eng} (hw : wordRuns s e = true)
    (h : f (getEng s e) = { accWrite (getEng s e) ad v with wordFlags := (getEng s e).wordFlags ||| flag }) :
    SlotAccumulates s (regSlot s e eow f) e ad v flag eow := by
  obtain ⟨a1, a2, a3, a4⟩ := regSlot_spec (s := s) (e := e) (flag := flag) (eow := eow) (f := f) hw (by rw [h]) (by rw [h]; rfl) (by rw [h]; rfl) (by rw [h]; rfl)
  rw [h] at a1
  refine ⟨fun a => ?_, fun r => ?_, ?_, a2, a3, a4⟩
  · unfold outA
    rw [a1]
    show cellGet 0 (cellSet 0 (getEng s e).nxt.a ad v) a = _
    by_cases ha : a = ad
    · subst ha
      rw [if_pos rfl]
      exact cellGet_set_same _ _ _ _
    · rw [if_neg ha]
      exact cellGet_set_other _ _ _ _ ha
  · unfold outG
    rw [a1]
    rfl
  · unfold outF
    rw [a1]
    rfl

end Sys2Proof.Claims
end

