-- ==== Sys2Proof/Laws/Canonical.lean ====
section
/-! SUPPORT. Laws of the canonical forms: events, faults and demands keep them. -/

namespace Sys2Proof.Claims

open Sys2Proof.Machine

/-- States that list the same registers and the same memory have the canonical forms together. -/
theorem inv_of_same {s t : State} (h1 : t.regs = s.regs) (h2 : t.mem = s.mem) (h : Inv s) : Inv t := by
  unfold Inv
  rw [h1, h2]
  exact h

theorem inv_forEach {α : Type} (l : List α) (s : State) (f : State → α → State) (h : ∀ s x, Inv s → Inv (f s x)) (hs : Inv s) : Inv (forEach l s f) :=
  forEach_preserves Inv l s f h hs

theorem inv_when' (b : Bool) (f : State → State) (s : State) (h : Inv s → Inv (f s)) (hs : Inv s) : Inv (when' b f s) :=
  when'_preserves Inv b f s h hs

theorem inv_resetRegs {s : State} (lo hi : Nat) (h : Inv s) : Inv (resetRegs s lo hi) := ⟨regsWf_filter _ h.1, h.2⟩

theorem inv_enqueue {s : State} (e : Event) (h : Inv s) : Inv (enqueue s e) := by
  unfold enqueue enqueueKeep
  dsimp only
  split
  · split <;> exact h
  · split
    · exact inv_countF _ _ _ (inv_of_same rfl rfl h)
    · exact h

theorem inv_notice {s : State} (code scope : Nat) (l : List Word) (h : Inv s) : Inv (notice s code scope l) :=
  inv_of_same (s := enqueue s _) rfl rfl (inv_enqueue _ h)

theorem inv_pairRefresh {s : State} (p : Nat) (st : Bool) (h : Inv s) : Inv (pairRefresh s p st) := by
  have hd (s : State) (wa wb : Bool) (h : Inv s) : Inv (driveOutputs s p wa wb) := by
    unfold driveOutputs
    exact inv_setB _ _ _ (inv_setB _ _ _ (inv_of_same (s := s) rfl rfl h))
  have hs (q : Pair) : Inv (setPair s p q) := inv_of_same (s := s) rfl rfl h
  unfold pairRefresh
  dsimp only
  split
  · exact hd _ _ _ (hs _)
  · split
    · exact hd _ _ _ (hs _)
    · exact h

theorem inv_pairTrip {s : State} (p : Nat) (f : Fld) (h : Inv s) : Inv (pairTrip s p f) :=
  inv_pairRefresh p false (inv_setB _ _ _ (inv_setB _ _ _ h))

theorem inv_portInh {s : State} (n : Nat) (h : Inv s) : Inv (portInh s n) := by
  unfold portInh
  split
  · exact h
  · exact inv_of_same (s := s) rfl rfl h

theorem inv_demand {s : State} (brk : Nat) (h : Inv s) : Inv (demand s brk) := by
  have ho (s : State) (h : Inv s) : Inv (refreshOuts s) := by
    unfold refreshOuts
    refine inv_setB _ _ _ (inv_forEach _ _ _ (fun s k h => ?_) h)
    by_cases hc : getFbit s safeOutst safeOutst_Ener k = (nbit (nbitSet s.safe.switchW k (outWanted s k)) k &&
        nbit (nbitSet s.safe.switchP k (outWanted s k || nbit s.safe.switchP k)) k)
    · exact inv_of_same (s := s) (by dsimp only; rw [if_pos hc]) (by dsimp only; rw [if_pos hc]) h
    · dsimp only
      rw [if_neg hc]
      exact inv_setFbit _ _ _ _ (inv_of_same (s := s) rfl rfl h)
  have hl (s : State) (h : Inv s) : Inv (lineOff s) := by
    unfold lineOff safePairs
    refine inv_forEach _ _ _ (fun s n h => inv_portInh n (inv_setB _ _ _ (inv_setB _ _ _ h))) (inv_forEach _ _ _ (fun s p h => ?_) h)
    split
    · exact inv_pairRefresh p false h
    · exact inv_pairTrip p _ h
  unfold demand demandBy
  dsimp only
  refine ho _ ?_
  split
  · exact hl _ (inv_setB _ _ _ (inv_setB _ _ _ (inv_setB _ _ _ (inv_of_same rfl rfl h))))
  · exact inv_setB _ _ _ (inv_setB _ _ _ (inv_setB _ _ _ (inv_of_same rfl rfl h)))

theorem inv_latchAllConds {s : State} (h : Inv s) : Inv (latchAllConds s) := inv_forEach _ _ _ (fun s _ h => inv_of_same (s := s) rfl rfl h) h

theorem inv_refreshPins {s : State} (h : Inv s) : Inv (refreshPins s) :=
  inv_of_same (s := setB (setB s fltPinstat fltPinstat_Lvl (!pinsFault s)) fltPinstat fltPinstat_Alive (!pinsFault s)) rfl rfl
    (inv_setB _ _ _ (inv_setB _ _ _ h))

theorem inv_refreshFaults {s : State} (h : Inv s) : Inv (refreshFaults s) := by
  have h1 : Inv (forEach (upto 8) s fun s p => startModeHold (refreshSum s p) p) := inv_forEach _ _ _ (fun s p h => by
    have h2 : Inv (refreshSum s p) := by
      unfold refreshSum
      exact inv_setB _ _ _ (inv_setF _ _ _ (inv_setF _ _ _ h))
    unfold startModeHold
    split
    · exact inv_setB _ _ _ h2
    · exact h2) h
  unfold refreshFaults
  generalize forEach (upto 8) s (fun s p => startModeHold (refreshSum s p) p) = x at h1 ⊢
  dsimp only
  refine inv_latchAllConds (inv_refreshPins ?_)
  split
  · exact inv_notice _ _ _ (inv_demand _ (inv_setB _ _ _ (inv_of_same rfl rfl h1)))
  · exact inv_setB _ _ _ (inv_of_same rfl rfl h1)

theorem inv_requestReset {s : State} (p : Nat) (c : ResetCause) (h : Inv s) : Inv (requestReset s p c) := by
  unfold requestReset
  split
  · exact h
  · exact inv_of_same (s := s) rfl rfl h

theorem inv_tripPolder {s : State} (p : Nat) (h : Inv s) : Inv (tripPolder s p) := by
  unfold tripPolder
  exact inv_forEach _ _ _ (fun s n h => inv_setB _ _ _ (inv_setB _ _ _ h))
    (inv_forEach _ _ _ (fun s p h => inv_pairTrip p _ (inv_of_same (s := s) rfl rfl h)) h)

theorem inv_isolate {s : State} (p : Nat) (r : Bool) (h : Inv s) : Inv (isolate s p r) := by
  have h1 : Inv (forEach (portsOf s p) (tripPolder s p) portInh) := inv_forEach _ _ _ (fun _ n h => inv_portInh n h) (inv_tripPolder p h)
  unfold isolate
  generalize forEach (portsOf s p) (tripPolder s p) portInh = x at h1 ⊢
  dsimp only
  split
  · exact inv_requestReset _ _ (inv_of_same rfl rfl h1)
  · exact inv_of_same rfl rfl h1

theorem inv_captureFault {s : State} (e : Event) (esc : Bool) (h : Inv s) : Inv (captureFault s e esc) := by
  unfold captureFault
  dsimp only
  split
  · exact inv_countF _ _ _ (inv_setB _ _ _ h)
  · exact inv_setReg _ _ (inv_setReg _ _ (inv_setReg _ _ (inv_setF _ _ _ (inv_setF _ _ _ (inv_setB _ _ _ (inv_setB _ _ _ h))))))

/-- Collecting a fault keeps the canonical forms. -/
theorem inv_collect {s : State} (code cls scope : Nat) (l : List Word) (hk : Option Nat) (r : Bool) (h : Inv s) :
    Inv (collect s code cls scope l hk r) := by
  have hcap (b : Bool) (e : Event) (esc : Bool) (s : State) (h : Inv s) : Inv (if b then captureFault s e esc else s) := by
    split
    · exact inv_captureFault e esc h
    · exact h
  have hd (s : State) (h : Inv s) : Inv (demand (setB { s with flt := { s.flt with hold := true } } safeStat safeStat_Hold true) 0) :=
    inv_demand 0 (inv_setB _ _ _ (inv_of_same rfl rfl h))
  unfold collect
  dsimp only
  refine inv_refreshFaults (inv_when' _ _ _ (fun h => hd _ h) (inv_when' _ _ _ (fun h => inv_forEach _ _ _ (fun s p h => inv_isolate p _ h) h)
    (inv_when' _ _ _ (fun h => inv_isolate scope r h) (inv_when' _ _ _ (fun h => inv_of_same rfl rfl h) (hcap _ _ _ _ ?_)))))
  refine inv_of_same (s := when' _ (fun s => notice s 0x0D01 scope [BitVec.ofNat 32 scope, BitVec.ofNat 32 code, BitVec.ofNat 32 cls]) _) rfl rfl ?_
  exact inv_when' _ _ _ (fun h => inv_notice _ _ _ h) (inv_enqueue _ (inv_when' _ _ _ (fun h => inv_setB _ _ _ h) (inv_of_same (s := s) rfl rfl h)))

theorem inv_event {s : State} (code cls scope : Nat) (l : List Word) (h : Inv s) : Inv (event s code cls scope l) := by
  unfold event
  split
  · exact inv_notice _ _ _ h
  · exact inv_collect _ _ _ _ _ _ h

theorem inv_hkBegin {s : State} (b code cls : Nat) (l : List Word) (h : Inv s) : Inv (hkBegin s b code cls l) := by
  unfold hkBegin
  dsimp only
  split
  · exact h
  · split
    · exact inv_setFbit _ _ _ _ h
    · exact inv_collect _ _ _ _ _ _ (inv_setFbit _ _ _ _ (inv_setFbit _ _ _ _ h))

theorem inv_hkEnd {s : State} (b : Nat) (h : Inv s) : Inv (hkEnd s b) := inv_setFbit _ _ _ _ h

end Sys2Proof.Claims
end

