-- ==== Sys2Proof/WellFormed.lean ====
section
/-! DEFINITION. Which commands are well formed: the operands that come as lists and counts have the lengths and ranges that the
spec gives them. Operands whose type says all of that need no check. The machine is total: it answers for the others too. -/

namespace Sys2Proof

/-- A command whose operands are those that the spec lets come: an L slot in a form that an engine executes (R98, R100, R102), a
directory of 32-bit numbers of units (R572), at most 24 cells of a chain (R309, R316), the converted codes of a slot (R341), the
samples of a metrology window (R371), the bytes of a Ralma frame (R517, R518), a safe message (R501), the bands of the CPLL
(R618). -/
def Instr.wf (i : Instr) : Bool :=
  match i with
  | .powerOnReset _ _ => true
  | .mainSuppliesLost _ _ => true
  | .mainSuppliesReturn _ _ => true
  | .hrstnAssert => true
  | .hrstnRelease _ => true
  | .bootStart dir _ _ _ => decide (dir.length ≤ 64)
  | .tickLoss => true
  | .tickRestart => true
  | .tickEdge => true
  | .commitCutoff => true
  | .samplingPoint => true
  | .staleStageNotice _ _ => true
  | .commitGo _ _ => true
  | .commitDiscard _ _ => true
  | .gcommitGo _ _ => true
  | .registerWrite _ _ _ => true
  | .hostMemoryAccess _ wr _ len data _ => data.length == if wr then (len.toNat + 3) / 4 else 0
  | .hostWriteQueueDrain _ => true
  | .sysPrst _ _ => true
  | .sysPrself _ _ => true
  | .polderReloadComplete _ _ _ => true
  | .stepStart _ _ _ => true
  | .stateTransferDone _ _ => true
  | .segmentEnd _ _ => true
  | .lStallEnd _ _ => true
  | .nop _ _ => true
  | .mul _ _ _ _ _ _ _ _ => true
  | .mac _ _ _ _ _ _ _ _ => true
  | .msu _ _ _ _ _ _ _ _ => true
  | .muld _ _ _ _ _ _ _ _ => true
  | .macd _ _ _ _ _ _ _ _ => true
  | .msud _ _ _ _ _ _ _ _ => true
  | .aclr _ _ _ _ => true
  | .ald _ _ _ _ _ _ => true
  | .aadd _ _ _ _ _ _ => true
  | .aadda _ _ _ _ _ => true
  | .asuba _ _ _ _ _ => true
  | .asat _ _ _ _ _ _ _ => true
  | .ashl _ _ _ _ _ => true
  | .ashr _ _ _ _ _ _ => true
  | .aneg _ _ _ _ => true
  | .ldw _ _ _ am _ _ _ => am != 3
  | .stw _ _ _ am _ _ => am != 3
  | .ldd _ gr _ am _ _ _ => am != 3 && gr.val % 2 == 0
  | .std _ gr _ am _ _ => am != 3 && gr.val % 2 == 0
  | .ldh _ _ _ am _ _ _ => am != 3
  | .ldhu _ _ _ am _ _ _ => am != 3
  | .sth _ _ _ am _ _ => am != 3
  | .mov _ _ _ _ => true
  | .movi _ _ _ _ => true
  | .movh _ _ _ _ => true
  | .add _ _ _ _ _ => true
  | .sub _ _ _ _ _ => true
  | .addi _ _ _ _ _ => true
  | .min _ _ _ _ _ => true
  | .max _ _ _ _ _ => true
  | .abs _ _ _ _ => true
  | .neg _ _ _ _ => true
  | .sats _ _ _ _ _ => true
  | .shl _ _ _ _ _ => true
  | .shr _ _ _ _ _ => true
  | .shru _ _ _ _ _ => true
  | .and _ _ _ _ _ => true
  | .or _ _ _ _ _ => true
  | .xor _ _ _ _ _ => true
  | .cmp _ _ _ _ _ _ => true
  | .sel _ _ _ _ _ _ => true
  | .req _ _ _ _ => true
  | .trig _ _ _ => true
  | .rdsf _ _ _ => true
  | .addw _ _ _ _ _ => true
  | .subw _ _ _ _ _ => true
  | .readmit _ _ => true
  | .traceArm _ _ => true
  | .traceDisarm _ _ => true
  | .traceForce _ _ => true
  | .traceDone _ => true
  | .gfsLowDetection _ => true
  | .gfsZeroDetection _ => true
  | .gfsHighDetection _ => true
  | .gfsProfileTrip _ => true
  | .gfsZeroExit _ => true
  | .gfsRecoveryConfirmed _ => true
  | .gfsRecoverComplete _ => true
  | .gfsTrackerLock _ => true
  | .gfsTrackerUnlock _ => true
  | .gfsFreqLimitHeld _ => true
  | .gfsVilimLong _ => true
  | .ifsEvaluationPoint _ => true
  | .ifsEvaluationPublish _ => true
  | .ifsFastClear _ => true
  | .ifsFreqWindowViolation _ => true
  | .ifsVoltageWindowViolation _ => true
  | .tfsUpdateTick _ => true
  | .tfsSweepRequest _ _ => true
  | .tfsSweepEnd _ _ => true
  | .tfsObserverLost _ => true
  | .tfsObserverRegained _ => true
  | .tfsAdaptCycleEnd _ => true
  | .encCount _ _ _ _ => true
  | .encDoubleEvent _ _ => true
  | .encIndexEdge _ _ _ => true
  | .encObserverLock _ => true
  | .mfsSensorlessValid _ => true
  | .mfsSensorlessInvalid _ => true
  | .mfsAngleMismatch _ => true
  | .mfsNoAngleTimeout _ => true
  | .mfsModulationHigh _ => true
  | .mfsIlimLong _ => true
  | .carrierPeriodStart _ => true
  | .carrierPeak _ => true
  | .compareEdge _ e => decide (e < 2 ^ 24)
  | .deadTimeEnd _ => true
  | .tripInputActive _ _ _ => true
  | .tripInputInactive _ _ _ => true
  | .pwmTripClear _ _ => true
  | .pwmForce _ _ _ => true
  | .pulseEnableInactive _ => true
  | .clTrainEnd _ => true
  | .clDiscReceived _ recs => decide (recs.length ≤ 31)
  | .clAckReceived _ _ => true
  | .clRateRelock _ recs => decide (recs.length ≤ 24)
  | .clEchoAnswer _ _ _ => true
  | .clStepTimeout _ => true
  | .clFaultRestart _ => true
  | .stsFrame _ _ _ slots => decide (slots.length ≤ 24)
  | .cellLost _ => true
  | .cellReturn _ => true
  | .inhRepeat _ => true
  | .selftestStep _ => true
  | .selftestPassTimeout _ _ => true
  | .clTripClear _ _ => true
  | .fclr _ _ => true
  | .bypreq _ _ => true
  | .byprel _ _ => true
  | .slotResultReady _ _ codes => decide (codes.length ≤ 128)
  | .calibrationSwap _ _ => true
  | .sliceMonitorFail _ _ _ => true
  | .acqCalibrationDone g => g.slices.length == 5
  | .comparatorRawChange _ _ => true
  | .comparatorSuspect _ => true
  | .metPowerUp _ _ _ => true
  | .metPowerDown => true
  | .metWindowEnd codes => codes.length == 1600 && codes.all fun x => decide (x.length ≤ 16)
  | .metFrameReceived _ => true
  | .metLinkTimeout => true
  | .metPulse _ => true
  | .xtalFault => true
  | .xtalRecovered => true
  | .sealBroken => true
  | .sealIntact => true
  | .read _ _ _ _ => true
  | .write _ _ _ _ => true
  | .commit _ _ _ _ => true
  | .discard _ _ _ _ => true
  | .ident _ _ _ _ => true
  | .readlog _ _ _ _ => true
  | .calRequestGap => true
  | .signOn addr => addr.all fun x => decide (x < 2 ^ 32)
  | .optionSelect _ _ _ => true
  | .optionSelectTimeout => true
  | .opticalOverload => true
  | .opticalQuietEnd => true
  | .take _ _ _ => true
  | .renew _ _ _ => true
  | .release _ _ _ => true
  | .handoff _ _ _ => true
  | .accept _ _ _ => true
  | .cancel _ _ _ => true
  | .seal _ _ _ => true
  | .unseal _ _ _ => true
  | .leaseExpiry => true
  | .pageZeroed => true
  | .recordWrite _ => true
  | .go _ _ => true
  | .stop _ _ => true
  | .resume _ _ => true
  | .abort _ _ => true
  | .sluDptrWrite _ _ _ => true
  | .descriptorFetched _ => true
  | .sluiceAccessIssue _ _ _ => true
  | .sluiceReadResponse _ k => decide (k < 256)
  | .sluiceWriteResponse _ k => decide (k < 256)
  | .sluiceRetry _ k _ => decide (k < 256)
  | .load _ => true
  | .imgLoadDone _ _ => true
  | .fltAck _ _ _ => true
  | .fltCaptureRearm _ _ => true
  | .hkstatClear _ _ => true
  | .temperatureSample _ _ _ _ _ _ => true
  | .supplyOutOfRange _ _ => true
  | .faultCollectorMismatch => true
  | .spCycle => true
  | .channelLoss _ _ => true
  | .sealSwitchChange _ _ => true
  | .tpoDropoutStart _ => true
  | .tpoLowCheck _ _ _ => true
  | .tpoDropoutEnd _ => true
  | .tpoHighCheck _ _ => true
  | .safetyChannelOpen _ _ => true
  | .discrepancy _ => true
  | .breakerDelayEnd => true
  | .restart _ => true
  | .dgack _ => true
  | .safeOutreqWrite _ _ => true
  | .contactorFeedbackTimeout _ _ => true
  | .contactorDifference _ _ => true
  | .safeMessageSend => true
  | .safeMessageReceive _ _ _ m _ => m.length == 32
  | .safeOnePath _ _ => true
  | .safeConnectionLost _ => true
  | .degradedSecond => true
  | .degradedExpired => true
  | .rlmModulePresent _ => true
  | .rlmModuleReadDone _ _ _ _ => true
  | .rlmSyncAcquired _ => true
  | .rlmRateLock _ => true
  | .rlmBringupTimeout _ => true
  | .linkDown _ _ => true
  | .link _ _ units _ => units.length == 8
  | .linkSend _ => true
  | .moduleDiagRead _ _ _ => true
  | .claim _ _ _ _ _ _ _ => true
  | .claimSend => true
  | .claimDiscard _ => true
  | .join _ _ _ _ _ _ _ _ => true
  | .joinSend => true
  | .assign _ _ _ _ _ _ _ _ => true
  | .allocationFree _ => true
  | .routedFrameForward _ _ data _ => decide (data.length ≤ 511)
  | .timeExchangeStart _ => true
  | .sync _ _ _ => true
  | .follow _ _ _ _ _ _ _ _ => true
  | .dreq _ _ _ => true
  | .dresp _ _ _ _ => true
  | .holdoverEntry => true
  | .tctlSet _ => true
  | .alignLocked => true
  | .alignLost => true
  | .rdreq _ _ _ _ _ _ => true
  | .wrreq _ _ _ _ data _ => decide (data.length ≤ 125)
  | .eventFrameDrop _ => true
  | .heartSend => true
  | .heart _ _ _ ws _ _ => ws.length == 8
  | .duplexPathLost _ => true
  | .mirrorSend _ => true
  | .mirror _ _ _ _ _ data _ => decide (data.length ≤ 125)
  | .schedActivate _ _ _ _ _ => true
  | .schedPeriodChange _ _ _ _ _ => true
  | .schedCancel _ _ _ _ _ => true
  | .ethernetRxFrame _ _ _ => true
  | .ethernetTxSlot _ => true
  | .keepSupplySample _ _ _ _ => true
  | .primarySwitchOut => true
  | .coldStartDone _ => true
  | .mppMeasure _ => true
  | .rtcFabricSync => true
  | .rtccmdSet _ => true
  | .tamperSample _ _ => true
  | .beaconTest _ => true
  | .beaconPeriodic _ => true
  | .beaconTransmissionEnd _ => true
  | .keepMeasurement _ _ _ _ _ => true
  | .recorderScanDone => true
  | .rdselWrite _ _ => true
  | .lock _ => true
  | .clear _ => true
  | .clearZeroingDone => true
  | .prog _ => true
  | .progDone _ => true
  | .sq0ReadWaitTimeout => true
  | .verify _ => true
  | .verifyDone _ => true
  | .arm _ _ => true
  | .armLoadDone => true
  | .actmarkWritten => true
  | .updCancel _ => true
  | .svnlock _ _ => true
  | .revoke _ _ _ => true
  | .recover _ _ => true
  | .sqTransactionStart _ => true
  | .sqTransactionEnd _ rx => decide (rx.length ≤ 64)
  | .qpush _ _ _ => true
  | .sqBusyRetry _ _ => true
  | .slaveRead _ _ _ _ _ _ => true
  | .slaveWrite _ _ _ _ => true
  | .fetch _ _ => true
  | .slaveRequestDone _ => true
  | .bandTableDone table => table.length == 64 && table.all fun x => decide (x.1.toNat ≤ x.2.toNat)
  | .hopEnd => true
  | .refclkLost _ _ _ => true
  | .pllUnlock _ _ => true
  | .pllRelock _ _ => true
  | .registerRead _ _ => true
  | .negReceived _ _ _ _ _ _ _ _ units _ => units.length == 8
  | .negSend _ => true
  | .moduleAbsent _ => true
  | .safetyChannelClosed _ _ => true
  | .supplyInRange _ _ => true
  | .refclkPresent => true
  | .fltAliveToggle => true

end Sys2Proof
end

