-- ==== Sys2Proof/Tests/Slice0.lean ====
section
/-! SUPPORT. Tests: ill-formed commands that WellFormed refuses, for each statement with hypotheses a state and operands that meet
them, and single steps on small states against values computed by hand from the rules. -/

namespace Sys2Proof.Tests

set_option Elab.async false

open Sys2Proof.Machine Sys2Proof.Claims

/-! ## Small states -/

/-- The device runs with its tick; Ralma node 5 and SQ port 1 are bound to polder 0, node 6 to polder 1. -/
def on : State :=
  { State.reset with dev := { devReset with phase := .running, tickRun := true },
                     recorder := { recReset with scanning := false },
                     regs := [(poldBind 0, 0x80050000), (poldBind 1, 0x80060001), (poldBind 2, 0xC0010000)] }

/-- Register words over a state. -/
def put (s : State) (l : List (Nat × Word)) : State := l.foldl (fun s c => setReg s c.1 c.2) s

/-- Memory words over a state. -/
def mem (s : State) (l : List (Nat × Word)) : State := l.foldl (fun s c => wrWord s c.1 c.2) s

/-- The host at Ralma node 5, bound to polder 0; that at node 6, bound to polder 1; a node without a binding. -/
def hostA : Source := .ralma 5
def hostB : Source := .ralma 6
def hostN : Source := .ralma 9

/-- A register of a state without resets may be reached by its host. -/
theorem ready {s : State} {src : Source} {p a : Nat} (h1 : mainRuns s = true) (h2 : s.dev.phase ≠ .recovery)
    (h3 : sourcePolder s src = some p) (h4 : regBreach s p a = 0) (h5 : s.dev.inReset = []) : HostReady s src p a :=
  ⟨h1, h2, h3, h4, fun o _ => by simp [inReset, h5, cellFind], fun _ => by simp [inReset, h5, cellFind]⟩

def badDisc : List (BitVec 128) := List.replicate 32 0

/-- Reserved forms of the L slot (R98, R100). -/
theorem test_wf_lslots : (Instr.ldw 0 1 2 3 0 .clean true).wf = false ∧ (Instr.stw 0 1 2 3 0 true).wf = false ∧
    (Instr.ldh 0 1 2 3 0 .clean true).wf = false ∧ (Instr.ldhu 0 1 2 3 0 .clean true).wf = false ∧ (Instr.sth 0 1 2 3 0 true).wf = false ∧
    (Instr.ldd 0 2 2 3 0 .clean true).wf = false ∧ (Instr.ldd 0 1 2 0 0 .clean true).wf = false ∧
    (Instr.std 0 2 2 3 0 true).wf = false ∧ (Instr.std 0 1 2 0 0 true).wf = false ∧ (Instr.ldd 0 2 2 0 0 .clean true).wf = true := by decide

/-- Lengths of operand lists. -/
theorem test_wf_lists : (Instr.hostMemoryAccess hostA true 0x70000000 8 [1] .clean).wf = false ∧
    (Instr.hostMemoryAccess hostA false 0x70000000 8 [1] .clean).wf = false ∧
    (Instr.clDiscReceived 0 badDisc).wf = false ∧ (Instr.clRateRelock 0 badDisc).wf = false ∧
    (Instr.stsFrame 0 0 0 (List.replicate 25 .missing)).wf = false ∧
    (Instr.safeMessageReceive 0 0 0 (List.replicate 31 0) 0).wf = false ∧ (Instr.link 0 0 [1] 0).wf = false ∧
    (Instr.negReceived 0 true 0 0 0 0 false false [1] 0).wf = false ∧
    (Instr.wrreq 0 0 0 0 (List.replicate 126 0) 0).wf = false ∧ (Instr.heart 0 0 0 [1] 0 true).wf = false ∧
    (Instr.mirror 0 0 0 0 0 (List.replicate 126 0) 0).wf = false ∧ (Instr.sqTransactionEnd 0 (List.replicate 65 0)).wf = false ∧
    (Instr.bandTableDone [(1, 2)]).wf = false ∧ (Instr.acqCalibrationDone ⟨0, []⟩).wf = false ∧ (Instr.metWindowEnd [[0]]).wf = false := by decide +kernel

/-- Ranges of numbers. -/
theorem test_wf_numbers : (Instr.bootStart (List.replicate 65 0) default default sfdpNone).wf = false ∧
    (Instr.compareEdge 0 (2 ^ 24)).wf = false ∧ (Instr.signOn (some (2 ^ 32))).wf = false ∧ (Instr.sluiceReadResponse 0 256).wf = false ∧
    (Instr.sluiceWriteResponse 0 256).wf = false ∧ (Instr.sluiceRetry 0 256 .clean).wf = false ∧
    (Instr.bandTableDone ((2, 1) :: List.replicate 63 (1, 2))).wf = false := by decide

/-- A result of 129 words. -/
theorem test_wf_results (l : List (BitVec 40 × Bool)) (h : l.length = 129) : (Instr.slotResultReady 0 0 l).wf = false := by
  show decide (l.length ≤ 128) = false
  rw [h]; rfl

/-- A routed frame of 512 bytes. -/
theorem test_wf_routed (l : List (BitVec 8)) (h : l.length = 512) : (Instr.routedFrameForward 0 0 l 0).wf = false := by
  show decide (l.length ≤ 511) = false
  rw [h]; rfl

/-! ## Witnesses: the machine, engines, the sequencer -/

/-- StepRunsFront: a state with commands waiting. -/
theorem test_witness_StepRunsFront : ({ on with pending := [.tickEdge, .nop 0 true] } : State).pending = .tickEdge :: [.nop 0 true] := rfl

/-- OnlyReservedFormsStop: an odd first register, the reserved mode, and forms that run. -/
theorem test_witness_OnlyReservedFormsStop : ((2 : Fin 4) = 3 ∨ (31 : Fin 32).val % 2 = 1) ∧ ((3 : Fin 4) = 3 ∨ (30 : Fin 32).val % 2 = 1) ∧
    neverRuns (.ldd 0 31 2 2 0 .clean true) = true ∧ neverRuns (.std 0 30 2 3 0 true) = true ∧ neverRuns (.sth 0 31 2 2 0 true) = false := by decide

/-- OnlyReservedFormsStop: a command with slot bits, bits that spell a command of an engine at the end of its step. -/
theorem test_witness_OnlyReservedFormsStop_bits :
    encodeSlot (.mac 7 false 2 3 4 31 true true) = some (0, 0b0001010000110010011111100000) ∧ (∃ t, exec (.mac 7 false 2 3 4 31 true true) on = .next t) ∧
    decodeSlot 7 0 0b0001010000110010011111100000 .clean true = some (.mac 7 false 2 3 4 31 true true) ∧
    wordRuns (setEng on 7 { engReset with atEnd := true }) 7 = false := ⟨by decide, ⟨_, rfl⟩, by decide, by decide⟩

/-- Words of R99 written out by field: LDW (R102) with OP, GR 5, GB 6, AM 0b01, OFF −1; ADDI (R103) with OP, GD 1, GA 2, IMM13 −2. -/
theorem test_decode_l_and_x_slot : decodeSlot 7 2 0b0000100101001100111111111111 .clean false = some (.ldw 7 5 6 1 2047 .clean false) ∧
    decodeSlot 7 3 0b0011000001000101111111111110 .clean true = some (.addi 7 1 2 8190 true) := ⟨by decide, by decide⟩

/-- StepKeepsCanonicalForm: a step from a state with the canonical forms. -/
theorem test_witness_StepKeepsCanonicalForm : Inv { State.reset with pending := [.hrstnAssert] } ∧
    ∃ t, step { State.reset with pending := [.hrstnAssert] } = .next t := ⟨⟨rfl, rfl⟩, _, rfl⟩

/-- Engine 255 with bases of every kind of address in its registers; culvert page 0 is OWNED by polder 0, page 1 is free. -/
def engW : State :=
  setEng (put on [(culvFlag 0, 1)]) 255 { engReset with cur := { engRegsReset with g := [(1, 0x1000000), (2, 0x2000000), (3, 0x3000000), (4, 0x2001000), (5, 2)] } }

/-- XSlotResults: a word that nothing holds, outside migration, in group steps and outside them. -/
theorem test_witness_XSlotResults : wordRuns engW 255 = true ∧ (getEng engW 255).stall = none ∧ (getEng engW 255).fetchErr = none ∧
    (getEng engW 255).nextReqs = [] ∧ inVoterStep (getEng engW 255) = false ∧ inVoterStep { engReset with running := some ⟨0, 0, 1, 0⟩ } = true ∧
    (cellGet polImgReset engW.img.pol (resPol engW (resEngine 255))).migrating = none := by decide

/-- MSlotResults: a word of engine 255 runs. -/
theorem test_witness_MSlotResults : wordRuns engW 255 = true := by decide

/-- LoadsByWhereTheyReach: refused (misaligned, the output window, a culvert page of nobody), waiting (shared memory, an own culvert page), and
the last word of data memory and of the table bank. -/
theorem test_witness_LoadsByWhereTheyReach : ((0 : Fin 4) ≠ 3 ∧ wordRuns engW 255 = true) ∧ loadRefused engW 255 (slotAddress engW 255 0 5 0) 4 ∧
    loadRefused engW 255 (slotAddress engW 255 0 3 0) 4 ∧ loadRefused engW 255 (slotAddress engW 255 0 4 0) 4 ∧
    loadWaits engW 255 (slotAddress engW 255 0 1 0) 8 0x71E00000 ∧ loadWaits engW 255 (slotAddress engW 255 0 2 0) 8 0x40000000 ∧
    (slotAddress engW 255 2 15 (-1) % 4 = 0 ∧ reach engW 255 (slotAddress engW 255 2 15 (-1)) = .dmem (engBase 255 + 0x1FFFC)) ∧
    (slotAddress engW 255 2 23 (-1) % 4 = 0 ∧ reach engW 255 (slotAddress engW 255 2 23 (-1)) = .table (engBase 255 + 0x2FFFC)) ∧
    (30 : Fin 32).val % 2 = 0 ∧ beatRoom engW 0 = true := by
  refine ⟨by decide, .inl (by decide), .inr trivial, .inr (by decide : pageAllows engW 1 0 false = false), ⟨by decide, .inl (by decide)⟩,
    ⟨by decide, .inr ⟨by decide, by decide⟩⟩, by decide, by decide, by decide, by decide⟩

/-- StoresByWhereTheyReach: data memory up to the last word below the system words, shared memory, an own culvert page, the output window of an own pair;
refused: a system word, the table, the window past the pairs. -/
theorem test_witness_StoresByWhereTheyReach :
    (slotAddress engW 255 2 15 1983 % 4 = 0 ∧ reach engW 255 (slotAddress engW 255 2 15 1983) = .dmem (engBase 255 + 0x1FEFC) ∧
      (engBase 255 + 0x1FEFC) % 0x100000 < 0x1FF00) ∧
    reach engW 255 (slotAddress engW 255 0 1 0) = .shared 0x71E00000 ∧
    (reach engW 255 (slotAddress engW 255 0 2 0) = .culvert 0x40000000 ∧ pageAllows engW ((0x40000000 - 0x40000000) / 4096) 0 true = true) ∧
    (reach engW 255 (slotAddress engW 255 0 3 46) = .window 0xB8 ∧ windowOwner engW 0xB8 = some 0 ∧ windowOwner engW (0xB8 + 4) = some 0 ∧
      (cellGet polImgReset engW.img.pol 0).migrating = none) ∧
    storeRefused engW 255 (slotAddress engW 255 2 15 1984) 4 false ∧ storeRefused engW 255 (slotAddress engW 255 2 16 0) 4 false ∧
    storeRefused engW 255 (slotAddress engW 255 0 3 48) 4 false ∧ storeRefused engW 255 (slotAddress engW 255 0 3 47) 8 true := by
  refine ⟨by decide, by decide, by decide, by decide, .inr ?_, .inr trivial, .inr (.inl ?_), .inl (by decide)⟩
  · show 0x1FF00 ≤ (engBase 255 + 0x1FF00) % 0x100000
    decide
  · show windowOwner engW 0xC0 ≠ some 0
    decide

def stallW (load pair : Bool) (data : List Word) (served : Option (Bool × List Word)) : Stall :=
  { load := load, half := false, unsignedHalf := false, pair := pair, addr := 0x40000FF8, gr := 30, data := data, eow := true, served := served }
/-- The engine waits with this access, which is the one beat of the culvert that is not served. -/
def stallOf (st : Stall) : State :=
  let s := setEng engW 255 { getEng engW 255 with stall := some st }
  { s with culv := { s.culv with beats := [(0, [.engine 255])] } }

/-- StalledAccessEnds: a load of a pair and stores of one and two words that the page allows; a page that does not; a load that the culvert has served. -/
theorem test_witness_StalledAccessEnds :
    (getEng (stallOf (stallW true true [] none)) 255).stall = some (stallW true true [] none) ∧ (stallOf (stallW true true [] none)).flt.hold = false ∧
    ((stallW true true [] none).half = false ∨ (stallW true true [] none).pair = false) ∧ stallOpen (stallW true true [] none) = true ∧
    beatQueue (stallOf (stallW true true [] none)) 0 = [.engine 255] ∧ (∀ q, q ≠ 0 → beatQueue (stallOf (stallW true true [] none)) q = []) ∧
    stallAllowed (stallOf (stallW true true [] none)) 0 (stallW true true [] none) = true ∧
    stallAllowed (stallOf (stallW false false [7] none)) 0 (stallW false false [7] none) = true ∧ (stallW false true [7, 8] none).data = [7, 8] ∧
    stallAllowed (put (stallOf (stallW false false [7] none)) [(culvFlag 0, 0)]) 0 (stallW false false [7] none) = false ∧
    stallOpen (stallW true false [] (some (true, [5]))) = false ∧ stallAllowed engW 0 (stallW true false [] (some (true, [5]))) = true ∧
    ((getEng engW 255).fetchErr = none ∧ (getEng (stallOf (stallW true true [] none)) 255).fetchErr = none) := by
  refine ⟨by decide, by decide, by decide, by decide, by decide, fun q h => ?_, by decide, by decide, by decide, by decide, by decide, by decide, by decide⟩
  have : ¬(0 = q) := fun x => h x.symm
  simp [beatQueue, stallOf, setEng, cellGet, cellFind, this]

/-- A step for engine 0 in mode 0, segment 0, KIND 0. -/
def stepsW : State := { on with img := { imgReset with steps := [(0, [0x100])] } }

/-- StepStartRunsTheNextDueStep: a due step, and none. -/
theorem test_witness_StepStartRunsTheNextDueStep : stepsW.dev.tickRun = true ∧ stepsW.clk.gateC = false ∧ stepsW.flt.hold = false ∧
    inReset stepsW (resPol stepsW (resEngine 0)) = false ∧ (getEng stepsW 0).running = none ∧ waitsTransfer stepsW 0 = false ∧
    nextDue stepsW 0 (getEng stepsW 0).nextStep = some (0, 0, 0) ∧ nextDue stepsW 1 (getEng stepsW 1).nextStep = none ∧ fsAt stepsW 0 0 = none ∧
    getEng stepsW 1 = getEng stepsW 0 ∧ waitsTransfer stepsW 1 = false ∧ migSteps stepsW 0 = none ∧
    (eccBad (.double 0) = true ∧ (32768 : Fin 36864).val = 32768 + 0) := by decide

/-- Engine 0 at the end of step 0, which is the source of a latch. -/
def segEndW : State :=
  setEng { stepsW with img := { stepsW.img with latches := [(0, 0)] } } 0 { engReset with running := some ⟨0, 0, 0, 0⟩, atEnd := true }

/-- Engine 0 of a group at the end of its one group step. -/
def segEndG : State :=
  setEng { on with img := { imgReset with groups := [⟨7, 0, false, [0, 1], some 2, 0, 1⟩], steps := [(0, [0x100])] } } 0
    { engReset with running := some ⟨0, 0, 1, 0⟩, atEnd := true, nextStep := 1 }

/-- SegmentEndCapturesLatches: a capture of the last step, at the cut-off and after it; a signature. -/
theorem test_witness_SegmentEndCapturesLatches : (getEng segEndW 0).running = some ⟨0, 0, 0, 0⟩ ∧ (getEng segEndW 0).atEnd = true ∧ segEndW.clk.gateC = false ∧
      segEndW.flt.hold = false ∧
    migSteps segEndW 0 = none ∧ (segEndW.img.latches.map fun c => c.1).Nodup ∧ latSource segEndW 0 0 0 = true ∧ (0, (0 : DWord)) ∈ segEndW.img.latches ∧
    latSrcEng 0 = 0 ∧ (getEng segEndG 0).running = some ⟨0, 0, 1, 0⟩ ∧ (sigGroup segEndG 0).isSome = true ∧ groupStepLeft segEndG 0 1 = false ∧
    nextDue segEndG 0 (getEng segEndG 0).nextStep = none := by decide

/-- Engines 0 and 1 in a group with spare 2; its state area is the first 32 bytes. -/
def groupW : State :=
  { on with img := { imgReset with groups := [⟨7, 0, false, [0, 1], some 2, 0, 1⟩] },
            eng := [(0, { engReset with queue := [⟨engBase 0 + 28, [9]⟩] }), (5, { engReset with queue := [⟨engBase 5, [1]⟩, ⟨engBase 5 + 4, [2]⟩] })] }

/-- HostWritesDrainInOrder: an engine outside groups, and the last word of a state area. -/
theorem test_witness_HostWritesDrainInOrder : (getEng groupW 5).running = none ∧ nextDue groupW 5 (getEng groupW 5).nextStep = none ∧ groupOf groupW 5 = none ∧
    (getEng groupW 0).running = none ∧ nextDue groupW 0 (getEng groupW 0).nextStep = none ∧ (getEng groupW 0).queue = [⟨engBase 0 + 28, [9]⟩] ∧
      (getEng groupW 0).held = [] ∧
    inStateArea groupW 0 (engBase 0 + 28) = some ⟨7, 0, false, [0, 1], some 2, 0, 1⟩ ∧ canApply groupW 0 ⟨engBase 0 + 28, [9]⟩ = true ∧
    (engBase 0 + 28) % 0x100000 ≤ 0x1FFFC := by decide

def xferW (x : Xfer) (ret : List Nat) : State :=
  { groupW with groups := [(7, { groupReset with members := [0, 1], spare := some 2, xfer := some x, retired := ret })] }

/-- StateTransfersAndTraceEnd: the three kinds of transfer, and a lane in POST with nothing left. -/
theorem test_witness_StateTransfersAndTraceEnd :
    (groupW.img.groups.find? fun g => g.polder == 0 && g.id == 7) = some ⟨7, 0, false, [0, 1], some 2, 0, 1⟩ ∧ 32 * (0 + 1) ≤ 0x20000 ∧
      ([0, 1] ++ (some 2).toList).Nodup ∧
    (getGroup (xferW .shadow []) 7).xfer = some .shadow ∧ (getGroup (xferW .shadow []) 7).spare = some 2 ∧ (getGroup (xferW .shadow []) 7).members = 0 :: [1] ∧
    (getGroup (xferW .restore []) 7).xfer = some .restore ∧ (getGroup (xferW (.seed 3) [3]) 7).xfer = some (.seed 3) ∧
    (∃ m ∈ (getGroup (xferW (.seed 3) [3]) 7).members, m ≠ 3) ∧
    getF (setF on (engTrstat 255) engTrstat_State 2) (engTrstat 255) engTrstat_State = 2 ∧ (getLane on 255).left = 0 := by decide

/-! ## Witnesses: carriers, direct outputs, the cell link -/

/-- The recorder takes an event. -/
theorem room {s : State} {p n : Nat} (h : s.recorder.scanning = false) (h1 : (cellGet [] s.recorder.queues p).length + n ≤ 64)
    (h2 : cellGet 0 s.recorder.placed p + n ≤ 64) : RecorderRoom s p n := by
  unfold RecorderRoom
  rw [h]
  exact ⟨h1, h2⟩

/-- Carrier 31 runs with shape `shape`; pair 47 follows it with LOADAT `at'`. -/
def carW (shape at' : Nat) : State :=
  let s := setF (setB on (pwmCarstat 31) pwmCarstat_Run true) (pwmPctl 47) pwmPctl_Loadat at'
  setCar (setF s (pwmPctl 47) pwmPctl_Car 31) 31 { carReset with ctl := BitVec.ofNat 32 (shape * 2 ^ pwmCarctl_Shape.lo) }

/-- CarrierEventsLoadCompares: LOADAT 0 and 1 at a period start with a PIN cause that ends; a TRI carrier's peak. -/
theorem test_witness_CarrierEventsLoadCompares : carRuns (carW 2 1) 31 = true ∧ carRuns (carW 0 0) 31 = true ∧ pairCar (carW 2 1) 47 = 31 ∧
    getF (carW 2 1) (pwmPctl 47) pwmPctl_Loadat = 1 ∧ getF (carW 0 0) (pwmPctl 47) pwmPctl_Loadat = 0 ∧ (getPair (carW 2 1) 47).pinHeld = false ∧
    activeTrips (carW 2 1) 47 = [] ∧ fget (getCar (carW 2 1) 31).ctl pwmCarctl_Shape = 2 := by decide

def wants (a b : Bool) : State := setPair on 47 { pairReset with wantA := a, wantB := b }

/-- CompareEdgeAndDeadTime. -/
theorem test_witness_CompareEdgeAndDeadTime : carRuns (carW 2 1) (pairCar (carW 2 1) 47) = true ∧
    (getPair (wants true false) 47).wantA = true ∧ (getPair (wants true false) 47).wantB = false ∧ getB (wants true false) (pwmPstat 47) pwmPstat_Blv = false ∧
    (getPair (wants false true) 47).wantA = false ∧ (getPair (wants false true) 47).wantB = true ∧ getB (wants false true) (pwmPstat 47) pwmPstat_Alv = false := by
  decide

def tripW : State := put on [(pwmTripctl 15, (BitVec.ofNat 32 (2 ^ pwmTripctl_En.lo))), (pwmTripmaskl 15, 1), (pwmTripmaskh 15, 0x8000)]

/-- TripInputLatchesPairs: class 0, pairs 0 and 47 named. -/
theorem test_witness_TripInputLatchesPairs :
    RecorderRoom tripW 0 1 ∧ (getB tripW (pwmTripctl 15) pwmTripctl_En = true ∧ getFbit tripW pwmTripstat pwmTripstat_Level 15 = false ∧
      getF tripW (pwmTripctl 15) pwmTripctl_Class = 0 ∧ getFbit tripW (pwmTripmaskl 15) pwmTripmaskl_Pairs 0 = true ∧
      getFbit tripW (pwmTripmaskh 15) pwmTripmaskh_Pairs (47 - 32) = true ∧ getB tripW (pwmTripctl 15) pwmTripctl_Mode = false ∧
      getF tripW (pwmTripctl 15) pwmTripctl_Flenm1 + 1 ≤ (1 : BitVec 13).toNat ∧ true = !getB tripW (pwmTripctl 15) pwmTripctl_Pol ∧
      false = getB tripW (pwmTripctl 15) pwmTripctl_Pol ∧ (0 : BitVec 13).toNat < getF tripW (pwmTripctl 15) pwmTripctl_Flenm1 + 1) :=
  ⟨room (by decide) (by decide) (by decide), by decide⟩

/-- The record of a cell with serial number 7, rate `r`, features 0x44, with its CRC. -/
def disc (r : Nat) : BitVec 128 :=
  let l := [0, 0, 0, 7, 0, r, 0x44] ++ List.replicate 7 0
  BitVec.ofNat 128 (beNat l * 65536 + crc16 l)
def badDiscRec : BitVec 128 := disc 2 + 1

/-- Port 47 in start-up step `k` with 24 cells, its target `tgt`, after `t` tries. -/
def portW (k tgt t : Nat) : State := setPort on 47 { portReset with step := k, tgt := tgt, tries := t, recs := List.replicate 24 (disc 2) }
def portS (st : Nat) (s : State) : State := setF s (clnkPstat 47) clnkPstat_State st

/-- Port 47 in start-up step 6 with one cell. -/
def oneW : State := setPort on 47 { portReset with step := 6, recs := [disc 0] }

/-- ChainStartUpSteps: every step it names; one cell at 250 MBd fits the tick, 24 do not. -/
theorem test_witness_ChainStartUpSteps :
    (getPort (portW 4 3 0) 47).recs = (getPort (portW 4 3 0) 47).recs ∧ RecorderRoom oneW (portPol oneW 47) 1 ∧ ((getPort (portW 1 0 0) 47).step = 1 ∧
      (getPort (portW 3 0 0) 47).step = 3 ∧ (24 : Fin 32).val = (getPort (portW 3 0 0) 47).recs.length ∧
      (23 : Fin 32).val ≠ (getPort (portW 3 0 0) 47).recs.length ∧ (getPort (portW 4 3 0) 47).step = 4 ∧ (getPort (portW 4 3 0) 47).tgt < 4 ∧
      ((getPort oneW 47).step = 6 ∧ timingNow oneW 47 = true) ∧ ((getPort (portW 6 0 0) 47).step = 6 ∧ timingNow (portW 6 0 0) 47 = false) ∧
      portState (portS 6 (setB on (clnkPcfg 47) clnkPcfg_En true)) 47 = 6 ∧
      getB (portS 6 (setB on (clnkPcfg 47) clnkPcfg_En true)) (clnkPcfg 47) clnkPcfg_En = true) :=
  ⟨rfl, room (by decide) (by decide) (by decide), by decide +kernel⟩

def chainW (lo hi : Nat) (s : State) : State := setF (setF s (clnkPcfg 47) clnkPcfg_Nmin lo) (clnkPcfg 47) clnkPcfg_Nexp hi

/-- DiscoveryEchoAndTimeouts: chains of 24 (whole), 23 (short), 0 and 24 (out of the range); a first and a last answer; every kind of timeout. -/
theorem test_witness_DiscoveryEchoAndTimeouts :
    RecorderRoom (portW 4 1 2) (portPol (portW 4 1 2) 47) 1 ∧ ((getPort (chainW 1 24 (portW 2 0 0)) 47).step = 2 ∧ (List.replicate 24 (disc 2)).all discOk = true ∧
      (List.replicate 24 badDiscRec).all discOk = false ∧ getF (chainW 1 24 (portW 2 0 0)) (clnkPcfg 47) clnkPcfg_Nmin = 1 ∧
      getF (chainW 1 24 (portW 2 0 0)) (clnkPcfg 47) clnkPcfg_Nexp = 24 ∧ getF (chainW 1 23 (portW 2 0 0)) (clnkPcfg 47) clnkPcfg_Nexp = 23 ∧
      (getPort (portW 5 0 0) 47).step = 5 ∧ 23 < (getPort (portW 5 0 0) 47).recs.length ∧ (getPort (portW 4 1 2) 47).tries = 2 ∧
      (getPort (portW 4 1 2) 47).tgt ≠ 0 ∧ (getPort (portW 5 0 2) 47).tgt = 0 ∧ (getPort (portW 6 1 2) 47).step = 6 ∧
      (getPort (portW 2 1 1) 47).tries < 2) :=
  ⟨room (by decide) (by decide) (by decide), by decide +kernel⟩

def runW : State := portS 5 (portW 7 0 0)
def cellW (c : Cell) : State := setCell runW 1151 c

/-- CellStatusAndSelfTest: each clause, on the last cell of the last port. -/
theorem test_witness_CellStatusAndSelfTest : stsHeadOk (getPort runW 47) 0x8100001700 0 = false ∧
    stsHeadOk (getPort runW 47) 0x8100001700 (BitVec.ofNat 16 (crc16 [0x81, 0, 0, 23, 0])) = true ∧
    stsHeadOk (getPort runW 47) 0x8100001800 (BitVec.ofNat 16 (crc16 [0x81, 0, 0, 24, 0])) = false ∧ portState runW 47 = 5 ∧
      (getPort runW 47).recs.length ≤ 24 ∧ (getCell (cellW { cellReset with misses := 15 }) 1151).lost = false ∧
    getF (cellW { cellReset with misses := 15 }) (clnkPcfg 47) clnkPcfg_Misslim ≤ (getCell (cellW { cellReset with misses := 15 }) 1151).misses ∧
      (getCell (cellW { cellReset with lost := true, good := 64 }) 1151).lost = true ∧
    64 ≤ (getCell (cellW { cellReset with lost := true, good := 64 }) 1151).good ∧
    getB (setB (setPort on 47 { portReset with tx := .cmd }) (clnkPstat 47) clnkPstat_Safe true) (clnkPstat 47) clnkPstat_Safe = true ∧
    (getPort (setB (setPort on 47 { portReset with tx := .cmd }) (clnkPstat 47) clnkPstat_Safe true) 47).tx ≠ .nothing := by decide +kernel

/-- The rotation and the overdue pass: a running cell with SELFTEST and the second leg. -/
def rotW : State :=
  let s := setPort on 47 { portReset with recs := [disc 0], gap := 65535 }
  { setF (setB (portS 5 s) clnkTstcfg clnkTstcfg_En true) (clnkCellinfo 1128) clnkCellinfo_State 2 with time := 86400000000000 }

theorem test_witness_CellStatusAndSelfTest_rotation : getB rotW clnkTstcfg clnkTstcfg_En = true ∧ portState rotW 47 = 5 ∧
    getF rotW clnkTstcfg clnkTstcfg_Gap ≤ (getPort rotW 47).gap ∧ rotList rotW 47 = [0, 1, 2, 3, 4, 5, 6, 7] ∧ (getPort rotW 47).rotKeep = false ∧
    getF rotW (clnkCellinfo 1128) clnkCellinfo_State = 2 ∧ cellFeat rotW 1128 2 = true ∧ ((7 : Fin 8).val < 4 ∨ cellFeat rotW 1128 6 = true) ∧
    (cellGet (0, 0) (getCell rotW 1128).pass 7).2 + 86400000000000 ≤ rotW.time ∧
      cellGet 0 (getCell rotW 1128).noted 7 + 86400000000000 ≤ rotW.time := by decide +kernel

/-! ## Witnesses: encoders, converters, comparators, the metrology die -/

/-- Encoder 3 on, with an index mode; `z` a reference already taken. -/
def encW (z : Bool) : State :=
  setEnc (setB (setF (setF (setB on (encCtl 3) encCtl_En true) (encCtl 3) encCtl_Zmode 1) (encCtl 3) encCtl_Filt 1) (encStat 3) encStat_Zseen z) 3
    { encReset with run := 64, recent := [0, 0] }

/-- EncoderCountsAndChecks: the third double event, the first index edge, a later one off the reference, a lock. -/
theorem test_witness_EncoderCountsAndChecks :
    RecorderRoom (encW false) (resPol (encW false) (resEnc 3)) 1 ∧ RecorderRoom (encW true) (resPol (encW true) (resEnc 3)) 1 ∧
    (getB (encW false) (encCtl 3) encCtl_En = true ∧ (0 : BitVec 8).toNat < getF (encW false) (encCtl 3) encCtl_Filt ∧
      getF (encW false) (encCtl 3) encCtl_Filt ≤ (1 : BitVec 8).toNat ∧ true ≠ (getEnc (encW false) 3).lineA ∧ true ≠ (getEnc (encW false) 3).lineB ∧
      getB (encW false) (encStat 3) encStat_Degr = false ∧
      3 ≤ (((getEnc (encW false) 3).recent.filter fun t => decide ((encW false).tick.count.toNat < t + 64)) ++ [(encW false).tick.count.toNat]).length ∧
      getF (encW false) (encCtl 3) encCtl_Zmode = 1 ∧ getB (encW false) (encStat 3) encStat_Zseen = false ∧
      getB (encW true) (encStat 3) encStat_Zseen = true ∧
      ((getReg (put (encW true) [(encZref 3, 1)]) (encCount 3) + getReg (put (encW true) [(encZref 3, 1)]) (encCorr 3) - getReg (put (encW true) [(encZref 3, 1), (encCpr 3, 7)]) (encZref 3)).toInt % (max 1 (getF (put (encW true) [(encCpr 3, 7)]) (encCpr 3) encCpr_Cpr) : Nat)) ≠ 0 ∧
      64 ≤ (getEnc (encW false) 3).run) :=
  ⟨room (by decide) (by decide) (by decide), room (by decide) (by decide) (by decide), by decide⟩

/-- Slot 31 of group 7: two conversions of 1, delivered to the first word of engine 255. -/
def slotW (tri : Bool) : State :=
  let s := setB (setB (setF { on with tick := { on.tick with whole := true } } (acqSlot 7 31) acqSlot_Osrc 1) (acqSlot 7 31) acqSlot_En true) (acqGctl 7) acqGctl_En true
  setF (setB (setB s (acqDest 7 31 0) acqDest_En true) (acqSlot 7 31) acqSlot_Filt tri) (acqDest 7 31 0) acqDest_Target (255 * 524288)

/-- SlotResultIsDelivered: the mean and the triangular weighting. -/
theorem test_witness_SlotResultIsDelivered : (slotW false).dev.tickRun = true ∧ (slotW false).tick.whole = true ∧
      getB (slotW false) (acqSlot 7 31) acqSlot_En = true ∧
    getB (slotW false) (acqGctl 7) acqGctl_En = true ∧ [((8191 : BitVec 40), false), (8192, true)].length = 2 ^ getF (slotW false) (acqSlot 7 31) acqSlot_Osrc ∧
    inReset (slotW false) (resPol (slotW false) (resSlot 7 31)) = false ∧ getB (slotW false) (acqDest 7 31 0) acqDest_En = true ∧
    getB (slotW false) (acqDest 7 31 0) acqDest_Kind = false ∧ getB (slotW false) (acqDest 7 31 0) acqDest_Statw = false ∧
    (∀ d, 1 ≤ d → d < 4 → getB (slotW false) (acqDest 7 31 d) acqDest_En = false) ∧
    groupOf (slotW false) (getF (slotW false) (acqDest 7 31 0) acqDest_Target / 524288) = none ∧ (getGrp (slotW false) 7).calibrating = false ∧
    (∀ i < 5, getReg (slotW false) (acqScal 7 i) = 0) ∧ getB (slotW true) (acqSlot 7 31) acqSlot_Filt = true ∧
      getB (slotW false) (acqSlot 7 31) acqSlot_Filt = false := by
  have h : ∀ d, 1 ≤ d → d < 4 → getB (slotW false) (acqDest 7 31 d) acqDest_En = false
    | 1, _, _ => by decide
    | 2, _, _ => by decide
    | 3, _, _ => by decide
    | 0, h, _ => by omega
    | _ + 4, _, h => by omega
  and_intros <;> first | exact h | decide

/-- Group 7 in service; `degr` its spare is gone. -/
def grpW (degr : Bool) : State :=
  let s := setB (setB (setB on (acqGctl 7) acqGctl_En true) (acqGctl 7) acqGctl_Calen true) (acqGstat 7) acqGstat_Calrdy true
  setGrp (setB s (acqGstat 7) acqGstat_Degr degr) 7 { grpReset with ticks := 65535, calibrating := false }

/-- A calibration whose ZERO reads a mean of `n` LSB. -/
def calW (n : BitVec 14) : SliceCal := ⟨[n], [], [], []⟩

/-- ConvertersAndComparators: a bad estimate of the offset, a failing slice with a spare, without one and with one that another slice waits for, the end of
a calibration, a comparator that trips pair 47, the comparator that is SUSPECT. The gain and the skew are free in a calibration without conversions. -/
theorem test_witness_ConvertersAndComparators : (grpW false).dev.tickRun = true ∧ getB (grpW false) (acqGctl 7) acqGctl_En = true ∧
    getB (grpW false) (acqGctl 7) acqGctl_Calen = true ∧ getB (grpW false) (acqGstat 7) acqGstat_Calrdy = true ∧
    getB (grpW false) (acqGstat 7) acqGstat_Degr = false ∧ getF (grpW false) (acqGctl 7) acqGctl_Calt ≤ (getGrp (grpW false) 7).ticks ∧
    getF (grpW false) (acqGstat 7) acqGstat_Spare < 5 ∧ estimateBad (1024, 100, 75) = false ∧ (estimates (calW 65)).1 = 1040 ∧
    (getGrp (grpW false) 7).calibrating = false ∧ (getGrp (grpW false) 7).active.contains 0 = true ∧ (getGrp (grpW false) 7).replace = none ∧
    ((getGrp (setGrp on 7 { grpReset with replace := some (1, 0) }) 7).replace.map fun r => r.1) ≠ some 0 ∧
    ((getGrp (setGrp on 7 { grpReset with replace := some (1, 0) }) 7).replace).isSome = true ∧ getB (grpW true) (acqGstat 7) acqGstat_Degr = true ∧
    getB (grpW true) (acqGstat 7) acqGstat_Invalid = false ∧ (getGrp (setGrp on 7 { grpReset with calibrating := true }) 7).calibrating = true := by decide

theorem test_witness_ConvertersAndComparators_room : RecorderRoom (setGrp on 7 { grpReset with calibrating := true }) 0 1 :=
  room (by decide) (by decide) (by decide)

def cmpW : State :=
  let s := setB (setB on (cmpCtl 31) cmpCtl_En true) (cmpXcfg 31) cmpXcfg_Xen true
  setCmp (setFbit s (pwmPctrip 47) pwmPctrip_Mask 31 true) 31 { cmpReset with run := 255 }

theorem test_witness_ConvertersAndComparators_window : getB cmpW (cmpCtl 31) cmpCtl_En = true ∧ getB cmpW (cmpStat 31) cmpStat_Latch = false ∧
    getFbit cmpW (pwmPctrip 47) pwmPctrip_Mask 31 = true ∧ getB cmpW (cmpXcfg 31) cmpXcfg_Xen = true ∧
    getF cmpW (cmpXcfg 31) cmpXcfg_Xn ≤ (getCmp cmpW 31).run ∧ getB cmpW (cmpStat 31) cmpStat_Suspect = false := by decide

/-- A running metrology die; `b` its seal is broken. -/
def metDie (b : Bool) : Met := { metReset with on := true, broken := b }
def metW (m : Met) : State := { on with met := m }

/-- The CRC of a request `cmd` for parameter 0x200, index 3, value 7. -/
def reqCrc (cmd : Nat) : BitVec 16 := BitVec.ofNat 16 (crc16 ([cmd] ++ beBytes 2 0x200 ++ [3] ++ beBytes 4 7))

/-- CalibrationPortAnswers: a parameter and none, a value in its range and beyond it, both states of the seal, the rules of R376, a log word. -/
theorem test_witness_CalibrationPortAnswers : (metW (metDie true)).met.on = true ∧ decide (3 < metCount 0x200) = true ∧ decide (4 < metCount 0x200) = false ∧
    metRange (metDie true) 0x201 3 100000 = true ∧ metRange (metDie true) 0x201 3 100001 = false ∧ (metDie true).broken = true ∧ (metDie false).broken = false ∧
    ptRules (metDie true) = true ∧ (metDie true).log.length + (metChanges (metDie true)).length ≤ 1024 ∧
    ptRules { metDie true with pend := [(metKey 0x100 0, 0x8000000F)] } = false ∧
    ({ metDie true with log := [[1, 2, 3, 4, 5, 6, 7, 8]] } : Met).log[0]? = some [1, 2, 3, 4, 5, 6, 7, 8] ∧ (metDie true).commitAsked = none ∧
    metKey 0x200 3 ≠ metKey 0x201 3 ∧ (metW (metDie true)).dev.ca = false ∧
    crc16 ([1] ++ beBytes 2 (0x200 : BitVec 16).toNat ++ [(3 : BitVec 8).toNat] ++ beBytes 4 (7 : BitVec 32).toNat) = (reqCrc 1).toNat ∧
    crc16 ([2] ++ beBytes 2 (0x200 : BitVec 16).toNat ++ [(3 : BitVec 8).toNat] ++ beBytes 4 (7 : BitVec 32).toNat) ≠ (reqCrc 1).toNat := by decide +kernel

/-- MetWindowsAndMailbox: a window with and without a commit, a pulse, a mailbox frame, a link. -/
theorem test_witness_MetWindowsAndMailbox :
    ((metW { metDie true with commitAsked := some (0, 0), pend := [(metKey 0x201 3, 7)] }).met.pend.map fun c => c.1).Nodup ∧
    (metW { metDie true with commitAsked := some (0, 0) }).met.commitAsked = some (0, 0) ∧ (metW { metDie true with nverr := true }).met.nverr = true ∧
    (ptRules (metDie true) = true ∧ (metDie true).log.length + (metChanges (metDie true)).length ≤ 1024) ∧
    ptRules { metDie true with commitAsked := some (0, 0), pend := [(metKey 0x100 0, 0x8000000F)] } = false ∧
    cellGet 0 (metW { metDie true with sched := [(3, 1)] }).met.sched 3 ≠ 0 ∧ on.dev.ca = false ∧ on.met.frame = [] ∧ (metW (metDie true)).met.on = true ∧
      (metW { metDie true with frame := [(mboxStat, 2), (mboxSeq, 5)] }).met.frame ≠ [] ∧ on.dev.phase ≠ .off ∧ on.dev.phase ≠ .held ∧
    ((metW { metDie true with frame := [(mboxStat, 2), (mboxSeq, 5)] }).met.frame.map fun c => c.1).Nodup ∧
    (∀ c ∈ (metW { metDie true with frame := [(mboxStat, 2), (mboxSeq, 5)] }).met.frame, 0x60150000 ≤ c.1 ∧ c.1 < 0x60160000) ∧
    (0 : Nat) < 256 ∧ getB (setB on mboxStat mboxStat_Link true) mboxStat mboxStat_Link = true := by decide

/-- MetrologyDieEvents: a die that is off, and one that runs, with each state that its clauses name. -/
theorem test_witness_MetrologyDieEvents : (metW metReset).met.on = false ∧ (metW { metDie true with xtalf := true }).met.xtalf = true ∧
    (metW (metDie false)).met.broken = false ∧ (metW (metDie false)).dev.ca = false ∧ ({ on with dev := { on.dev with ca := true } } : State).dev.ca = true ∧
      (metW (metDie true)).met.on = true ∧ (metW (metDie true)).met.ovl = false ∧
    (metW { metDie true with selWait := true }).met.selWait = true ∧ (metW { metDie true with commitAsked := some (0, 0) }).met.commitAsked = some (0, 0) ∧
    (metW { metDie true with serial := 9 }).met.serial.toNat = 9 := by decide

/-! ## Witnesses: hosts, staging, trips, forces -/

/-- The host of polder 0 may reach this register. -/
theorem onA {a : Nat} (h : regBreach on 0 a = 0) : HostReady on hostA 0 a := ready (by decide) (by decide) (by decide) h rfl

/-- RegisterReadsAnswer: polder 0's host reads TICK registers and BRCNT; polder 1's host has no right to a BRCNT, its own or another's. -/
theorem test_witness_RegisterReadsAnswer : HostReady on hostA 0 tickPeriod ∧ HostReady on hostA 0 tickCountLo ∧ HostReady on hostA 0 tickCountHi ∧
    HostReady on hostA 0 (poldBrcnt 7) ∧ mainRuns on = true ∧ on.dev.phase ≠ .recovery ∧ sourcePolder on hostB = some 1 ∧ (1 : Nat) ≠ 0 :=
  ⟨onA (by decide), onA (by decide), onA (by decide), onA (by decide), by decide⟩

/-- MemoryAccessesAreChecked: an own segment and another's, a whole page at the segment's end, a reserved address, a source without a binding. -/
theorem test_witness_MemoryAccessesAreChecked : mainRuns on = true ∧ on.dev.phase ≠ .recovery ∧ sourcePolder on hostA = some 0 ∧
    placeOf 0x7001FFF8 = .shared ∧ formOk 0x7001FFF8 8 = true ∧ inReset on (resPol on (1024 + (0x7001FFF8 - 0x70000000) / 0x20000)) = false ∧
    resPol on (1024 + (0x7001FFF8 - 0x70000000) / 0x20000) = 0 ∧ ([1, 2] : List (BitVec 32)).length = 8 / 4 ∧ sourcePolder on hostB = some 1 ∧
    placeOf 0xF000000000 = .reserved ∧ sourcePolder on hostN = none := by decide

/-- RegisterWritesByAccessCode: registers of every access code, one with no action of its own; a value that another register's staging keeps. -/
theorem test_witness_RegisterWritesByAccessCode : HostReady on hostA 0 (pwmCarper 31) ∧ HostReady on hostA 0 (tickHostcond 0) ∧
    HostReady on hostA 0 sysRstcause ∧ HostReady on hostA 0 tickCountLo ∧ HostReady on hostA 0 (pwmTripmaskl 15) ∧
    (placeOf (pwmTripmaskl 15) = .register ∧ pwmTripmaskl 15 % 4 = 0 ∧ actionMask (blockNo (pwmTripmaskl 15)) (regPlace (pwmTripmaskl 15)).2.1 = 0) ∧
    (∀ g ∈ ({ on with tick := { tickReset with staged := [⟨0, pwmCarper 30, 1, 1⟩] } } : State).tick.staged, ¬(g.pol = 0 ∧ g.addr = pwmCarper 31)) :=
  ⟨onA (by decide), onA (by decide), onA (by decide), onA (by decide), onA (by decide), by decide, by decide⟩

theorem test_witness_RegisterWritesByAccessCode_action (u : State) (w : Word) : regAction u hostA 0 (pwmTripmaskl 15) w = (u, false) := rfl

/-- Polder 0 has staged a value in block 8 for 256 ticks. -/
def stagedW : State :=
  { on with tick := { tickReset with staged := [⟨0, pwmCarper 31, 15, 3⟩, ⟨1, pwmCarper 0, 15, 3⟩]
                                     stageMeta := [(metaKey (blockNo (pwmCarper 31)) 0, ⟨256, false, false⟩)] } }

/-- StagedSetsAreCommittedOrDropped. -/
theorem test_witness_StagedSetsAreCommittedOrDropped_room : RecorderRoom stagedW 0 1 := room (by decide) (by decide) (by decide)

theorem test_witness_StagedSetsAreCommittedOrDropped : HostReady stagedW hostA 0 (blockCommit (blockNo (pwmCarper 31))) ∧
    commitBlocks.contains (blockNo (pwmCarper 31)) = true ∧ blockNo (pwmCarper 31) < 23 ∧ HostReady stagedW hostA 0 tickGcommit ∧
    (BitVec.allOnes 24).getLsbD (blockCode (blockNo (pwmCarper 31)) - 1) = true ∧ (⟨1, pwmCarper 0, 15, 3⟩ : Staged) ∈ stagedW.tick.staged ∧
    cellFind stagedW.tick.stageMeta (metaKey (blockNo (pwmCarper 31)) 0) = some ⟨256, false, false⟩ ∧
    stagedOf stagedW (blockNo (pwmCarper 31)) 0 ≠ [] :=
  ⟨ready (by decide) (by decide) (by decide) (by decide) rfl, by decide, by decide, ready (by decide) (by decide) (by decide) (by decide) rfl, by decide⟩

/-- Engine 255 is retired from group 7. -/
def retW : State := setB { on with img := { imgReset with groups := [⟨7, 0, false, [254, 253], some 255, 0, 1⟩] } } (engPlace 255) engPlace_Retired true

/-- ResetRequestsAndLaneCommands: the two registers, a polder named and one not, a polder that is in reset. -/
theorem test_witness_ResetRequestsAndLaneCommands_resets : HostReady on hostA 0 sysPrst ∧ HostReady on hostB 1 sysPrself ∧
    ((0x80 : BitVec 8).getLsbD 7 = true ∧ (0x80 : BitVec 8).getLsbD 6 = false) :=
  ⟨onA (by decide), ready (by decide) (by decide) (by decide) (by decide) rfl, by decide⟩

/-- ResetRequestsAndLaneCommands: a retired engine of a group, and one that is not retired. -/
theorem test_witness_ResetRequestsAndLaneCommands_lanes : HostReady on hostA 0 (engTrcmd 255) ∧ HostReady retW hostA 0 (engPlace 255) ∧
    (getB retW (engPlace 255) engPlace_Retired = true ∧ (groupOf retW 255).isSome = true ∧ getB on (engPlace 255) engPlace_Retired = false) :=
  ⟨onA (by decide), ready (by decide) (by decide) (by decide) (by decide) rfl, by decide⟩

/-- TripClearsKeepLiveCauses and ForcesAndCellControls: pair 47, one whose force waits, port 47, cell 1151; a carrier that runs and one that does not; a
cell bypassed with and without latched faults. -/
theorem test_witness_TripClearsKeepLiveCauses : HostReady on hostA 0 (pwmPstat 47) ∧ HostReady on hostA 0 (clnkPstat 47) ∧
    HostReady (setPair on 47 { pairReset with forceWait := true }) hostA 0 (pwmPstat 47) ∧
    (getPair (setPair on 47 { pairReset with forceWait := true }) 47).forceWait = true :=
  ⟨onA (by decide), onA (by decide), ready (by decide) (by decide) (by decide) (by decide) rfl, by decide⟩

theorem test_witness_ForcesAndCellControls : HostReady on hostA 0 (pwmPforce 47) ∧ HostReady (carW 2 1) hostA 0 (pwmPforce 47) ∧
    HostReady on hostA 0 (clnkCellctl 1151) ∧ carRuns (carW 2 1) (pairCar (carW 2 1) 47) = true ∧ carRuns on (pairCar on 47) = false ∧
    getB on (pwmPstat 47) pwmPstat_Tripped = false ∧ (getCell on 1151).byp = false ∧ HostReady (cellW { cellReset with byp := true }) hostA 0 (clnkCellctl 1151) ∧
    (getCell (cellW { cellReset with byp := true }) 1151).byp = true ∧
    (cellFeat (cellW { cellReset with byp := true }) 1151 3 || nbits (getCell (cellW { cellReset with byp := true }) 1151).last.toNat 43 40 != 0 ||
      nbit (cellGet 0 (cellW { cellReset with byp := true }).win (128 + 4 * 1151 + 2)).toNat 0) = false ∧
    nbits (getCell (cellW { cellReset with byp := true, last := BitVec.ofNat 160 (2 ^ 43) }) 1151).last.toNat 43 40 ≠ 0 :=
  ⟨onA (by decide), ready (by decide) (by decide) (by decide) (by decide) rfl, onA (by decide), by decide, by decide, by decide, by decide,
    ready (by decide) (by decide) (by decide) (by decide) rfl, by decide +kernel⟩
/-! ## Witnesses: culvert, sluices, SQ ports, requests -/

/-- Page 4095 with this flag word. -/
def pageW (f : Word) : State := put on [(culvFlag 4095, f)]

/-- CulvertOperationsMovePages: each state of a page that an operation takes, a target of its own, fresh and stale generations. -/
theorem test_witness_CulvertOperationsMovePages :
    HostReady on hostA 0 culvOp ∧ HostReady (pageW 0xFFFF0001) hostA 0 culvOp ∧ HostReady (pageW 0xFFFF0002) hostA 0 culvOp ∧
    HostReady (pageW 0xFFFF0003) hostA 0 culvOp ∧ (pageState on 4095 = 0 ∧ pageLease on 4095 = 0 ∧ (0xFFFF : BitVec 16).toNat = pageGen (pageW 0xFFFF0001) 4095 ∧
      pageState (pageW 0xFFFF0001) 4095 = 1 ∧ pageOwner (pageW 0xFFFF0001) 4095 = 0 ∧ ¬(0xFFFE : BitVec 16).toNat = pageGen (pageW 0xFFFF0001) 4095 ∧
      getF (setF (pageW 0xFFFF0001) (banked culvOparg 0) culvOparg_Target 7) (banked culvOparg 0) culvOparg_Target ≠ 0 ∧
      pageState (pageW 0xFFFF0002) 4095 = 2 ∧ pageTarget (pageW 0xFFFF0002) 4095 = 0 ∧ pageOwner (pageW 0xFFFF0002) 4095 = 0 ∧
      pageState (pageW 0xFFFF0003) 4095 = 3) :=
  ⟨onA (by decide), ready (by decide) (by decide) (by decide) (by decide) rfl, ready (by decide) (by decide) (by decide) (by decide) rfl,
  ready (by decide) (by decide) (by decide) (by decide) rfl, by decide⟩

/-- CulvertOperationsMovePages: held pages with lease 0 and 1; a page that waits. -/
theorem test_witness_CulvertOperationsMovePages_lease : Inv (put on [(culvFlag 0, 0x105), (culvFlag 4095, 0x0001)]) ∧
    ((pageState (put on [(culvFlag 4095, 0x0001)]) 4095 = 1 ∨ pageState (put on [(culvFlag 4095, 0x0001)]) 4095 = 2) ∧
      pageLease (put on [(culvFlag 4095, 0x0001)]) 4095 = 0) ∧
    ({ on with culv := { culvReset with zeroing := [4095, 3] } } : State).culv.zeroing = 4095 :: [3] := ⟨⟨by decide, by decide⟩, by decide, by decide⟩

/-- Sluice 31 enabled in state `st`. -/
def sluW (st : Nat) (x : Slu) : State := setSlu (setB (setF on (sluStat 31) sluStat_State st) (sluCfg 31) sluCfg_En true) 31 x

def outW (write : Bool) (r : AccRes) : OutAcc :=
  { write := write, first := 0, count := 1, sent := 1, beats := 0, addr := 0x70000000, data := if write then [5] else [], res := r, ecc := .clean,
    failed := false, again := false, fails := 0 }

/-- SluiceCommandsChangeState: disabled, and every state that a clause names, with and without an access outstanding. -/
theorem test_witness_SluiceCommandsChangeState : HostReady on hostA 0 (sluCmd 31) ∧ HostReady (sluW 1 sluReset) hostA 0 (sluCmd 31) ∧
    HostReady (sluW 5 sluReset) hostA 0 (sluDptr 31) ∧ HostReady (sluW 2 sluReset) hostA 0 (sluDptr 31) ∧
    (getB on (sluCfg 31) sluCfg_En = false ∧ getB (sluW 1 sluReset) (sluCfg 31) sluCfg_En = true ∧ (∀ st : Fin 8, sluState (sluW st sluReset) 31 = st) ∧
      ((getSlu (sluW 1 sluReset) 31).fetching = none ∧ (getSlu (sluW 1 sluReset) 31).stopping = false ∧ (getSlu (sluW 1 sluReset) 31).outs = []) ∧
      getF (sluW 1 sluReset) (sluCfg 31) sluCfg_Trig = 0 ∧ openOut (getSlu (sluW 1 sluReset) 31) false = none ∧
      ((getSlu (sluW 2 { sluReset with outs := [outW true .err] }) 31).outs.any fun o => !o.failed && !o.again) = true ∧
      openOut (getSlu (sluW 2 { sluReset with outs := [outW true .err] }) 31) true = none ∧
      (getSlu (sluW 3 { sluReset with fromWait := true }) 31).fromWait = true ∧ (getSlu (sluW 3 { sluReset with good := true }) 31).good = true ∧
      (getSlu (sluW 3 { sluReset with good := true }) 31).fromWait = false) :=
  ⟨onA (by decide), ready (by decide) (by decide) (by decide) (by decide) rfl, ready (by decide) (by decide) (by decide) (by decide) rfl, ready (by decide) (by decide) (by decide) (by decide) rfl, by decide⟩

/-- A descriptor: `n` words from 0x70000000 to 0x70001000, the last of its list. -/
def descW (n trig : Nat) : List Word :=
  [0x70000000, 0, 0x70001000, 0, BitVec.ofNat 32 (n - 1), BitVec.ofNat 32 (2 ^ 21 + trig * 2 ^ 22), 4, 4, 0, 0, 0, 0, 0, 7, 0, 0]

def descAt (l : List Word) : State :=
  mem (sluW 0 { sluReset with fetching := some 0x70000040 }) ((upto 16).map fun i => (0x70000040 + 4 * i, l.getD i 0))

/-- SluicesFetchAndIssue: a good descriptor, one with a reserved bit, one that waits for its trigger. -/
theorem test_witness_SluicesFetchAndIssue_fetch : (getSlu (descAt (descW 2 0)) 31).fetching = some 0x70000040 ∧ (getSlu (descAt (descW 2 0)) 31).outs = [] ∧
    (placeOf 0x70000040 = .shared ∧ 0x70000040 % 64 = 0) ∧
    resPol (descAt (descW 2 0)) (1024 + (0x70000040 - 0x70000000) / 0x20000) = sluPol (descAt (descW 2 0)) 31 ∧ (descAt (descW 2 0)).dev.phase ≠ .recovery ∧
    (sluState (descAt (descW 2 0)) 31 ≠ 4 ∧ sluState (descAt (descW 2 0)) 31 ≠ 6) ∧ (getSlu (descAt (descW 2 0)) 31).stopping = false ∧
    descOk (descAt (descW 2 0)) 0 (rdWords (descAt (descW 2 0)) 0x70000040 16) = true ∧ dTrigwait (descW 2 1) = true ∧
    descOk on 0 ((descW 2 0).take 14 ++ [1, 0]) = false ∧ 0x0705 ∉ (getSlu (descAt (descW 2 0)) 31).noted := by decide +kernel

/-- Sluice 31 runs a descriptor of two words, of which `l` wait to be written. -/
def issueW (l : Cells (List Word)) : State := sluW 2 { sluReset with desc := descW 2 0, good := true, buf := l }

/-- SluicesFetchAndIssue: a read, a write with its data, and no ready channel. -/
theorem test_witness_SluicesFetchAndIssue_issue : sluArbitrate on false = none ∧ sluArbitrate (issueW []) false = some 31 ∧
    sluArbitrate (issueW [(0, [5]), (1, [6])]) true = some 31 ∧ openOut (getSlu (issueW []) 31) false = none ∧ (getSlu (issueW []) 31).outs = [] ∧
    nextWrite (getSlu (issueW [(0, [5]), (1, [6])]) 31) = 2 ∧ nextRead (getSlu (issueW []) 31) = 2 ∧
    ((sluicesOf (issueW []) 0).all fun d => (openOut (getSlu (issueW []) d) false).isNone && (openOut (getSlu (issueW []) d) true).isNone) = true := by decide +kernel

/-- Sluice 31 runs a descriptor of two words with one access outstanding. -/
def outsW (o : OutAcc) : State := sluW 2 { sluReset with desc := descW 2 0, good := true, outs := [o] }

/-- A channel whose read of a page of its polder waits for the culvert. -/
def queueW : State :=
  let d := [BitVec.ofNat 32 (0x40000000), BitVec.ofNat 32 (0), 0x70001000, 0, 1, BitVec.ofNat 32 (2 ^ 21), 4, 4, 0, 0, 0, 0, 0, 7, 0, 0]
  let o : OutAcc := { outW false .queued with addr := 0x40000000 }
  setBeatQueue (put (sluW 2 { sluReset with desc := d, outs := [o] }) [(culvFlag 0, 0x00000101)]) 0 [.sluice 31 false 0]

/-- SluiceResponsesAdvance: a read that the culvert's wheel comes to. -/
theorem test_witness_SluiceResponsesAdvance_culvert : (queueW.clk.gateC = false ∧ sluState queueW 31 = 2 ∧ (getSlu queueW 31).stopping = false) ∧
    outAt (getSlu queueW 31) false 0 = some (0, { outW false .queued with addr := 0x40000000 }) ∧ beatQueue queueW 0 = [.sluice 31 false 0] ∧
    (queueW.culv.beats.map fun c => c.1) = [0] ∧ outLen (getSlu queueW 31).desc { outW false .queued with addr := 0x40000000 } ≤ 32 ∧
    (sluPol queueW 31 = 0 ∧ inReset queueW 0 = false ∧ inCulvert 0x40000000 = true) ∧
    ((getSlu queueW 31).desc.getD 1 0).toNat / 65536 = pageGen queueW (culvPage 0x40000000) ∧ pageAllows queueW (culvPage 0x40000000) 0 false = true ∧
    (getSlu queueW 31).acked ≠ dTotal (getSlu queueW 31).desc := by decide +kernel

/-- SluiceResponsesAdvance: good reads and writes that have been made and that are made now, the last write and one before it, a failing access beyond RETRY
and below it, a failed one. -/
theorem test_witness_SluiceResponsesAdvance : (on.clk.gateC = false ∧ sluState (outsW (outW false .queued)) 31 = 2) ∧
    outAt (getSlu (outsW (outW false (.ok [5]))) 31) false 0 = some (0, outW false (.ok [5])) ∧
    outAt (getSlu (outsW (outW false .queued)) 31) false 0 = some (0, outW false .queued) ∧
    outAt (getSlu (outsW (outW true .queued)) 31) true 0 = some (0, outW true .queued) ∧
    outAt (getSlu (outsW (outW true .err)) 31) true 0 = some (0, outW true .err) ∧
    (placeOf 0x70000000 = .shared ∧ formOk 0x70000000 (outLen (descW 2 0) (outW true .queued)) = true) ∧
    resPol (outsW (outW true .queued)) (1024 + (0x70000000 - 0x70000000) / 0x20000) = sluPol (outsW (outW true .queued)) 31 ∧
    (outW true .queued).data.length = outLen (descW 2 0) (outW true .queued) / 4 ∧ (getSlu (outsW (outW true .err)) 31).acked ≠ dTotal (descW 2 0) ∧
    (0 + (outW true (.ok [])).count ≠ dTotal (descW 2 0) ∧ 1 + (outW true (.ok [])).count = dTotal (descW 2 0)) ∧ dLast (descW 2 0) = true ∧
    (openOut (getSlu (outsW (outW true .err)) 31) false = none ∧ openOut (getSlu (outsW (outW true .err)) 31) true = none) ∧
    getF (outsW (outW true .err)) (sluCfg 31) sluCfg_Retry < 7 + 1 ∧ 0 + 1 ≤ getF (setF (sluW 2 sluReset) (sluCfg 31) sluCfg_Retry 1) (sluCfg 31) sluCfg_Retry ∧
    (getSlu (outsW { outW true .err with failed := true }) 31).outs = [{ outW true .err with failed := true }] := by decide +kernel

/-- SQ port 3 as a master; select 3 holds an entry of two words; `rx` it stores them at the end of segment 0. -/
def sqEntryW (rx : Nat) : SqEntry := ⟨fset (fset 0 sqQhdr_Nwm1 1) sqQhdr_Rxen rx, 0, 0, 0, 0x1FFF8⟩
def sqW (x : SqPort) : State := setSq (setB on (sqCfg 3) sqCfg_En true) 3 x
def sqRunW (rx : Nat) (busy : Nat) : SqPort :=
  { sqPortReset with queues := [(3, [sqEntryW rx])]
                     run := some { sel := 3, read := none, entry := some (sqEntryW rx), sela := fset (fset 0 sqSela_Wsize 2) sqSela_Busychk busy, dropRx := false } }

/-- SqQueuesRunInOrder: a push that passes and one to a full queue, a free port with an entry and with a window read, the end of a read, of entries
with and without reception, a busy byte below the limit. -/
theorem test_witness_SqQueuesRunInOrder : HostReady (sqW sqPortReset) hostA 0 (sqQpush 3 3) ∧ (pushCause (sqW sqPortReset) 3 3 = 0 ∧
    pushCause (sqW { sqPortReset with queues := [(3, List.replicate 8 (sqEntryW 0))] }) 3 3 ≠ 0 ∧ (getSq (sqW sqPortReset) 3).run = none ∧
    getB (sqW sqPortReset) (sqCfg 3) sqCfg_En = true ∧ getB (sqW sqPortReset) (sqCfg 3) sqCfg_Role = false ∧
    ((upto 4).map fun i => (0 + i) % 4).find? (sqWork (sqW { sqPortReset with queues := [(3, [sqEntryW 1])] }) 3) = some 3 ∧
    getF (sqW sqPortReset) updStat updStat_State ≠ 1 ∧
    ((upto 4).map fun i => (0 + i) % 4).find? (sqWork (sqW { sqPortReset with reads := [⟨.host, 0, 1⟩] }) 3) = some 0 ∧
    getF (sqW sqPortReset) (sqCfg 3) sqCfg_Wsel = 0 ∧
    (getSq (sqW { sqPortReset with run := some ⟨0, some ⟨.host, 0, 64⟩, none, 0, false⟩ }) 3).run = some ⟨0, some ⟨.host, 0, 64⟩, none, 0, false⟩ ∧
    (getSq (sqW (sqRunW 1 0)) 3).run = some ⟨3, none, some (sqEntryW 1), fset (fset 0 sqSela_Wsize 2) sqSela_Busychk 0, false⟩ ∧
    fget (fset (fset 0 sqSela_Wsize 2) sqSela_Busychk 1) sqSela_Wsize = 2 ∧ fget (fset (fset 0 sqSela_Wsize 2) sqSela_Busychk 1) sqSela_Busychk = 1 ∧
    (([0xB5000000] : List (BitVec 32)).headD 0).toNat / 16777216 = 0xB5 ∧ fget (sqEntryW 0).hdr sqQhdr_Rxen = 0 ∧ fget (sqEntryW 1).hdr sqQhdr_Rxen = 1 ∧
    cellGet 0 (sqRunW 1 1).repeats 3 < getF (setF (sqW (sqRunW 1 1)) (sqSelb 3 3) sqSelb_Blim 1) (sqSelb 3 3) sqSelb_Blim) :=
  ⟨ready (by decide) (by decide) (by decide) (by decide) rfl, by decide⟩

/-- SQ port 1, bound to polder 0, and port 2, bound to none, as slaves. -/
def slvW (x : SqPort) : State := setSq (setB (setB (setB (setB on (sqCfg 1) sqCfg_En true) (sqCfg 1) sqCfg_Role true) (sqCfg 2) sqCfg_En true) (sqCfg 2) sqCfg_Role true) 1 x

/-- SlaveFramesAreAnswered: a free and a busy port, its polder's segment and a port without a binding, frame lengths of 8 and of others. -/
theorem test_witness_SlaveFramesAreAnswered : (slaveOn (slvW sqPortReset) 1 = true ∧ slaveOn (slvW sqPortReset) 2 = true ∧
    (getSq (slvW { sqPortReset with slvBusy := true }) 1).slvBusy = true ∧ (getSq (slvW { sqPortReset with slvBusy := true }) 1).slvWait = false ∧
    (getSq (slvW sqPortReset) 1).slvBusy = false ∧ sourcePolder (slvW sqPortReset) (.sq 1) = some (resPol (slvW sqPortReset) (1024 + (0x7001FFF8 - 0x70000000) / 0x20000)) ∧
    placeOf 0x7001FFF8 = .shared ∧ formOk 0x7001FFF8 8 = true ∧ inReset (slvW sqPortReset) 0 = false ∧ (List.replicate 8 (0 : BitVec 8)).length = 8 ∧
    sourcePolder (slvW sqPortReset) (.sq 2) = none ∧ slaveForm 0x7001FFF8 8 = true ∧ (8 % 4 = 0 ∧ 8 ≤ 8) ∧ (7 : BitVec 16) ≠ 8) ∧
    RecorderRoom (slvW sqPortReset) 0 1 :=
  ⟨by decide, room (by decide) (by decide) (by decide)⟩

/-- Ralma port 7 in UP with every channel; this node has address 3. -/
def upW : State :=
  { setF (setF (setF (setF (setF (setB on rlmNode rlmNode_Addrv true) (rlmPstat 7) rlmPstat_State 5) (rlmPstat 7) rlmPstat_Vcs 255) rlmNode rlmNode_Addr 3) (rlmPstat 6) rlmPstat_State 5) (rlmPstat 6) rlmPstat_Vcs 255 with
    rlm := { rlmReset with ports := [(6, { rportReset with vcs := 255 }), (7, { rportReset with vcs := 255 })] } }
def keptW : State := { upW with rlm := { upW.rlm with kept := [(8 * 5 + 4, [(16383, [0x12])])] } }

/-- The header of a frame from node 5 to this node, with `len` payload bytes. -/
def hdrW (vc type len : Nat) : DWord := frameHeader ⟨3, 5, vc, type, 0, 2, 16383, List.replicate len 0⟩

/-- RequestFramesExecuteOnce: a new request of both types on both channels, a repeat, a wrong CRC. -/
theorem test_witness_RequestFramesExecuteOnce :
    let form := beBytes 5 (0x7001FFF8 : BitVec 40).toNat ++ [0] ++ beBytes 2 (8 : BitVec 16).toNat
    let data := form ++ ([1, 2] : List (BitVec 32)).flatMap wordBytes
    RoutedOk upW 7 0x10 (hdrW 4 0x10 8) form (frameCrc (hdrW 4 0x10 8) form) ∧ RoutedOk upW 7 0x11 (hdrW 5 0x11 16) data (frameCrc (hdrW 5 0x11 16) data) ∧
    ((cellGet [] upW.rlm.kept (8 * hdrSrc (hdrW 4 0x10 8) + hdrVc (hdrW 4 0x10 8))).find? fun x => x.1 == hdrSeq (hdrW 4 0x10 8)) = none ∧
      upW.dev.phase ≠ .recovery ∧
    sourcePolder upW (frameSource (hdrW 4 0x10 8)) = some (resPol upW (1024 + (0x7001FFF8 - 0x70000000) / 0x20000)) ∧ placeOf 0x7001FFF8 = .shared ∧
    formOk 0x7001FFF8 8 = true ∧ frameForm (hdrVc (hdrW 4 0x10 8)) 0x7001FFF8 8 = true ∧ inReset upW 0 = false ∧ 4 * ([1, 2] : List (BitVec 32)).length = 8 ∧
    ((cellGet [] keptW.rlm.kept (8 * hdrSrc (hdrW 4 0x10 8) + hdrVc (hdrW 4 0x10 8))).find? fun x => x.1 == hdrSeq (hdrW 4 0x10 8)).isSome = true ∧
    RoutedOk keptW 7 0x10 (hdrW 4 0x10 8) form (frameCrc (hdrW 4 0x10 8) form) ∧ isMine upW (hdrW 4 0x10 8) = true ∧
    FrameBad upW 7 0x10 (hdrW 4 0x10 8) form (frameCrc (hdrW 4 0x10 8) form + 1) ∧ FrameBad upW 7 0x11 (hdrW 5 0x11 16) data 0 := by
  unfold RoutedOk FrameBad FrameOk; decide +kernel

/-- The header of an image with `n` sections and `len` bytes, for polder 0: MA, version 7, reference period 2000, FRESH. -/
def headW (kind n len : Nat) : List (BitVec 8) :=
  [0x4B, 0x4C, 0x54, 0x59, 0, 1, BitVec.ofNat 8 kind, 1, 7, 0, 0, 0] ++ List.replicate 8 0 ++
    [BitVec.ofNat 8 len, BitVec.ofNat 8 (len / 256), 0, 0, BitVec.ofNat 8 n, 0, 0, 0, BitVec.ofNat 8 kind, 0, 0, 0, 0xD0, 7, 0, 0] ++ List.replicate 28 0

/-- A public key whose private key is 1. -/
def keyW : Nat := curveBase.x * 2 ^ 384 + curveBase.y

/-- A SIG section with KEYID 0 and this signature. -/
def sigW (r s : Nat) : Sect := ⟨0xFFFF, 1, 104, (List.replicate 8 0 ++ beBytes 48 r ++ beBytes 48 s).map fun n => BitVec.ofNat 8 n, []⟩

/-- A sub-image for polder 0 with its signature and nothing else in it; the signature is computed outside the model. -/
def subW : SubImage :=
  { header := headW 1 1 176
    sects := [sigW 0x2BEFAC9BC5A73745515E8BB79FC5314C27CD84FCEA087D00CAD14C39E32FF60780858DA50854F3139911DB1CA8E22CDD
      0xC6C0223870B6C37BDB890D7B712AA1E5E5A7EE5AAD5ABEDABCFA5BC48FE0126F049400A02FABE8417F190241489988CC]
    tables := [], dmem := [], areas := [], steps := [], rules := [], roles := 0, csrc := [], latches := [], groups := [],
    insts := [], cycles := [], regs := [], taps := [], cmpDest := [], encDest := [], portDest := [], migrate := none }

/-- Polder 0 loads an image of 176 bytes from the first shared page, where its words stand. -/
def loadW : State :=
  let bytes := (imageBytes subW.header subW.sects).map fun n => BitVec.ofNat 8 n
  let s := mem (put on [(banked imgSrclo 0, 0x70000000)]) ((upto 44).map fun i => (0x70000000 + 4 * i, BitVec.ofNat 32 (leAt bytes (4 * i) 4)))
  { setF s (banked imgLen 0) imgLen_Bytes 176 with img := { imgReset with active := some { (default : FullImage) with header := headW 0 0 0 }, pol := [(0, { polImgReset with loading := some hostA })], sysKey := keyW } }

/-- The bytes of the sub-image spell its sections. -/
theorem test_image_bytes : parseSects 22 (((imageBytes subW.header subW.sects).map fun n => BitVec.ofNat 8 n).drop 64) = subW.sects := by decide +kernel

/-- The sub-image passes its checks, its signature among them. -/
theorem test_image_passes : subResult loadW 0 176 subW = 0 := by decide +kernel

/-- With another key's signature it does not. -/
theorem test_image_refused : imageSigned (keyW + 1) 0 subW.header subW.sects = false := by decide +kernel

/-- LoadsAndReloadsAreChecked: a polder that is idle and one that is not, a source in its own shared memory, a polder in reset. -/
theorem test_witness_LoadsAndReloadsAreChecked : HostReady on hostA 0 imgCtl ∧ RecorderRoom loadW 0 1 ∧
    (imgState on 0 = 0 ∧ getF on updStat updStat_State ≠ 4 ∧ getF on updStat updStat_State ≠ 5 ∧ imgState (setF on (banked imgStat 0) imgStat_State 2) 0 ≠ 0) ∧
    ((polImg loadW 0).loading = some hostA ∧ (polImg loadW 0).fetched = [] ∧ (polImg loadW 0).fetchBad = false ∧ (polImg loadW 0).fetchWait = false) ∧
    (loadW.dev.phase ≠ .recovery ∧ inReset loadW 0 = false ∧ imgSource loadW 0 = 0x70000000 ∧ imgBytes loadW 0 = 176 ∧ placeOf 0x70000000 = .shared) ∧
    (resPol loadW (1024 + (0x70000000 - 0x70000000) / 0x20000) = 0 ∧ formOk 0x70000000 176 = true) ∧
    cellFind ({ on with dev := { on.dev with inReset := [(7, ⟨.prst, false, false, false⟩)] } } : State).dev.inReset 7 = some ⟨.prst, false, false, false⟩ :=
  ⟨onA (by decide), room (by decide) (by decide) (by decide), by decide +kernel⟩

/-- A held fault of polder 1, and one of a housekeeping source that is present. -/
def heldW : State :=
  { setFbit on fltHknow fltHknow_Src 0 true with flt := { fltReset with held := [⟨1, 0x0B04, 1, 3, none⟩, ⟨1, 0x0D20, 0, 1, some 0⟩, ⟨0, 0x0801, 1, 1, none⟩] } }

/-- FaultsAreAcknowledged. -/
theorem test_witness_FaultsAreAcknowledged : HostReady heldW hostB 1 (fltAck 1) ∧ (0xF : BitVec 4).getLsbD (3 - 1) = true ∧
    (∃ h ∈ heldW.flt.held, h.scope = (1 : Fin 8).val ∧ 1 ≤ h.cls ∧ h.cls ≤ 3 ∧ (0xF : BitVec 4).getLsbD (h.cls - 1) = true ∧ hkPresent heldW h = true) ∧
    HostReady on hostB 1 (fltCapa 1) ∧ HostReady on hostA 0 fltHkstat :=
  ⟨ready (by decide) (by decide) (by decide) (by decide) rfl, by decide, by decide, ready (by decide) (by decide) (by decide) (by decide) rfl, onA (by decide)⟩

/-- HousekeepingSourcesRaiseFaults: a new source at its level, a rail in and out of its range. -/
theorem test_witness_HousekeepingSourcesRaiseFaults : mainRuns on = true ∧ (getF on fltTemplim fltTemplim_Warn : Int) ≤ (127 : BitVec 8).toInt ∧
    getFbit on fltHknow fltHknow_Src 5 = false ∧ getFbit on fltHkstat fltHkstat_Src 5 = false ∧ railOk on 8 0 = false ∧
    getFbit on fltHknow fltHknow_Src (14 + 8) = false ∧ getFbit on fltHkstat fltHkstat_Src (14 + 8) = false ∧
    railOk on 0 (750 : Nat) = true := by decide

/-! ## Witnesses: recorder, keep domain, safety channel -/

def evW : Event := ⟨0x0F04, 0, 0, [1, 2, 3, 4], 5, false⟩
def recW (r : Recorder) : State := { on with recorder := r }

/-- RecorderWritesReadsClears: a record ahead, the last free slot number, a scan under way, an open key, a clear under way. -/
theorem test_witness_RecorderWritesReadsClears :
    HostReady on hostA 0 keepRdsel ∧ HostReady on hostA 0 keepKeycmd ∧ HostReady on hostA 0 keepClrcmd ∧ (on.recorder.scanning = false ∧ on.keep.alive = true ∧
      2400 ≤ (2400 : BitVec 16).toNat ∧
      (recW { on.recorder with ahead := evW :: [] }).recorder.ahead = evW :: [] ∧ evW.params.length ≤ 10 ∧
      ({ recReset with head := 65535, tail := 0 } : Recorder).head + 1 - ({ recReset with head := 65535, tail := 0 } : Recorder).tail = 65536 ∧
      recReset.scanning = true ∧ on.recorder.key = none ∧ clearReason on = 3 ∧
      ({ recReset with clearing := some (1, 2) } : Recorder).clearing = some (1, 2)) :=
  ⟨ready (by decide) (by decide) (by decide) (by decide) rfl, ready (by decide) (by decide) (by decide) (by decide) rfl,
  ready (by decide) (by decide) (by decide) (by decide) rfl, by decide⟩

/-- The keep domain with its harvester, measurements and beacon enabled. -/
def keepOn (k : Keep) : State :=
  let s := setF (setB (setB on keepPcfg keepPcfg_Hen true) keepPcfg keepPcfg_Primen true) keepBcfg keepBcfg_Measint 1
  { setB (setF s keepBcfg keepBcfg_Bcnint 1) keepBcfg keepBcfg_En true with keep := k }

/-- KeepDomainFollowsSamples: the store below and at its lowest level, the harvester at 10 mV, main supplies on with fabric time, off. -/
theorem test_witness_KeepDomainFollowsSamples :
    HostReady on hostA 0 keepRtccmd ∧ RecorderRoom State.reset 0 1 ∧ (keepReset.alive = true ∧ (2099 : BitVec 16).toNat < 2100 ∧
      2100 ≤ (2100 : BitVec 16).toNat ∧ recReset.scanning = true ∧
      ({ keepReset with vkeepOn := false } : Keep).vkeepOn = false ∧ getB (keepOn keepReset) keepPcfg keepPcfg_Hen = true ∧
      1000 ≤ (1000 : BitVec 16).toNat ∧ mainOn (setB on keepStat keepStat_Mainon true) = true ∧
      getB (setB on rlmTstat rlmTstat_Tvalid true) rlmTstat rlmTstat_Tvalid = true ∧
      mainOn (setB (keepOn keepReset) keepStat keepStat_Mainon false) = false ∧ getF (keepOn keepReset) keepBcfg keepBcfg_Measint ≠ 0 ∧
      2400 ≤ (2400 : BitVec 16).toNat ∧ (keepOn keepReset).recorder.keepQ.length < 256) :=
  ⟨ready (by decide) (by decide) (by decide) (by decide) rfl, (by decide : (0 : Nat) + 1 ≤ 256), by decide⟩

/-- BeaconTransmits: nothing runs, one runs, one runs and one waits; the store at 3.10 V. -/
theorem test_witness_KeepDomainFollowsSamples_beacon :
    HostReady (keepOn keepReset) hostA 0 keepBcmd ∧ (getB (keepOn keepReset) keepBcfg keepBcfg_En = true ∧ (keepOn keepReset).keep.alive = true ∧
      mainOn (setB (keepOn keepReset) keepStat keepStat_Mainon false) = false ∧ getF (keepOn keepReset) keepBcfg keepBcfg_Bcnint ≠ 0 ∧
      (keepOn keepReset).keep.bcn = none ∧ (keepOn keepReset).keep.pend = none ∧ 3100 ≤ (3100 : BitVec 16).toNat ∧
      3100 ≤ getF (setF (keepOn keepReset) keepVmon keepVmon_Vst 3100) keepVmon keepVmon_Vst ∧
      (keepOn { keepReset with bcn := some 2, pend := some 5 }).keep.bcn = some 2 ∧
      (keepOn { keepReset with bcn := some 2, pend := some 5 }).keep.pend = some 5) :=
  ⟨ready (by decide) (by decide) (by decide) (by decide) rfl, by decide⟩

/-- All pairs and outputs in use, permission as `pen`. -/
def safeW (pen : Bool) (x : Safe) : State :=
  { setB (setB (setF (setF on safeCfg safeCfg_Adopted 0xFFFF) (pwmPctl 47) pwmPctl_Mode 1) safeStat safeStat_Pen pen) safeStat safeStat_Cfgok true with safe := x }

/-- SafeStateIsDemandedAndEnded: permission that goes away, a restart that may and one that may not, the breaker's delay. -/
theorem test_witness_SafeStateIsDemandedAndEnded : getB (safeW true safeReset) safeStat safeStat_Pen = true ∧
    getF (safeW true safeReset) (pwmPctl 47) pwmPctl_Mode ≠ 0 ∧ HostReady (safeW true safeReset) hostA 0 safeCmd ∧
    restartOk (safeW false { safeReset with cycles := 40 }) = true ∧ restartOk (safeW false { safeReset with cycles := 39 }) = false ∧
    RecorderRoom (safeW false { safeReset with cycles := 39 }) 0 1 ∧ HostReady (safeW true safeReset) hostA 0 safeOutreq ∧
    ({ safeReset with brkPend := true } : Safe).brkPend = true :=
  ⟨by decide, by decide, ready (by decide) (by decide) (by decide) (by decide) rfl, by decide, by decide, room (by decide) (by decide) (by decide),
    ready (by decide) (by decide) (by decide) (by decide) rfl, by decide⟩

def degrW (rem : Word) : State := setB (setReg on safeDgrem rem) safeStat safeStat_Degr true

/-- DegradedModeExpires: a change of the switches, and of the loop alone; the last second and one before it; both DGACKs. -/
theorem test_witness_SafeStateIsDemandedAndEnded_degraded :
    RecorderRoom on 0 1 ∧ HostReady (degrW 2) hostA 0 safeCmd ∧
    ((getF on safeCfg safeCfg_Switches ≠ (7 : BitVec 16).toNat) ∧ on.safe.loopClosed ≠ true ∧ getB (degrW 2) safeStat safeStat_Degr = true ∧
      1 < (getReg (degrW 2) safeDgrem).toNat ∧ getReg (degrW 1) safeDgrem = 1 ∧ getB (degrW 1) safeStat safeStat_Expired = false ∧
      getReg (degrW 0) safeDgrem = 0 ∧ getB (degrW 0) safeStat safeStat_Degr = true ∧ (degrW 2).safe.faults.isEmpty = true ∧
      ({ safeReset with faults := [(3, 0)] } : Safe).faults.isEmpty = false) :=
  ⟨room (by decide) (by decide) (by decide), ready (by decide) (by decide) (by decide) (by decide) rfl, by decide⟩

/-- SafetyInputsAreChecked: a used pair with one channel open, both states of the test pulse and of its blanking, an output whose time runs, one whose time does not. -/
theorem test_witness_SafetyInputsAreChecked : pairUsed (safeW true safeReset) 7 = true ∧
    nbit (safeW true { safeReset with opened := 0x80 }).safe.opened 7 ≠ nbit (safeW true { safeReset with opened := 0x80 }).safe.opened (8 + 7) ∧
    nbit safeReset.disc 7 = false ∧ nbit ({ safeReset with dropout := 2 } : Safe).dropout 1 = true ∧ nbit safeReset.dropout 1 = false ∧
    nbit ({ safeReset with blank := 2 } : Safe).blank (bit true) = true ∧ nbit safeReset.blank (bit true) = false ∧
    (0x80 : BitVec 8).getLsbD 7 = true ∧ cellFind safeReset.faults (16 + 1) = none ∧ outUsed (safeW true safeReset) 7 = true ∧ outUsed on 1 = true ∧
    nbit ({ safeReset with moved := 0x80 } : Safe).moved 7 = true ∧ getFbit (safeW true safeReset) safeOutst safeOutst_Fail 7 = false ∧
    false = getFbit (safeW true safeReset) safeOutst safeOutst_Ener 7 ∧ true ≠ getFbit (safeW true safeReset) safeOutst safeOutst_Ener 7 := by decide

/-- A message for connection 7 on channel 0 with this DATA: RCONN 0, SEQ 1, time 0. -/
def msgBody (data : Nat) : List Nat := [0, 0, 0, 1, 0, 0, 0, 0, 0, 0, 0, 0] ++ beBytes 2 data ++ [0, 0xA5] ++ List.replicate 12 0
def msgW (data : Nat) : List Nat := msgBody data ++ beBytes 4 (crc32From (on.dev.uid.toNat % 4294967296 ^^^ 0xA5) (msgBody data))
def connW (st : Nat) (l : List Copy) : State :=
  let s := setB (setF upW (safeConnst 7) safeConnst_State st) (rlmPstat 7) rlmPstat_Safeok true
  { s with safe := { s.safe with table := List.replicate 8 (0x00640000, 0), conns := [(7, { connReset with copies := l })] } }

/-- The time that passes in the first tick. -/
theorem now_lt (s : State) (h : s.time = 0) (h2 : period s = 2000) (h3 : s.dev.tickRun = true) : (nowTime s).toNat ≤ 20000 := by
  unfold nowTime
  rw [h, h2, h3, BitVec.toNat_ofNat]
  have := Nat.mod_lt (Config.freeOffset s.free) (by decide : 10 * 2000 > 0)
  simp only [Nat.zero_add, if_true]
  omega

theorem test_witness_SafeMessagesApplyOrDemand_valid : copyValid (connW 1 [⟨true, 1, 0, 1⟩]) 7 false (msgW 1) = true := by
  have h := now_lt (connW 1 [⟨true, 1, 0, 1⟩]) (by decide) (by decide) (by decide)
  unfold copyValid
  simp only [Bool.and_eq_true, decide_eq_true_eq]
  refine ⟨⟨⟨⟨⟨by decide +kernel, by decide +kernel⟩, by decide +kernel⟩, by decide +kernel⟩, ?_⟩, by decide +kernel⟩
  have e : 1000000 * fget ((connW 1 [⟨true, 1, 0, 1⟩]).safe.table.getD 7 (0, 0)).1 safeConn_Wd = 6000000 := by decide +kernel
  rw [e]
  omega

/-- SafeMessagesApplyOrDemand: a frame with a valid message whose partner waits, one with an invalid message, an invalid frame, a port that carries the
messages, one silent channel, both. -/
theorem test_witness_SafeMessagesApplyOrDemand :
    let m := (msgW 1).map (BitVec.ofNat 8)
    let s := connW 1 [⟨true, 1, 0, 1⟩]
    connOn s 7 = true ∧ m.map (·.toNat) = msgW 1 ∧
    RoutedOk s 7 0x0B (hdrW 0 0x0B 32) (m.map (·.toNat)) (frameCrc (hdrW 0 0x0B 32) (m.map (·.toNat))) ∧ (hdrVc (hdrW 0 0x0B 32) == 1) = false ∧
    (getConn s 7).copies = [⟨!false, beNat (((msgW 1).drop 2).take 2), beNat (((msgW 1).drop 4).take 8), beNat (((msgW 1).drop 12).take 2)⟩] ∧
    nbit (beNat (((msgW 1).drop 12).take 2)) 0 = true ∧ copyValid (connW 1 []) 7 false (msgW 1 ++ [0]) = false ∧
    RoutedOk s 7 0x0B (hdrW 0 0x0B 33) (msgW 1 ++ [0]) (frameCrc (hdrW 0 0x0B 33) (msgW 1 ++ [0])) ∧
    FrameBad s 7 0x0B (hdrW 0 0x0B 32) (m.map (·.toNat)) 0 ∧ isMine s (hdrW 0 0x0B 32) = true ∧ addressed s = true ∧
    7 ∈ routePorts (setF (setB s (rlmRt0 0 (connNode s 7)) rlmRt0_Static true) (rlmRt0 0 (connNode s 7)) rlmRt0_Mask 128) 0 (connNode s 7) none ∧ rUp s 7 = true ∧
    getFbit s (rlmPstat 7) rlmPstat_Vcs 0 = true ∧ getB s (rlmPstat 7) rlmPstat_Safeok = true ∧ true ≠ false ∧
    getF (connW 2 []) (safeConnst 7) safeConnst_State ≠ 0 ∧ getF (connW 2 []) (safeConnst 7) safeConnst_State ≠ 3 ∧
    getF (connW 3 []) (safeConnst 7) safeConnst_State ≠ 4 := by
  unfold RoutedOk FrameBad FrameOk; decide +kernel
/-! ## Witnesses: Ralma links and addresses, fabric time, duplex pairs, Ethernet -/

/-- Ralma port 7 enabled in bring-up state `st`. -/
def linkW (st : Nat) (x : RPort) : State :=
  let s := setF (setB on (rlmPcfg 7) rlmPcfg_En true) (rlmPstat 7) rlmPstat_State st
  setRPort (setF (setF s (rlmPcfg 7) rlmPcfg_Offer 15) (rlmPcfg 7) rlmPcfg_Vcmask 255) 7 x

/-- A partner whose NEG acknowledged ours and offers the rates `o`. -/
def pAckW (o : Nat) : RPort := { rportReset with pAck := true, ack := true, offer := o, mods := 15, vcs := 255, units := ownUnits }

/-- A frame with this payload and its CRC arrives well formed on port n of state s. -/
def okW (s : State) (n vc type : Nat) (data : List Nat) : Prop :=
  FrameOk s n type (hdrW vc type data.length) data (frameCrc (hdrW vc type data.length) data)

/-- RalmaPortsComeUpAndGoDown: each state of the bring-up, agreement on rate 0 and on rate 3, a NEG that is formed and one that is not, an unanswered NEG, a
link in UP, a module with diagnostics. -/
theorem test_witness_RalmaPortsComeUpAndGoDown : RecorderRoom (linkW 2 rportReset) 0 1 ∧ RecorderRoom (linkW 4 (pAckW 9)) 0 1 ∧
    mainRuns (linkW 0 rportReset) = true ∧ getB (linkW 0 rportReset) (rlmPcfg 7) rlmPcfg_En = true ∧ getB (linkW 0 rportReset) (rlmPcfg 7) rlmPcfg_Mode = false ∧
    rState (linkW 0 rportReset) 7 = 0 ∧ rState (linkW 1 rportReset) 7 = 1 ∧ rState (linkW 2 rportReset) 7 = 2 ∧ rState (linkW 3 rportReset) 7 = 3 ∧
    rState (linkW 4 rportReset) 7 = 4 ∧ rState (linkW 5 rportReset) 7 = 5 ∧ rUp (linkW 5 rportReset) 7 = true ∧ (getRPort (linkW 2 rportReset) 7).noted = false ∧
    (getRPort (linkW 3 (pAckW 1)) 7).pAck = true ∧ (getRPort (linkW 3 (pAckW 1)) 7).ack = true ∧
    commonRate (ownOffer (setF (linkW 3 (pAckW 1)) (rlmPstat 7) rlmPstat_Cap 15) 7) (getRPort (linkW 3 (pAckW 1)) 7).offer = some 0 ∧
    commonRate (ownOffer (setF (linkW 3 (pAckW 9)) (rlmPstat 7) rlmPstat_Cap 15) 7) (getRPort (linkW 3 (pAckW 9)) 7).offer = some 3 ∧
    nbit (getRPort (linkW 3 (pAckW 9)) 7).vcs 4 = true ∧ nbit (getRPort (linkW 3 (pAckW 9)) 7).vcs 7 = true ∧
    getFbit (linkW 3 (pAckW 9)) (rlmPcfg 7) rlmPcfg_Vcmask 4 = true ∧ getFbit (linkW 3 (pAckW 9)) (rlmPcfg 7) rlmPcfg_Vcmask 7 = true ∧
    hdrType (hdrW 7 2 (negBytes 9 1 255 true true ownUnits).length) = 2 ∧
    frameFormed (hdrW 7 2 (negBytes 9 1 255 true true ownUnits).length) (negBytes 9 1 255 true true ownUnits)
      (frameCrc (hdrW 7 2 (negBytes 9 1 255 true true ownUnits).length) (negBytes 9 1 255 true true ownUnits)) = true ∧
    frameFormed (hdrW 7 2 3) (negBytes 9 1 255 true true ownUnits) 0 = false ∧
    (getRPort (linkW 4 { rportReset with lock := true }) 7).lock = true ∧
    (getRPort (linkW 4 rportReset) 7).pAck = false ∧ (getRPort (linkW 4 (pAckW 9)) 7).pAck = true ∧
    getFbit (setF on (rlmModdiag 7) rlmModdiag_Stat 7) (rlmModdiag 7) rlmModdiag_Stat 2 = true := by
  refine ⟨room (by decide) (by decide) (by decide), room (by decide) (by decide) (by decide), ?_⟩
  decide +kernel

/-- The root among two ports in UP; the node whose parent is port 6. -/
def rootW : State := setB upW rlmNode rlmNode_Root true
def childW : State := { upW with rlm := { upW.rlm with parent := some 6 } }

/-- A request for node 9, whose TTL has not and has ended. -/
def farW : DWord := frameHeader ⟨9, 5, 4, 0x10, 0, 2, 7, List.replicate 8 0⟩
def deadW : DWord := frameHeader ⟨9, 5, 4, 0x10, 0, 1, 7, List.replicate 8 0⟩

/-- RalmaFramesAndAddresses: LINK, CLAIM, JOIN and ASSIGN frames; a free and a taken address at the root, a JOIN to pass on; frames for this node and for
another, with the way through port 6, without one, with a TTL at its end; an invalid frame; an EVENT frame that waits. -/
theorem test_witness_RalmaFramesAndAddresses :
    okW upW 7 7 1 (linkBytes [0, 0, 0, 0, 0, 0, 0, 3]) ∧
    (getRPort (setRPort upW 7 { rportReset with owed := [(7, 7, 3)], vcs := 255 }) 7).owed = [(7, 7, 3)] ∧ (getRPort upW 7).wait = [] ∧
    okW upW 7 7 3 (claimBytes 1 255 2 9) ∧ okW rootW 7 7 4 (joinBytes 8 4095 0 1 5) ∧
    mainRuns rootW = true ∧ isRoot rootW = true ∧ (4095 : BitVec 16).toNat < 4096 ∧ cellFind rootW.rlm.allocs 4095 = none ∧
    cellFind ({ rootW with rlm := { rootW.rlm with allocs := [(4095, ⟨9, 0, none⟩)] } } : State).rlm.allocs 4095 = some ⟨9, 0, none⟩ ∧
      (9 : Nat) ≠ (8 : BitVec 64).toNat ∧
    okW childW 7 7 4 (joinBytes 8 4095 0 1 5) ∧ isRoot childW = false ∧ childW.rlm.parent = some 6 ∧ (6 : Nat) ≠ (7 : Fin 8).val ∧
    rUp childW 6 = true ∧ getFbit childW (rlmPstat 6) rlmPstat_Vcs 7 = true ∧ getF childW rlmGrpcfg rlmGrpcfg_Group = 0 ∧
    okW childW 6 7 5 (assignBytes childW.dev.uid.toNat 4095 0 5 1) ∧ okW childW 6 7 5 (assignBytes childW.dev.uid.toNat 0xFFFF 1 5 1) ∧
    settled { childW with rlm := { childW.rlm with best := ⟨1, 2, 3, 4⟩, ports := [(6, { rportReset with claim := some ⟨1, 2, 3, 4⟩ }), (7, { rportReset with claim := some ⟨1, 2, 3, 4⟩ })] } } = true ∧
    getF rootW rlmNode rlmNode_Addr ≠ (4095 : Fin 4096).val ∧ FrameBad upW 7 0x10 farW (List.replicate 8 0) 0 ∧ hdrType farW = 0x10 ∧
    FrameOk childW 7 0x10 farW (List.replicate 8 0) (frameCrc farW (List.replicate 8 0)) ∧ 11 ≤ hdrType farW ∧ isMine childW farW = false ∧ 1 < hdrTtl farW ∧
    routePorts childW (hdrVc farW) (hdrDst farW) (some 7) = [6] ∧ getFbit childW (rlmPstat 6) rlmPstat_Vcs (hdrVc farW) = true ∧
    vcWeight (setF childW (rlmVcw 0) rlmVcw_W4 1) (hdrVc farW) (hdrPol farW) ≠ 0 ∧
    FrameOk upW 7 0x10 farW (List.replicate 8 0) (frameCrc farW (List.replicate 8 0)) ∧ routePorts upW (hdrVc farW) (hdrDst farW) (some 7) = [] ∧
    FrameOk childW 7 0x10 deadW (List.replicate 8 0) (frameCrc deadW (List.replicate 8 0)) ∧ hdrTtl deadW ≤ 1 ∧ isMine childW deadW = false ∧
    okW upW 7 4 0x10 (List.replicate 8 0) ∧ isMine upW (hdrW 4 0x10 8) = true ∧
    ((getRPort (setRPort upW 7 { rportReset with wait := [⟨9, 3, 6, 0x14, 0, 5, 0, []⟩] }) 7).wait.find? fun f => f.type == 0x14 && f.src == getF upW rlmNode rlmNode_Addr) =
      some ⟨9, 3, 6, 0x14, 0, 5, 0, []⟩ := by
  unfold okW FrameBad FrameOk; and_intros <;> decide +kernel

/-- FabricTimeFollowsTheMaster: a port to a slave and one to the parent, each frame of an exchange, holdover, alignment with 64 edges in a row, TCTL. -/
theorem test_witness_FabricTimeFollowsTheMaster : HostReady on hostA 0 rlmTctl ∧ rUp childW 7 = true ∧ getFbit childW (rlmPstat 7) rlmPstat_Vcs 2 = true ∧
    isParent childW 7 = false ∧ isParent childW 6 = true ∧ okW childW 7 2 8 [] ∧ okW childW 6 2 6 [] ∧ okW childW 6 2 7 (followBytes 1 2 2000 0 1) ∧
    okW childW 6 2 9 (beBytes 8 5) ∧ (0 : BitVec 64).toNat = childW.rlm.best.root ∧ (1 : BitVec 8) ≠ 0 ∧
      ({ rlmReset with follow := some (1, 2, 3) } : Rlm).follow.isSome = true ∧
    getB childW rlmTstat rlmTstat_Holdover = false ∧ getF (setF on rlmTstat rlmTstat_Align 1) rlmTstat rlmTstat_Align = 1 ∧
      64 ≤ ({ rlmReset with goodRun := 64 } : Rlm).goodRun ∧
    getF (setF on rlmTstat rlmTstat_Align 2) rlmTstat rlmTstat_Align = 2 ∧ 64 ≤ ({ rlmReset with badRun := 64 } : Rlm).badRun := by
  refine ⟨ready (by decide) (by decide) (by decide) (by decide) rfl, ?_⟩
  unfold okW FrameOk; decide +kernel

/-- A duplex unit on ports 7 and 6 with the partner at node 5. -/
def dupW : State := setF (setF (setF (setB upW rlmDupcfg rlmDupcfg_En true) rlmDupcfg rlmDupcfg_Partner 5) rlmDupcfg rlmDupcfg_Porta 7) rlmDupcfg rlmDupcfg_Portb 6
def roleW (r : Nat) : State :=
  let s := setFbit (setFbit dupW rlmDuppath rlmDuppath_Ok 0 true) rlmDuppath rlmDuppath_Ok 1 true
  setF (setF s (rlmDupst 0) rlmDupst_Role r) rlmDupcfg rlmDupcfg_Mask 255
def mirW : State := setB (roleW 2) (rlmMir 0 0) rlmMir_En true
/-- Ethernet port 1 with its own address 2, rings of two slots in segment 0; `f` the first words of both first slots. -/
def ethW (f : Word) : State :=
  let s := setF (setF (put on [(rlmEthmaclo 1, 2)]) (rlmPstat 1) rlmPstat_State 6) (rlmRxring 1 0) rlmRxring_Nlog 1
  mem (setF (setF s (rlmRxring 1 1) rlmRxring_Nlog 1) (rlmRxring 1 1) rlmRxring_Base 62) [(0x70000000, f), (0x70000000 + 2048 * 62, f)]
def etherW : List (BitVec 8) := [0, 0, 0, 0, 0, 2] ++ List.replicate 54 0
def fcsW : BitVec 32 := BitVec.ofNat 32 (leAt ((ethFcs (etherW.map (·.toNat))).map (BitVec.ofNat 8)) 0 4)

/-- DuplexAndEthernetFrames: HEARTs, a path without one for 8 ticks, a mirror range to send and one that arrives, every kind of received frame, a full slot. -/
theorem test_witness_DuplexAndEthernetFrames : (∃ d, (upto 8).flatMap (mirFrames mirW 0) = [d]) ∧ getB dupW rlmDupcfg rlmDupcfg_En = true ∧ dupW.dev.tickRun = true ∧
    addressed dupW = true ∧ 7 ∈ dupPorts (roleW 2) ∧ rUp dupW 7 = true ∧ getFbit dupW (rlmPstat 7) rlmPstat_Vcs 3 = true ∧
    RoutedOk dupW 7 0x0C (hdrW 3 0x0C 36) (heartBytes 5 (List.replicate 8 1)) (frameCrc (hdrW 3 0x0C 36) (heartBytes 5 (List.replicate 8 1))) ∧
    hdrSrc (hdrW 3 0x0C 36) = getF dupW rlmDupcfg rlmDupcfg_Partner ∧ (7 : Fin 8).val = getF dupW rlmDupcfg rlmDupcfg_Porta ∧
    8 ≤ ({ rlmReset with missB := 8 } : Rlm).missB ∧ getFbit (roleW 0) rlmDuppath rlmDuppath_Ok (bit true) = true ∧
    dupRole mirW 0 = 2 ∧ dupRole (roleW 1) 0 ≠ 2 ∧ rUp mirW (getF mirW rlmDupcfg rlmDupcfg_Porta) = true ∧
    getFbit mirW (rlmPstat (getF mirW rlmDupcfg rlmDupcfg_Porta)) rlmPstat_Vcs 3 = true ∧
    RoutedOk (roleW 1) 7 0x0D (hdrW 3 0x0D (mirBytes 5 0 0 [7]).length) (mirBytes 5 0 0 [7]) (frameCrc (hdrW 3 0x0D (mirBytes 5 0 0 [7]).length) (mirBytes 5 0 0 [7])) ∧
    paired (roleW 1) (hdrPol (hdrW 3 0x0D 12)) = true ∧ dupRole (roleW 1) 0 = 1 ∧ dupRole (roleW 3) 0 = 3 ∧ ethOn (ethW 0) 1 = true ∧
    60 ≤ etherW.length ∧ etherW.length ≤ 1518 ∧ ethFcs (etherW.map (·.toNat)) = wordBytes fcsW ∧ ethFcs (etherW.map (·.toNat)) ≠ wordBytes (fcsW + 1) ∧
    ethMine (ethW 0) 1 (etherW.map (·.toNat)) = true ∧
    nbit (rdWord (ethW 0) (ringSlot (ethW 0) 1 0 0)).toNat 31 = false ∧ nbit (rdWord (ethW 0x80000040) (ringSlot (ethW 0x80000040) 1 0 0)).toNat 31 = true ∧
    nbit (rdWord (ethW 0x80000040) (ringSlot (ethW 0x80000040) 1 1 0)).toNat 31 = true := by
  refine ⟨List.length_eq_one_iff.mp (by decide +kernel), ?_⟩
  unfold RoutedOk FrameOk; decide +kernel
/-! ## Witnesses: resets, clocks, tick boundary -/

def powW : State := setB on keepStat keepStat_Mainon true

/-- ResetsLeaveTheirState: a register that every reset clears; main supplies on, off; held; released with every strap; the tick runs; the tick is lost with the APLL locked. -/
theorem test_witness_ResetsLeaveTheirState :
    RecorderRoom { on with dev := { on.dev with phase := .off } } 0 1 ∧ (survives tickPeriod = false ∧ survives (pwmPctl 47) = false ∧ mainOn powW = true ∧
      powW.keep.alive = true ∧
      ({ on with recorder := recReset } : State).recorder.scanning = true ∧
      ({ on with recorder := recReset } : State).recorder.keepQ.length + 9 ≤ 256 ∧ on.recorder.scanning = false ∧ (2399 : BitVec 16).toNat < 2400 ∧
      on.recorder.keepQ.length < 256 ∧ ({ on with dev := { on.dev with phase := .off } } : State).dev.phase = .off ∧ on.dev.phase ≠ .off ∧
      State.reset.dev.phase = .held ∧ (2 : BitVec 2) ≠ 3 ∧ on.dev.tickRun = true ∧
      (setB { on with dev := { on.dev with tickRun := false, tickLost := true } } clkStat clkStat_Alock true).dev.tickRun = false ∧
      (setB { on with dev := { on.dev with tickRun := false, tickLost := true } } clkStat clkStat_Alock true).dev.tickLost = true ∧
      getB (setB { on with dev := { on.dev with tickRun := false, tickLost := true } } clkStat clkStat_Alock true) clkStat clkStat_Alock = true) :=
  ⟨room (by decide) (by decide) (by decide), by decide⟩

/-- CLK.STAT with SRCH, HOP and REFOK beside these clocks. -/
def clkW (c : Clk) : State := { setB (setB (setB on clkStat clkStat_Srch true) clkStat clkStat_Hop true) clkStat clkStat_Refok true with clk := c }

/-- ClocksAndTickBoundary: the clocks. -/
theorem test_witness_ClocksAndTickBoundary_clocks :
    RecorderRoom (clkW clkReset) 0 1 ∧ (getB (clkW clkReset) clkStat clkStat_Srch = true ∧ getB (clkW clkReset) clkStat clkStat_Hop = true ∧
      mainRuns (clkW clkReset) = true ∧
      pllsRun (clkW clkReset) = true ∧ (clkW clkReset).clk.gateC = false ∧ (clkW clkReset).clk.gateA = false ∧
      getB (clkW clkReset) clkStat clkStat_Refok = true ∧ getFbit (clkW clkReset) fltHknow fltHknow_Src 23 = false ∧
      getFbit (clkW clkReset) fltHkstat fltHkstat_Src 23 = false ∧ getFbit (clkW clkReset) fltHknow fltHknow_Src 24 = false ∧
      getFbit (clkW clkReset) fltHkstat fltHkstat_Src 24 = false ∧ getFbit (clkW clkReset) fltHknow fltHknow_Src 25 = false ∧
      getFbit (clkW clkReset) fltHkstat fltHkstat_Src 25 = false ∧ rUp upW 6 = true ∧ getF (clkW clkReset) clkRefcfg clkRefcfg_Rsel ≠ 3 ∧
      (clkW { clkReset with gateA := true, gateC := true }).clk.gateA = true ∧
      (clkW { clkReset with gateA := true, gateC := true }).clk.gateC = true ∧
      (clkW { clkReset with gateA := true, gateC := true }).clk.resumeC = false) :=
  ⟨room (by decide) (by decide) (by decide), by decide⟩

/-- ClocksAndTickBoundary: GO of polder 7 in block 20; condition bits of polder 0; a polder in reset, one out of it; nothing due. -/
theorem test_witness_ClocksAndTickBoundary_tick :
    ({ on with tick := { on.tick with stageMeta := [(metaKey 20 7, ⟨0, false, true⟩)] } } : State).tick.stageMeta = [(metaKey 20 7, ⟨0, false, true⟩)] ∧
    on.dev.tickRun = true ∧ (20 : Nat) ≠ 3 ∧ 7 < 8 ∧ cellGet 0 ({ on.tick with condLatch := [(0, 65535)] } : Tick).condLatch 0 < 65536 ∧
    inReset { on with dev := { on.dev with inReset := [(7, ⟨.prst, false, false, false⟩)] } } 7 = true ∧ inReset on 0 = false ∧
    getB on (fltSum 0) fltSum_Modehold = false ∧ on.upd.actDue = false := by decide
/-! ## Witnesses: function sets -/

/-- Segment `id` alone on engine 3 for polder 1: its fixed block at 0x8000 of the table bank, its live block at 0x100. -/
def plW (id : Nat) : Placed := { polder := 1, engine := 3, group := 255, segId := id, seg := 5, live := 0x100, fixed := 0x8000, isol := true }
def fsF (id : Nat) : FsAt := { e := 3, idx := 0, pl := plW id, lead := true }

/-- The device with this segment, and words of its fixed and its live block by their offset. -/
def fsW (id : Nat) (fixed l : List (Nat × Word)) : State :=
  mem { on with img := { imgReset with insts := [plW id] } }
    (fixed.map (fun c => (bankWord 3 0 0 + 0x8000 + c.1, c.2)) ++ l.map fun c => (engBase 3 + (0x100 + c.1), c.2))

/-- Grid: period 50 µs, 50 Hz, 4 ticks to detect, 2 by comparators, 1 µs of return, 8 ticks of violation. -/
def gfsX (code : Word) : List (Nat × Word) :=
  [(0, 5000), (4, 50), (0x10, 0x1000), (0x14, 0x1010), (0x18, 0x1020), (0x20, 0x8000), (0x24, code), (0x4C, 4), (0x50, 2), (0x64, 1), (0x68, 8)]
def gfsW (code : Word) (l : List (Nat × Word)) : State := fsW 1 (gfsX code) l
def gfsF : FsAt := fsF 1

theorem test_witness_GridAndIslandingSets_alone (code : Word) (h : code = 0 ∨ code = 2) : FsAlone (gfsW code []) 0 1 0x200 gfsF
    [fxN (gfsW code []) gfsF 0x10, fxN (gfsW code []) gfsF 0x10 + 4, fxN (gfsW code []) gfsF 0x10 + 8, fxN (gfsW code []) gfsF 0x14, fxN (gfsW code []) gfsF 0x14 + 4, fxN (gfsW code []) gfsF 0x18] := by
  unfold FsAlone
  rcases h with rfl | rfl <;> decide +kernel

/-- GridAndIslandingSets, the grid set: a low, zero and high detection, the end of the profile, the exit from ZERO, both confirmations. -/
theorem test_witness_GridAndIslandingSets_grid : lvN (gfsW 0 [(0xC8, 4)]) gfsF 0x134 = 0 ∧ fxN (gfsW 0 []) gfsF 0x4C ≤ lvN (gfsW 0 [(0xC8, 4)]) gfsF 0xC8 ∧
    fxN (gfsW 0 []) gfsF 0x4C ≤ lvN (gfsW 0 [(0xCC, 4)]) gfsF 0xCC ∧ fxN (gfsW 0 []) gfsF 0x4C ≤ lvN (gfsW 0 [(0xD0, 4)]) gfsF 0xD0 ∧
    (nbit (fxN (gfsW 0 []) gfsF 0x20) 15 = true ∧ fxN (gfsW 0 []) gfsF 0x50 ≤ lvN (gfsW 0 [(0xD4, 2)]) gfsF 0xD4) ∧
    fxN (gfsW 0 []) gfsF 0x68 ≤ lvN (gfsW 0 [(0x150, 3), (0xE4, 8)]) gfsF 0xE4 ∧ lvN (gfsW 0 [(0x150, 3), (0xE4, 8)]) gfsF 0x150 = 3 ∧
    lvN (gfsW 0 [(0x150, 2), (0xD8, 4)]) gfsF 0x150 = 2 ∧ fxN (gfsW 0 []) gfsF 0x4C ≤ lvN (gfsW 0 [(0x150, 2), (0xD8, 4)]) gfsF 0xD8 ∧
    fxN (gfsW 0 []) gfsF 0x64 * 100 ≤ lvN (gfsW 0 [(0x150, 1), (0xDC, 1)]) gfsF 0xDC * fxN (gfsW 0 []) gfsF 0x00 ∧
    lvN (gfsW 0 [(0x150, 5), (0xE0, 1)]) gfsF 0x150 = 5 ∧ gfsCode (gfsW 0 [(0x150, 5), (0xE0, 1)]) gfsF = 0 ∧
    fxN (gfsW 0 []) gfsF 0x64 * 100 ≤ lvN (gfsW 0 [(0x150, 5), (0xE0, 1)]) gfsF 0xE0 * fxN (gfsW 0 []) gfsF 0x00 := by decide +kernel

/-- The grid set's conditions: the end of a ramp, lock at 2 periods, 100 ticks without, 2 periods at the limit, 1 s of VILIM. -/
theorem test_witness_GridAndIslandingSets_conditions : lvN (gfsW 2 [(0x150, 4)]) gfsF 0x150 = 4 ∧ gfsRampDone (gfsW 2 [(0x150, 4)]) gfsF = true ∧
    200000000 ≤ lvN (gfsW 0 [(0xF0, 800)]) gfsF 0xF0 * fxN (gfsW 0 []) gfsF 0x00 * fxN (gfsW 0 []) gfsF 0x04 ∧ 100 ≤ lvN (gfsW 0 [(0xF4, 100)]) gfsF 0xF4 ∧
    lvBit (gfsW 0 [(0x15C, 1)]) gfsF 0x15C 0 = true ∧ lvN (gfsW 0 [(0xF8, 800)]) gfsF 0xFC = 0 ∧
    200000000 ≤ lvN (gfsW 0 [(0xF8, 800)]) gfsF 0xF8 * fxN (gfsW 0 []) gfsF 0x00 * fxN (gfsW 0 []) gfsF 0x04 ∧ lvN (gfsW 0 [(0x100, 20000)]) gfsF 0x104 = 0 ∧
    100000000 ≤ lvN (gfsW 0 [(0x100, 20000)]) gfsF 0x100 * fxN (gfsW 0 []) gfsF 0x00 ∧ gfsF.lead = true := by decide +kernel

def ifsX : List (Nat × Word) := [(0, 5000), (4, 50), (0x14, 0x1010), (0x20, 1), (0x38, 8)]
def ifsW (l : List (Nat × Word)) : State := wrWord (fsW 2 ifsX l) (engBase 3 + 0x1FF04) 1023
def ifsF : FsAt := fsF 2

/-- GridAndIslandingSets, the islanding set: the window closes, a publication, 2,048 ticks after a trigger, both windows; room for events. -/
theorem test_witness_GridAndIslandingSets_islanding : FsAlone (ifsW []) 0 2 0x400 ifsF [fxN (ifsW []) ifsF 0x14] ∧ RecorderRoom (ifsW []) 1 1 ∧
      lvN (ifsW [(0x154, 1)]) ifsF 0x154 = 1 ∧
    ifsPublishes (ifsW [(0x158, 1)]) ifsF = true ∧
    2048 ≤ lvN (ifsW [(0x16C, 2048)]) ifsF 0x16C ∧ lvN (ifsW [(0x1B0, 3), (0x1D4, 0x60)]) ifsF 0x164 = 0 ∧ 1 ≤ lvN (ifsW [(0x1B0, 3), (0x1D4, 0x60)]) ifsF 0x1B0 ∧
    lvN (ifsW [(0x1B0, 3), (0x1D4, 0x60)]) ifsF 0x1B0 ≤ 3 ∧ lvBit (ifsW [(0x1B0, 3), (0x1D4, 0x60)]) ifsF 0x168 1 = false ∧
    ifsFreqViol (ifsW [(0x1B0, 3), (0x1D4, 0x60)]) ifsF = true ∧ ifsVoltViol (ifsW [(0x1B0, 3), (0x1D4, 0x60)]) ifsF = true ∧
      ifsPublishes (ifsW [(0x1B0, 3), (0x1D4, 0x60)]) ifsF = false :=
  ⟨by unfold FsAlone; decide +kernel, room (by decide +kernel) (by decide +kernel) (by decide +kernel), by decide +kernel⟩

/-- 32 strings; sweeps of 800 ticks. -/
def pvX : List (Nat × Word) := [(0, 0), (4, 5000), (8, 32), (0x14, 0x2000)]
def pvW (l : List (Nat × Word)) : State := fsW 3 pvX l
def pvF : FsAt := fsF 3
def wtX : List (Nat × Word) := [(0, 1), (4, 5000), (0x10, 0x2000), (0x14, 0x2010), (0x38, 10)]
def wtW (l : List (Nat × Word)) : State := fsW 3 wtX l
def wtF : FsAt := fsF 3

/-- TrackingAndMachineSets, PV: an update tick, string 31 due, at the end of its sweep. -/
theorem test_witness_TrackingAndMachineSets_pv : FsAlone (pvW []) 0 3 0x1000 pvF ((upto 32).map fun k => fxN (pvW []) pvF 0x14 + 4 * k) ∧
      fxN (pvW []) pvF 0 = 0 ∧ 31 < pvN (pvW []) pvF ∧
    lvN (pvW [(0xF04, 1)]) pvF 0xF04 = 1 ∧ pvOn (pvW [(0x44, 0x80000000), (0x48, 1), (pvRec 31 + 40, 20000)]) pvF 31 = true ∧
    lvBit (pvW [(0x44, 0x80000000), (0x48, 1), (pvRec 31 + 40, 20000)]) pvF (pvFlag 31) 3 = false ∧
    lvN (pvW [(0x44, 0x80000000), (0x48, 1), (pvRec 31 + 40, 20000)]) pvF 0x48 * 100000000 ≤
      lvL (pvW [(0x44, 0x80000000), (0x48, 1), (pvRec 31 + 40, 20000)]) pvF (pvRec 31 + 40) * fxN (pvW []) pvF 0x04 ∧
    pvSweeping (pvW [(0xFC4, 0x80000000), (pvRec 31 + 36, 800)]) pvF 31 = true ∧
    pvNsw (pvW []) pvF ≤ lvN (pvW [(0xFC4, 0x80000000), (pvRec 31 + 36, 800)]) pvF (pvRec 31 + 36) := by
  refine ⟨?_, by decide +kernel⟩
  unfold FsAlone
  decide +kernel

/-- TrackingAndMachineSets, turbine: the angle is missing for AMAXLOSS, back for 64 ticks, ADINT has passed. -/
theorem test_witness_TrackingAndMachineSets_turbine : FsAlone (wtW []) 0 3 0x1000 wtF [fxN (wtW []) wtF 0x10, fxN (wtW []) wtF 0x14] ∧ fxN (wtW []) wtF 0 = 1 ∧
    lvBit (wtW [(0x308, 200)]) wtF 0x340 1 = false ∧ lvN (wtW [(0x308, 200)]) wtF 0x308 ≠ 0 ∧
    fxN (wtW []) wtF 0x38 * 100000 ≤ lvN (wtW [(0x308, 200)]) wtF 0x308 * fxN (wtW []) wtF 0x04 ∧ lvBit (wtW [(0x340, 2), (0x30C, 64)]) wtF 0x340 1 = true ∧
    64 ≤ lvN (wtW [(0x340, 2), (0x30C, 64)]) wtF 0x30C ∧ lvN (wtW [(0x50, 1), (0x54, 1), (0x310, 20000)]) wtF 0x50 = 1 ∧
    lvN (wtW [(0x50, 1), (0x54, 1), (0x310, 20000)]) wtF 0x54 * 100000000 ≤ lvL (wtW [(0x50, 1), (0x54, 1), (0x310, 20000)]) wtF 0x310 * fxN (wtW []) wtF 0x04 := by
  refine ⟨?_, by decide +kernel⟩
  unfold FsAlone
  decide +kernel

def mfsX : List (Nat × Word) := [(0, 5000), (4, 1), (0x1C, 0x2000), (0x20, 0x2010), (0x24, 1), (0x58, 26843546)]
def mfsW (l : List (Nat × Word)) : State := fsW 4 mfsX l
def mfsF : FsAt := fsF 4

/-- TrackingAndMachineSets, machine: good ticks, bad ones, mismatch, missing angle, modulation, limit. -/
theorem test_witness_TrackingAndMachineSets_machine : FsAlone (mfsW []) 0 4 0x200 mfsF [fxN (mfsW []) mfsF 0x1C, fxN (mfsW []) mfsF 0x1C + 4, fxN (mfsW []) mfsF 0x1C + 8, fxN (mfsW []) mfsF 0x20, fxN (mfsW []) mfsF 0x20 + 4] ∧
    64 ≤ lvN (mfsW [(0x114, 64)]) mfsF 0x114 ∧ 100 * absI (lvI (mfsW []) mfsF 0x120) < 100 * fxI (mfsW []) mfsF 0x58 - one28 ∧
      16 ≤ lvN (mfsW [(0x118, 16)]) mfsF 0x118 ∧
    lvN (mfsW [(0x128, 100)]) mfsF 0x150 = 0 ∧ 100 ≤ lvN (mfsW [(0x128, 100)]) mfsF 0x128 ∧ mfsCode (mfsW [(0x194, 64)]) mfsF ≠ 0 ∧
    lvN (mfsW [(0x194, 64)]) mfsF 0x14C = 0 ∧ 64 ≤ lvN (mfsW [(0x194, 64)]) mfsF 0x194 ∧ lvN (mfsW [(0x134, 10)]) mfsF 0x138 = 0 ∧
    10 ≤ lvN (mfsW [(0x134, 10)]) mfsF 0x134 ∧ lvN (mfsW [(0x12C, 20000)]) mfsF 0x130 = 0 ∧
    100000000 ≤ lvN (mfsW [(0x12C, 20000)]) mfsF 0x12C * fxN (mfsW []) mfsF 0x00 := by
  refine ⟨?_, by decide +kernel⟩
  unfold FsAlone
  decide +kernel

/-! ## Witnesses: rules stated whole -/

/-- RefusedFormsAreNotExecuted: six bytes; a write to the table of an engine, to the sequencer tables, to the ROM. -/
theorem test_witness_RefusedFormsAreNotExecuted : mainRuns on = true ∧ on.dev.phase ≠ .recovery ∧ sourcePolder on hostA = some 0 ∧
    placeOf 0x50000000 ≠ .reserved ∧ placeOf 0x50000000 ≠ .register ∧ (6 : BitVec 16).toNat % 4 ≠ 0 ∧
    readOnly (placeOf 0x50020000) = true ∧ ownerOf on 0x50020000 = some 0 ∧ readOnly (placeOf 0x73000000) = true ∧ ownerOf on 0x73000000 = some 0 ∧
    readOnly (placeOf 0x3FFFC) = true ∧ ownerOf on 0x3FFFC = none ∧
    (0x4000 % 4 = 0 ∧ 4 % 4 = 0 ∧ 4 ≤ 4 ∧ 4 ≤ 256 ∧ 0x4000 / 4096 = (0x4000 + 4 - 1) / 4096) := by decide

/-- RetiredSliceStaysTheSpare: 65 LSB of offset, 2.02 % of gain; a group that is degraded. -/
theorem test_witness_RetiredSliceStaysTheSpare : on.dev.tickRun = true ∧ getB (grpW false) (acqGctl 7) acqGctl_En = true ∧
      getB (grpW false) (acqGctl 7) acqGctl_Calen = true ∧
    getB (grpW false) (acqGstat 7) acqGstat_Calrdy = true ∧ getB (grpW false) (acqGstat 7) acqGstat_Degr = false ∧
    getF (grpW false) (acqGctl 7) acqGctl_Calt ≤ (getGrp (grpW false) 7).ticks ∧ getF (grpW false) (acqGstat 7) acqGstat_Spare < 5 ∧
    1024 < (estimates (calW 65)).1.natAbs ∧ 100 < (estimates ⟨[], [6425], [0], []⟩).2.1.natAbs ∧ getB (grpW true) (acqGstat 7) acqGstat_Degr = true := by decide
/-! ## Single steps against values of the spec's examples, or computed by hand -/

/-- The state after a command. -/
def after (c : Instr) (s : State) : State :=
  match exec c s with
  | .next t => t
  | _ => s

/-- Engine 0 with general registers and accumulator 0. -/
def engR (g : List (Nat × Word)) (a : BitVec 72) : State :=
  let r : EngRegs := { engRegsReset with g := g, a := if a = 0 then [] else [(0, a)] }
  setEng on 0 { engReset with cur := r, nxt := r }

/-- The example of chapter 03: 0.75 (Q1.31) times 2.5 (Q4.28). -/
theorem test_mul_example : outA (after (.mul 0 false 0 4 5 0 false true) (engR [(4, 0x60000000), (5, 0x28000000)] 0)) 0 0 = 0x0F00000000000000 := by decide

/-- The example of chapter 03: ASAT with Q = 28 and RND clips and sets M0EXT; 5 · 2^56 does not clip. -/
theorem test_asat_example : outG (after (.asat 0 false 0 8 28 true true) (engR [] 0x0F00000000000000)) 0 8 = 0x7FFFFFFF ∧
    getReg (after (.asat 0 false 0 8 28 true true) (engR [] 0x0F00000000000000)) (engEsf 0) = 8 ∧
    outG (after (.asat 0 false 0 8 28 true true) (engR [] 0x0500000000000000)) 0 8 = 0x50000000 ∧
    getReg (after (.asat 0 false 0 8 28 true true) (engR [] 0x0500000000000000)) (engEsf 0) = 0 := by decide

/-- A sum past the largest word saturates and sets XSAT (R104, R105); g0 discards (R92). -/
theorem test_add_saturates : outG (after (.add 0 3 1 2 true) (engR [(1, 0x7FFFFFFF), (2, 1)] 0)) 0 3 = 0x7FFFFFFF ∧
    getReg (after (.add 0 3 1 2 true) (engR [(1, 0x7FFFFFFF), (2, 1)] 0)) (engEsf 0) = 1 ∧
    outG (after (.add 0 0 1 2 true) (engR [(1, 5), (2, 1)] 0)) 0 0 = 0 := by decide

/-- MOVI extends the sign; MOVH keeps the low half; ADDW wraps (R103). -/
theorem test_moves : outG (after (.movi 0 3 0x8000 true) (engR [] 0)) 0 3 = 0xFFFF8000 ∧
    outG (after (.movh 0 1 0x1234 true) (engR [(1, 0xABCD5678)] 0)) 0 1 = 0x12345678 ∧
    outG (after (.addw 0 3 1 2 true) (engR [(1, 0xFFFFFFFF), (2, 2)] 0)) 0 3 = 1 := by decide

/-- Shifts and compares know the sign (R103). −8 / 4; −1 < 1 signed, not unsigned. -/
theorem test_signs : outG (after (.shr 0 3 1 2 true) (engR [(1, 0xFFFFFFF8)] 0)) 0 3 = 0xFFFFFFFE ∧
    outG (after (.shru 0 3 1 28 true) (engR [(1, 0xFFFFFFF8)] 0)) 0 3 = 15 ∧
    outF (after (.cmp 0 1 2 2 3 true) (engR [(1, 0xFFFFFFFF), (2, 1)] 0)) 0 = 8 ∧
      outF (after (.cmp 0 1 2 6 3 true) (engR [(1, 0xFFFFFFFF), (2, 1)] 0)) 0 = 0 := by decide

/-- A half is sign-extended by LDH and not by LDHU; a word goes least significant byte first (R102). -/
theorem test_memory_halves : outG (after (.ldh 0 3 0 2 2 .clean true) (mem (engR [] 0) [(engBase 0 + 8, 0x12348001)])) 0 3 = 0xFFFF8001 ∧
    outG (after (.ldhu 0 3 0 2 2 .clean true) (mem (engR [] 0) [(engBase 0 + 8, 0x12348001)])) 0 3 = 0x8001 ∧
    rdByte (after (.stw 0 3 0 2 2 true) (engR [(3, 0x11223344)] 0)) (engBase 0 + 8) = 0x44 := by decide +kernel

/-- The address example of chapter 01: engine 2.3.5 is engine 181 in cluster 11. -/
theorem test_addresses : engBase 181 = 0x5B500000 ∧ clusterOf 181 = 11 ∧ regionOf 181 = 2 ∧ sharedBase 11 = 0x71600000 ∧ laneBase 181 = 0x722D4000 := by decide

/-- The ramp of the latch example of chapter 04 at k = 0, 4, 9. -/
theorem test_latch_ramp : rampValue 32 true 0x20000000 0x28000000 0 10 = 0x20CCCCCC ∧ rampValue 32 true 0x20000000 0x28000000 4 10 = 0x24000000 ∧
    rampValue 32 true 0x20000000 0x28000000 9 10 = 0x28000000 ∧ rampValue 32 false 0x20000000 0x28000000 0 10 = 0x28000000 := by decide

/-- The check value of CRC-32C as in RFC 3720 (R518): the CRC of "123456789". -/
theorem test_crc32c : crc32c [0x31, 0x32, 0x33, 0x34, 0x35, 0x36, 0x37, 0x38, 0x39] = 0xE3069283 := by decide +kernel

/-- The example of chapter 10: eight codes of 5,120. A half is rounded up (R351). -/
theorem test_slot_value : slotValue false [5120, 5120, 5120, 5120, 5120, 5120, 5120, 5120] = 0x50000000 ∧ slotValue true [1, 2, 2, 1] = 0x0006AAAB := by decide

/-- The example of chapter 08: duty 0.375 of 480,000 steps. -/
theorem test_duty : (compareSteps true 480000 0x30000000).1 = 180000 ∧ (compareSteps true 480000 0x40000000).1 = 240000 := by decide

/-- At 20 µs and 3.0 GHz a freeboard of 5 % leaves 57,000 cycles (chapter 00). -/
theorem test_freeboard : freeboardOk 57000 0 2000 (6000 * 4000) = true ∧ freeboardOk 57001 0 2000 (6000 * 4000) = false := by decide

/-- The example of chapter 07: a double event leaves COUNT; the third within 64 ticks is a fault of class 1. -/
def encE : State := setReg (setB on (encCtl 1) encCtl_En true) (encCount 1) 77
theorem test_double_event : getReg (after (.encDoubleEvent 1 255) encE) (encCount 1) = 77 ∧
      getB (after (.encDoubleEvent 1 255) encE) (encStat 1) encStat_Double = true ∧
    getF (after (.encDoubleEvent 1 255) encE) (encDblcnt 1) encDblcnt_Count = 1 ∧ getB (after (.encDoubleEvent 1 255) encE) (encStat 1) encStat_Degr = false ∧
    (after (.encDoubleEvent 1 255) (setEnc encE 1 { encReset with doubles := 2, recent := [0, 0] })).flt.held.map (fun h => (h.code, h.cls)) = [(0x0C02, 1)] ∧
    getReg (after (.encCount 1 true true 255) encE) (encCount 1) = 76 ∧ getReg (after (.encCount 1 false true 255) encE) (encCount 1) = 78 := by decide +kernel

/-- The example of chapter 00: a host of the owner stages a ws field, reads give the committed value; polder 0 breaches. Carrier 4 is of polder 1. -/
def carOwn : State := { on with img := { imgReset with resmap := [(resCarrier 4, 1)] } }
theorem test_staging : getReg (after (.registerWrite hostB (BitVec.ofNat 40 (pwmCarph 4)) 5) carOwn) (pwmCarph 4) = regReset (pwmCarph 4) ∧
    ((after (.registerWrite hostB (BitVec.ofNat 40 (pwmCarph 4)) 5) carOwn).tick.staged.map fun v => (v.pol, v.addr, fget (v.val &&& v.mask) pwmCarph_Shift)) = [(1, pwmCarph 4, 5)] ∧
    (after (.registerWrite hostA (BitVec.ofNat 40 (pwmCarph 4)) 5) carOwn).tick.staged = [] ∧
    (after (.registerWrite hostA (BitVec.ofNat 40 (pwmCarph 4)) 5) carOwn).dike.resp.err = true := by decide +kernel

/-- SYS.IDREV of both variants (R1); a host without a binding gets an error. -/
theorem test_idrev : (after (.registerRead hostA 0x60000000) on).dike.resp = ⟨false, [0x9256B010]⟩ ∧
    (after (.registerRead hostB 0x60000000) { on with dev := { on.dev with ca := true } }).dike.resp = ⟨false, [0x9256B020]⟩ ∧
    (after (.registerRead hostN 0x60000000) on).dike.resp.err = true := by decide +kernel

/-- The example of chapter 12: page 0x123 has expired to GEN 42, and polder 2 releases it with GEN 41: STALE, the page stays. -/
def pageE : State := put on [(culvFlag 0x123, 42 * 65536), (poldBind 3, 0x80070002)]
theorem test_stale_release : getReg (after (.release (.ralma 7) 0x123 41) pageE) (culvFlag 0x123) = 42 * 65536 ∧
    nbits (getReg (after (.release (.ralma 7) 0x123 41) pageE) (banked culvOpres 2)).toNat 15 12 = 2 := by decide +kernel

/-- From reset: the release of HRSTN starts the tick, the reserved straps do not (R39, R613). -/
theorem test_hrstn_release : (after (.hrstnRelease 1) State.reset).dev.tickRun = true ∧ (after (.hrstnRelease 3) State.reset).dev.tickRun = false ∧
    (after (.hrstnRelease 1) State.reset).dev.phase = .released ∧ getF (after (.hrstnRelease 2) State.reset) clkRefcfg clkRefcfg_Rsel = 2 := by decide +kernel

/-- HRSTN leaves no memory and no waiting set behind, and the commands in the queue (R32, R40). -/
theorem test_hrstn : let t := after .hrstnAssert { mem on [(0x70000000, 5)] with tick := { on.tick with staged := [⟨0, pwmCarper 3, 1, 1⟩] } }
    t.mem = [] ∧ t.tick.staged = [] ∧ t.dev.phase = .held ∧ t.pending = [] := by decide +kernel

/-- The events of a stopped or running tick have no effect where they cannot come. -/
theorem test_clock_events : after .tickLoss { on with dev := { on.dev with tickRun := false } } = { on with dev := { on.dev with tickRun := false } } ∧
    after .tickRestart on = on := by decide +kernel

/-- A transition rule: mode 1, bit 0 of the condition gives mode 2 (the example of chapter 02). -/
theorem test_rule : firstRule [BitVec.ofNat 64 (2 ^ 53 + 2 * 2 ^ 48 + 1 * 2 ^ 32 + 1 * 2 ^ 16 + 2)] 1 5 = some (0, 2) ∧
    firstRule [BitVec.ofNat 64 (2 ^ 53 + 2 * 2 ^ 48 + 1 * 2 ^ 32 + 1 * 2 ^ 16 + 2)] 1 4 = none ∧
    firstRule [BitVec.ofNat 64 (2 ^ 53 + 2 * 2 ^ 48 + 1 * 2 ^ 32 + 1 * 2 ^ 16 + 2)] 2 5 = none := by decide
/-! ## Witnesses: update, boot, keys -/

/-- A full image with its signature and nothing else in it; a slot that holds it, with the key of the signature; CRC and signature are computed outside
the model. -/
def fullW : FullImage :=
  { (default : FullImage) with
    header := headW 0 1 176
    sects := [sigW 0xFBF96095915EB587390F850EC95B35F618AE121C72A70808AD8F9F4C261B602B63541743E395F7C778E52BB28C18DC83
      0xAE7778EDC6C3D519C286565019762DF887421100F2CDDD0A70517E38CED1D13A9DE7EBCA21E5D889A46F5917C1F52029] }
def slotW' : Slot :=
  { (default : Slot) with
    header := [0x4B, 0x53, 0x4C, 0x54] ++ List.replicate 20 0 ++ (beBytes 96 keyW).map fun n => BitVec.ofNat 8 n
    hcrc := 722944162, actMark := 1, image := fullW }
def newerW : Slot := { slotW' with actMark := 2 }
def badSlotW : Slot := { slotW' with header := [] }

theorem slotHead : slotW'.headerOk = true := by decide +kernel
theorem slotKey : slotW'.sysKey = keyW := by decide +kernel
theorem badHead : badSlotW.headerOk = false := by decide +kernel
theorem slotBad {s : State} : slotResult s badSlotW ≠ 0 := by
  unfold slotResult; rw [badHead]; simp

/-- ACTMARK counts for no check. -/
theorem any_mark (s : State) (x : Slot) (n : Word) : slotResult s { x with actMark := n } = slotResult s x := rfl
theorem any_mark_head (x : Slot) (n : Word) : ({ x with actMark := n } : Slot).headerOk = x.headerOk := rfl

/-- The fuses: the hash of the slot's key and three others; the directory of two slots of 64 KiB. -/
def skhW : List Nat := [slotW'.keyHash, 6, 7, 8]
def dirW : List (BitVec 8) :=
  [0x4B, 0x46, 0x4C, 0x44, 1, 0, 0, 0, 2, 0, 0, 0, 1, 0, 0, 0] ++ List.replicate 44 0 ++ [49, 30, 70, 233]

theorem anchored {s : State} {k : Nat} {l : List Nat} (h : s.dev.skh = k :: l) (h0 : getFbit s updOtpkey updOtpkey_Revoked 0 = false) :
    keyAnchored s k = true := by
  simp [keyAnchored, upto, h, h0]

theorem result_good {s : State} {x : Slot} (h : x.headerOk = true) (hk : keyAnchored s x.keyHash = true) (h1 : fullResult s x.image x.sysKey true = 0) :
    slotResult s x = 0 := by
  simp [slotResult, h, hk, h1]

/-- The image's signature is good; its other checks ask only for the variant and the security version. -/
theorem fullSigned : imageSigned keyW 0 fullW.header fullW.sects = true := by decide +kernel
theorem fullFine {s : State} (hv : s.dev.ca = false) (hs : otpSvn s = 0) : fullResult s fullW keyW true = 0 := by
  have h2 : variantOk s fullW.variant = true := by rw [variantOk, hv]; decide +kernel
  have h5 : decide (otpSvn s ≤ fullW.svn) = true := by rw [hs]; decide +kernel
  have h0 : fullW.subs = [] := rfl
  simp only [fullResult, h2, h5, h0, fullSigned, List.all_nil]
  decide +kernel

/-- The slot passes its checks where the fuses hold its key, unrevoked, and its image does. -/
theorem slotFine {s : State} (h : s.dev.skh = skhW) (h0 : getFbit s updOtpkey updOtpkey_Revoked 0 = false) (hv : s.dev.ca = false) (hs : otpSvn s = 0) :
    slotResult s slotW' = 0 :=
  result_good slotHead (anchored h h0) (slotKey ▸ fullFine hv hs)

/-- The update block in state `st` with a verified image and unrevoked keys. -/
def updW (st : Nat) (u : Upd) : State :=
  let s := setF (setF (setB on keepStat keepStat_Mainon true) updStat updStat_State st) rlmTstat rlmTstat_Align 2
  { set64 s (updActatlo 0) 100020000 with upd := u, dev := { s.dev with skh := skhW }
                                          img := { s.img with active := some fullW } }
def verW : Upd := { updReset with verified := some slotW' }

/-- ArmReady holds for an activation 100 ms ahead. -/
theorem test_witness_UpdateWritesVerifiesArms_arm : ArmReady (updW 3 verW) slotW' false 100020000 := by
  have h := now_lt (updW 3 verW) (by decide) (by decide) (by decide)
  refine ⟨rfl, by decide, by decide, ?_, by decide +kernel, .inr (by decide +kernel)⟩
  exact Nat.le_trans (Nat.add_le_add_right h _) (by decide)

/-- UpdateWritesVerifiesArms: the commands' register, an idle and a busy block, offsets of a page and inside one, each state that a clause names. -/
theorem test_witness_UpdateWritesVerifiesArms : HostReady (updW 3 verW) hostA 0 updCmd ∧
    ArmReady (updW 3 verW) slotW' false (actAt (updW 3 verW)) ∧ RecorderRoom (updW 2 verW) 0 1 ∧ (updW 4 verW).upd.verified = some slotW' ∧
    (slotResult (updW 2 verW) slotW' = 0 ∧ slotResult (updW 2 verW) badSlotW ≠ 0) ∧
    (updBusy (updW 1 verW) = true ∧ updBusy (updW 3 verW) = false ∧ (getReg (put (updW 3 verW) [(updProgoff, 0x1001)]) updProgoff).toNat % 4096 ≠ 0 ∧
      (getReg (updW 3 verW) updProgoff).toNat % 4096 = 0 ∧ outsideSlot (updW 3 { verW with dirSize := some 0 }) 0 = true ∧ outsideSlot (updW 3 verW) 0 = false ∧
      (∀ st : Fin 6, updState (updW st verW) = st) ∧ (updW 5 verW).upd.actDue = false ∧ ({ verW with prog := some 4096 } : Upd).prog = some 4096 ∧
      getF (updW 1 verW) (sqCfg 0) sqCfg_Wsel = 0 ∧ (getSq (setSq (updW 1 verW) 0 { sqPortReset with reads := [⟨.host, 0, 1⟩] }) 0).reads = ⟨.host, 0, 1⟩ :: [] ∧
      getB (setB (updW 0 verW) updStat updStat_Marked false) updStat updStat_Marked = false) :=
  ⟨ready (by decide) (by decide) (by decide) (by decide) rfl, (by decide : actAt (updW 3 verW) = 100020000) ▸ test_witness_UpdateWritesVerifiesArms_arm,
    room (by decide) (by decide) (by decide), rfl, ⟨slotFine rfl (by decide) rfl (by decide), slotBad⟩, by decide⟩

def relW : State := { updW 0 updReset with dev := { devReset with phase := .released, skh := skhW } }
def romW : State := { updW 6 updReset with dev := { devReset with phase := .recovery, skh := skhW } }
def schedW : State := setF (setF (setF (setF (setB (updW 3 verW) rlmNode rlmNode_Addrv true) (rlmPstat 7) rlmPstat_State 5) (rlmPstat 7) rlmPstat_Vcs 255) rlmNode rlmNode_Addr 3) updPchper updPchper_Valid 1

/-- A SCHED frame from node 5 on port 7. -/
def schedOkW (kind at' arg : Nat) : Prop :=
  SchedTaken schedW 7 (hdrW 3 0x0E (schedBytes kind at' arg).length) (schedBytes kind at' arg) (frameCrc (hdrW 3 0x0E (schedBytes kind at' arg).length) (schedBytes kind at' arg))

/-- Of two slots with good headers the one with the newer mark comes first. -/
theorem boot_newer {a b : Slot} (ha : a.headerOk = true) (hb : b.headerOk = true) (h1 : a.actMark = 1) (h2 : b.actMark = 2) :
    bootTries none a b = [(1, b), (0, a)] := by
  simp [bootTries, bootOrder, ha, hb, h1, h2, show newerMark 2#32 1#32 = true from by decide]

theorem newerFirst : ((bootTries none slotW' newerW).find? fun y => slotResult relW y.2 == 0) = some (1, newerW) := by
  have h : slotResult relW newerW = 0 := (any_mark relW slotW' 2).trans (slotFine rfl (by decide) rfl (by decide))
  have hb : newerW.headerOk = true := (any_mark_head slotW' 2).trans slotHead
  rw [boot_newer slotHead hb rfl rfl]
  exact List.find?_cons_of_pos (by rw [h]; rfl)

/-- BootKeysAndSchedule: a directory with a good slot and none, keys, SCHED frames of polder 0's host, a pending period change, ROM recovery with room and without. -/
theorem test_witness_BootKeysAndSchedule : HostReady (updW 3 verW) hostA 0 updCmd ∧ RecorderRoom schedW 0 1 ∧
    ((bootTries none slotW' newerW).find? fun y => slotResult relW y.2 == 0) = some (1, newerW) ∧
    ArmReady schedW slotW' false (100020000 : BitVec 64).toNat ∧ (slotResult romW slotW' = 0 ∧ slotResult romW badSlotW ≠ 0) ∧
    (schedOkW 1 100020000 0 ∧ schedOkW 1 100020000 1 ∧ schedOkW 2 5 2000 ∧ schedOkW 2 5 16384 ∧ schedOkW 3 0 2) ∧
    (directory dirW = some (1, 2, 1) ∧ dirOk sfdpNone 1 2 1 = true ∧ directory [] = none ∧ (relW.dev.phase = .released ∧ romW.dev.phase = .recovery) ∧
      (schedW.dev.phase = .running ∧ getReg schedW updInactver = 0 ∧ getB schedW updPchper updPchper_Valid = true ∧ schedW.upd.pchDue = false) ∧
      (get64 schedW (updPchatlo 0) = 0 ∧ (16383 : BitVec 32).toNat < 16384) ∧ sourcePolder romW hostN = some 0 ∧
      0x1000 + getF romW updProglen updProglen_Len ≤ (romW.upd.dirSize.getD (newSlotSize romW.upd.sfdp)) * 65536) := by
  have h := now_lt schedW (by decide) (by decide) (by decide)
  refine ⟨ready (by decide) (by decide) (by decide) (by decide) rfl, room (by decide) (by decide) (by decide),
    newerFirst,
    ⟨rfl, by decide, by decide, Nat.le_trans (Nat.add_le_add_right h _) (by decide), by decide +kernel, .inr (by decide +kernel)⟩,
    ⟨slotFine rfl (by decide) rfl (by decide), slotBad⟩, ?_, by decide +kernel⟩
  unfold schedOkW SchedTaken RoutedOk FrameOk
  decide +kernel

/-- RevokeBlowsOneFuse: the running key and another; only one key left. -/
theorem test_witness_RevokeBlowsOneFuse : HostReady (updW 3 { verW with keyHash := 6 }) hostA 0 updCmd ∧
    ((updW 3 { verW with keyHash := 6 }).img.active.isSome = true ∧
      (updW 3 { verW with keyHash := 6 }).dev.skh.getD 1 0 = (updW 3 { verW with keyHash := 6 }).upd.keyHash) ∧
    ¬((updW 3 { verW with keyHash := 6 }).dev.skh.getD 3 0 = (updW 3 { verW with keyHash := 6 }).upd.keyHash) ∧
    (∃ j < 4, j ≠ (3 : Fin 4).val ∧ getFbit (updW 3 { verW with keyHash := 6 }) updOtpkey updOtpkey_Revoked j = false) ∧
    ¬(∃ j < 4, j ≠ (3 : Fin 4).val ∧ getFbit (setF (updW 3 verW) updOtpkey updOtpkey_Revoked 7) updOtpkey updOtpkey_Revoked j = false) :=
  ⟨ready (by decide) (by decide) (by decide) (by decide) rfl, by decide +kernel, by decide +kernel, ⟨0, by decide, by decide, by decide⟩, by
    rintro ⟨j, h1, h2, h3⟩
    match j with
    | 0 => revert h3; decide
    | 1 => revert h3; decide
    | 2 => revert h3; decide
    | 3 => exact h2 rfl
    | _ + 4 => omega⟩

end Sys2Proof.Tests
end

section
/-! SUPPORT. Proofs. Registers by address: the masks of access codes and rights, what a write of plain fields does, what a read answers, how
a host's request to a register ends. -/

namespace Sys2Proof.Proofs

open Sys2Proof.Machine Sys2Proof.Claims

/-! ## The masks of a register's fields -/

theorem getLsbD_foldl_or (fs : List FieldDesc) (w : Word) (i : Nat) :
    (fs.foldl (fun w f => w ||| fldMask f.fld) w).getLsbD i = (w.getLsbD i || fs.any fun f => (fldMask f.fld).getLsbD i) := by
  induction fs generalizing w with
  | nil => simp
  | cons f fs ih => rw [List.foldl_cons, ih, BitVec.getLsbD_or, List.any_cons, Bool.or_assoc]

/-- A bit lies in the mask when it lies in a field that the test names. -/
theorem getLsbD_fieldsMask (fs : List FieldDesc) (t : FieldDesc → Bool) (i : Nat) :
    (fieldsMask fs t).getLsbD i = true ↔ ∃ f ∈ fs, t f = true ∧ (fldMask f.fld).getLsbD i = true := by
  rw [fieldsMask, getLsbD_foldl_or]
  simp

/-- The mask of a weaker test holds every bit of the mask of a stronger one. -/
theorem fieldsMask_mono {fs : List FieldDesc} {t u : FieldDesc → Bool} (h : ∀ f ∈ fs, t f = true → u f = true) {i : Nat}
    (hi : (fieldsMask fs t).getLsbD i = true) : (fieldsMask fs u).getLsbD i = true := by
  rw [getLsbD_fieldsMask] at hi ⊢
  obtain ⟨f, hf, ht, hb⟩ := hi
  exact ⟨f, hf, h f hf ht, hb⟩

theorem fieldsMask_congr {fs : List FieldDesc} {t u : FieldDesc → Bool} (h : ∀ f ∈ fs, t f = u f) : fieldsMask fs t = fieldsMask fs u := by
  rw [fieldsMask, fieldsMask, List.filter_congr h]

/-- A test that names no field gives no bits. -/
theorem fieldsMask_none {fs : List FieldDesc} {t : FieldDesc → Bool} (h : ∀ f ∈ fs, t f = false) : fieldsMask fs t = 0 := by
  rw [fieldsMask, List.filter_eq_nil_iff.mpr fun f hf => by simp [h f hf]]
  rfl

/-- A mask inside one that is 0 is 0. -/
theorem fieldsMask_zero_of_mono {fs : List FieldDesc} {t u : FieldDesc → Bool} (h : ∀ f ∈ fs, t f = true → u f = true)
    (hu : fieldsMask fs u = 0) : fieldsMask fs t = 0 := by
  refine BitVec.eq_of_getLsbD_eq fun i _ => ?_
  have hz : ¬(fieldsMask fs t).getLsbD i = true := fun hi => by
    have := fieldsMask_mono h hi
    simp [hu] at this
  simpa using hz

theorem accMask_none {a : Nat} {c : Access} (h : ∀ f ∈ regFields a, f.acc ≠ c) (s : State) (p : Nat) : accMask s p a c = 0 :=
  fieldsMask_none fun f hf => by simp [h f hf]

/-- Fields with a code and a right are fields with a right. -/
theorem accMask_zero_of_right {s : State} {p a : Nat} (h : rightMask s p a = 0) (c : Access) : accMask s p a c = 0 :=
  fieldsMask_zero_of_mono (fun _ _ hf => (Bool.and_eq_true_iff.mp hf).2) h

/-! ## The register tables (R28) -/

/-- No bit of the register belongs to both an rw and a w1c field. -/
def rwW1cApart (d : RegDesc) : Bool := fieldsMask d.fields (fun f => f.acc == .rw) &&& fieldsMask d.fields (fun f => f.acc == .w1c) == 0

theorem blockRegs_rwW1cApart (b : Nat) : (blockRegs b).all rwW1cApart = true := by
  unfold blockRegs
  split <;> decide

theorem engRegs_rwW1cApart : engRegs.all rwW1cApart = true := by decide

/-- A register that is found stands in the table. -/
theorem mem_of_findReg {l : List RegDesc} {o : Nat} {d : RegDesc} {path : List Nat} (h : findReg l o = some (d, path)) : d ∈ l := by
  induction l with
  | nil => cases h
  | cons x t ih =>
    rw [findReg] at h
    split at h
    · split at h
      · cases h; exact List.mem_cons_self
      · exact List.mem_cons_of_mem _ (ih h)
    · exact List.mem_cons_of_mem _ (ih h)

/-- What every register of every table meets, the register at an address meets. -/
theorem regAt_all {P : RegDesc → Bool} (hb : ∀ b, (blockRegs b).all P = true) (he : engRegs.all P = true) {a : Nat} {d : RegDesc}
    {path : List Nat} (h : regAt a = some (d, path)) : P d = true := by
  unfold regAt at h
  split at h
  · exact List.all_eq_true.mp (hb _) d (mem_of_findReg h)
  · split at h
    · exact List.all_eq_true.mp he d (mem_of_findReg h)
    · cases h

/-- No bit of a register is both rw and w1c. -/
theorem accMask_rw_w1c (s : State) (p a i : Nat) (h : (accMask s p a .rw).getLsbD i = true) : (accMask s p a .w1c).getLsbD i = false := by
  refine Bool.eq_false_iff.mpr fun h1 => ?_
  have hrw : (fieldsMask (regFields a) fun f => f.acc == .rw).getLsbD i = true :=
    fieldsMask_mono (fun _ _ hf => (Bool.and_eq_true_iff.mp hf).1) h
  have hw1c : (fieldsMask (regFields a) fun f => f.acc == .w1c).getLsbD i = true :=
    fieldsMask_mono (fun _ _ hf => (Bool.and_eq_true_iff.mp hf).1) h1
  cases hat : regAt a with
  | none => simp [regFields, hat, fieldsMask] at hrw
  | some x =>
    have hapart : rwW1cApart x.1 = true := regAt_all blockRegs_rwW1cApart engRegs_rwW1cApart hat
    have hfields : regFields a = x.1.fields := by rw [regFields, hat]
    have := congrArg (fun w : Word => w.getLsbD i) (beq_iff_eq.mp hapart)
    rw [hfields] at hrw hw1c
    simp [hrw, hw1c] at this

/-- The place of a register that stands in a table. -/
theorem regPlace_of_regAt {a : Nat} {d : RegDesc} {path : List Nat} (h : regAt a = some (d, path)) : regPlace a = (blockNo a, d.off, path) := by
  rw [regPlace, h]

/-! ## Registers whose fields have one right in common -/

/-- A register's access that is no breach has a right to one of its fields (R403). -/
theorem exists_right_of_regBreach {s : State} {p a : Nat} {d : RegDesc} {path : List Nat} (hat : regAt a = some (d, path))
    (hb : regBreach s p a = 0) : ∃ f ∈ d.fields, hasRight s p a f.rights = true := by
  have hfields : regFields a = d.fields := by rw [regFields, hat]
  unfold regBreach at hb
  rw [hfields, hat] at hb
  by_cases hany : d.fields.any (fun f => hasRight s p a f.rights) = true
  · exact List.any_eq_true.mp hany
  · split at hb
    · split at hb <;> cases hb
    · simp [hany] at hb

section
variable {s : State} {p a : Nat} {d : RegDesc} {path : List Nat} {r : Rights}

/-- With one right for all fields, an access that is no breach has it. -/
theorem hasRight_of_regBreach (hat : regAt a = some (d, path)) (hr : ∀ f ∈ d.fields, f.rights = r) (hb : regBreach s p a = 0) :
    hasRight s p a r = true := by
  obtain ⟨f, hf, hright⟩ := exists_right_of_regBreach hat hb
  rwa [hr f hf] at hright

theorem accMask_of_regBreach (hat : regAt a = some (d, path)) (hr : ∀ f ∈ d.fields, f.rights = r) (hb : regBreach s p a = 0) (c : Access) :
    accMask s p a c = fieldsMask d.fields fun f => f.acc == c := by
  rw [accMask, regFields, hat]
  exact fieldsMask_congr fun f hf => by rw [hr f hf, hasRight_of_regBreach hat hr hb, Bool.and_true]

theorem rightMask_of_regBreach (hat : regAt a = some (d, path)) (hr : ∀ f ∈ d.fields, f.rights = r) (hb : regBreach s p a = 0) :
    rightMask s p a = fieldsMask d.fields fun _ => true := by
  rw [rightMask, regFields, hat]
  exact fieldsMask_congr fun f hf => by rw [hr f hf, hasRight_of_regBreach hat hr hb]

theorem accMask_of_regAt_none (hat : regAt a = some (d, path)) {c : Access} (hc : ∀ f ∈ d.fields, f.acc ≠ c) : accMask s p a c = 0 :=
  accMask_none (by rw [regFields, hat]; exact hc) s p
end

/-! ## Writing some bits of a register -/

/-- A mask of which nothing is left out. -/
theorem and_not_zero (w : Word) : w &&& ~~~(0 : Word) = w := BitVec.and_allOnes

theorem zero_and_word (w : Word) : (0 : Word) &&& w = 0 := BitVec.zero_and

theorem getReg_setBits_same (s : State) (k : Nat) (m w : Word) : getReg (setBits s k m w) k = (getReg s k &&& ~~~m) ||| (w &&& m) :=
  getReg_setReg_same _ _ _

theorem getReg_setBits_other (s : State) {k b : Nat} (m w : Word) (h : b ≠ k) : getReg (setBits s k m w) b = getReg s b :=
  getReg_setReg_other _ _ h

/-- Staging leaves registers and memory alone. -/
theorem stageWrite_frame (s : State) (p a : Nat) (m w : Word) : (stageWrite s p a m w).regs = s.regs ∧ (stageWrite s p a m w).mem = s.mem := by
  unfold stageWrite
  split <;> exact ⟨rfl, rfl⟩

theorem getReg_stageWrite (s : State) (p a b : Nat) (m w : Word) : getReg (stageWrite s p a m w) b = getReg s b := by
  unfold getReg
  rw [(stageWrite_frame s p a m w).1]

/-- Staging 0 bits does nothing. -/
theorem stageWrite_zero (s : State) (p a : Nat) (w : Word) : stageWrite s p a 0 w = s := if_pos rfl

/-- A staged write stands among the staged values, with at least the bits of this write, at their new values (R68). -/
theorem stageWrite_new (s : State) (p a : Nat) {m : Word} (w : Word) (hm : m ≠ 0) :
    ∃ g ∈ (stageWrite s p a m w).tick.staged, g.pol = p ∧ g.addr = a ∧
      ∀ i, m.getLsbD i = true → g.mask.getLsbD i = true ∧ g.val.getLsbD i = w.getLsbD i := by
  unfold stageWrite
  rw [if_neg hm]
  have hold (o : Option Staged) (ho : s.tick.staged.find? (fun v => v.pol == p && v.addr == a) = o) :
      (o.getD ⟨p, a, 0, 0⟩).pol = p ∧ (o.getD ⟨p, a, 0, 0⟩).addr = a := by
    cases o with
    | none => exact ⟨rfl, rfl⟩
    | some v => simpa using List.find?_some ho
  obtain ⟨hpol, haddr⟩ := hold _ rfl
  refine ⟨_, List.mem_append_right _ (List.mem_singleton.mpr rfl), hpol, haddr, fun i hi => ?_⟩
  have hlt : i < 32 := BitVec.lt_of_getLsbD hi
  constructor
  · rw [BitVec.getLsbD_or, hi, Bool.or_true]
  · rw [BitVec.getLsbD_or, BitVec.getLsbD_and, BitVec.getLsbD_and, BitVec.getLsbD_not, hi]
    simp

/-- Other staged values stay. -/
theorem mem_staged_stageWrite {s : State} {p a : Nat} {m w : Word} {g : Staged} (hg : g ∈ s.tick.staged) (h : ¬(g.pol = p ∧ g.addr = a)) :
    g ∈ (stageWrite s p a m w).tick.staged := by
  unfold stageWrite
  split
  · exact hg
  · refine List.mem_append_left _ (List.mem_filter.mpr ⟨hg, ?_⟩)
    rw [Bool.not_eq_true', Bool.eq_false_iff, ne_eq, Bool.and_eq_true, beq_iff_eq, beq_iff_eq]
    exact h

/-! ## A write by access codes (R10) -/

/-- The word of a register after a write of `w`: rw bits take it, w1c bits that it has as 1 become 0. -/
def writtenWord (old rw w1c w : Word) : Word := ((old &&& ~~~rw) ||| (w &&& rw)) &&& ~~~(w1c &&& w)

/-- A write of no bits may as well take place: the word is the same. -/
theorem getReg_if_setBits (s : State) (k b : Nat) (m x w : Word) (hm : m = 0 → x = 0) :
    getReg (if m = 0 then s else setBits s k x w) b = if b = k then (getReg s k &&& ~~~x) ||| (w &&& x) else getReg s b := by
  by_cases hb : b = k
  · subst hb
    rw [if_pos rfl]
    split
    · rename_i h0
      rw [hm h0, and_not_zero]
      simp
    · exact getReg_setBits_same s b x w
  · rw [if_neg hb]
    split
    · rfl
    · exact getReg_setBits_other s x w hb

theorem if_setBits_mem (s : State) (k : Nat) (m x w : Word) : (if m = 0 then s else setBits s k x w).mem = s.mem := by
  split <;> rfl

section
variable {s : State} {p a : Nat}

theorem plainWrite_mem (s : State) (p a : Nat) (w : Word) : (plainWrite s p a w).mem = s.mem := by
  unfold plainWrite
  dsimp only
  rw [(stageWrite_frame _ _ _ _ _).2, if_setBits_mem, if_setBits_mem]

/-- A write of plain fields changes only the register that the polder sees at the address, each bit by its field's code. -/
theorem getReg_plainWrite (hact : actionMask (regPlace a).1 (regPlace a).2.1 = 0) (w : Word) (b : Nat) :
    getReg (plainWrite s p a w) b =
      if b = seenBy a p then writtenWord (getReg s b) (accMask s p a .rw) (accMask s p a .w1c) w else getReg s b := by
  unfold plainWrite
  dsimp only
  rw [getReg_stageWrite, hact]
  simp only [and_not_zero]
  rw [getReg_if_setBits _ _ _ _ _ _ fun h => by rw [h, zero_and_word], getReg_if_setBits _ _ _ _ _ _ id, getReg_if_setBits _ _ _ _ _ _ id]
  by_cases hb : b = seenBy a p
  · subst hb
    simp [writtenWord]
  · simp [hb]

/-- A register without rw and w1c fields is only staged. -/
theorem plainWrite_of_staged (hrw : accMask s p a .rw = 0) (hw1c : accMask s p a .w1c = 0) (w : Word) :
    plainWrite s p a w = stageWrite s p a (accMask s p a .ws) w := by
  unfold plainWrite
  dsimp only
  rw [hrw, hw1c]
  rw [if_pos (zero_and_word _), if_pos (zero_and_word _)]
  rfl

/-- Without a right to a field a write does nothing (R403). -/
theorem plainWrite_of_no_right (h : rightMask s p a = 0) (w : Word) : plainWrite s p a w = s := by
  rw [plainWrite_of_staged (accMask_zero_of_right h _) (accMask_zero_of_right h _), accMask_zero_of_right h, stageWrite_zero]

/-- A write of a register without an action of its own. -/
theorem regWrite_of_idle {src : Source} (hidle : ∀ (u : State) (x : Word), regAction u src p a x = (u, false)) (w : Word) :
    regWrite s src p a w = (plainWrite s p a w, false) := by
  unfold regWrite
  dsimp only
  split
  · rename_i h0
    rw [plainWrite_of_no_right h0]
  · exact hidle _ _

theorem regWrite_of_right {src : Source} (h : rightMask s p a ≠ 0) (w : Word) :
    regWrite s src p a w = regAction (plainWrite s p a w) src p a (w &&& rightMask s p a) := if_neg h
end

/-! ## How a host's request to a register ends -/

/-- The state with this response to the last request. -/
def respond (s : State) (err : Bool) (data : List Word) : State := { s with dike := { s.dike with resp := ⟨err, data⟩ } }

@[simp] theorem respond_mem (s : State) (err : Bool) (data : List Word) : (respond s err data).mem = s.mem := rfl

@[simp] theorem getReg_respond (s : State) (err : Bool) (data : List Word) (b : Nat) : getReg (respond s err data) b = getReg s b := rfl

theorem answered_respond (s : State) (data : List Word) : Answered (respond s false data) data := rfl

theorem lt_of_register {a : Nat} (h : placeOf a = .register) : a < 2 ^ 40 := by
  by_contra hlt
  have hplace : placeOf a = .reserved := by
    unfold placeOf
    rw [if_neg (by omega), if_neg (by omega), if_neg (by omega), if_neg (by omega), if_neg (by omega), if_neg (by omega), if_neg (by omega),
      if_neg (by omega), if_neg (by omega), if_neg (by omega), if_neg (by omega), if_neg (by omega)]
  rw [hplace] at h
  cases h

/-- The address operand of a request to a register is that register's address. -/
theorem toNat_address {a : Nat} (h : placeOf a = .register) : (BitVec.ofNat 40 a).toNat = a := by
  rw [BitVec.toNat_ofNat, Nat.mod_eq_of_lt (lt_of_register h)]

section
variable {s u : State} {src : Source} {p a : Nat} {w : Word}

/-- A write that passes the checks and ends without a breach. -/
theorem exec_registerWrite (h : HostReady s src p a) (ha : placeOf a = .register) (h4 : a % 4 = 0) {addr : BitVec 40} (haddr : addr.toNat = a)
    (hw : regWrite s src p a w = (u, false)) : exec (.registerWrite src addr w) s = .next (respond u false []) := by
  have := hostWrite_ready h ha h4 w
  rw [hw] at this
  show Host.Outcome.next (hostWrite s src addr.toNat w) = _
  rw [haddr, this]
  rfl

/-- A read that passes the checks. -/
theorem exec_registerRead (h : HostReady s src p a) (ha : placeOf a = .register) (h4 : a % 4 = 0) (hr : regRead s src p a = (u, w)) :
    exec (.registerRead src (BitVec.ofNat 40 a)) s = .next (respond u false [w]) := by
  have := hostRead_ready h ha h4
  rw [hr] at this
  show Host.Outcome.next (request s src false (BitVec.ofNat 40 a).toNat 4 [] .clean) = _
  rw [toNat_address ha, this]
  rfl

/-- A read of a register that belongs to no resource, without a right to it: a breach (R403, R404). -/
theorem exec_registerRead_breach (hruns : mainRuns s = true) (hphase : s.dev.phase ≠ .recovery) (hsrc : sourcePolder s src = some p)
    (ha : placeOf a = .register) (h4 : a % 4 = 0) (hown : resourceOf s a = none) (hb : regBreach s p a ≠ 0) :
    exec (.registerRead src (BitVec.ofNat 40 a)) s = .next (respond (breach s p (sourceWho src) 0 (regBreach s p a) a) true []) := by
  have hreq : hostRequest s src false a 4 [] .clean true = (breach s p (sourceWho src) 0 (regBreach s p a) a, .breach) := by
    unfold hostRequest
    rw [hsrc]
    simp only [ha, List.length_nil]
    rw [if_neg (by simp), if_neg (by simp), if_pos (by rfl), if_neg (by simp; omega)]
    unfold regRequest
    rw [if_neg (fun x => hphase x.1), hown, if_neg (by simp), if_neg (by simp), if_pos hb]
    rfl
  show Host.Outcome.next (request s src false (BitVec.ofNat 40 a).toNat 4 [] .clean) = _
  rw [toNat_address ha]
  unfold request
  rw [hruns, hreq]
  rfl
end

end Sys2Proof.Proofs
end

section
/-! SUPPORT. Proofs. The state after reset. -/

namespace Sys2Proof.Proofs

open Sys2Proof.Machine Sys2Proof.Claims

/-- An empty list is in the canonical form, of registers and of memory. -/
theorem inv_of_empty {s : State} (hr : s.regs = []) (hm : s.mem = []) : Claims.Inv s := by
  unfold Claims.Inv
  rw [hr, hm]
  exact ⟨rfl, rfl⟩

/-- Settles O4: reset lists no register, so each one reads its reset value. -/
theorem resetIsCanonical : Obligations.ResetIsCanonical :=
  ⟨inv_of_empty rfl rfl, rfl, getReg_reset⟩

end Sys2Proof.Proofs
end

section
/-! SUPPORT. Proofs. The metrology die: its answers on the calibration port, and its supply, crystal, seal and optical port. -/

namespace Sys2Proof.Proofs

open Sys2Proof.Machine Sys2Proof.Claims

/-- The effect of a command whose condition holds. -/
theorem next_of_true {b : Bool} (h : b = true) (x y : State) :
    (.next (if b then x else y) : Host.Outcome State Fault Refusal) = .next x := by
  rw [if_pos h]

/-- The effect of a command whose condition fails. -/
theorem next_of_false {b : Bool} (h : b = false) (x y : State) :
    (.next (if b then x else y) : Host.Outcome State Fault Refusal) = .next y := by
  rw [if_neg (by simp [h])]

/-! ## When the metrology die runs -/

theorem metOn_of_on {s : State} (hon : s.met.on = true) (hca : s.dev.ca = false) : metOn s = true := by
  simp [metOn, hon, hca]

/-- In a DTN9256-CA the die never runs (R2). -/
theorem metOn_of_ca {s : State} (hca : s.dev.ca = true) : metOn s = false := by
  simp [metOn, hca]

/-! ## Answers on the calibration port (R387) -/

@[simp] theorem calAnswer_regs (s : State) (st p i : Nat) (v : Option Word) : (calAnswer s st p i v).regs = s.regs := by
  cases v <;> rfl

@[simp] theorem calAnswer_mem (s : State) (st p i : Nat) (v : Option Word) : (calAnswer s st p i v).mem = s.mem := by
  cases v <;> rfl

/-- An answer changes nothing on the die but the response, which names the status, PID and IDX and carries its CRC. -/
theorem calAnswer_met (s : State) (st p i : Nat) (v : Option Word) :
    ∃ w, (v = none ∨ v = some w) ∧
      (calAnswer s st p i v).met = { s.met with resp := some ⟨st, p, i, w, crc16 (calBytes st p i w)⟩ } := by
  cases v with
  | none => exact ⟨Config.freeWord s.free, .inl rfl, rfl⟩
  | some w => exact ⟨w, .inr rfl, rfl⟩

/-! ## What the die's events leave alone -/

/-- Registers and memory of the compute die, parameters and log of the metrology die. -/
def MetStill (s t : State) : Prop :=
  t.regs = s.regs ∧ t.mem = s.mem ∧ t.met.params = s.met.params ∧ t.met.log = s.met.log

/-- The energy registers and the count of changes too. -/
def MetKept (s t : State) : Prop :=
  MetStill s t ∧ t.met.keep.energy = s.met.keep.energy ∧ t.met.keep.chg = s.met.keep.chg

/-- A change of the die's own state that names none of these keeps them. -/
theorem metKept_setMet {s : State} {m : Met} (hp : m.params = s.met.params) (hl : m.log = s.met.log)
    (he : m.keep.energy = s.met.keep.energy) (hc : m.keep.chg = s.met.keep.chg) : MetKept s (setMet s m) :=
  ⟨⟨rfl, rfl, hp, hl⟩, he, hc⟩

theorem metKept_refl (s : State) : MetKept s s := ⟨⟨rfl, rfl, rfl, rfl⟩, rfl, rfl⟩

/-- An answer keeps them. -/
theorem metKept_calAnswer {s t : State} (h : MetKept s t) (st p i : Nat) (v : Option Word) : MetKept s (calAnswer t st p i v) := by
  obtain ⟨w, -, hm⟩ := calAnswer_met t st p i v
  unfold MetKept MetStill
  rw [calAnswer_regs, calAnswer_mem, hm]
  exact h

/-! ## In a DTN9256-CA nothing happens (R2) -/

theorem calRequest_of_ca {s : State} (hca : s.dev.ca = true) (cmd : Nat) (pid : BitVec 16) (idx : BitVec 8) (v : BitVec 32) (crc : BitVec 16)
    (f : State → State) : calRequest s cmd pid idx v crc f = s := by
  rw [calRequest, metOn_of_ca hca]
  rfl

/-- The commands of the metrology die that a DTN9256-CA ignores. -/
theorem exec_metCommand_of_ca {s : State} (hca : s.dev.ca = true) (c : Instr)
    (hc : (∃ a b w, c = .metPowerUp a b w) ∨ (∃ v, c = .metWindowEnd v) ∨ (∃ j, c = .metPulse j) ∨ (∃ a, c = .signOn a) ∨
      (∃ p b m, c = .optionSelect p b m) ∨ (∃ p i v k, c = .write p i v k) ∨
      c ∈ [.metPowerDown, .xtalFault, .xtalRecovered, .sealBroken, .sealIntact, .opticalOverload]) :
    exec c s = .next s := by
  have hoff := metOn_of_ca hca
  have hidle (b : Bool) : (metOn s && b) = false := by rw [hoff, Bool.false_and]
  have hskip : (!metOn s) = true := by rw [hoff]; rfl
  rcases hc with ⟨a, b, w, rfl⟩ | ⟨v, rfl⟩ | ⟨j, rfl⟩ | ⟨a, rfl⟩ | ⟨p, b, m, rfl⟩ | ⟨p, i, v, k, rfl⟩ | hc
  · exact next_of_true (b := s.met.on || s.dev.ca) (by rw [hca, Bool.or_true]) _ _
  · exact next_of_true hskip _ _
  · exact next_of_false (hidle _) _ _
  · exact next_of_true (b := !metOn s || s.met.ovl) (by rw [hskip, Bool.true_or]) _ _
  · exact next_of_true (b := !metOn s || s.met.ovl || !s.met.selWait) (by rw [hskip, Bool.true_or, Bool.true_or]) _ _
  · exact congrArg Host.Outcome.next (calRequest_of_ca hca 2 p i v k _)
  · simp only [List.mem_cons, List.not_mem_nil, or_false] at hc
    rcases hc with rfl | rfl | rfl | rfl | rfl | rfl
    · exact next_of_false hoff _ _
    · exact next_of_false hoff _ _
    · exact next_of_false (hidle _) _ _
    · exact next_of_false (hidle _) _ _
    · exact next_of_false (hidle _) _ _
    · exact next_of_false hoff _ _

/-! ## Power (R369, R384, R386) -/

/-- The retained copy that power-up starts from: the newer one that is valid, else values that the spec leaves free (R384). -/
def retained (s : State) (newOk oldOk : Bool) : MetKeep :=
  if newOk then s.met.copyNew else if oldOk then s.met.copyOld else lostKeep s.free

theorem retained_of_valid {s : State} {a b : Bool} {k : MetKeep}
    (h : a = true ∧ k = s.met.copyNew ∨ a = false ∧ b = true ∧ k = s.met.copyOld) : retained s a b = k := by
  rcases h with ⟨rfl, rfl⟩ | ⟨rfl, rfl, rfl⟩ <;> rfl

/-- A seal found broken at power-up counts when the retained copy has it intact (R386). -/
theorem sealcnt_if (c : Bool) (k : MetKeep) (broken : Bool) :
    ({ (if c then { k with sealcnt := k.sealcnt + 1 } else k) with sealBroken := broken } : MetKeep) =
      { k with sealcnt := k.sealcnt + (if c then 1 else 0), sealBroken := broken } := by
  cases c <;> rfl

/-- MET_POWER_UP of a die that is off. -/
theorem exec_metPowerUp {s : State} (a b broken : Bool) (hoff : s.met.on = false) (hca : s.dev.ca = false) :
    ∃ t, exec (.metPowerUp a b broken) s = .next t ∧ MetStill s t ∧ t.met.on = true ∧ t.met.broken = broken ∧ t.met.seq = 0 ∧
      t.met.nverr = (s.met.nverr || !(a || b)) ∧ t.met.firstWin = true ∧ t.met.frame = [] ∧
      t.met.keep = { retained s a b with
        sealcnt := (retained s a b).sealcnt + (if broken && !(retained s a b).sealBroken then 1 else 0), sealBroken := broken } :=
  ⟨_, next_of_false (by rw [hoff, hca]; rfl) _ _, ⟨rfl, rfl, rfl, rfl⟩, rfl, rfl, rfl, rfl, rfl, rfl, sealcnt_if _ _ _⟩

theorem exec_metPowerDown {s : State} (hon : metOn s = true) :
    ∃ t, exec .metPowerDown s = .next t ∧ MetKept s t ∧ t.met.on = false ∧ t.met.pend = [] ∧ t.met.sched = [] :=
  ⟨_, next_of_true hon _ _, metKept_setMet rfl rfl rfl rfl, rfl, rfl, rfl⟩

/-! ## Crystal (R385) -/

theorem exec_xtalFault {s : State} (hon : metOn s = true) :
    ∃ t, exec .xtalFault s = .next t ∧ MetKept s t ∧ t.met.xtalf = true ∧ t.met.sched = [] :=
  ⟨_, next_of_true hon _ _, metKept_setMet rfl rfl rfl rfl, rfl, rfl⟩

theorem exec_xtalRecovered {s : State} (hon : metOn s = true) (hx : s.met.xtalf = true) :
    ∃ t, exec .xtalRecovered s = .next t ∧ MetKept s t ∧ t.met.xtalf = true ∧ t.met.xtalBack = true :=
  ⟨_, next_of_true (by rw [hon, hx]; rfl) _ _, metKept_setMet rfl rfl rfl rfl, hx, rfl⟩

/-! ## Seal (R386, R389) -/

theorem exec_sealBroken {s : State} (hon : metOn s = true) (hb : s.met.broken = false) :
    ∃ t, exec .sealBroken s = .next t ∧ MetKept s t ∧ t.met.broken = true ∧ t.met.keep.sealcnt = s.met.keep.sealcnt + 1 :=
  ⟨_, next_of_true (by rw [hon, hb]; rfl) _ _, metKept_setMet rfl rfl rfl rfl, rfl, rfl⟩

/-- The die when the seal is intact again: what was pending is gone. -/
def withSealIntact (s : State) : State :=
  setMet s { s.met with broken := false, pend := [], commitAsked := none, keep := { s.met.keep with sealBroken := false } }

/-- SEAL_INTACT discards what is pending; a COMMIT that waits is answered with status 3. -/
theorem exec_sealIntact {s : State} (hon : metOn s = true) (hb : s.met.broken = true) :
    ∃ t, exec .sealIntact s = .next t ∧ MetKept s t ∧ t.met.broken = false ∧ t.met.pend = [] ∧ t.met.commitAsked = none ∧
      (s.met.commitAsked ≠ none → ∃ r, t.met.resp = some r ∧ r.status = 3) := by
  have hrun : exec .sealIntact s = .next (match s.met.commitAsked with
      | some r => calAnswer (withSealIntact s) 3 r.1 r.2 none
      | none => withSealIntact s) := next_of_true (by rw [hon, hb]; rfl) _ _
  have hkept : MetKept s (withSealIntact s) := metKept_setMet rfl rfl rfl rfl
  cases hask : s.met.commitAsked with
  | none =>
    rw [hask] at hrun
    exact ⟨_, hrun, hkept, rfl, rfl, rfl, fun h => absurd rfl h⟩
  | some r =>
    rw [hask] at hrun
    obtain ⟨w, -, hmet⟩ := calAnswer_met (withSealIntact s) 3 r.1 r.2 none
    refine ⟨_, hrun, metKept_calAnswer hkept _ _ _ _, ?_⟩
    dsimp only
    rw [hmet]
    exact ⟨rfl, rfl, rfl, fun _ => ⟨_, rfl, rfl⟩⟩

/-! ## The optical port (R392–R394) -/

/-- The first data line gives the serial number (R393). -/
theorem serial_mem_readout (m : Met) : (([0, 0, 96, 1, 0], some m.serial.toNat) : List Nat × Option Nat) ∈ readout m := by
  unfold readout
  exact List.mem_append_left _ (List.mem_cons_self)

theorem exec_signOn_any {s : State} (hon : metOn s = true) (ho : s.met.ovl = false) :
    ∃ t, exec (.signOn none) s = .next t ∧ MetKept s t ∧ t.met.selWait = true ∧ t.met.out = .ident :=
  ⟨_, next_of_false (by rw [hon, ho]; rfl) _ _, metKept_setMet rfl rfl rfl rfl, rfl, rfl⟩

/-- A sign-on with an address is answered by the die of that serial number only (R394). -/
theorem exec_signOn_address {s : State} (a : Nat) (hon : metOn s = true) (ho : s.met.ovl = false) :
    ∃ t, exec (.signOn (some a)) s = .next t ∧ MetKept s t ∧
      if a = s.met.serial.toNat then t.met.selWait = true ∧ t.met.out = .ident else t.met = s.met := by
  have hrun : exec (.signOn (some a)) s =
      .next (if (some a).isNone || some a == some s.met.serial.toNat then setMet s { s.met with selWait := true, out := .ident } else s) :=
    next_of_false (by rw [hon, ho]; rfl) _ _
  by_cases ha : a = s.met.serial.toNat
  · exact ⟨_, hrun.trans (next_of_true (by simp [ha]) _ _), metKept_setMet rfl rfl rfl rfl, by rw [if_pos ha]; exact ⟨rfl, rfl⟩⟩
  · exact ⟨_, hrun.trans (next_of_false (by simp [ha]) _ _), metKept_refl s, by rw [if_neg ha]⟩

/-- OPTION_SELECT is answered by the readout for protocol 0, baud rate 5, mode 0, and ends the wait in every case (R392). -/
theorem exec_optionSelect {s : State} (proto baud mode : BitVec 7) (hon : metOn s = true) (ho : s.met.ovl = false) (hw : s.met.selWait = true) :
    ∃ t, exec (.optionSelect proto baud mode) s = .next t ∧ MetKept s t ∧ t.met.selWait = false ∧
      if proto = 0x30 ∧ baud = 0x35 ∧ mode = 0x30 then
        ∃ l, t.met.out = .readout l (readoutText l) ∧ ([0, 0, 96, 1, 0], some s.met.serial.toNat) ∈ l
      else t.met.out = .silent := by
  have hrun : exec (.optionSelect proto baud mode) s = .next (if proto = 0x30 ∧ baud = 0x35 ∧ mode = 0x30 then
      setMet s { s.met with selWait := false, out := .readout (readout s.met) (readoutText (readout s.met)) }
    else setMet s { s.met with selWait := false, out := .silent }) := next_of_false (by rw [hon, ho, hw]; rfl) _ _
  refine ⟨_, hrun, ?_⟩
  split
  · exact ⟨metKept_setMet rfl rfl rfl rfl, rfl, _, rfl, serial_mem_readout s.met⟩
  · exact ⟨metKept_setMet rfl rfl rfl rfl, rfl, rfl⟩

theorem exec_optionSelectTimeout {s : State} (hon : metOn s = true) (hw : s.met.selWait = true) :
    ∃ t, exec .optionSelectTimeout s = .next t ∧ MetKept s t ∧ t.met.selWait = false ∧ t.met.out = .silent :=
  ⟨_, next_of_true (by rw [hon, hw]; rfl) _ _, metKept_setMet rfl rfl rfl rfl, rfl, rfl⟩

theorem exec_opticalOverload {s : State} (hon : metOn s = true) :
    ∃ t, exec .opticalOverload s = .next t ∧ MetKept s t ∧ t.met.ovl = true ∧ t.met.ovlcnt = (s.met.ovlcnt + 1) % 65536 ∧ t.met.selWait = false :=
  ⟨_, next_of_true hon _ _, metKept_setMet rfl rfl rfl rfl, rfl, rfl, rfl⟩

theorem exec_opticalQuietEnd {s : State} (hon : metOn s = true) :
    ∃ t, exec .opticalQuietEnd s = .next t ∧ MetKept s t ∧ t.met.ovl = false :=
  ⟨_, next_of_true hon _ _, metKept_setMet rfl rfl rfl rfl, rfl⟩

/-- Settles O25: each event by its own lemma, where the die runs; none has an effect in a DTN9256-CA. -/
theorem metrologyDieEvents : Obligations.MetrologyDieEvents := by
  refine ⟨fun s hca c hc => exec_metCommand_of_ca hca c hc, fun s hca => ⟨fun a b broken hoff => ?_, fun h => ?_⟩⟩
  · obtain ⟨t, hrun, hstill, hon, hbroken, hseq, hnverr, hfirst, hframe, hkeep⟩ := exec_metPowerUp a b broken hoff hca
    refine ⟨t, hrun, hstill, hon, hbroken, hseq, hnverr, hfirst, hframe, fun k hk => ?_⟩
    rw [hkeep, retained_of_valid hk]
    exact ⟨rfl, rfl, rfl⟩
  · have hon := metOn_of_on h hca
    exact ⟨exec_metPowerDown hon, exec_xtalFault hon, exec_xtalRecovered hon, exec_sealBroken hon, exec_sealIntact hon,
      exec_signOn_any hon, fun a => exec_signOn_address a hon, fun p b m => exec_optionSelect p b m hon,
      exec_optionSelectTimeout hon, exec_opticalOverload hon, exec_opticalQuietEnd hon⟩

end Sys2Proof.Proofs
end

section
/-! SUPPORT. Proofs. Host reads and writes of registers: breaches, captures, read-clear, each access code. -/

namespace Sys2Proof.Proofs

open Sys2Proof.Machine Sys2Proof.Claims

/-! ## Reading -/

section
variable {s : State} {src : Source} {p a : Nat}

/-- A read without an rc field, a capture or a free value changes nothing. -/
theorem regRead_of_plain (hrc : accMask s p a .rc = 0) (h15 : blockNo a ≠ 15) (h10 : blockNo a ≠ 10) {v : Word}
    (hv : regValue s src p a = (v, none)) :
    regRead s src p a = (s, v &&& rightMask s p a &&& ~~~(fieldsMask (regFields a) fun f => f.acc == .wo)) := by
  unfold regRead
  rw [if_neg (fun h => h15 h.1)]
  dsimp only
  rw [hv]
  dsimp only
  rw [if_neg h10]
  unfold clearOnRead
  rw [hrc]
  rfl

/-- A read sets its rc fields to their reset values (R10). -/
theorem clearOnRead_eq (hrc : accMask s p a .rc ≠ 0) (h2 : blockNo a ≠ 2) :
    clearOnRead s p a = setBits s (seenBy a p) (accMask s p a .rc) (regReset (seenBy a p)) := by
  unfold clearOnRead
  dsimp only
  rw [if_neg hrc, if_neg fun h => h2 h.1]

/-- What a source has captured it finds again (R652). -/
theorem captureOf_setCapture (s : State) (src : Source) (a : Nat) (w : Word) : captureOf (setCapture s src a w) src a = w := by
  have hnone : (s.tick.captures.filter fun c => !(c.src == src && c.reg == a)).find? (fun c => c.src == src && c.reg == a) = none :=
    List.find?_eq_none.mpr fun c hc => by
      simpa only [Bool.not_eq_true', Bool.not_eq_true] using (List.mem_filter.mp hc).2
  unfold captureOf setCapture
  dsimp only
  rw [List.find?_append, hnone]
  simp

theorem captureOf_congr {t : State} (h : t.tick.captures = s.tick.captures) : captureOf t src a = captureOf s src a := by
  unfold captureOf
  rw [h]
end

/-! ## TICK.PERIOD and TICK.COUNT (R81) -/

def periodDesc : RegDesc := ⟨0x0, [], [fd 13 0 .ws .sys 2000]⟩
def countLoDesc : RegDesc := ⟨0x8, [], [fd 31 0 .ro .any 0]⟩
def countHiDesc : RegDesc := ⟨0xc, [], [fd 15 0 .ro .any 0]⟩

theorem regAt_tickPeriod : regAt tickPeriod = some (periodDesc, []) := by decide
theorem regAt_tickCountLo : regAt tickCountLo = some (countLoDesc, []) := by decide
theorem regAt_tickCountHi : regAt tickCountHi = some (countHiDesc, []) := by decide

theorem regValue_tickPeriod (s : State) (src : Source) (p : Nat) : regValue s src p tickPeriod = (getReg s tickPeriod, none) := by
  unfold regValue
  rw [regPlace_of_regAt regAt_tickPeriod]
  rfl

/-- COUNT_LO shows the low half of the count, and captures the high half. -/
theorem regValue_tickCountLo (s : State) (src : Source) (p : Nat) : regValue s src p tickCountLo =
    (BitVec.ofNat 32 s.tick.count.toNat, some (BitVec.ofNat 32 (s.tick.count.toNat / 2 ^ 32))) := by
  unfold regValue
  rw [regPlace_of_regAt regAt_tickCountLo]
  rfl

/-- COUNT_HI shows what the source has captured. -/
theorem regValue_tickCountHi (s : State) (src : Source) (p : Nat) : regValue s src p tickCountHi = (captureOf s src tickCountHi, none) := by
  unfold regValue
  rw [regPlace_of_regAt regAt_tickCountHi]
  rfl

section
variable {s : State} {src : Source} {p : Nat}

theorem regRead_tickPeriod (h : HostReady s src p tickPeriod) : regRead s src p tickPeriod = (s, getReg s tickPeriod &&& 0x3FFF) := by
  obtain ⟨-, -, -, hb, -⟩ := h
  have hr : ∀ f ∈ periodDesc.fields, f.rights = .sys := by decide
  rw [regRead_of_plain (accMask_of_regAt_none regAt_tickPeriod (by decide)) (by decide) (by decide) (regValue_tickPeriod s src p),
    rightMask_of_regBreach regAt_tickPeriod hr hb, show (fieldsMask periodDesc.fields fun _ => true) = 0x3FFF by decide,
    show (fieldsMask (regFields tickPeriod) fun f => f.acc == .wo) = 0 by decide, and_not_zero]

theorem regRead_tickCountLo (h : HostReady s src p tickCountLo) : regRead s src p tickCountLo =
    (nextFree (setCapture s src tickCountHi (BitVec.ofNat 32 (s.tick.count.toNat / 2 ^ 32))), BitVec.ofNat 32 s.tick.count.toNat) := by
  obtain ⟨-, -, -, hb, -⟩ := h
  have hr : ∀ f ∈ countLoDesc.fields, f.rights = .any := by decide
  unfold regRead
  rw [if_neg (by decide)]
  dsimp only
  rw [regValue_tickCountLo, rightMask_of_regBreach regAt_tickCountLo hr hb]
  dsimp only
  unfold clearOnRead
  rw [accMask_of_regAt_none regAt_tickCountLo (by decide), show (fieldsMask countLoDesc.fields fun _ => true) = ~~~0 by decide,
    show (fieldsMask (regFields tickCountLo) fun f => f.acc == .wo) = 0 by decide, and_not_zero, and_not_zero]
  rfl

/-- A count has 48 bits: its high half fits COUNT_HI. -/
theorem countHigh_and (c : BitVec 48) : BitVec.ofNat 32 (c.toNat / 2 ^ 32) &&& 0xFFFF = BitVec.ofNat 32 (c.toNat / 2 ^ 32) := by
  have hlt : c.toNat / 2 ^ 32 < 2 ^ 16 := by omega
  apply BitVec.eq_of_toNat_eq
  rw [BitVec.toNat_and, BitVec.toNat_ofNat, Nat.mod_eq_of_lt (by omega)]
  exact Nat.and_two_pow_sub_one_of_lt_two_pow hlt

theorem regRead_tickCountHi (h : HostReady s src p tickCountHi) :
    regRead s src p tickCountHi = (s, captureOf s src tickCountHi &&& 0xFFFF) := by
  obtain ⟨-, -, -, hb, -⟩ := h
  have hr : ∀ f ∈ countHiDesc.fields, f.rights = .any := by decide
  rw [regRead_of_plain (accMask_of_regAt_none regAt_tickCountHi (by decide)) (by decide) (by decide) (regValue_tickCountHi s src p),
    rightMask_of_regBreach regAt_tickCountHi hr hb, show (fieldsMask countHiDesc.fields fun _ => true) = 0xFFFF by decide,
    show (fieldsMask (regFields tickCountHi) fun f => f.acc == .wo) = 0 by decide, and_not_zero]
end

/-! ## POLD.BRCNT (R404, R420) -/

def brcntDesc : RegDesc := ⟨0x100, [(4, 8)], [fd 31 0 .rc .sys 0]⟩

theorem regAt_poldBrcnt (q : Fin 8) : regAt (poldBrcnt q) = some (brcntDesc, [q.val]) := by revert q; decide
theorem blockNo_poldBrcnt (q : Fin 8) : blockNo (poldBrcnt q) = 4 := by revert q; decide
theorem placeOf_poldBrcnt (q : Fin 8) : placeOf (poldBrcnt q) = .register := by revert q; decide
theorem aligned_poldBrcnt (q : Fin 8) : poldBrcnt q % 4 = 0 := by revert q; decide
theorem seenBy_poldBrcnt (q : Fin 8) (p : Nat) : seenBy (poldBrcnt q) p = poldBrcnt q :=
  if_neg (by revert q; decide)
theorem regReset_poldBrcnt (q : Fin 8) : regReset (poldBrcnt q) = 0 := by revert q; decide

theorem regValue_poldBrcnt (s : State) (src : Source) (p : Nat) (q : Fin 8) :
    regValue s src p (poldBrcnt q) = (getReg s (poldBrcnt q), none) := by
  unfold regValue
  rw [regPlace_of_regAt (regAt_poldBrcnt q), blockNo_poldBrcnt]
  rfl

/-- A read of BRCNT shows the count and clears it. -/
theorem regRead_poldBrcnt {s : State} {src : Source} {p : Nat} {q : Fin 8} (h : HostReady s src p (poldBrcnt q)) :
    regRead s src p (poldBrcnt q) = (setBits s (poldBrcnt q) (~~~0) 0, getReg s (poldBrcnt q)) := by
  obtain ⟨-, -, -, hb, -⟩ := h
  have hr : ∀ f ∈ brcntDesc.fields, f.rights = .sys := by decide
  have hblock := blockNo_poldBrcnt q
  have hrc : accMask s p (poldBrcnt q) .rc = ~~~0 := accMask_of_regBreach (regAt_poldBrcnt q) hr hb .rc
  have hfields : regFields (poldBrcnt q) = brcntDesc.fields := by rw [regFields, regAt_poldBrcnt]
  unfold regRead
  rw [if_neg (by rw [hblock]; rintro ⟨h, -⟩; cases h)]
  dsimp only
  rw [regValue_poldBrcnt]
  dsimp only
  rw [if_neg (by rw [hblock]; decide), rightMask_of_regBreach (regAt_poldBrcnt q) hr hb, hfields]
  rw [clearOnRead_eq (by rw [hrc]; decide) (by rw [hblock]; decide), hrc, seenBy_poldBrcnt, regReset_poldBrcnt,
    show (fieldsMask brcntDesc.fields fun _ => true) = ~~~0 by decide, show (fieldsMask brcntDesc.fields fun f => f.acc == .wo) = 0 by decide,
    and_not_zero, and_not_zero]

/-! ## A breach (R404, R405) -/

/-- The polder of a source is one of the eight. -/
theorem sourcePolder_lt {s : State} {src : Source} {p : Nat} (h : sourcePolder s src = some p) : p < 8 := by
  have hbound (h : boundPolder s src = some p) : p < 8 := by
    obtain ⟨k, -, rfl⟩ := Option.map_eq_some_iff.mp h
    exact fget_lt _ poldBind_Polder
  unfold sourcePolder at h
  split at h
  · cases h; decide
  · split at h
    · cases h; decide
    · exact hbound h
  · split at h
    · split at h
      · cases h; decide
      · cases h
    · exact hbound h

/-- The first breach since the capture was read stands in it (R404). -/
def breachCapture (s : State) (p : Nat) (who : Who) (kind reason addr : Nat) : State :=
  if getB s (poldBrcaphi p) poldBrcaphi_Valid then s
  else
    setReg (setReg s (poldBrcaphi p) (fset (fset (fset (fset (fset (getReg s (poldBrcaphi p)) poldBrcaphi_Valid 1) poldBrcaphi_Reason reason)
      poldBrcaphi_Kind kind) poldBrcaphi_Src (whoCode who)) poldBrcaphi_Addr (addr / 2 ^ 32))) (poldBrcaplo p) (BitVec.ofNat 32 addr)

/-- A breach is counted, captured and kept in the dike; one that passes the limit is an event. -/
theorem breach_eq (s : State) (p : Nat) (who : Who) (kind reason addr : Nat) : ∃ (d : Dike) (first : Bool) (l : List Word),
    let t := { breachCapture (countF s (poldBrcnt p) poldBrcnt_Count 1) p who kind reason addr with dike := d }
    breach s p who kind reason addr = if first then event t 0x0502 2 p l else t := ⟨_, _, _, rfl⟩

theorem breachCapture_mem (s : State) (p : Nat) (who : Who) (kind reason addr : Nat) : (breachCapture s p who kind reason addr).mem = s.mem := by
  unfold breachCapture
  split <;> rfl

/-- A breach changes no memory. -/
theorem breach_mem (s : State) (p : Nat) (who : Who) (kind reason addr : Nat) : (breach s p who kind reason addr).mem = s.mem := by
  obtain ⟨d, first, l, h⟩ := breach_eq s p who kind reason addr
  rw [h]
  split
  · rw [event_mem]
    exact breachCapture_mem _ _ _ _ _ _
  · exact breachCapture_mem _ _ _ _ _ _

/-- Beyond its count a breach writes only the capture, and what a fault writes. -/
theorem sameReg_breach {s : State} {p a : Nat} (hf : ¬faultReg a) (hp : p < 8) (hlo : a ≠ poldBrcaplo p) (hhi : a ≠ poldBrcaphi p) (who : Who)
    (kind reason addr : Nat) : SameReg a (countF s (poldBrcnt p) poldBrcnt_Count 1) (breach s p who kind reason addr) := by
  obtain ⟨d, first, l, h⟩ := breach_eq s p who kind reason addr
  have hcap : SameReg a (countF s (poldBrcnt p) poldBrcnt_Count 1)
      (breachCapture (countF s (poldBrcnt p) poldBrcnt_Count 1) p who kind reason addr) := by
    unfold breachCapture
    split
    · exact SameReg.of_regs rfl
    · exact (sameReg_setReg _ _ hlo).trans (sameReg_setReg _ _ hhi)
  rw [h]
  split
  · exact (sameReg_event hf _ _ _ _ _ hp).trans hcap
  · exact hcap

/-- A field of a whole register is its word. -/
theorem fget_whole (w : Word) : fget w ⟨31, 0⟩ = w.toNat := by
  simp [fget, fldCard, Nat.mod_eq_of_lt w.isLt]

theorem fset_whole (w : Word) (v : Nat) : fset w ⟨31, 0⟩ v = BitVec.ofNat 32 v := by
  apply BitVec.eq_of_toNat_eq
  have := fget_fset_same w ⟨31, 0⟩ v (by decide)
  rw [fget_whole] at this
  rw [this, BitVec.toNat_ofNat]
  rfl

/-- BRCNT counts up to its highest value. -/
theorem getReg_countBrcnt (s : State) (q : Nat) : getReg (countF s (poldBrcnt q) poldBrcnt_Count 1) (poldBrcnt q) =
    BitVec.ofNat 32 (min 4294967295 ((getReg s (poldBrcnt q)).toNat + 1)) := by
  unfold countF setF getF
  rw [getReg_setReg_same, poldBrcnt_Count, fset_whole, fget_whole]
  rfl

theorem not_faultReg_poldBrcnt (q : Fin 8) : ¬faultReg (poldBrcnt q) := by
  have := q.isLt
  unfold faultReg
  simp only [poldBrcnt, pwmPstat, clnkPstat, fltSum, fltHkstat, fltPinstat, safeStat, safeOutst, poldEvdrop]
  rintro (⟨k, -, h⟩ | ⟨k, -, h⟩ | h | h | h | h | ⟨k, -, h⟩) <;> omega

/-- A breach of polder p counts in its own BRCNT and no other. -/
theorem getReg_breach_poldBrcnt {s : State} {p : Nat} (hp : p < 8) (q : Fin 8) (who : Who) (kind reason addr : Nat) :
    getReg (breach s p who kind reason addr) (poldBrcnt q) =
      if q.val = p then BitVec.ofNat 32 (min 4294967295 ((getReg s (poldBrcnt q)).toNat + 1)) else getReg s (poldBrcnt q) := by
  have hq := q.isLt
  have hother : getReg (breach s p who kind reason addr) (poldBrcnt q) = getReg (countF s (poldBrcnt p) poldBrcnt_Count 1) (poldBrcnt q) :=
    sameReg_breach (not_faultReg_poldBrcnt q) hp (by simp only [poldBrcnt, poldBrcaplo]; omega)
      (by simp only [poldBrcnt, poldBrcaphi]; omega) who kind reason addr
  rw [hother]
  split
  · rename_i h
    rw [h]
    exact getReg_countBrcnt s p
  · exact sameReg_countF s _ _ (by simp only [poldBrcnt]; omega)

/-- Only polder 0 has a right to a BRCNT. -/
theorem regBreach_poldBrcnt {s : State} {p : Nat} (hp : p ≠ 0) (q : Fin 8) : regBreach s p (poldBrcnt q) ≠ 0 := fun hb => by
  have hsys : hasRight s p (poldBrcnt q) .sys = true := hasRight_of_regBreach (regAt_poldBrcnt q) (by decide) hb
  exact hp (beq_iff_eq.mp hsys)

/-- The registers of POLD are no polder's resource. -/
theorem resourceOf_poldBrcnt (s : State) (q : Fin 8) : resourceOf s (poldBrcnt q) = none := by
  unfold resourceOf regOwner
  rw [regAt_poldBrcnt, blockNo_poldBrcnt]
  rfl

/-- Settles O26: PERIOD by its right, COUNT by the capture that COUNT_LO leaves, BRCNT by its clearing read and, without a right, by the
breach. -/
theorem registerReadsAnswer : Obligations.RegisterReadsAnswer := by
  intro s src p
  refine ⟨fun h => ?_, fun h => ?_, fun q h => ?_, fun q hruns hphase hsrc hp => ?_⟩
  · exact ⟨_, exec_registerRead h (by decide) (by decide) (regRead_tickPeriod h), answered_respond _ _, rfl, rfl⟩
  · refine ⟨_, exec_registerRead h (by decide) (by decide) (regRead_tickCountLo h), answered_respond _ _, rfl, rfl, fun u hu hready => ?_⟩
    have hcap : captureOf u src tickCountHi = BitVec.ofNat 32 (s.tick.count.toNat / 2 ^ 32) :=
      (captureOf_congr hu).trans (captureOf_setCapture s src tickCountHi _)
    have hread := regRead_tickCountHi hready
    rw [hcap, countHigh_and] at hread
    exact ⟨_, exec_registerRead hready (by decide) (by decide) hread, answered_respond _ _⟩
  · refine ⟨_, exec_registerRead h (placeOf_poldBrcnt q) (aligned_poldBrcnt q) (regRead_poldBrcnt h), answered_respond _ _, ?_, fun a ha => ?_, rfl⟩
    · rw [getReg_respond, getReg_setBits_same]
      simp
    · exact getReg_setBits_other s _ _ ha
  · refine ⟨_, exec_registerRead_breach hruns hphase hsrc (placeOf_poldBrcnt q) (aligned_poldBrcnt q) (resourceOf_poldBrcnt s q)
      (regBreach_poldBrcnt hp q), rfl, breach_mem _ _ _ _ _ _, ?_⟩
    exact getReg_breach_poldBrcnt (sourcePolder_lt hsrc) q _ _ _ _

end Sys2Proof.Proofs
end

section
/-! SUPPORT. Proofs. Host writes of registers by the access codes of their fields (R10). -/

namespace Sys2Proof.Proofs

open Sys2Proof.Machine Sys2Proof.Claims

/-- The place of a register is in its block. -/
theorem regPlace_fst (a : Nat) : (regPlace a).1 = blockNo a := by
  unfold regPlace
  split <;> rfl

/-- Each bit of a written register by the access code of its field (R10). -/
theorem getLsbD_writtenWord (s : State) (p a : Nat) (old w : Word) {i : Nat} (hi : i < 32) :
    (writtenWord old (accMask s p a .rw) (accMask s p a .w1c) w).getLsbD i =
      if (accMask s p a .rw).getLsbD i then w.getLsbD i else old.getLsbD i && !((accMask s p a .w1c).getLsbD i && w.getLsbD i) := by
  unfold writtenWord
  rw [BitVec.getLsbD_and, BitVec.getLsbD_or, BitVec.getLsbD_and, BitVec.getLsbD_and, BitVec.getLsbD_not, BitVec.getLsbD_not, BitVec.getLsbD_and]
  simp only [hi, decide_true, Bool.true_and]
  cases hrw : (accMask s p a .rw).getLsbD i with
  | true => simp [accMask_rw_w1c s p a i hrw]
  | false => simp

/-- The write of `w` at `a` by the source ends in `t` without an error and without a change of memory. -/
def Wrote (src : Source) (a : Nat) (w : Word) (s t : State) : Prop :=
  exec (.registerWrite src (BitVec.ofNat 40 a) w) s = .next t ∧ Answered t [] ∧ t.mem = s.mem

section
variable {s : State} {src : Source} {p a : Nat}

theorem respond_plainWrite_mem (s : State) (p a : Nat) (w : Word) : (respond (plainWrite s p a w) false []).mem = s.mem := by
  rw [respond_mem, plainWrite_mem]

/-- A write of a register without an action of its own is a plain write. -/
theorem wrote_idle (h : HostReady s src p a) (ha : placeOf a = .register) (h4 : a % 4 = 0)
    (hidle : ∀ (u : State) (x : Word), regAction u src p a x = (u, false)) (w : Word) :
    Wrote src a w s (respond (plainWrite s p a w) false []) :=
  ⟨exec_registerWrite h ha h4 (toNat_address ha) (regWrite_of_idle hidle w), answered_respond _ _, respond_plainWrite_mem s p a w⟩

/-- A register whose write has no action takes each bit by the access code of its field, and no other register changes (R10, R403). -/
theorem exec_registerWrite_byAccessCode {addr : BitVec 40} (h : HostReady s src p addr.toNat) (ha : placeOf addr.toNat = .register)
    (h4 : addr.toNat % 4 = 0) (hact : actionMask (blockNo addr.toNat) (regPlace addr.toNat).2.1 = 0)
    (hidle : ∀ (u : State) (x : Word), regAction u src p addr.toNat x = (u, false)) (w : Word) :
    ∃ t, exec (.registerWrite src addr w) s = .next t ∧ Answered t [] ∧ t.mem = s.mem ∧
      (∀ b, b ≠ seenBy addr.toNat p → getReg t b = getReg s b) ∧
      ∀ i < 32, (getReg t (seenBy addr.toNat p)).getLsbD i =
        if (accMask s p addr.toNat .rw).getLsbD i then w.getLsbD i
        else (getReg s (seenBy addr.toNat p)).getLsbD i && !((accMask s p addr.toNat .w1c).getLsbD i && w.getLsbD i) := by
  rw [← regPlace_fst] at hact
  refine ⟨_, exec_registerWrite h ha h4 rfl (regWrite_of_idle hidle w), answered_respond _ _, respond_plainWrite_mem s p _ w,
    fun b hb => ?_, fun i hi => ?_⟩
  · rw [getReg_respond, getReg_plainWrite hact, if_neg hb]
  · rw [getReg_respond, getReg_plainWrite hact, if_pos rfl, getLsbD_writtenWord s p _ _ w hi]
end

/-! ## PWM.CARPER (R299) -/

def carperDesc : RegDesc := ⟨0x80, [(4, 32)], [fd 27 4 .ws .own 60000, fd 3 0 .ws .own 0]⟩

theorem regAt_pwmCarper (k : Fin 32) : regAt (pwmCarper k) = some (carperDesc, [k.val]) := by revert k; decide
theorem blockNo_pwmCarper (k : Fin 32) : blockNo (pwmCarper k) = 10 := by revert k; decide
theorem placeOf_pwmCarper (k : Fin 32) : placeOf (pwmCarper k) = .register := by revert k; decide
theorem aligned_pwmCarper (k : Fin 32) : pwmCarper k % 4 = 0 := by revert k; decide

theorem regAction_pwmCarper (s : State) (src : Source) (p : Nat) (k : Fin 32) (w : Word) : regAction s src p (pwmCarper k) w = (s, false) := by
  unfold regAction
  rw [regPlace_of_regAt (regAt_pwmCarper k), blockNo_pwmCarper]
  rfl

/-- Both fields of CARPER are only staged. -/
theorem plainWrite_pwmCarper {s : State} {src : Source} {p : Nat} {k : Fin 32} (h : HostReady s src p (pwmCarper k)) (w : Word) :
    plainWrite s p (pwmCarper k) w = stageWrite s p (pwmCarper k) 0xFFFFFFF w := by
  obtain ⟨-, -, -, hb, -⟩ := h
  have hr : ∀ f ∈ carperDesc.fields, f.rights = .own := by decide
  have hws : accMask s p (pwmCarper k) .ws = 0xFFFFFFF := accMask_of_regBreach (regAt_pwmCarper k) hr hb .ws
  rw [plainWrite_of_staged (accMask_of_regAt_none (regAt_pwmCarper k) (by decide)) (accMask_of_regAt_none (regAt_pwmCarper k) (by decide)), hws]

/-- Words that agree on a field's bits have the same field. -/
theorem fget_congr {x y : Word} {f : Fld} (h : ∀ i, f.lo ≤ i → i ≤ f.hi → x.getLsbD i = y.getLsbD i) : fget x f = fget y f := by
  refine Nat.eq_of_testBit_eq fun i => ?_
  rw [testBit_fget, testBit_fget]
  by_cases hi : i < f.hi + 1 - f.lo
  · rw [h _ (by omega) (by omega)]
  · simp [hi]

/-- CARPER's staged bits. -/
theorem carperMask_bit {i : Nat} (hi : i ≤ 27) : (0xFFFFFFF : Word).getLsbD i = true := by
  have : ∀ j : Fin 28, (0xFFFFFFF : Word).getLsbD j = true := by decide
  exact this ⟨i, by omega⟩

/-- A write of CARPER stands staged for the polder, with both fields whole. -/
theorem staged_pwmCarper (s : State) (p : Nat) (k : Fin 32) (w : Word) :
    ∃ g ∈ (stageWrite s p (pwmCarper k) 0xFFFFFFF w).tick.staged, g.pol = p ∧ g.addr = pwmCarper k ∧
      fget g.val pwmCarper_Period = fget w pwmCarper_Period ∧ fget g.val pwmCarper_Frac = fget w pwmCarper_Frac ∧
      fget g.mask pwmCarper_Period = 0xFFFFFF ∧ fget g.mask pwmCarper_Frac = 15 := by
  obtain ⟨g, hg, hpol, haddr, hbits⟩ := stageWrite_new s p (pwmCarper k) (m := 0xFFFFFFF) w (by decide)
  have hval (f : Fld) (hf : f.hi ≤ 27) : fget g.val f = fget w f :=
    fget_congr fun i _ hi => (hbits i (carperMask_bit (by omega))).2
  have hmask (f : Fld) (hf : f.hi ≤ 27) : fget g.mask f = fget 0xFFFFFFF f :=
    fget_congr fun i _ hi => by rw [(hbits i (carperMask_bit (by omega))).1, carperMask_bit (by omega)]
  exact ⟨g, hg, hpol, haddr, hval _ (by decide), hval _ (by decide), hmask _ (by decide), hmask _ (by decide)⟩

/-- A write of CARPER only stages it, beside what other writes have staged (R68). -/
theorem wrote_pwmCarper {s : State} {src : Source} {p : Nat} {k : Fin 32} (h : HostReady s src p (pwmCarper k)) (w : Word) :
    ∃ t, Wrote src (pwmCarper k) w s t ∧ t.regs = s.regs ∧ t.tick.staged = (stageWrite s p (pwmCarper k) 0xFFFFFFF w).tick.staged := by
  have hwrote := wrote_idle h (placeOf_pwmCarper k) (aligned_pwmCarper k) (fun u x => regAction_pwmCarper u src p k x) w
  rw [plainWrite_pwmCarper h] at hwrote
  exact ⟨_, hwrote, (stageWrite_frame _ _ _ _ _).1, rfl⟩

/-! ## TICK.HOSTCOND (R63) -/

def hostcondDesc : RegDesc := ⟨0x120, [(4, 8)], [fd 15 0 .rw .own 0]⟩

theorem regAt_tickHostcond (q : Fin 8) : regAt (tickHostcond q) = some (hostcondDesc, [q.val]) := by revert q; decide
theorem blockNo_tickHostcond (q : Fin 8) : blockNo (tickHostcond q) = 2 := by revert q; decide
theorem placeOf_tickHostcond (q : Fin 8) : placeOf (tickHostcond q) = .register := by revert q; decide
theorem aligned_tickHostcond (q : Fin 8) : tickHostcond q % 4 = 0 := by revert q; decide
theorem seenBy_tickHostcond (q : Fin 8) (p : Nat) : seenBy (tickHostcond q) p = tickHostcond q :=
  if_neg (by revert q; decide)

theorem actionMask_tickHostcond (q : Fin 8) : actionMask (regPlace (tickHostcond q)).1 (regPlace (tickHostcond q)).2.1 = 0 := by
  rw [regPlace_of_regAt (regAt_tickHostcond q), blockNo_tickHostcond]
  rfl

/-- A write of HOSTCOND latches the polder's condition sources that are true then (R63). -/
theorem regAction_tickHostcond (s : State) (src : Source) (p : Nat) (q : Fin 8) (w : Word) :
    regAction s src p (tickHostcond q) w = (latchConds s q, false) := by
  unfold regAction
  rw [regPlace_of_regAt (regAt_tickHostcond q), blockNo_tickHostcond]
  rfl

/-- Latching condition sources changes no register and no memory. -/
theorem getReg_latchConds (s : State) (p b : Nat) : getReg (latchConds s p) b = getReg s b := rfl
theorem latchConds_mem (s : State) (p : Nat) : (latchConds s p).mem = s.mem := rfl

section
variable {s : State} {src : Source} {p : Nat} {q : Fin 8}

theorem regWrite_tickHostcond (h : HostReady s src p (tickHostcond q)) (w : Word) :
    regWrite s src p (tickHostcond q) w = (latchConds (plainWrite s p (tickHostcond q) w) q, false) := by
  obtain ⟨-, -, -, hb, -⟩ := h
  have hr : ∀ f ∈ hostcondDesc.fields, f.rights = .own := by decide
  rw [regWrite_of_right (by rw [rightMask_of_regBreach (regAt_tickHostcond q) hr hb]; decide), regAction_tickHostcond]

theorem getReg_plainWrite_tickHostcond (h : HostReady s src p (tickHostcond q)) (w : Word) (b : Nat) :
    getReg (plainWrite s p (tickHostcond q) w) b =
      if b = tickHostcond q then writtenWord (getReg s b) 0xFFFF 0 w else getReg s b := by
  obtain ⟨-, -, -, hb, -⟩ := h
  have hr : ∀ f ∈ hostcondDesc.fields, f.rights = .own := by decide
  have hrw : accMask s p (tickHostcond q) .rw = 0xFFFF := accMask_of_regBreach (regAt_tickHostcond q) hr hb .rw
  rw [getReg_plainWrite (actionMask_tickHostcond q), seenBy_tickHostcond, hrw, accMask_of_regAt_none (regAt_tickHostcond q) (by decide)]

/-- HOSTCOND.HC takes the value written. -/
theorem fget_writtenWord_hostcond (old w : Word) : fget (writtenWord old 0xFFFF 0 w) tickHostcond_Hc = fget w tickHostcond_Hc := by
  refine fget_congr fun i _ hi => ?_
  have hbit : ∀ j : Fin 16, (0xFFFF : Word).getLsbD j = true := by decide
  have hi16 : i < 16 := by simpa [tickHostcond_Hc, Nat.lt_succ_iff] using hi
  have hone : (0xFFFF : Word).getLsbD i = true := hbit ⟨i, hi16⟩
  have hlt : i < 32 := by omega
  unfold writtenWord
  rw [zero_and_word, and_not_zero, BitVec.getLsbD_or, BitVec.getLsbD_and, BitVec.getLsbD_and, BitVec.getLsbD_not, hone]
  simp [hlt]

/-- A write of HOSTCOND takes effect at once, and no other register changes. -/
theorem wrote_tickHostcond (h : HostReady s src p (tickHostcond q)) (w : Word) :
    ∃ t, Wrote src (tickHostcond q) w s t ∧ getF t (tickHostcond q) tickHostcond_Hc = fget w tickHostcond_Hc ∧
      ∀ a, a ≠ tickHostcond q → getReg t a = getReg s a := by
  have hrun := exec_registerWrite h (placeOf_tickHostcond q) (aligned_tickHostcond q) (toNat_address (placeOf_tickHostcond q))
    (regWrite_tickHostcond h w)
  refine ⟨_, ⟨hrun, answered_respond _ _, ?_⟩, ?_, fun a ha => ?_⟩
  · rw [respond_mem, latchConds_mem, plainWrite_mem]
  · unfold getF
    rw [getReg_respond, getReg_latchConds, getReg_plainWrite_tickHostcond h, if_pos rfl, fget_writtenWord_hostcond]
  · rw [getReg_respond, getReg_latchConds, getReg_plainWrite_tickHostcond h, if_neg ha]
end

/-! ## SYS.RSTCAUSE (R40) and TICK.COUNT_LO -/

def rstcauseDesc : RegDesc := ⟨0x4, [], [fd 3 3 .w1c .sys 0, fd 2 2 .w1c .sys 0, fd 1 1 .w1c .sys 0, fd 0 0 .w1c .sys 1]⟩

theorem regAt_sysRstcause : regAt sysRstcause = some (rstcauseDesc, []) := by decide

theorem regAction_sysRstcause (s : State) (src : Source) (p : Nat) (w : Word) : regAction s src p sysRstcause w = (s, false) := by
  unfold regAction
  rw [regPlace_of_regAt regAt_sysRstcause]
  rfl

/-- A bit of RSTCAUSE written 1 is cleared. -/
theorem getReg_plainWrite_sysRstcause {s : State} {src : Source} {p : Nat} (h : HostReady s src p sysRstcause) (w : Word) (b : Nat) :
    getReg (plainWrite s p sysRstcause w) b = if b = sysRstcause then getReg s b &&& ~~~(w &&& 15) else getReg s b := by
  obtain ⟨-, -, -, hb, -⟩ := h
  have hr : ∀ f ∈ rstcauseDesc.fields, f.rights = .sys := by decide
  have hw1c : accMask s p sysRstcause .w1c = 15 := accMask_of_regBreach regAt_sysRstcause hr hb .w1c
  have hword (old : Word) : writtenWord old 0 15 w = old &&& ~~~(w &&& 15) := by
    rw [writtenWord, and_not_zero, BitVec.and_comm 15 w]
    simp
  rw [getReg_plainWrite (by decide), show seenBy sysRstcause p = sysRstcause from rfl, hw1c, accMask_of_regAt_none regAt_sysRstcause (by decide), hword]

/-- A write of RSTCAUSE clears the bits written 1, and no other register changes. -/
theorem wrote_sysRstcause {s : State} {src : Source} {p : Nat} (h : HostReady s src p sysRstcause) (w : Word) :
    ∃ t, Wrote src sysRstcause w s t ∧ getReg t sysRstcause = getReg s sysRstcause &&& ~~~(w &&& 15) ∧
      ∀ a, a ≠ sysRstcause → getReg t a = getReg s a := by
  refine ⟨_, wrote_idle h (by decide) (by decide) (fun u x => regAction_sysRstcause u src p x) w, ?_, fun a ha => ?_⟩
  · rw [getReg_respond, getReg_plainWrite_sysRstcause h, if_pos rfl]
  · rw [getReg_respond, getReg_plainWrite_sysRstcause h, if_neg ha]

theorem regAction_tickCountLo (s : State) (src : Source) (p : Nat) (w : Word) : regAction s src p tickCountLo w = (s, false) := by
  unfold regAction
  rw [regPlace_of_regAt regAt_tickCountLo]
  rfl

/-- A register of ro fields takes nothing. -/
theorem plainWrite_tickCountLo (s : State) (p : Nat) (w : Word) : plainWrite s p tickCountLo w = s := by
  have hnone (c : Access) (hc : c ≠ .ro) : accMask s p tickCountLo c = 0 :=
    accMask_of_regAt_none regAt_tickCountLo fun f hf => by
      rw [List.mem_singleton.mp hf]
      exact hc.symm
  rw [plainWrite_of_staged (hnone _ (by decide)) (hnone _ (by decide)), hnone _ (by decide), stageWrite_zero]

/-- A write of COUNT_LO changes nothing. -/
theorem wrote_tickCountLo {s : State} {src : Source} {p : Nat} (h : HostReady s src p tickCountLo) (w : Word) :
    ∃ t, Wrote src tickCountLo w s t ∧ t.regs = s.regs ∧ t.tick = s.tick := by
  have hwrote := wrote_idle h (by decide) (by decide) (fun u x => regAction_tickCountLo u src p x) w
  rw [plainWrite_tickCountLo] at hwrote
  exact ⟨_, hwrote, rfl, rfl⟩

/-- Settles O28: a register without an action takes a plain write, bit by bit; CARPER is staged, HOSTCOND takes its value, RSTCAUSE is cleared
bit by bit, COUNT_LO stays. -/
theorem registerWritesByAccessCode : Obligations.RegisterWritesByAccessCode := by
  intro s src p v
  refine ⟨fun addr ha h4 h hact hidle => exec_registerWrite_byAccessCode h ha h4 hact hidle v, fun k h => ?_,
    fun q h => wrote_tickHostcond h v, fun h => wrote_sysRstcause h v, fun h => wrote_tickCountLo h v⟩
  obtain ⟨t, hwrote, hregs, hstaged⟩ := wrote_pwmCarper h v
  refine ⟨t, hwrote, hregs, ?_⟩
  rw [hstaged]
  exact ⟨staged_pwmCarper s p k v, fun g hg hother => mem_staged_stageWrite hg hother⟩

end Sys2Proof.Proofs
end

section
/-! SUPPORT. Proofs. Host accesses outside the register blocks: form, read-only windows, owner, reserved addresses, unbound sources. -/

namespace Sys2Proof.Proofs

open Sys2Proof.Machine Sys2Proof.Claims

/-! ## How a host's access ends -/

section
variable {s u : State} {src : Source} {write : Bool} {addr : BitVec 40} {len : BitVec 16} {data : List Word} {ecc : Ecc}

/-- An access that the dike executes. -/
theorem exec_hostMemoryAccess_ok (hruns : mainRuns s = true) {l : List Word}
    (h : hostRequest s src write addr.toNat len.toNat data ecc true = (u, .ok l)) :
    exec (.hostMemoryAccess src write addr len data ecc) s = .next (respond u false l) := by
  show Host.Outcome.next (request s src write addr.toNat len.toNat data ecc) = _
  unfold request
  rw [hruns, h]
  rfl

/-- An access that ends with an error response. -/
theorem exec_hostMemoryAccess_error (hruns : mainRuns s = true) {r : HostRes} (hr : r = .err ∨ r = .breach ∨ r = .unbound)
    (h : hostRequest s src write addr.toNat len.toNat data ecc true = (u, r)) :
    exec (.hostMemoryAccess src write addr len data ecc) s = .next (respond u true []) := by
  show Host.Outcome.next (request s src write addr.toNat len.toNat data ecc) = _
  unfold request
  rw [hruns, h]
  rcases hr with rfl | rfl | rfl <;> rfl
end

/-! ## The checks of R402 -/

/-- A host's request as an access of its polder. -/
def hostAcc (src : Source) (p : Nat) (write : Bool) (a n : Nat) (data : List Word) (ecc : Ecc) : Acc :=
  { p := p, who := sourceWho src, write := write, addr := a, len := n, data := data, gen := none, ecc := ecc }

section
variable {s : State} {src : Source} {p a n : Nat} {write : Bool} {data : List Word} {ecc : Ecc}

theorem hostRequest_unbound (hsrc : sourcePolder s src = none) :
    hostRequest s src write a n data ecc true = (unboundRequest s src a, .unbound) := by
  rw [hostRequest, hsrc]

theorem hostRequest_reserved (hsrc : sourcePolder s src = some p) (hplace : placeOf a = .reserved) :
    hostRequest s src write a n data ecc true = (unmapped s p write a, .err) := by
  rw [hostRequest, hsrc]
  exact if_pos hplace

/-- A bound source's request to a window goes through the checks of an access. -/
theorem hostRequest_window (hsrc : sourcePolder s src = some p) (hres : placeOf a ≠ .reserved) (hreg : placeOf a ≠ .register) :
    hostRequest s src write a n data ecc true =
      ((access s (hostAcc src p write a n data ecc)).1, hostResOf (access s (hostAcc src p write a n data ecc)).2) := by
  rw [hostRequest, hsrc]
  dsimp only
  rw [if_neg hres, if_neg (by decide), if_neg (by simpa using hreg)]
  rfl

/-- The rule of R25 for the form of an access outside the register blocks. -/
theorem formOk_iff : formOk a n = true ↔ a % 4 = 0 ∧ n % 4 = 0 ∧ 4 ≤ n ∧ n ≤ 256 ∧ a / 4096 = (a + n - 1) / 4096 := by
  simp only [formOk, Bool.and_eq_true, beq_iff_eq, decide_eq_true_eq, and_assoc]
end

section
variable {s : State} {x : Acc}

/-- An access of a wrong form is not executed (R25). -/
theorem access_of_wrong_form (hres : placeOf x.addr ≠ .reserved) (hphase : s.dev.phase ≠ .recovery)
    (hform : formOk x.addr x.len = false ∨ x.write = true ∧ x.data.length ≠ x.len / 4) : access s x = (s, .err) := by
  unfold access
  dsimp only
  rw [if_neg hres, if_neg fun h => hphase h.1]
  exact if_pos (hform.elim (fun h => .inr (.inl (by simp [h]))) fun h => .inr (.inr h))

theorem not_refused_form (hreg : placeOf x.addr ≠ .register) (hform : formOk x.addr x.len = true)
    (hlen : x.write = true → x.data.length = x.len / 4) :
    ¬(placeOf x.addr = .register ∨ !formOk x.addr x.len ∨ x.write ∧ x.data.length ≠ x.len / 4) := by
  rintro (h | h | ⟨h1, h2⟩)
  · exact hreg h
  · simp [hform] at h
  · exact h2 (hlen h1)

/-- Past the checks of address and form, what belongs to no polder is executed, but for a write to a window that is only read (R26). -/
theorem access_unowned (hres : placeOf x.addr ≠ .reserved) (hreg : placeOf x.addr ≠ .register) (hphase : s.dev.phase ≠ .recovery)
    (hform : formOk x.addr x.len = true) (hlen : x.write = true → x.data.length = x.len / 4) (hown : ownerOf s x.addr = none) :
    access s x = if x.write ∧ readOnly (placeOf x.addr) then (s, .err) else windowAccess s x := by
  simp only [access, if_neg hres, if_neg fun h : _ ∧ _ => hphase h.1, if_neg (not_refused_form hreg hform hlen), hown]

/-- What belongs to a polder is checked for its reset, its owner, and then executed likewise (R402). -/
theorem access_owned {o : Nat} (hres : placeOf x.addr ≠ .reserved) (hreg : placeOf x.addr ≠ .register) (hphase : s.dev.phase ≠ .recovery)
    (hform : formOk x.addr x.len = true) (hlen : x.write = true → x.data.length = x.len / 4) (hown : ownerOf s x.addr = some o) :
    access s x = if x.who ≠ .sluice ∧ placeOf x.addr ≠ .seq ∧ inReset s o then (s, .err)
      else if o ≠ x.p then (breach s x.p x.who (bit x.write) 2 x.addr, .breach)
      else if x.write ∧ readOnly (placeOf x.addr) then (s, .err) else windowAccess s x := by
  simp only [access, if_neg hres, if_neg fun h : _ ∧ _ => hphase h.1, if_neg (not_refused_form hreg hform hlen), hown]

/-- A write to a window that is only read is not executed, whether or not its owner is in reset (R26). -/
theorem access_readOnly_write (hres : placeOf x.addr ≠ .reserved) (hreg : placeOf x.addr ≠ .register) (hphase : s.dev.phase ≠ .recovery)
    (hwrite : x.write = true) (hro : readOnly (placeOf x.addr) = true) (hown : ownerOf s x.addr = none ∨ ownerOf s x.addr = some x.p) :
    access s x = (s, .err) := by
  have hrefused : x.write = true ∧ readOnly (placeOf x.addr) = true := ⟨hwrite, hro⟩
  by_cases hform : formOk x.addr x.len = true ∧ x.data.length = x.len / 4
  · rcases hown with h | h
    · rw [access_unowned hres hreg hphase hform.1 (fun _ => hform.2) h, if_pos hrefused]
    · rw [access_owned hres hreg hphase hform.1 (fun _ => hform.2) h, if_neg (c := x.p ≠ x.p) (by simp), if_pos hrefused, ite_self]
  · refine access_of_wrong_form hres hphase ?_
    by_cases h : formOk x.addr x.len = true
    · exact .inr ⟨hwrite, fun hlen => hform ⟨h, hlen⟩⟩
    · exact .inl (by simpa using h)
end

/-- Settles O59: both checks end the access before anything is executed, and an error response is all that follows. -/
theorem refusedFormsAreNotExecuted : Obligations.RefusedFormsAreNotExecuted := by
  intro s src p write addr len data ecc hruns hphase hsrc hres hreg a n form h
  have haccess : access s (hostAcc src p write a n data ecc) = (s, .err) := by
    rcases h with hform | ⟨hwrite, hro, hown⟩
    · exact access_of_wrong_form hres hphase (.inl (Bool.eq_false_iff.mpr fun hf => hform (formOk_iff.mp hf)))
    · exact access_readOnly_write hres hreg hphase hwrite hro hown
  refine exec_hostMemoryAccess_error hruns (.inl rfl) ?_
  rw [hostRequest_window hsrc hres hreg, haccess]
  rfl

/-! ## Memory after a write of words -/

/-- A write of words leaves every byte outside them alone. -/
theorem rdByte_wrWords_other (l : List Word) (s : State) {a i : Nat} (h : i < a ∨ a + 4 * l.length ≤ i) :
    rdByte (wrWords s a l) i = rdByte s i := by
  induction l generalizing s a with
  | nil => rfl
  | cons w t ih =>
    rw [List.length_cons] at h
    rw [wrWords, ih _ (by omega), rdByte_wrWord_other s w (by omega)]

/-- Words read what was written into them. -/
theorem rdWords_wrWords (l : List Word) (s : State) (a : Nat) : rdWords (wrWords s a l) a l.length = l := by
  induction l generalizing s a with
  | nil => rfl
  | cons w t ih =>
    have hfirst : rdWord (wrWords (wrWord s a w) (a + 4) t) a = w := by
      unfold rdWord
      rw [rdByte_wrWords_other _ _ (.inl (by omega)), rdByte_wrWords_other _ _ (.inl (by omega)),
        rdByte_wrWords_other _ _ (.inl (by omega)), rdByte_wrWords_other _ _ (.inl (by omega))]
      exact rdWord_wrWord_same s a w
    rw [wrWords, List.length_cons, rdWords, hfirst, ih]

theorem rdWords_respond (s : State) (err : Bool) (data : List Word) (a n : Nat) : rdWords (respond s err data) a n = rdWords s a n := by
  induction n generalizing a with
  | zero => rfl
  | succ n ih => rw [rdWords, rdWords, ih]; rfl

theorem wrWords_regs (l : List Word) (s : State) (a : Nat) : (wrWords s a l).regs = s.regs := by
  induction l generalizing s a with
  | nil => rfl
  | cons w t ih => rw [wrWords, ih, (wrWord_frame s a w).1]

/-! ## Memory segments (R402) -/

/-- The polder of the memory segment at an address. -/
def segOwner (s : State) (a : Nat) : Nat := resPol s (1024 + (a - 0x70000000) / 0x20000)

section
variable {s : State} {x : Acc}

theorem ownerOf_shared {a : Nat} (hplace : placeOf a = .shared) : ownerOf s a = some (segOwner s a) := by
  rw [ownerOf, hplace]
  rfl

/-- An access of the right form to a memory segment whose owner is not in reset: the polder's own memory, or a breach. -/
theorem access_shared (hplace : placeOf x.addr = .shared) (hphase : s.dev.phase ≠ .recovery) (hform : formOk x.addr x.len = true)
    (hlen : x.write = true → x.data.length = x.len / 4) (hreset : inReset s (segOwner s x.addr) = false) :
    access s x = if segOwner s x.addr = x.p then
        (if x.write then (wrWords s x.addr x.data, .ok []) else (s, .ok (rdWords s x.addr (x.len / 4))))
      else (breach s x.p x.who (bit x.write) 2 x.addr, .breach) := by
  have hwindow : windowAccess s x =
      if x.write then (wrWords s x.addr x.data, .ok []) else (s, .ok (rdWords s x.addr (x.len / 4))) := by
    rw [windowAccess, hplace]
    dsimp only
    rw [plainRead, hplace]
  rw [access_owned (by simp [hplace]) (by simp [hplace]) hphase hform hlen (ownerOf_shared hplace), hwindow, hplace, hreset]
  simp [readOnly]
end

/-! ## Reserved addresses and unbound sources (R27, R401) -/

/-- The first access to a reserved address since the capture was read stands in it (R45). -/
def unmappedCapture (s : State) (p : Nat) (write : Bool) (a : Nat) : State :=
  if getB s sysUnmapHi sysUnmapHi_Valid then s
  else
    setReg (setReg s sysUnmapHi (fset (fset (fset (fset (getReg s sysUnmapHi) sysUnmapHi_Valid 1) sysUnmapHi_Write (bit write))
      sysUnmapHi_Polder p) sysUnmapHi_Addr (a / 2 ^ 32))) sysUnmapLo (BitVec.ofNat 32 a)

/-- An access to a reserved address is counted, captured and noted. -/
theorem unmapped_eq (s : State) (p : Nat) (write : Bool) (a : Nat) : ∃ l,
    unmapped s p write a = notice (unmappedCapture (countF s sysUnmapHi sysUnmapHi_Count 1) p write a) 0x0101 0 l := ⟨_, rfl⟩

/-- The capture leaves the count alone. -/
theorem getF_unmappedCapture (s : State) (p : Nat) (write : Bool) (a : Nat) :
    getF (unmappedCapture s p write a) sysUnmapHi sysUnmapHi_Count = getF s sysUnmapHi sysUnmapHi_Count := by
  unfold unmappedCapture
  split
  · rfl
  · rw [getF_setReg_other _ _ _ (by decide)]
    unfold getF
    rw [getReg_setReg_same, fget_fset_other _ _ _ _ (by decide) (by decide) (by decide), fget_fset_other _ _ _ _ (by decide) (by decide) (by decide),
      fget_fset_other _ _ _ _ (by decide) (by decide) (by decide), fget_fset_other _ _ _ _ (by decide) (by decide) (by decide)]

theorem not_faultReg_sysUnmapHi : ¬faultReg sysUnmapHi := by
  unfold faultReg
  simp only [sysUnmapHi, pwmPstat, clnkPstat, fltSum, fltHkstat, fltPinstat, safeStat, safeOutst, poldEvdrop]
  rintro (⟨k, -, h⟩ | ⟨k, -, h⟩ | h | h | h | h | ⟨k, -, h⟩) <;> omega

/-- UNMAP counts the access, up to its highest value. -/
theorem getF_unmapped (s : State) (p : Nat) (write : Bool) (a : Nat) : getF (unmapped s p write a) sysUnmapHi sysUnmapHi_Count =
    min 65535 (getF s sysUnmapHi sysUnmapHi_Count + 1) := by
  obtain ⟨l, h⟩ := unmapped_eq s p write a
  have hnotice := sameReg_notice not_faultReg_sysUnmapHi (unmappedCapture (countF s sysUnmapHi sysUnmapHi_Count 1) p write a) 0x0101 0 l (by decide)
  rw [h, getF, hnotice]
  exact (getF_unmappedCapture _ _ _ _).trans (getF_countF s _ _ 1 (by decide))

theorem unmapped_mem (s : State) (p : Nat) (write : Bool) (a : Nat) : (unmapped s p write a).mem = s.mem := by
  obtain ⟨l, h⟩ := unmapped_eq s p write a
  rw [h, notice_mem, unmappedCapture]
  split <;> rfl

theorem not_faultReg_poldUnbound : ¬faultReg poldUnbound := by
  unfold faultReg
  simp only [poldUnbound, pwmPstat, clnkPstat, fltSum, fltHkstat, fltPinstat, safeStat, safeOutst, poldEvdrop]
  rintro (⟨k, -, h⟩ | ⟨k, -, h⟩ | h | h | h | h | ⟨k, -, h⟩) <;> omega

/-- UNBOUND counts the request, up to its highest value. -/
theorem getReg_unboundRequest (s : State) (src : Source) (a : Nat) : getReg (unboundRequest s src a) poldUnbound =
    BitVec.ofNat 32 (min 4294967295 ((getReg s poldUnbound).toNat + 1)) := by
  have hcount : getReg (countF s poldUnbound poldUnbound_Count 1) poldUnbound =
      BitVec.ofNat 32 (min 4294967295 ((getReg s poldUnbound).toNat + 1)) := by
    unfold countF setF getF
    rw [getReg_setReg_same, poldUnbound_Count, fset_whole, fget_whole]
    rfl
  refine Eq.trans ?_ hcount
  unfold unboundRequest
  dsimp only
  split
  · rfl
  · exact sameReg_notice not_faultReg_poldUnbound _ _ _ _ (by decide)

theorem unboundRequest_mem (s : State) (src : Source) (a : Nat) : (unboundRequest s src a).mem = s.mem := by
  unfold unboundRequest
  dsimp only
  split
  · rfl
  · rw [notice_mem]
    rfl

/-- Settles O27: a segment's owner reads and writes its words, another polder's access is a breach, a reserved address counts in UNMAP, an
unbound source in UNBOUND. -/
theorem memoryAccessesAreChecked : Obligations.MemoryAccessesAreChecked := by
  intro s src p addr len data ecc hruns a n seg ran
  refine ⟨fun hphase hsrc hplace hform hreset => ?_, fun hsrc hplace w => ?_, fun hsrc w => ?_⟩
  · have hwindow (w : Bool) (l : List Word) : hostRequest s src w a n l ecc true =
        ((access s (hostAcc src p w a n l ecc)).1, hostResOf (access s (hostAcc src p w a n l ecc)).2) :=
      hostRequest_window hsrc (by rw [hplace]; decide) (by rw [hplace]; decide)
    have haccess (w : Bool) (l : List Word) (hlen : w = true → l.length = n / 4) :=
      access_shared (s := s) (x := hostAcc src p w a n l ecc) hplace hphase hform hlen hreset
    refine ⟨fun hown => ⟨?_, fun hlen => ?_⟩, fun hforeign w => ?_⟩
    · have hread := (haccess false [] (by simp)).trans (if_pos hown)
      exact ⟨_, exec_hostMemoryAccess_ok hruns (by rw [hwindow, hread]; rfl), answered_respond _ _, rfl, rfl⟩
    · have hwrite := (haccess true data fun _ => hlen).trans (if_pos hown)
      have hn : a + 4 * data.length = a + n := by
        have := (formOk_iff.mp hform).2.1
        omega
      refine ⟨_, exec_hostMemoryAccess_ok hruns (u := wrWords s a data) (by rw [hwindow, hwrite]; rfl), answered_respond _ _,
        ?_, fun i hi => rdByte_wrWords_other data s (hn ▸ hi), wrWords_regs data s a⟩
      rw [rdWords_respond, ← hlen, rdWords_wrWords]
    · have hbreach := (haccess w (if w then List.replicate (n / 4) 0 else []) (by rintro rfl; simp)).trans (if_neg hforeign)
      refine ⟨_, exec_hostMemoryAccess_error hruns (.inr (.inl rfl)) (by rw [hwindow, hbreach]; rfl), rfl, breach_mem _ _ _ _ _ _, ?_⟩
      have hp := sourcePolder_lt hsrc
      exact (getReg_breach_poldBrcnt hp ⟨p, hp⟩ _ _ _ _).trans (if_pos rfl)
  · exact ⟨_, exec_hostMemoryAccess_error hruns (.inl rfl) (hostRequest_reserved hsrc hplace), rfl, unmapped_mem _ _ _ _, getF_unmapped _ _ _ _⟩
  · exact ⟨_, exec_hostMemoryAccess_error hruns (.inr (.inr rfl)) (hostRequest_unbound hsrc), rfl, unboundRequest_mem _ _ _,
      getReg_unboundRequest _ _ _⟩

end Sys2Proof.Proofs
end

section
/-! SUPPORT. Proofs. Command registers: a host's write of one is its action; reset requests, trace lane commands, readmission. -/

namespace Sys2Proof.Proofs

open Sys2Proof.Machine Sys2Proof.Claims

/-! ## Writes of command registers -/

/-- A register that takes no value of its own: no field is rw, w1c or ws. -/
def isCommand (d : RegDesc) : Bool := d.fields.all fun f => f.acc != .rw && f.acc != .w1c && f.acc != .ws

/-- A write of a command register has no plain effect. -/
theorem plainWrite_of_command {a : Nat} {d : RegDesc} {path : List Nat} (hat : regAt a = some (d, path)) (hd : isCommand d = true)
    (s : State) (p : Nat) (w : Word) : plainWrite s p a w = s := by
  have hf (f : FieldDesc) (h : f ∈ d.fields) : f.acc ≠ .rw ∧ f.acc ≠ .w1c ∧ f.acc ≠ .ws := by
    have := List.all_eq_true.mp hd f h
    simpa [and_assoc] using this
  rw [plainWrite_of_staged (accMask_of_regAt_none hat fun f h => (hf f h).1) (accMask_of_regAt_none hat fun f h => (hf f h).2.1),
    accMask_of_regAt_none hat fun f h => (hf f h).2.2, stageWrite_zero]

/-- A host's write of a register, all fields with one right, is its plain effect and then its action on the bits of its fields. -/
theorem hostWrite_action {s u : State} {src : Source} {p a : Nat} {d : RegDesc} {path : List Nat} {r : Rights} {w m : Word}
    (h : HostReady s src p a) (ha : placeOf a = .register) (h4 : a % 4 = 0) (hat : regAt a = some (d, path)) (hr : ∀ f ∈ d.fields, f.rights = r)
    (hm : (fieldsMask d.fields fun _ => true) = m) (hm0 : m ≠ 0) (hact : regAction (plainWrite s p a w) src p a (w &&& m) = (u, false)) :
    hostWrite s src a w = respond u false [] := by
  obtain ⟨-, -, -, hb, -⟩ := id h
  have hmask : rightMask s p a = m := (rightMask_of_regBreach hat hr hb).trans hm
  have hwrite : regWrite s src p a w = (u, false) := by
    rw [regWrite_of_right (by rw [hmask]; exact hm0), hmask, hact]
  rw [hostWrite_ready h ha h4, hwrite]
  rfl

/-- A host's write of a command register is its action. -/
theorem hostWrite_command {s u : State} {src : Source} {p a : Nat} {d : RegDesc} {path : List Nat} {r : Rights} {w m : Word}
    (h : HostReady s src p a) (ha : placeOf a = .register) (h4 : a % 4 = 0) (hat : regAt a = some (d, path)) (hr : ∀ f ∈ d.fields, f.rights = r)
    (hd : isCommand d = true) (hm : (fieldsMask d.fields fun _ => true) = m) (hm0 : m ≠ 0) (hact : regAction s src p a (w &&& m) = (u, false)) :
    hostWrite s src a w = respond u false [] :=
  hostWrite_action h ha h4 hat hr hm hm0 (by rw [plainWrite_of_command hat hd, hact])

/-! ## Reset requests (R37, R42) -/

theorem inReset_requestReset (s : State) (p : Nat) (c : ResetCause) (q : Nat) : inReset (requestReset s p c) q = inReset s q := by
  unfold requestReset
  split <;> rfl

/-- A reset request is noted for the polder it names, where that is not in reset and has none; no other request changes. -/
theorem resetReq_requestReset (s : State) (p : Nat) (c : ResetCause) (q : Nat) : cellFind (requestReset s p c).dev.resetReq q =
    if q = p then
      if inReset s q = true ∨ (cellFind s.dev.resetReq q).isSome = true then cellFind s.dev.resetReq q else some c
    else cellFind s.dev.resetReq q := by
  unfold requestReset
  by_cases hq : q = p
  · subst hq
    rw [if_pos rfl]
    by_cases h : (inReset s q || (cellFind s.dev.resetReq q).isSome) = true
    · rw [if_pos h, if_pos (by simpa using h)]
    · rw [if_neg h, if_neg (by simpa using h)]
      exact cellFind_put_same _ _ _
  · rw [if_neg hq]
    split
    · rfl
    · exact cellFind_put_other _ _ hq

theorem requestReset_regs (s : State) (p : Nat) (c : ResetCause) : (requestReset s p c).regs = s.regs := by
  unfold requestReset
  split <;> rfl

/-- The polders of a list get a reset request each, under the same condition. -/
theorem resetReq_forEach (l : List Nat) (s : State) (c : ResetCause) (q : Nat) :
    cellFind (forEach l s fun s q => requestReset s q c).dev.resetReq q =
    if q ∈ l then
      if inReset s q = true ∨ (cellFind s.dev.resetReq q).isSome = true then cellFind s.dev.resetReq q else some c
    else cellFind s.dev.resetReq q := by
  unfold forEach
  induction l generalizing s with
  | nil => simp
  | cons p t ih =>
    rw [List.foldl_cons, ih, inReset_requestReset, resetReq_requestReset]
    by_cases hp : q = p
    · subst hp
      simp only [if_true, List.mem_cons, true_or]
      by_cases hc : inReset s q = true ∨ (cellFind s.dev.resetReq q).isSome = true
      · simp only [if_pos hc, ite_self]
      · simp only [if_neg hc, Option.isSome_some, or_true, ite_self]
    · simp only [List.mem_cons, hp, false_or, if_false]

def prstDesc : RegDesc := ⟨0x8, [], [fd 7 0 .wo .sys 0]⟩
def prselfDesc : RegDesc := ⟨0xc, [], [fd 7 0 .wo .any 0]⟩

theorem regAt_sysPrst : regAt sysPrst = some (prstDesc, []) := by decide
theorem regAt_sysPrself : regAt sysPrself = some (prselfDesc, []) := by decide

theorem regAction_sysPrst (s : State) (src : Source) (p : Nat) (w : Word) :
    regAction s src p sysPrst w = (forEach ((upto 8).filter fun q => nbit w.toNat q) s fun s q => requestReset s q .prst, false) := by
  unfold regAction
  rw [regPlace_of_regAt regAt_sysPrst]
  rfl

theorem regAction_sysPrself (s : State) (src : Source) (p : Nat) (w : Word) :
    regAction s src p sysPrself w = (if w.toNat % 256 = 0x5A then requestReset s p .prself else s, false) := by
  unfold regAction
  rw [regPlace_of_regAt regAt_sysPrself]
  rfl

/-- A byte fills the field of its command register. -/
theorem setWidth_and_byte (x : BitVec 8) : x.setWidth 32 &&& (0xFF : Word) = x.setWidth 32 := by
  refine BitVec.eq_of_getLsbD_eq fun i _ => ?_
  have hbit : ∀ j : Fin 8, (0xFF : Word).getLsbD j = true := by decide
  rw [BitVec.getLsbD_and, BitVec.getLsbD_setWidth]
  by_cases hi : i < 8
  · rw [hbit ⟨i, hi⟩, Bool.and_true]
  · simp [BitVec.getLsbD_of_ge x i (by omega)]

theorem toNat_setWidth_byte (x : BitVec 8) : (x.setWidth 32).toNat = x.toNat := by
  rw [BitVec.toNat_setWidth, Nat.mod_eq_of_lt (by omega)]

section
variable {s : State} {src : Source} {p : Nat}

/-- The polders that a PRST write names. -/
def prstPolders (mask : BitVec 8) : List Nat := (upto 8).filter fun q => nbit mask.toNat q

theorem mem_prstPolders {mask : BitVec 8} {q : Nat} : q ∈ prstPolders mask ↔ q < 8 ∧ mask.getLsbD q = true := by
  rw [prstPolders, List.mem_filter, mem_upto, nbit_eq_testBit, BitVec.testBit_toNat]

theorem exec_sysPrst (h : HostReady s src p sysPrst) (mask : BitVec 8) :
    exec (.sysPrst src mask) s = .next (respond (forEach (prstPolders mask) s fun s q => requestReset s q .prst) false []) := by
  have hr : ∀ f ∈ prstDesc.fields, f.rights = .sys := by decide
  refine congrArg Host.Outcome.next (hostWrite_command (m := 0xFF) h (by decide) (by decide) regAt_sysPrst hr (by decide) (by decide) (by decide) ?_)
  rw [regAction_sysPrst, setWidth_and_byte, toNat_setWidth_byte]
  rfl

theorem exec_sysPrself (h : HostReady s src p sysPrself) (key : BitVec 8) :
    exec (.sysPrself src key) s = .next (respond (if key = 0x5A then requestReset s p .prself else s) false []) := by
  have hr : ∀ f ∈ prselfDesc.fields, f.rights = .any := by decide
  refine congrArg Host.Outcome.next (hostWrite_command (m := 0xFF) h (by decide) (by decide) regAt_sysPrself hr (by decide) (by decide) (by decide) ?_)
  have hkey : key.toNat % 256 = 0x5A ↔ key = 0x5A := by
    rw [Nat.mod_eq_of_lt key.isLt, ← BitVec.toNat_inj]
    rfl
  rw [regAction_sysPrself, setWidth_and_byte, toNat_setWidth_byte]
  simp only [hkey]
end

/-! ## Trace lane commands (R160) -/

/-- An engine's registers stand at the same offset of each engine space (R129). -/
theorem regAt_engine {o : Nat} {x : RegDesc × List Nat} (h : findReg engRegs (0x40000 + o) = some x) (ho : o < 0x100) (e : Fin 256) :
    regAt (0x50040000 + o + 0x100000 * e) = some x := by
  have he := e.isLt
  rw [regAt, if_neg (by omega), if_pos (by omega), show (0x50040000 + o + 0x100000 * e.val) % 0x100000 = 0x40000 + o by omega, h]

theorem placeOf_engine {o : Nat} (ho : o < 0x100) (e : Fin 256) : placeOf (0x50040000 + o + 0x100000 * e) = .register := by
  have he := e.isLt
  rw [placeOf, if_neg (by omega), if_neg (by omega), if_neg (by omega), if_neg (by omega), if_pos (by omega)]
  dsimp only
  rw [if_neg (by omega), if_neg (by omega), if_pos (by omega)]

theorem blockNo_engine {o : Nat} (ho : o < 0x100) (e : Fin 256) : blockNo (0x50040000 + o + 0x100000 * e) = 255 := by
  have he := e.isLt
  rw [blockNo, if_neg (by omega)]

/-- The engine of a register in an engine space. -/
theorem engine_of_address {o : Nat} (ho : o < 0x100) (e : Fin 256) : (0x50040000 + o + 0x100000 * e.val - 0x50000000) / 0x100000 = e := by
  omega

def trcmdDesc : RegDesc := ⟨0x40044, [], [fd 1 0 .wo .own 0]⟩
def placeDesc : RegDesc :=
  ⟨0x40010, [], [fd 31 24 .ro .own 0, fd 15 8 .wo .own 0, fd 7 7 .ro .own 0, fd 6 6 .ro .own 0, fd 5 4 .ro .own 0, fd 1 0 .ro .own 0]⟩

theorem regAt_engTrcmd (e : Fin 256) : regAt (engTrcmd e) = some (trcmdDesc, []) := regAt_engine (o := 0x44) (by decide) (by decide) e
theorem regAt_engPlace (e : Fin 256) : regAt (engPlace e) = some (placeDesc, []) := regAt_engine (o := 0x10) (by decide) (by decide) e
theorem aligned_engTrcmd (e : Fin 256) : engTrcmd e % 4 = 0 := by unfold engTrcmd; omega
theorem aligned_engPlace (e : Fin 256) : engPlace e % 4 = 0 := by unfold engPlace; omega

theorem regAction_engTrcmd (s : State) (src : Source) (p : Nat) (e : Fin 256) (w : Word) :
    regAction s src p (engTrcmd e) w = (trcmdWrite s e (w.toNat % 4), false) := by
  unfold regAction
  rw [regPlace_of_regAt (regAt_engTrcmd e), show blockNo (engTrcmd e) = 255 from blockNo_engine (o := 0x44) (by decide) e]
  show (trcmdWrite s ((engTrcmd e - 0x50000000) / 0x100000) _, false) = _
  rw [show (engTrcmd e - 0x50000000) / 0x100000 = e from engine_of_address (o := 0x44) (by decide) e]

theorem regAction_engPlace (s : State) (src : Source) (p : Nat) (e : Fin 256) (w : Word) :
    regAction s src p (engPlace e) w = (readmitWrite s e (w.toNat / 256 % 256), false) := by
  unfold regAction
  rw [regPlace_of_regAt (regAt_engPlace e), show blockNo (engPlace e) = 255 from blockNo_engine (o := 0x10) (by decide) e]
  show (readmitWrite s ((engPlace e - 0x50000000) / 0x100000) _, false) = _
  rw [show (engPlace e - 0x50000000) / 0x100000 = e from engine_of_address (o := 0x10) (by decide) e]

section
variable {s : State} {src : Source} {p : Nat} {e : Fin 256}

/-- A write of TRCMD leaves a command for the lane, until the next edge. -/
theorem hostWrite_engTrcmd (h : HostReady s src p (engTrcmd e)) (c : Fin 4) (hc : c ≠ 0) :
    hostWrite s src (engTrcmd e) (BitVec.ofNat 32 c) = respond (setLane s e { getLane s e with cmd := c }) false [] := by
  have hr : ∀ f ∈ trcmdDesc.fields, f.rights = .own := by decide
  have hword : ∀ c : Fin 4, c ≠ 0 → (BitVec.ofNat 32 c &&& (3 : Word)).toNat % 4 = c ∧ c.val ≠ 0 := by decide
  refine hostWrite_command (m := 3) h (placeOf_engine (o := 0x44) (by decide) e) (aligned_engTrcmd e) (regAt_engTrcmd e) hr (by decide) (by decide)
    (by decide) ?_
  rw [regAction_engTrcmd, (hword c hc).1, trcmdWrite, if_neg (hword c hc).2]

/-- What a lane command leaves: the lane's command waits, nothing else changes. -/
def LaneAsked (s t : State) (e c : Nat) : Prop :=
  Answered t [] ∧ getLane t e = { getLane s e with cmd := c } ∧ (∀ d, d ≠ e → getLane t d = getLane s d) ∧ t.regs = s.regs ∧ t.mem = s.mem

theorem laneAsked_setLane (s : State) (e c : Nat) : LaneAsked s (respond (setLane s e { getLane s e with cmd := c }) false []) e c :=
  ⟨answered_respond _ _, getLane_setLane_same s e _, fun _ hd => getLane_setLane_other s _ hd, rfl, rfl⟩

/-- TRACE_ARM, TRACE_DISARM and TRACE_FORCE. -/
theorem exec_laneCommand (h : HostReady s src p (engTrcmd e)) (x : Instr × Nat)
    (hx : x ∈ [(Instr.traceArm src e, 1), (.traceDisarm src e, 2), (.traceForce src e, 3)]) :
    ∃ t, exec x.1 s = .next t ∧ LaneAsked s t e x.2 := by
  simp only [List.mem_cons, List.not_mem_nil, or_false] at hx
  rcases hx with rfl | rfl | rfl
  · exact ⟨_, congrArg Host.Outcome.next (hostWrite_engTrcmd h 1 (by decide)), laneAsked_setLane s e 1⟩
  · exact ⟨_, congrArg Host.Outcome.next (hostWrite_engTrcmd h 2 (by decide)), laneAsked_setLane s e 2⟩
  · exact ⟨_, congrArg Host.Outcome.next (hostWrite_engTrcmd h 3 (by decide)), laneAsked_setLane s e 3⟩

/-! ## Readmission (R127) -/

theorem exec_readmit (h : HostReady s src p (engPlace e)) : exec (.readmit src e) s = .next (respond (readmitWrite s e 0xA5) false []) := by
  have hr : ∀ f ∈ placeDesc.fields, f.rights = .own := by decide
  refine congrArg Host.Outcome.next (hostWrite_command (m := 0xFF00FFF3) h (placeOf_engine (o := 0x10) (by decide) e) (aligned_engPlace e)
    (regAt_engPlace e) hr (by decide) (by decide) (by decide) ?_)
  rw [regAction_engPlace]
  rfl
end

/-- A readmission changes only the engine's group. -/
theorem readmitWrite_frame (s : State) (e v : Nat) : (readmitWrite s e v).regs = s.regs ∧ (readmitWrite s e v).mem = s.mem := by
  unfold readmitWrite
  split
  · split
    · dsimp only
      split <;> exact ⟨rfl, rfl⟩
    · exact ⟨rfl, rfl⟩
  · exact ⟨rfl, rfl⟩

theorem readmitWrite_not_retired {s : State} {e : Nat} (hret : getB s (engPlace e) engPlace_Retired = false) : readmitWrite s e 0xA5 = s := by
  rw [readmitWrite, if_neg (by simp [hret])]

/-- A retired engine is noted for readmission to its group, unless one of it waits or is seeded (assumption log 81). -/
theorem getGroup_readmitWrite {s : State} {e k : Nat} {g : Group} (hret : getB s (engPlace e) engPlace_Retired = true)
    (hgroup : groupOf s e = some (k, g)) : (∀ j, j ≠ k → getGroup (readmitWrite s e 0xA5) j = getGroup s j) ∧
      getGroup (readmitWrite s e 0xA5) k =
        if (getGroup s k).readmit.isSome || seeding (getGroup s k) then getGroup s k else { getGroup s k with readmit := some e } := by
  have hwrite : readmitWrite s e 0xA5 =
      if (getGroup s k).readmit.isSome || seeding (getGroup s k) then s else setGroup s k { getGroup s k with readmit := some e } := by
    rw [readmitWrite, if_pos ⟨rfl, hret⟩, hgroup]
  rw [hwrite]
  split
  · exact ⟨fun _ _ => rfl, rfl⟩
  · exact ⟨fun _ hj => getGroup_setGroup_other s _ hj, getGroup_setGroup_same s k _⟩

/-- Settles O30: PRST and PRSELF ask for resets, TRCMD leaves the lane its command, READMIT notes a retired engine for its group. -/
theorem resetRequestsAndLaneCommands : Obligations.ResetRequestsAndLaneCommands := by
  constructor
  · intro s src p asked
    refine ⟨fun mask h => ?_, fun key h => ?_⟩
    · refine ⟨_, exec_sysPrst h mask, answered_respond _ _, fun q hq => ?_, fun q hq => ?_, ?_, ?_⟩
      · exact (resetReq_forEach _ s .prst q).trans (if_pos (mem_prstPolders.mpr ⟨q.isLt, hq⟩))
      · refine (resetReq_forEach _ s .prst q).trans (if_neg fun hmem => ?_)
        obtain ⟨hlt, hbit⟩ := mem_prstPolders.mp hmem
        rcases hq with hge | hclear
        · omega
        · simp [hclear] at hbit
      · exact forEach_keeps (·.regs) _ s _ fun s q => requestReset_regs s q .prst
      · exact forEach_keeps (·.mem) _ s _ fun s q => congrArg (·.mem) (calm_requestReset s q .prst)
    · refine ⟨_, exec_sysPrself h key, answered_respond _ _, ?_⟩
      by_cases hkey : key = 0x5A
      · rw [if_pos hkey, if_pos hkey]
        exact ⟨requestReset_regs s p _, congrArg (·.mem) (calm_requestReset s p .prself), (resetReq_requestReset s p .prself p).trans (if_pos rfl)⟩
      · rw [if_neg hkey, if_neg hkey]
        exact ⟨rfl, rfl, rfl⟩
  · intro s src p e
    refine ⟨fun h x hx => exec_laneCommand h x hx, fun h => ?_⟩
    refine ⟨_, exec_readmit h, answered_respond _ _, (readmitWrite_frame s e _).1, (readmitWrite_frame s e _).2, ?_⟩
    by_cases hret : getB s (engPlace e) engPlace_Retired = true
    · rw [if_pos hret]
      exact fun k g hgroup => getGroup_readmitWrite hret hgroup
    · rw [if_neg hret, readmitWrite_not_retired (by simpa using hret)]
      rfl

end Sys2Proof.Proofs
end

section
/-! SUPPORT. Proofs. Clears of trips, of pairs and of cell-link ports (R292, R324): what a clear leaves of each latched cause. -/

namespace Sys2Proof.Proofs

open Sys2Proof.Machine Sys2Proof.Claims

/-! ## A write that leaves every register's word -/

/-- The same machine: its registers read alike, though they may be listed otherwise. -/
def Relisted (s u : State) : Prop := (∃ r, u = { s with regs := r }) ∧ ∀ b, getReg u b = getReg s b

theorem relisted_refl (s : State) : Relisted s s := ⟨⟨s.regs, rfl⟩, fun _ => rfl⟩

/-- Clearing no bits of a register leaves its word. -/
theorem relisted_setBits_none (s : State) (k : Nat) : Relisted s (setBits s k 0 0) := by
  refine ⟨⟨_, rfl⟩, fun b => ?_⟩
  by_cases hb : b = k
  · subst hb
    rw [getReg_setBits_same, and_not_zero]
    simp
  · exact getReg_setBits_other s _ _ hb

/-- A write that clears no bit, of a register without rw and ws fields, has no plain effect. -/
theorem relisted_plainWrite {s : State} {p a : Nat} {d : RegDesc} {path : List Nat} {r : Rights} {w : Word} (hat : regAt a = some (d, path))
    (hr : ∀ f ∈ d.fields, f.rights = r) (hb : regBreach s p a = 0) (hrw : ∀ f ∈ d.fields, f.acc ≠ .rw) (hws : ∀ f ∈ d.fields, f.acc ≠ .ws)
    (hw : (fieldsMask d.fields fun f => f.acc == .w1c) &&& ~~~(actionMask (blockNo a) d.off) &&& w = 0) : Relisted s (plainWrite s p a w) := by
  have hstage (u : State) : wsMask u p a = 0 := accMask_of_regAt_none hat hws
  unfold plainWrite
  rw [regPlace_of_regAt hat]
  dsimp only
  rw [accMask_of_regAt_none hat hrw, zero_and_word, if_pos rfl, accMask_of_regBreach hat hr hb .w1c, hstage, stageWrite_zero, hw]
  split
  · exact relisted_refl s
  · exact relisted_setBits_none s _

/-! ## What a notice leaves alone -/

/-- A notice changes only the recorder, the count of free values and, where its scope's queue is full, that scope's EVDROP. -/
theorem notice_shape (s : State) (code scope : Nat) (l : List Word) :
    (∃ rg rec fr, notice s code scope l = { s with regs := rg, recorder := rec, free := fr }) ∧
      ∀ b, b ≠ poldEvdrop scope → getReg (notice s code scope l) b = getReg s b := by
  unfold notice enqueue enqueueKeep nextFree
  dsimp only
  split
  · split <;> exact ⟨⟨_, _, _, rfl⟩, fun _ _ => rfl⟩
  · split
    · exact ⟨⟨_, _, _, rfl⟩, fun _ hb => getReg_setF_other _ poldEvdrop_Count _ hb⟩
    · exact ⟨⟨_, _, _, rfl⟩, fun _ _ => rfl⟩

/-! ## PWM.PSTAT -/

/-- The fields of PSTAT. -/
def pstatFields : List Fld :=
  [pwmPstat_Blv, pwmPstat_Alv, pwmPstat_Clamp, pwmPstat_Fact, pwmPstat_Safe, pwmPstat_Rst, pwmPstat_Pin, pwmPstat_Cmp, pwmPstat_Tripped]

theorem fldOk_of_pstatFields : ∀ f ∈ pstatFields, fldOk f = true := by decide

theorem fldApart_of_pstatFields : ∀ f ∈ pstatFields, ∀ g ∈ pstatFields, g ≠ f → fldApart f g = true := by decide

/-- A field of PSTAT that is written reads back, and the others stay. -/
theorem getB_setB_pstat (s : State) (a : Nat) {f g : Fld} (b : Bool) (hf : f ∈ pstatFields) (hg : g ∈ pstatFields) :
    getB (setB s a f b) a g = if g = f then b else getB s a g := by
  split
  · rename_i h
    subst h
    exact getB_setB_same s a g b (fldOk_of_pstatFields g hg)
  · rename_i h
    exact getB_setB_field s a f g b (fldOk_of_pstatFields f hf) (fldOk_of_pstatFields g hg) (fldApart_of_pstatFields f hf g hg h)

/-- The latched causes of a trip, and TRIPPED (R291). -/
def tripFields : List Fld := [pwmPstat_Safe, pwmPstat_Rst, pwmPstat_Pin, pwmPstat_Cmp, pwmPstat_Tripped]

theorem mem_pstatFields_of_trip : ∀ f ∈ tripFields, f ∈ pstatFields := by decide

/-! ## What an effect on one pair leaves alone -/

/-- An effect on pair `p` leaves the other pairs alone, what the outputs depend on, and every register but the pair's PSTAT and the EVDROP of
its polder. -/
structure PairOnly (s t : State) (p : Nat) : Prop where
  mem : t.mem = s.mem
  img : t.img = s.img
  dev : t.dev = s.dev
  flt : t.flt = s.flt
  other : ∀ r, r ≠ p → getPair t r = getPair s r
  regs : ∀ b, b ≠ pwmPstat p → b ≠ poldEvdrop (resPol s (resPair p)) → getReg t b = getReg s b

theorem PairOnly.refl (s : State) (p : Nat) : PairOnly s s p := ⟨rfl, rfl, rfl, rfl, fun _ _ => rfl, fun _ _ _ => rfl⟩

theorem resPol_of_img {s t : State} (h : t.img = s.img) (r : Nat) : resPol t r = resPol s r := by
  unfold resPol
  rw [h]

theorem PairOnly.trans {s t u : State} {p : Nat} (h2 : PairOnly t u p) (h1 : PairOnly s t p) : PairOnly s u p where
  mem := h2.mem.trans h1.mem
  img := h2.img.trans h1.img
  dev := h2.dev.trans h1.dev
  flt := h2.flt.trans h1.flt
  other r hr := (h2.other r hr).trans (h1.other r hr)
  regs b hb hdrop := (h2.regs b hb (by rw [resPol_of_img h1.img]; exact hdrop)).trans (h1.regs b hb hdrop)

theorem pairOnly_setB (s : State) (p : Nat) (f : Fld) (b : Bool) : PairOnly s (setB s (pwmPstat p) f b) p :=
  ⟨rfl, rfl, rfl, rfl, fun _ _ => rfl, fun _ hb _ => getReg_setB_other s f b hb⟩

theorem pairOnly_setPair (s : State) (p : Nat) (q : Pair) : PairOnly s (setPair s p q) p :=
  ⟨rfl, rfl, rfl, rfl, fun _ hr => getPair_setPair_other s q hr, fun _ _ _ => rfl⟩

theorem pairOnly_ite {s t u : State} {p : Nat} (c : Prop) [Decidable c] (ht : PairOnly s t p) (hu : PairOnly s u p) :
    PairOnly s (if c then t else u) p := by
  split
  · exact ht
  · exact hu

theorem pairOnly_notice (s : State) (p code : Nat) (l : List Word) : PairOnly s (notice s code (resPol s (resPair p)) l) p := by
  obtain ⟨⟨rg, rec, fr, h⟩, hreg⟩ := notice_shape s code (resPol s (resPair p)) l
  refine ⟨?_, ?_, ?_, ?_, fun r _ => ?_, fun b _ hdrop => hreg b hdrop⟩ <;> rw [h]
  rfl

/-! ## The causes that a clear ends (R292) -/

section
variable (s : State) (p : Nat)

/-- PIN ends where no active input names the pair. -/
def clearPin : State :=
  if (activeTrips s p).isEmpty then setPair (setB s (pwmPstat p) pwmPstat_Pin false) p { getPair s p with pinHeld := false } else s

/-- CMP ends where no comparator that the pair names is latched. -/
def clearCmp : State :=
  if namedCmpSet s p then s else setPair (setB s (pwmPstat p) pwmPstat_Cmp false) p { getPair s p with cmpActs := false }

/-- Ticks run, and the polder is neither in reset nor isolated. -/
def polderCalm (q : Nat) : Bool := s.dev.tickRun && !inReset s q && !s.flt.isol.contains q

/-- RST ends where the pair's polder `q` is calm. -/
def clearRst (q : Nat) : State := if polderCalm s q then setB s (pwmPstat p) pwmPstat_Rst false else s

/-- SAFE ends where pulse enable is back. -/
def clearSafe : State := if getB s safeStat safeStat_Pen then setB s (pwmPstat p) pwmPstat_Safe false else s

/-- All four. -/
def clearCauses : State := clearSafe (clearRst (clearCmp (clearPin s p) p) p (resPol s (resPair p))) p

/-- A pair whose trip was cleared: what waits, waits for the period start. -/
def noteCleared (was : Bool) : State :=
  if was && !getB s (pwmPstat p) pwmPstat_Tripped then setPair s p { getPair s p with cleared := true } else s

theorem tripClear_eq : tripClear s p = pairRefresh (applyForce
    (noteCleared (settleTripped (clearCauses s p) p) p (getB (clearCauses s p) (pwmPstat p) pwmPstat_Tripped)) p) p false := rfl
end

section
variable {s : State} {p : Nat}

theorem pairOnly_clearPin : PairOnly s (clearPin s p) p :=
  pairOnly_ite _ ((pairOnly_setPair _ p _).trans (pairOnly_setB s p _ _)) (PairOnly.refl s p)

theorem pairOnly_clearCmp : PairOnly s (clearCmp s p) p :=
  pairOnly_ite _ (PairOnly.refl s p) ((pairOnly_setPair _ p _).trans (pairOnly_setB s p _ _))

theorem pairOnly_clearRst (q : Nat) : PairOnly s (clearRst s p q) p := pairOnly_ite _ (pairOnly_setB s p _ _) (PairOnly.refl s p)
theorem pairOnly_clearSafe : PairOnly s (clearSafe s p) p := pairOnly_ite _ (pairOnly_setB s p _ _) (PairOnly.refl s p)

theorem pairOnly_clearCauses : PairOnly s (clearCauses s p) p :=
  pairOnly_clearSafe.trans ((pairOnly_clearRst _).trans (pairOnly_clearCmp.trans pairOnly_clearPin))

variable {g : Fld}

theorem getB_clearPin (hg : g ∈ pstatFields) : getB (clearPin s p) (pwmPstat p) g =
    if g = pwmPstat_Pin then getB s (pwmPstat p) g && !(activeTrips s p).isEmpty else getB s (pwmPstat p) g := by
  unfold clearPin
  cases (activeTrips s p).isEmpty with
  | false => simp
  | true =>
    refine (getB_setB_pstat s _ false (by decide) hg).trans ?_
    simp

theorem getB_clearCmp (hg : g ∈ pstatFields) : getB (clearCmp s p) (pwmPstat p) g =
    if g = pwmPstat_Cmp then getB s (pwmPstat p) g && namedCmpSet s p else getB s (pwmPstat p) g := by
  unfold clearCmp
  cases namedCmpSet s p with
  | true => simp
  | false =>
    refine (getB_setB_pstat s _ false (by decide) hg).trans ?_
    simp

theorem getB_clearRst (q : Nat) (hg : g ∈ pstatFields) : getB (clearRst s p q) (pwmPstat p) g =
    if g = pwmPstat_Rst then getB s (pwmPstat p) g && !polderCalm s q else getB s (pwmPstat p) g := by
  unfold clearRst
  cases polderCalm s q with
  | false => simp
  | true =>
    refine (getB_setB_pstat s _ false (by decide) hg).trans ?_
    simp

theorem getB_clearSafe (hg : g ∈ pstatFields) : getB (clearSafe s p) (pwmPstat p) g =
    if g = pwmPstat_Safe then getB s (pwmPstat p) g && !getB s safeStat safeStat_Pen else getB s (pwmPstat p) g := by
  unfold clearSafe
  cases getB s safeStat safeStat_Pen with
  | false => simp
  | true =>
    refine (getB_setB_pstat s _ false (by decide) hg).trans ?_
    simp

/-! ## What the sources of the causes depend on -/

theorem any_congr_mem {α : Type} {l : List α} {f g : α → Bool} (h : ∀ x ∈ l, f x = g x) : l.any f = l.any g := by
  rw [Bool.eq_iff_iff, List.any_eq_true, List.any_eq_true]
  exact exists_congr fun x => and_congr_right fun hx => by rw [h x hx]

/-- The comparators that a pair names depend on no PSTAT and no EVDROP. -/
theorem namedCmpSet_congr {t : State} (h : PairOnly s t p) (hp : p < 48) (hq : resPol s (resPair p) < 8) : namedCmpSet t p = namedCmpSet s p := by
  refine any_congr_mem fun c hc => ?_
  have hc := mem_upto.mp hc
  unfold getFbit getB getF
  rw [h.regs (pwmPctrip p) (by simp only [pwmPctrip, pwmPstat]; omega) (by simp only [pwmPctrip, poldEvdrop]; omega),
    h.regs (cmpStat c) (by simp only [cmpStat, pwmPstat]; omega) (by simp only [cmpStat, poldEvdrop]; omega)]

theorem polderCalm_congr {t : State} (hdev : t.dev = s.dev) (hflt : t.flt = s.flt) (q : Nat) : polderCalm t q = polderCalm s q := by
  unfold polderCalm inReset
  rw [hdev, hflt]

theorem pen_congr {t : State} (h : PairOnly s t p) (hp : p < 48) (hq : resPol s (resPair p) < 8) :
    getB t safeStat safeStat_Pen = getB s safeStat safeStat_Pen := by
  unfold getB getF
  rw [h.regs safeStat (by simp only [safeStat, pwmPstat]; omega) (by simp only [safeStat, poldEvdrop]; omega)]

/-- Each cause stays latched where its source has not ended. -/
theorem getB_clearCauses (hp : p < 48) (hq : resPol s (resPair p) < 8) :
    getB (clearCauses s p) (pwmPstat p) pwmPstat_Pin = (getB s (pwmPstat p) pwmPstat_Pin && !(activeTrips s p).isEmpty) ∧
    getB (clearCauses s p) (pwmPstat p) pwmPstat_Cmp = (getB s (pwmPstat p) pwmPstat_Cmp && namedCmpSet s p) ∧
    getB (clearCauses s p) (pwmPstat p) pwmPstat_Rst = (getB s (pwmPstat p) pwmPstat_Rst && !polderCalm s (resPol s (resPair p))) ∧
    getB (clearCauses s p) (pwmPstat p) pwmPstat_Safe = (getB s (pwmPstat p) pwmPstat_Safe && !getB s safeStat safeStat_Pen) := by
  have h1 : PairOnly s (clearPin s p) p := pairOnly_clearPin
  have h2 : PairOnly s (clearCmp (clearPin s p) p) p := pairOnly_clearCmp.trans h1
  have h3 : PairOnly s (clearRst (clearCmp (clearPin s p) p) p (resPol s (resPair p))) p := (pairOnly_clearRst _).trans h2
  have hpin : pwmPstat_Pin ∈ pstatFields := by decide
  have hcmp : pwmPstat_Cmp ∈ pstatFields := by decide
  have hrst : pwmPstat_Rst ∈ pstatFields := by decide
  have hsafe : pwmPstat_Safe ∈ pstatFields := by decide
  unfold clearCauses
  simp only [getB_clearSafe, getB_clearRst, getB_clearCmp, getB_clearPin, hpin, hcmp, hrst, hsafe, namedCmpSet_congr h1 hp hq,
    polderCalm_congr h2.dev h2.flt, pen_congr h3 hp hq]
  exact ⟨rfl, rfl, rfl, rfl⟩

/-! ## TRIPPED, the waiting force, the outputs -/

theorem getB_settleTripped (hg : g ∈ pstatFields) : getB (settleTripped s p) (pwmPstat p) g =
    if g = pwmPstat_Tripped then getB s (pwmPstat p) pwmPstat_Pin || getB s (pwmPstat p) pwmPstat_Cmp || getB s (pwmPstat p) pwmPstat_Rst ||
      getB s (pwmPstat p) pwmPstat_Safe
    else getB s (pwmPstat p) g := by
  refine (getB_setB_pstat s _ _ (by decide) hg).trans ?_
  split
  · ac_rfl
  · rfl

theorem getB_noteCleared (was : Bool) (a : Nat) : getB (noteCleared s p was) a g = getB s a g := by
  unfold noteCleared
  split <;> rfl

theorem pairOnly_noteCleared (was : Bool) : PairOnly s (noteCleared s p was) p := pairOnly_ite _ (pairOnly_setPair s p _) (PairOnly.refl s p)

theorem pairOnly_applyForce : PairOnly s (applyForce s p) p := by
  have h (m : Nat) (q : Pair) : PairOnly s (setB (setPair s p q) (pwmPstat p) pwmPstat_Fact (decide (m ≠ 0))) p :=
    (pairOnly_setB _ p _ _).trans (pairOnly_setPair s p q)
  exact pairOnly_ite _ (pairOnly_ite _ (h _ _) ((pairOnly_notice _ p _ _).trans (h _ _))) (PairOnly.refl s p)

theorem pairOnly_driveOutputs (a b : Bool) : PairOnly s (driveOutputs s p a b) p :=
  (pairOnly_setB _ p _ _).trans ((pairOnly_setB _ p _ _).trans (pairOnly_setPair s p _))

theorem pairOnly_pairRefresh (start : Bool) : PairOnly s (pairRefresh s p start) p :=
  pairOnly_ite _ ((pairOnly_driveOutputs _ _).trans (pairOnly_setPair s p _))
    (pairOnly_ite _ ((pairOnly_driveOutputs _ _).trans (pairOnly_setPair s p _)) (pairOnly_setPair s p _))

/-- A pair's causes and TRIPPED read alike. -/
def SameTrip (s t : State) (p : Nat) : Prop := ∀ g ∈ tripFields, getB t (pwmPstat p) g = getB s (pwmPstat p) g

theorem SameTrip.refl (s : State) (p : Nat) : SameTrip s s p := fun _ _ => rfl

theorem SameTrip.trans {s t u : State} (h2 : SameTrip t u p) (h1 : SameTrip s t p) : SameTrip s u p := fun g hg => (h2 g hg).trans (h1 g hg)

theorem sameTrip_of_reg {t : State} (h : getReg t (pwmPstat p) = getReg s (pwmPstat p)) : SameTrip s t p := fun g _ => by
  unfold getB getF
  rw [h]

theorem sameTrip_setB (s : State) (p : Nat) {f : Fld} (b : Bool) (hf : f ∈ pstatFields) (hout : f ∉ tripFields) :
    SameTrip s (setB s (pwmPstat p) f b) p := fun g hg => by
  rw [getB_setB_pstat s _ b hf (mem_pstatFields_of_trip g hg), if_neg]
  rintro rfl
  exact hout hg

/-- Whether a force acts or not, the causes stay. -/
theorem sameTrip_applyForce (hp : p < 48) (hq : resPol s (resPair p) < 8) : SameTrip s (applyForce s p) p := by
  unfold applyForce
  dsimp only
  have hfact (q : Pair) (b : Bool) : SameTrip s (setB (setPair s p q) (pwmPstat p) pwmPstat_Fact b) p :=
    (sameTrip_setB _ p b (by decide) (by decide)).trans (sameTrip_of_reg rfl)
  split
  · split
    · exact hfact _ _
    · obtain ⟨-, hreg⟩ := notice_shape (setB (setPair s p { getPair s p with forceWait := false, force := getF s (pwmPforce p) pwmPforce_Mode })
        (pwmPstat p) pwmPstat_Fact (decide (getF s (pwmPforce p) pwmPforce_Mode ≠ 0))) 0x0A03 (resPol s (resPair p))
        [pw p, pw (getF s (pwmPforce p) pwmPforce_Mode)]
      exact SameTrip.trans (sameTrip_of_reg (hreg _ (by simp only [pwmPstat, poldEvdrop]; omega))) (hfact _ _)
  · exact SameTrip.refl s p

theorem sameTrip_driveOutputs (a b : Bool) : SameTrip s (driveOutputs s p a b) p :=
  (sameTrip_setB _ p _ (by decide) (by decide)).trans ((sameTrip_setB _ p _ (by decide) (by decide)).trans (sameTrip_of_reg rfl))

theorem sameTrip_pairRefresh (start : Bool) : SameTrip s (pairRefresh s p start) p := by
  unfold pairRefresh
  dsimp only
  split
  · exact (sameTrip_driveOutputs _ _).trans (sameTrip_of_reg rfl)
  · split
    · exact (sameTrip_driveOutputs _ _).trans (sameTrip_of_reg rfl)
    · exact sameTrip_of_reg rfl

/-- The force of a pair, and whether one waits. -/
def forceOf (s : State) (p : Nat) : Bool × Nat := ((getPair s p).forceWait, (getPair s p).force)

theorem forceOf_setPair (q : Pair) : forceOf (setPair s p q) p = (q.forceWait, q.force) := by
  rw [forceOf, getPair_setPair_same]

theorem forceOf_driveOutputs (a b : Bool) : forceOf (driveOutputs s p a b) p = forceOf s p :=
  forceOf_setPair _

theorem forceOf_pairRefresh (start : Bool) : forceOf (pairRefresh s p start) p = forceOf s p := by
  unfold pairRefresh
  dsimp only
  split
  · exact (forceOf_driveOutputs _ _).trans (forceOf_setPair _)
  · split
    · exact (forceOf_driveOutputs _ _).trans (forceOf_setPair _)
    · exact forceOf_setPair _

theorem forceOf_clearCauses : forceOf (clearCauses s p) p = forceOf s p := by
  have h1 : forceOf (clearPin s p) p = forceOf s p := by
    unfold clearPin
    split
    · exact forceOf_setPair _
    · rfl
  have h2 (s : State) : forceOf (clearCmp s p) p = forceOf s p := by
    unfold clearCmp
    split
    · rfl
    · exact forceOf_setPair _
  have h3 (s : State) (q : Nat) : forceOf (clearRst s p q) p = forceOf s p := by unfold clearRst; split <;> rfl
  have h4 (s : State) : forceOf (clearSafe s p) p = forceOf s p := by unfold clearSafe; split <;> rfl
  rw [clearCauses, h4, h3, h2, h1]

theorem forceOf_noteCleared (was : Bool) : forceOf (noteCleared s p was) p = forceOf s p := by
  unfold noteCleared
  split
  · exact forceOf_setPair _
  · rfl

/-- A waiting force takes effect on a pair that is not tripped (R293). -/
theorem forceOf_applyForce (hwait : (getPair s p).forceWait = true) (htrip : getB s (pwmPstat p) pwmPstat_Tripped = false) :
    forceOf (applyForce s p) p = (false, getF s (pwmPforce p) pwmPforce_Mode) := by
  have hset (b : Bool) : forceOf (setB (setPair s p { getPair s p with forceWait := false, force := getF s (pwmPforce p) pwmPforce_Mode })
      (pwmPstat p) pwmPstat_Fact b) p = (false, getF s (pwmPforce p) pwmPforce_Mode) := forceOf_setPair _
  have hnotice (s : State) (code scope : Nat) (l : List Word) : forceOf (notice s code scope l) p = forceOf s p := by
    obtain ⟨⟨rg, rec, fr, h⟩, -⟩ := notice_shape s code scope l
    rw [h]
    rfl
  unfold applyForce
  dsimp only
  rw [hwait, htrip, if_pos (by decide)]
  split
  · exact hset _
  · exact (hnotice _ _ _ _).trans (hset _)
end

/-- A clear of a pair's trip: each cause stays where its source has not ended, TRIPPED while one stays, and without TRIPPED a force that waited
takes effect (R292, R293). -/
theorem tripClear_spec {s : State} {p : Nat} (hp : p < 48) (hq : resPol s (resPair p) < 8) :
    let t := tripClear s p
    let a := pwmPstat p
    PairOnly s t p ∧
    getB t a pwmPstat_Pin = (getB s a pwmPstat_Pin && !(activeTrips s p).isEmpty) ∧
    getB t a pwmPstat_Cmp = (getB s a pwmPstat_Cmp && namedCmpSet s p) ∧
    getB t a pwmPstat_Rst = (getB s a pwmPstat_Rst && !polderCalm s (resPol s (resPair p))) ∧
    getB t a pwmPstat_Safe = (getB s a pwmPstat_Safe && !getB s safeStat safeStat_Pen) ∧
    getB t a pwmPstat_Tripped = (getB t a pwmPstat_Pin || getB t a pwmPstat_Cmp || getB t a pwmPstat_Rst || getB t a pwmPstat_Safe) ∧
    ((getPair s p).forceWait = true → getB t a pwmPstat_Tripped = false → forceOf t p = (false, getF s (pwmPforce p) pwmPforce_Mode)) := by
  intro t a
  obtain ⟨hpin, hcmp, hrst, hsafe⟩ := getB_clearCauses hp hq
  generalize hv : noteCleared (settleTripped (clearCauses s p) p) p (getB (clearCauses s p) a pwmPstat_Tripped) = v
  have ht : t = pairRefresh (applyForce v p) p false := by
    rw [← hv]
    exact tripClear_eq s p
  have honly : PairOnly s v p := by
    rw [← hv]
    exact (pairOnly_noteCleared _).trans ((pairOnly_setB _ p _ _).trans pairOnly_clearCauses)
  have hsame : SameTrip v t p := by
    rw [ht]
    exact (sameTrip_pairRefresh _).trans (sameTrip_applyForce hp (by rw [resPol_of_img honly.img]; exact hq))
  have hfield (g : Fld) (hg : g ∈ tripFields) : getB t a g = getB (settleTripped (clearCauses s p) p) a g := by
    rw [hsame g hg, ← hv]
    exact getB_noteCleared _ _
  have hcause (g : Fld) (hg : g ∈ tripFields) (hne : g ≠ pwmPstat_Tripped) : getB t a g = getB (clearCauses s p) a g := by
    rw [hfield g hg, getB_settleTripped (mem_pstatFields_of_trip g hg), if_neg hne]
  have hpin' := hcause pwmPstat_Pin (by decide) (by decide)
  have hcmp' := hcause pwmPstat_Cmp (by decide) (by decide)
  have hrst' := hcause pwmPstat_Rst (by decide) (by decide)
  have hsafe' := hcause pwmPstat_Safe (by decide) (by decide)
  refine ⟨?_, hpin'.trans hpin, hcmp'.trans hcmp, hrst'.trans hrst, hsafe'.trans hsafe, ?_, fun hwait htrip => ?_⟩
  · rw [ht]
    exact (pairOnly_pairRefresh _).trans (pairOnly_applyForce.trans honly)
  · rw [hpin', hcmp', hrst', hsafe', hfield _ (by decide), getB_settleTripped (by decide), if_pos rfl]
  · have hforce : forceOf v p = forceOf s p := by
      rw [← hv, forceOf_noteCleared]
      exact forceOf_clearCauses
    have hwait' : (getPair v p).forceWait = true := (congrArg Prod.fst hforce).trans hwait
    have hmode : getF v (pwmPforce p) pwmPforce_Mode = getF s (pwmPforce p) pwmPforce_Mode := by
      unfold getF
      rw [honly.regs (pwmPforce p) (by simp only [pwmPforce, pwmPstat]; omega) (by simp only [pwmPforce, poldEvdrop]; omega)]
    rw [ht, forceOf_pairRefresh, forceOf_applyForce hwait' ((hsame _ (by decide)).symm.trans htrip), hmode]

/-! ## A host's clear of a pair -/

def pwmPstatDesc : RegDesc := ⟨0x800, [(4, 48)], [fd 8 8 .ro .own 0, fd 7 7 .ro .own 0, fd 6 6 .w1c .own 0, fd 5 5 .ro .own 0, fd 4 4 .ro .own 0,
  fd 3 3 .ro .own 0, fd 2 2 .ro .own 0, fd 1 1 .ro .own 0, fd 0 0 .w1c .own 0]⟩

theorem regAt_pwmPstat (p : Fin 48) : regAt (pwmPstat p) = some (pwmPstatDesc, [p.val]) := by revert p; decide
theorem blockNo_pwmPstat (p : Fin 48) : blockNo (pwmPstat p) = 10 := by revert p; decide
theorem placeOf_pwmPstat (p : Fin 48) : placeOf (pwmPstat p) = .register := by revert p; decide
theorem aligned_pwmPstat (p : Fin 48) : pwmPstat p % 4 = 0 := by revert p; decide

theorem regOwner_pwmPstat (s : State) (p : Fin 48) : regOwner s (pwmPstat p) = some (resPol s (resPair p)) := by
  have hp := p.isLt
  have ho : pwmPstat p % 0x10000 = 0x800 + 4 * p := by unfold pwmPstat; omega
  unfold regOwner
  rw [regAt_pwmPstat, blockNo_pwmPstat]
  show (if pwmPstat p % 0x10000 < 0x200 then some (resPol s (resCarrier p))
    else if 0x400 ≤ pwmPstat p % 0x10000 ∧ pwmPstat p % 0x10000 < 0x900 then some (resPol s (resPair p)) else _) = _
  rw [ho, if_neg (by omega), if_pos (by omega)]

theorem regAction_pwmPstat (s : State) (src : Source) (q : Nat) (p : Fin 48) (w : Word) :
    regAction s src q (pwmPstat p) w = (if nbit w.toNat 0 then tripClear s p else s, false) := by
  unfold regAction
  rw [regPlace_of_regAt (regAt_pwmPstat p), blockNo_pwmPstat]
  rfl

section
variable {s u : State} {src : Source} {q : Nat} {p : Fin 48}

/-- Only the pair's own polder clears its trip. -/
theorem resPol_of_ready (h : HostReady s src q (pwmPstat p)) : resPol s (resPair p) = q ∧ q < 8 := by
  obtain ⟨-, -, hsrc, hb, -⟩ := h
  have hown : hasRight s q (pwmPstat p) .own = true := hasRight_of_regBreach (regAt_pwmPstat p) (by decide) hb
  unfold hasRight at hown
  rw [regOwner_pwmPstat] at hown
  exact ⟨by simpa using hown, sourcePolder_lt hsrc⟩

/-- PWM_TRIP_CLEAR is the clear of the pair. -/
theorem exec_pwmTripClear (h : HostReady s src q (pwmPstat p)) :
    ∃ u, Relisted s u ∧ exec (.pwmTripClear src p) s = .next (respond (tripClear u p) false []) := by
  obtain ⟨-, -, -, hb, -⟩ := id h
  have hr : ∀ f ∈ pwmPstatDesc.fields, f.rights = .own := by decide
  refine ⟨plainWrite s q (pwmPstat p) (fset 0 pwmPstat_Tripped 1),
    relisted_plainWrite (regAt_pwmPstat p) hr hb (by decide) (by decide) (by rw [blockNo_pwmPstat]; decide), ?_⟩
  refine congrArg Host.Outcome.next (hostWrite_action (m := 0x1FF) h (placeOf_pwmPstat p) (aligned_pwmPstat p) (regAt_pwmPstat p) hr (by decide)
    (by decide) ?_)
  rw [regAction_pwmPstat]
  rfl

/-- What a clear looks at reads alike in the same machine. -/
theorem relisted_activeTrips (h : Relisted s u) (p : Nat) : activeTrips u p = activeTrips s p := by
  unfold activeTrips getFbit getF
  simp only [h.2]

theorem relisted_namedCmpSet (h : Relisted s u) (p : Nat) : namedCmpSet u p = namedCmpSet s p := by
  unfold namedCmpSet getFbit getB getF
  simp only [h.2]

theorem relisted_getF (h : Relisted s u) (a : Nat) (f : Fld) : getF u a f = getF s a f := by
  unfold getF
  rw [h.2]

theorem relisted_getB (h : Relisted s u) (a : Nat) (f : Fld) : getB u a f = getB s a f := by
  unfold getB
  rw [relisted_getF h]
end

/-! ## A host's clear of a cell-link port (R324) -/

def clnkPstatDesc : RegDesc :=
  ⟨0x4, [(32, 48)], [fd 31 29 .ro .own 0, fd 28 27 .ro .own 0, fd 26 22 .ro .own 0, fd 2 2 .ro .own 0, fd 1 1 .ro .own 0, fd 0 0 .w1c .own 0]⟩

theorem regAt_clnkPstat (n : Fin 48) : regAt (clnkPstat n) = some (clnkPstatDesc, [n.val]) := by revert n; decide
theorem blockNo_clnkPstat (n : Fin 48) : blockNo (clnkPstat n) = 11 := by revert n; decide
theorem placeOf_clnkPstat (n : Fin 48) : placeOf (clnkPstat n) = .register := by revert n; decide
theorem aligned_clnkPstat (n : Fin 48) : clnkPstat n % 4 = 0 := by revert n; decide

theorem regAction_clnkPstat (s : State) (src : Source) (q : Nat) (n : Fin 48) (w : Word) :
    regAction s src q (clnkPstat n) w = (if nbit w.toNat 0 then portClear s n else s, false) := by
  unfold regAction
  rw [regPlace_of_regAt (regAt_clnkPstat n), blockNo_clnkPstat]
  rfl

/-- CL_TRIP_CLEAR is the clear of the port. -/
theorem exec_clTripClear {s : State} {src : Source} {q : Nat} {n : Fin 48} (h : HostReady s src q (clnkPstat n)) :
    ∃ u, Relisted s u ∧ exec (.clTripClear src n) s = .next (respond (portClear u n) false []) := by
  obtain ⟨-, -, -, hb, -⟩ := id h
  have hr : ∀ f ∈ clnkPstatDesc.fields, f.rights = .own := by decide
  refine ⟨plainWrite s q (clnkPstat n) (fset 0 clnkPstat_Tripped 1),
    relisted_plainWrite (regAt_clnkPstat n) hr hb (by decide) (by decide) (by rw [blockNo_clnkPstat]; decide), ?_⟩
  refine congrArg Host.Outcome.next (hostWrite_action (m := 0xFFC00007) h (placeOf_clnkPstat n) (aligned_clnkPstat n) (regAt_clnkPstat n) hr (by decide)
    (by decide) ?_)
  rw [regAction_clnkPstat]
  rfl

section
variable (s : State) (n : Nat)

/-- SAFE ends where pulse enable is back. -/
def clearPortSafe : State := if getB s safeStat safeStat_Pen then setB s (clnkPstat n) clnkPstat_Safe false else s

/-- The port's polder is calm, and its chain in operation. -/
def portCalm : Bool := polderCalm s (portPol s n) && portState s n == 5

/-- RST ends where that holds. -/
def clearPortRst : State := if portCalm s n then setB s (clnkPstat n) clnkPstat_Rst false else s

theorem portClear_eq : portClear s n = setB (clearPortRst (clearPortSafe s n) n) (clnkPstat n) clnkPstat_Tripped
    (getB (clearPortRst (clearPortSafe s n) n) (clnkPstat n) clnkPstat_Safe || getB (clearPortRst (clearPortSafe s n) n) (clnkPstat n) clnkPstat_Rst) := rfl

/-- A clear of a port changes its PSTAT only. -/
theorem portClear_frame : (portClear s n).mem = s.mem ∧ (portClear s n).ports = s.ports ∧
    ∀ b, b ≠ clnkPstat n → getReg (portClear s n) b = getReg s b := by
  have hsafe : (clearPortSafe s n).mem = s.mem ∧ (clearPortSafe s n).ports = s.ports ∧
      ∀ b, b ≠ clnkPstat n → getReg (clearPortSafe s n) b = getReg s b := by
    unfold clearPortSafe
    split
    · exact ⟨rfl, rfl, fun _ hb => getReg_setB_other s _ _ hb⟩
    · exact ⟨rfl, rfl, fun _ _ => rfl⟩
  obtain ⟨hmem, hports, hreg⟩ := hsafe
  rw [portClear_eq]
  unfold clearPortRst
  split
  · exact ⟨hmem, hports, fun b hb => (getReg_setB_other _ _ _ hb).trans ((getReg_setB_other _ _ _ hb).trans (hreg b hb))⟩
  · exact ⟨hmem, hports, fun b hb => (getReg_setB_other _ _ _ hb).trans (hreg b hb)⟩

theorem getB_clearPortSafe {g : Fld} (hok : fldOk g = true) (hg : g ≠ clnkPstat_Safe → fldApart clnkPstat_Safe g = true) :
    getB (clearPortSafe s n) (clnkPstat n) g =
      if g = clnkPstat_Safe then getB s (clnkPstat n) g && !getB s safeStat safeStat_Pen else getB s (clnkPstat n) g := by
  unfold clearPortSafe
  by_cases h : g = clnkPstat_Safe
  · subst h
    cases hpen : getB s safeStat safeStat_Pen with
    | false => simp
    | true => simp [getB_setB_same s _ _ _ hok]
  · rw [if_neg h]
    split
    · exact getB_setB_field s _ _ _ _ (by decide) hok (hg h)
    · rfl

/-- The chain's state is no cause. -/
theorem portCalm_clearPortSafe : portCalm (clearPortSafe s n) n = portCalm s n := by
  unfold clearPortSafe
  split
  · have hstate : portState (setB s (clnkPstat n) clnkPstat_Safe false) n = portState s n :=
      getF_setF_field s _ _ _ _ (by decide) (by decide) (by decide)
    unfold portCalm
    rw [hstate]
    rfl
  · rfl

/-- Each cause of a port stays where its source has not ended, and TRIPPED while one stays (R324). -/
theorem portClear_causes :
    getB (portClear s n) (clnkPstat n) clnkPstat_Rst = (getB s (clnkPstat n) clnkPstat_Rst && !portCalm s n) ∧
    getB (portClear s n) (clnkPstat n) clnkPstat_Safe = (getB s (clnkPstat n) clnkPstat_Safe && !getB s safeStat safeStat_Pen) ∧
    getB (portClear s n) (clnkPstat n) clnkPstat_Tripped =
      (getB (portClear s n) (clnkPstat n) clnkPstat_Rst || getB (portClear s n) (clnkPstat n) clnkPstat_Safe) := by
  have hrst : getB (clearPortRst (clearPortSafe s n) n) (clnkPstat n) clnkPstat_Rst = (getB s (clnkPstat n) clnkPstat_Rst && !portCalm s n) := by
    have hold := getB_clearPortSafe s n (g := clnkPstat_Rst) (by decide) (by decide)
    rw [if_neg (by decide)] at hold
    unfold clearPortRst
    rw [portCalm_clearPortSafe]
    cases portCalm s n with
    | false => simpa using hold
    | true => simpa using getB_setB_same _ _ _ false (by decide)
  have hsafe : getB (clearPortRst (clearPortSafe s n) n) (clnkPstat n) clnkPstat_Safe =
      (getB s (clnkPstat n) clnkPstat_Safe && !getB s safeStat safeStat_Pen) := by
    have hold := getB_clearPortSafe s n (g := clnkPstat_Safe) (by decide) (by decide)
    rw [if_pos rfl] at hold
    rw [← hold]
    unfold clearPortRst
    split
    · exact getB_setB_field _ _ _ _ _ (by decide) (by decide) (by decide)
    · rfl
  rw [portClear_eq, getB_setB_same _ _ _ _ (by decide), getB_setB_field _ _ _ _ _ (by decide) (by decide) (by decide),
    getB_setB_field _ _ _ _ _ (by decide) (by decide) (by decide)]
  exact ⟨hrst, hsafe, Bool.or_comm _ _⟩
end

/-- Settles O31: a clear ends each cause only where its source has ended; it is the same for pairs and for ports. -/
theorem tripClearsKeepLiveCauses : Obligations.TripClearsKeepLiveCauses := by
  intro s src q calm pen
  constructor
  · intro p a h
    obtain ⟨hown, hq⟩ := resPol_of_ready h
    obtain ⟨u, hu, hrun⟩ := exec_pwmTripClear h
    obtain ⟨⟨r, rfl⟩, hreg⟩ := id hu
    obtain ⟨honly, hpin, hcmp, hrst, hsafe, htripped, hforce⟩ := tripClear_spec (s := { s with regs := r }) p.isLt (by rw [← hown] at hq; exact hq)
    rw [relisted_getB hu] at hpin hcmp hrst hsafe
    rw [relisted_activeTrips hu] at hpin
    rw [relisted_namedCmpSet hu] at hcmp
    rw [relisted_getB hu] at hsafe
    rw [relisted_getF hu] at hforce
    refine ⟨_, hrun, answered_respond _ _, honly.mem, hpin, hcmp, hrst, hsafe, htripped, fun hwait htrip => ?_, honly.other,
      fun b hb hdrop => (honly.regs b hb hdrop).trans (hreg b)⟩
    have := hforce hwait htrip
    exact ⟨congrArg Prod.fst this, congrArg Prod.snd this⟩
  · intro n a h
    obtain ⟨u, hu, hrun⟩ := exec_clTripClear h
    obtain ⟨⟨r, rfl⟩, hreg⟩ := id hu
    obtain ⟨hrst, hsafe, htripped⟩ := portClear_causes { s with regs := r } n
    obtain ⟨hmem, hports, hother⟩ := portClear_frame { s with regs := r } n
    have hcalm : portCalm { s with regs := r } n = portCalm s n := by
      unfold portCalm portState
      rw [relisted_getF hu]
      rfl
    rw [relisted_getB hu, hcalm] at hrst
    rw [relisted_getB hu, relisted_getB hu] at hsafe
    exact ⟨_, hrun, answered_respond _ _, hmem, hports, hrst, hsafe, htripped, fun b hb => (hother b hb).trans (hreg b)⟩

end Sys2Proof.Proofs
end

section
/-! SUPPORT. Proofs. The windows of the metrology die, its pulses, and the mailbox (R369–R398). -/

namespace Sys2Proof.Proofs

open Sys2Proof.Machine Sys2Proof.Claims

/-- What every element's effect keeps, the fold keeps. -/
theorem foldl_keeps {σ α β : Type} (π : σ → β) (l : List α) (s : σ) (f : σ → α → σ) (h : ∀ s x, π (f s x) = π s) : π (l.foldl f s) = π s := by
  induction l generalizing s with
  | nil => rfl
  | cons x t ih => rw [List.foldl_cons, ih, h]

/-! ## One window up to the commit (R369, R377, R384) -/

/-- The die but for its energy: accumulation of a window changes nothing else. -/
def unkept (m : Met) : Met := { m with keep := metKeepReset }

theorem windows_addEnergy (k : MetKeep) (q pair : Nat) (ew : Int) : (addEnergy k q pair ew).windows = k.windows := by
  unfold addEnergy
  dsimp only

theorem windows_ptEnergy (m : Met) (k : MetKeep) (x : Nat × PtWin) : (ptEnergy m k x).windows = k.windows := by
  unfold ptEnergy
  dsimp only
  split
  · rfl
  · split
    · rw [windows_addEnergy, windows_addEnergy]
    · rw [windows_addEnergy]

/-- The pulses of a window change the retained state only, and not its count of windows. -/
theorem addPulses_eq (m : Met) (old : MetKeep) (j : Nat) :
    ∃ k, addPulses m old j = { m with keep := k } ∧ k.windows = m.keep.windows := by
  by_cases h : (!nbit (metPar m 0x200 j).toNat 31) = true
  · exact ⟨m.keep, if_pos h, rfl⟩
  · exact ⟨_, if_neg h, rfl⟩

theorem addPulses_keeps (m : Met) (old : MetKeep) (j : Nat) :
    (unkept (addPulses m old j), (addPulses m old j).keep.windows) = (unkept m, m.keep.windows) := by
  obtain ⟨k, h, hk⟩ := addPulses_eq m old j
  rw [h, ← hk]
  rfl

/-- The die when a window has been measured, before a commit: `old` is the die at the window's start. -/
structure Measured (old m : Met) : Prop where
  seq : m.seq = (old.seq + 1) % 2 ^ 32
  windows : m.keep.windows = old.keep.windows + 1
  firstWin : m.firstWin = false
  params : m.params = old.params
  pend : m.pend = old.pend
  log : m.log = old.log
  asked : m.commitAsked = old.commitAsked
  copyNew : m.copyNew = old.copyNew
  energy : old.nverr = true ∨ old.xtalf = true → m.keep.energy = old.keep.energy ∧ m.keep.res = old.keep.res

/-- The crystal's recovery ends its fault with the window, and no more (R385). -/
theorem measured_xtalBack {old m : Met} (h : Measured old m) :
    Measured old (if m.xtalBack then { m with xtalf := false, xtalBack := false } else m) := by
  split
  · exact ⟨h.seq, h.windows, h.firstWin, h.params, h.pend, h.log, h.asked, h.copyNew, h.energy⟩
  · exact h

/-- The end of a window after its commit: the pulses of the next one, and the retained copies. -/
def closeWindow (meas : Bool) (s : State) : State :=
  let u := setMet s (if meas then (upto 4).foldl takePulses s.met else { s.met with sched := [] })
  nextFree (setMet u { u.met with copyNew := u.met.keep, copyOld := u.met.copyNew })

/-- The energy of the window's points, and what it adds to the pulse outputs. -/
def accumulated (m : Met) (wins : List (Nat × PtWin)) : Met :=
  let n := if !m.nverr && !m.xtalf then { m with keep := wins.foldl (fun k x => ptEnergy m k x) m.keep } else m
  if !m.nverr && !m.xtalf then (upto 4).foldl (fun n j => addPulses n m.keep j) n else n

theorem accumulated_keeps (m : Met) (wins : List (Nat × PtWin)) :
    (unkept (accumulated m wins), (accumulated m wins).keep.windows) = (unkept m, m.keep.windows) := by
  unfold accumulated
  dsimp only
  split
  · rw [foldl_keeps (fun n => (unkept n, n.keep.windows)) (upto 4) _ _ fun n j => addPulses_keeps n m.keep j]
    dsimp only
    rw [foldl_keeps (·.windows) wins m.keep _ fun k x => windows_ptEnergy m k x]
    rfl
  · rfl

theorem accumulated_of_error {m : Met} (h : m.nverr = true ∨ m.xtalf = true) (wins : List (Nat × PtWin)) : accumulated m wins = m := by
  have hoff : (!m.nverr && !m.xtalf) = false := by
    rcases h with h | h <;> simp [h]
  unfold accumulated
  dsimp only
  rw [hoff]
  rfl

/-- MET_WINDOW_END measures, then commits what is pending, then closes the window. -/
theorem exec_metWindowEnd {s : State} (hon : metOn s = true) (volts : List (List (BitVec 40))) : ∃ m, Measured s.met m ∧
    exec (.metWindowEnd volts) s = .next (closeWindow (!s.met.nverr && !s.met.xtalf) (metApply (setMet s m))) := by
  let wins := ((upto 6).filter fun q => nbit (metPar s.met 0x100 q).toNat 31).map fun q => (q, ptWindow s.met s.free q volts)
  obtain ⟨hmet, hwindows⟩ := Prod.mk.inj (accumulated_keeps s.met wins)
  have herror := fun h => accumulated_of_error (m := s.met) h wins
  have hrun : ∃ freq past latest mag integ frame, exec (.metWindowEnd volts) s =
      .next (closeWindow (!s.met.nverr && !s.met.xtalf) (metApply (setMet s (
        let a := accumulated s.met wins
        let b := { a with seq := (a.seq + 1) % 2 ^ 32, freq := freq, past := past, latest := latest, meas := !s.met.nverr && !s.met.xtalf
                          mag := mag, integ := integ, firstWin := false, keep := { a.keep with windows := a.keep.windows + 1 }, frame := frame }
        if b.xtalBack then { b with xtalf := false, xtalBack := false } else b)))) :=
    ⟨_, _, _, _, _, _, next_of_false (by rw [hon]; rfl) _ _⟩
  obtain ⟨freq, past, latest, mag, integ, frame, hrun⟩ := hrun
  refine ⟨_, measured_xtalBack ?_, hrun⟩
  exact ⟨congrArg (fun m => (m.seq + 1) % 2 ^ 32) hmet, congrArg (· + 1) hwindows, rfl, congrArg (·.params) hmet, congrArg (·.pend) hmet,
    congrArg (·.log) hmet, congrArg (·.commitAsked) hmet, congrArg (·.copyNew) hmet,
    fun h => ⟨congrArg (·.keep.energy) (herror h), congrArg (·.keep.res) (herror h)⟩⟩

/-! ## The commit at a window start (R376, R389, R391) -/

/-- A change of one parameter keeps the count of windows, and what only a window's end moves. -/
theorem metChange_keeps (m : Met) (c : Nat × Word) :
    ((metChange m c).seq, (metChange m c).keep.windows, (metChange m c).firstWin, (metChange m c).copyNew) =
      (m.seq, m.keep.windows, m.firstWin, m.copyNew) := by
  have hwindows : (metChange m c).keep.windows = m.keep.windows := by
    unfold metChange
    dsimp only
    split <;> rfl
  rw [hwindows]
  rfl

/-- A committed parameter has its new value, the others stay. -/
theorem metPar_metChange (m : Met) (c : Nat × Word) {q k : Nat} (hk : k < 256) :
    metPar (metChange m c) q k = if metKey q k = c.1 then c.2 else metPar m q k := by
  have hpar : metPar (metChange m c) q k = cellGet (metDefault q) (cellSet (metDefault (c.1 / 256)) m.params c.1 c.2) (metKey q k) := rfl
  rw [hpar]
  split
  · rename_i h
    have hq : c.1 / 256 = q := by rw [← h, metKey]; omega
    rw [h, hq, cellGet_set_same]
  · rename_i h
    rw [cellGet_set_other _ _ _ _ h]
    rfl

theorem cellFind_none_of_not_mem {α : Type} {l : Cells α} {k : Nat} (h : k ∉ l.map fun c => c.1) : cellFind l k = none := by
  induction l with
  | nil => rfl
  | cons c t ih =>
    obtain ⟨j, v⟩ := c
    rw [List.map_cons, List.mem_cons, not_or] at h
    rw [cellFind, if_neg fun hj => h.1 hj.symm, ih h.2]

/-- Committed changes of different parameters: each has its new value, every other parameter stays. -/
theorem metPar_foldl_metChange (l : Cells Word) (hl : (l.map fun c => c.1).Nodup) (m : Met) {q k : Nat} (hk : k < 256) :
    metPar (l.foldl metChange m) q k = (cellFind l (metKey q k)).getD (metPar m q k) := by
  induction l generalizing m with
  | nil => rfl
  | cons c t ih =>
    obtain ⟨hc, ht⟩ := List.nodup_cons.mp hl
    rw [List.foldl_cons, ih ht, metPar_metChange m c hk, cellFind]
    by_cases h : metKey q k = c.1
    · rw [if_pos h, if_pos h.symm, h, cellFind_none_of_not_mem hc]
      rfl
    · rw [if_neg h, if_neg fun hj => h hj.symm]

theorem length_log_foldl_metChange (l : Cells Word) (m : Met) : (l.foldl metChange m).log.length = m.log.length + l.length := by
  induction l generalizing m with
  | nil => rfl
  | cons c t ih =>
    have hone : (metChange m c).log.length = m.log.length + 1 := List.length_append
    rw [List.foldl_cons, ih, hone, List.length_cons]
    omega

/-- Where a list gives the default anyway, the entry may be left out. -/
theorem cellFind_filter_ne {l : Cells Word} (hl : (l.map fun c => c.1).Nodup) {g : Nat → Word} (k : Nat) :
    (cellFind (l.filter fun c => decide (g c.1 ≠ c.2)) k).getD (g k) = (cellFind l k).getD (g k) := by
  induction l with
  | nil => rfl
  | cons c t ih =>
    obtain ⟨j, v⟩ := c
    obtain ⟨hj, ht⟩ := List.nodup_cons.mp hl
    by_cases h : g j = v
    · rw [List.filter_cons_of_neg (by simp [h]), ih ht, cellFind]
      split
      · rename_i hjk
        rw [cellFind_none_of_not_mem (hjk ▸ hj), ← hjk]
        exact h
      · rfl
    · rw [List.filter_cons_of_pos (by simpa using h), cellFind, cellFind]
      split
      · rfl
      · exact ih ht

/-- A commit of all changes gives every parameter the value that was pending for it. -/
theorem metPar_commit {m : Met} (hp : (m.pend.map fun c => c.1).Nodup) {q k : Nat} (hk : k < 256) :
    metPar ((metChanges m).foldl metChange m) q k = metNext m q k := by
  have hsub : ((metChanges m).map fun c => c.1).Nodup := hp.sublist (List.filter_sublist.map _)
  have hkey : metPar m q k = metPar m (metKey q k / 256) (metKey q k % 256) := by
    rw [show metKey q k / 256 = q by rw [metKey]; omega, show metKey q k % 256 = k by rw [metKey]; omega]
  rw [metPar_foldl_metChange _ hsub m hk, metNext, hkey]
  exact cellFind_filter_ne hp (g := fun a => metPar m (a / 256) (a % 256)) _

/-- The pending set keeps the rules of R376, and the log has room for its changes. -/
def commitFits (m : Met) : Prop := ptRules m = true ∧ m.log.length + (metChanges m).length ≤ 1024

/-- A commit that was asked for with `pid` and `idx` took effect as a whole, or was refused as a whole (R389). -/
def CommitAnswered (old m : Met) (pid idx : Nat) : Prop :=
  (∃ r, m.resp = some r ∧ r.pid = pid ∧ r.idx = idx ∧ (commitFits old → r.status = 0) ∧
    (¬commitFits old → r.status = if ptRules old = false then 2 else 4)) ∧
  (commitFits old → m.pend = [] ∧ m.log.length = old.log.length + (metChanges old).length ∧ ∀ q k, k < 256 → metPar m q k = metNext old q k) ∧
  (¬commitFits old → m.params = old.params ∧ m.pend = old.pend ∧ m.log = old.log)

/-- What the window start keeps, whatever becomes of a commit. -/
structure CommitKeeps (s t : State) : Prop where
  regs : t.regs = s.regs
  mem : t.mem = s.mem
  asked : t.met.commitAsked = none
  met : (t.met.seq, t.met.keep.windows, t.met.firstWin, t.met.copyNew) = (s.met.seq, s.met.keep.windows, s.met.firstWin, s.met.copyNew)

theorem commitKeeps_calAnswer {s t : State} (h : CommitKeeps s t) (st p i : Nat) (v : Option Word) : CommitKeeps s (calAnswer t st p i v) := by
  obtain ⟨w, -, hm⟩ := calAnswer_met t st p i v
  refine ⟨(calAnswer_regs _ _ _ _ _).trans h.regs, (calAnswer_mem _ _ _ _ _).trans h.mem, ?_, ?_⟩
  · rw [hm]
    exact h.asked
  · rw [hm]
    exact h.met

/-- The window start with a commit that was asked for. -/
theorem metApply_asked {s : State} {r : Nat × Nat} (hask : s.met.commitAsked = some r) (hp : (s.met.pend.map fun c => c.1).Nodup) :
    CommitKeeps s (metApply s) ∧ CommitAnswered s.met (metApply s).met r.1 r.2 := by
  have hrefused (st : Nat) (hst : st = if ptRules s.met = false then 2 else 4) (hfit : ¬commitFits s.met)
      (h : metApply s = calAnswer (setMet s { s.met with commitAsked := none }) st r.1 r.2 none) :
      CommitKeeps s (metApply s) ∧ CommitAnswered s.met (metApply s).met r.1 r.2 := by
    obtain ⟨w, -, hm⟩ := calAnswer_met (setMet s { s.met with commitAsked := none }) st r.1 r.2 none
    rw [h]
    refine ⟨commitKeeps_calAnswer ?_ _ _ _ _, ?_⟩
    · exact ⟨rfl, rfl, rfl, rfl⟩
    · rw [hm]
      exact ⟨⟨_, rfl, rfl, rfl, fun h => absurd h hfit, fun _ => hst⟩, fun h => absurd h hfit, fun _ => ⟨rfl, rfl, rfl⟩⟩
  have hcases : metApply s = if !ptRules s.met then calAnswer (setMet s { s.met with commitAsked := none }) 2 r.1 r.2 none
      else if 1024 < s.met.log.length + (metChanges s.met).length then calAnswer (setMet s { s.met with commitAsked := none }) 4 r.1 r.2 none
      else
        let t := setMet s { (metChanges s.met).foldl metChange s.met with pend := [], commitAsked := none }
        calAnswer t 0 r.1 r.2 (some (BitVec.ofNat 32 t.met.keep.chg)) := by
    simp only [metApply, hask]
  by_cases hrules : ptRules s.met = true
  · rw [if_neg (by simp [hrules])] at hcases
    by_cases hroom : 1024 < s.met.log.length + (metChanges s.met).length
    · rw [if_pos hroom] at hcases
      exact hrefused 4 (by simp [hrules]) (fun h => by have := h.2; omega) hcases
    · rw [if_neg hroom] at hcases
      have hfit : commitFits s.met := ⟨hrules, by omega⟩
      have hkeeps := foldl_keeps (fun m : Met => (m.seq, m.keep.windows, m.firstWin, m.copyNew)) (metChanges s.met) s.met metChange metChange_keeps
      have hlog := length_log_foldl_metChange (metChanges s.met) s.met
      have hpar := fun q k hk => metPar_commit hp (q := q) (k := k) hk
      generalize (metChanges s.met).foldl metChange s.met = m at hcases hkeeps hlog hpar
      dsimp only at hcases
      obtain ⟨w, -, hm⟩ := calAnswer_met (setMet s { m with pend := [], commitAsked := none }) 0 r.1 r.2
        (some (BitVec.ofNat 32 (setMet s { m with pend := [], commitAsked := none }).met.keep.chg))
      rw [hcases]
      refine ⟨commitKeeps_calAnswer ?_ _ _ _ _, ?_⟩
      · exact ⟨rfl, rfl, rfl, hkeeps⟩
      · rw [hm]
        exact ⟨⟨_, rfl, rfl, rfl, fun _ => rfl, fun h => absurd hfit h⟩, fun _ => ⟨rfl, hlog, hpar⟩, fun h => absurd hfit h⟩
  · rw [if_pos (by simpa using hrules)] at hcases
    exact hrefused 2 (by simp [hrules]) (fun h => hrules h.1) hcases

theorem metApply_none {s : State} (hask : s.met.commitAsked = none) : metApply s = s := by
  rw [metApply, hask]

/-! ## The close of a window (R382, R384) -/

/-- The die but for its pulses and its retained copies. -/
def unpulsed (m : Met) : Met := { m with sched := [], copyNew := metKeepReset, copyOld := metKeepReset, keep := { m.keep with due := [] } }

theorem unpulsed_takePulses (m : Met) (j : Nat) : (unpulsed (takePulses m j), (takePulses m j).copyNew) = (unpulsed m, m.copyNew) := by
  unfold takePulses
  split <;> rfl

/-- The close keeps everything but pulses and copies; the newest copy is that of the retained state, the older one the last. -/
theorem closeWindow_spec (meas : Bool) (s : State) :
    unpulsed (closeWindow meas s).met = unpulsed s.met ∧ (closeWindow meas s).met.copyNew = (closeWindow meas s).met.keep ∧
    (closeWindow meas s).met.copyOld = s.met.copyNew ∧ (closeWindow meas s).regs = s.regs ∧ (closeWindow meas s).mem = s.mem := by
  cases meas with
  | false => exact ⟨rfl, rfl, rfl, rfl, rfl⟩
  | true =>
    obtain ⟨hmet, hcopy⟩ := Prod.mk.inj (foldl_keeps (fun m => (unpulsed m, m.copyNew)) (upto 4) s.met takePulses unpulsed_takePulses)
    exact ⟨hmet, rfl, hcopy, rfl, rfl⟩

/-- What is true of every window's end (R369, R370, R384). -/
def WindowAdvanced (s t : State) : Prop :=
  t.met.seq = (s.met.seq + 1) % 2 ^ 32 ∧ t.met.keep.windows = s.met.keep.windows + 1 ∧ t.met.firstWin = false ∧ t.regs = s.regs ∧ t.mem = s.mem ∧
    t.met.commitAsked = none ∧ t.met.copyNew = t.met.keep ∧ t.met.copyOld = s.met.copyNew

theorem windowAdvanced_closeWindow {s u : State} {m : Met} (hm : Measured s.met m) (h : CommitKeeps (setMet s m) u) (meas : Bool) :
    WindowAdvanced s (closeWindow meas u) := by
  obtain ⟨hmet, hnew, hold, hregs, hmem⟩ := closeWindow_spec meas u
  obtain ⟨hseq, hkept⟩ := Prod.mk.inj h.met
  obtain ⟨hwindows, hkept⟩ := Prod.mk.inj hkept
  obtain ⟨hfirst, hcopy⟩ := Prod.mk.inj hkept
  exact ⟨(congrArg (·.seq) hmet).trans (hseq.trans hm.seq), (congrArg (·.keep.windows) hmet).trans (hwindows.trans hm.windows),
    (congrArg (·.firstWin) hmet).trans (hfirst.trans hm.firstWin), hregs.trans h.regs, hmem.trans h.mem,
    (congrArg (·.commitAsked) hmet).trans h.asked, hnew, hold.trans (hcopy.trans hm.copyNew)⟩

/-- A commit depends on parameters, pending values and log only. -/
theorem commit_congr {m old : Met} (h : Measured old m) :
    ptRules m = ptRules old ∧ metChanges m = metChanges old ∧ ∀ q k, metNext m q k = metNext old q k := by
  have hpar (q k : Nat) : metPar m q k = metPar old q k := by
    unfold metPar
    rw [h.params]
  have hnext (q k : Nat) : metNext m q k = metNext old q k := by
    unfold metNext
    rw [h.pend, hpar]
  refine ⟨?_, ?_, hnext⟩
  · unfold ptRules
    simp only [hnext]
  · unfold metChanges
    simp only [hpar, h.pend]

/-- The answer to a commit stands when the window is closed. -/
theorem commitAnswered_closeWindow {old m : Met} (h : Measured old m) {u : State} {pid idx : Nat} (hu : CommitAnswered m u.met pid idx) (meas : Bool) :
    CommitAnswered old (closeWindow meas u).met pid idx := by
  obtain ⟨hmet, -⟩ := closeWindow_spec meas u
  obtain ⟨hrules, hchanges, hnext⟩ := commit_congr h
  have hfits : commitFits m ↔ commitFits old := by
    unfold commitFits
    rw [hrules, hchanges, h.log]
  have hresp : (closeWindow meas u).met.resp = u.met.resp := congrArg (·.resp) hmet
  have hparams : (closeWindow meas u).met.params = u.met.params := congrArg (·.params) hmet
  have hpend : (closeWindow meas u).met.pend = u.met.pend := congrArg (·.pend) hmet
  have hlog : (closeWindow meas u).met.log = u.met.log := congrArg (·.log) hmet
  unfold CommitAnswered metPar at hu ⊢
  rw [hresp, hparams, hpend, hlog, ← hfits, ← hrules, ← hchanges, ← h.params, ← h.pend, ← h.log]
  simp only [← hnext]
  exact hu

/-- A window's end (R369–R391). -/
theorem metWindowEnd_spec {s : State} (hon : metOn s = true) (hp : (s.met.pend.map fun c => c.1).Nodup) (volts : List (List (BitVec 40))) :
    ∃ t, exec (.metWindowEnd volts) s = .next t ∧ WindowAdvanced s t ∧
      (∀ pid idx, s.met.commitAsked = some (pid, idx) → CommitAnswered s.met t.met pid idx) ∧
      (s.met.commitAsked = none → t.met.params = s.met.params ∧ t.met.pend = s.met.pend ∧ t.met.log = s.met.log ∧
        (s.met.nverr = true ∨ s.met.xtalf = true → t.met.keep.energy = s.met.keep.energy ∧ t.met.keep.res = s.met.keep.res)) := by
  obtain ⟨m, hm, hrun⟩ := exec_metWindowEnd hon volts
  cases hask : s.met.commitAsked with
  | none =>
    have hnone : (setMet s m).met.commitAsked = none := hm.asked.trans hask
    have happly := metApply_none hnone
    obtain ⟨hmet, -⟩ := closeWindow_spec (!s.met.nverr && !s.met.xtalf) (setMet s m)
    rw [happly] at hrun
    refine ⟨_, hrun, windowAdvanced_closeWindow hm ⟨rfl, rfl, hnone, rfl⟩ _, fun _ _ h => (nomatch h), fun _ => ⟨?_, ?_, ?_, fun h => ⟨?_, ?_⟩⟩⟩
    · exact (congrArg (·.params) hmet).trans hm.params
    · exact (congrArg (·.pend) hmet).trans hm.pend
    · exact (congrArg (·.log) hmet).trans hm.log
    · exact (congrArg (·.keep.energy) hmet).trans (hm.energy h).1
    · exact (congrArg (·.keep.res) hmet).trans (hm.energy h).2
  | some r =>
    have hpend : ((setMet s m).met.pend.map fun c => c.1).Nodup := by
      rw [show (setMet s m).met.pend = s.met.pend from hm.pend]
      exact hp
    obtain ⟨hkeeps, hanswer⟩ := metApply_asked (s := setMet s m) (hm.asked.trans hask) hpend
    refine ⟨_, hrun, windowAdvanced_closeWindow hm hkeeps _, fun pid idx h => ?_, fun h => (nomatch h)⟩
    cases h
    exact commitAnswered_closeWindow hm hanswer _

/-- A scheduled pulse is sent (R382). -/
theorem exec_metPulse {s : State} {j : Fin 4} (hon : metOn s = true) (hj : cellGet 0 s.met.sched j ≠ 0) : ∃ t, exec (.metPulse j) s = .next t ∧
    cellGet 0 t.met.sched j = cellGet 0 s.met.sched j - 1 ∧ cellGet 0 t.met.sent j = cellGet 0 s.met.sent j + 1 ∧
    t.met.keep = s.met.keep ∧ t.regs = s.regs ∧ t.mem = s.mem :=
  ⟨_, next_of_true (b := metOn s && cellGet 0 s.met.sched j != 0) (by rw [hon]; simpa using hj) _ _, cellGet_set_same 0 s.met.sched _ _,
    cellGet_set_same 0 s.met.sent j (cellGet 0 s.met.sent j + 1), rfl, rfl, rfl⟩

/-! ## The mailbox (R31, R370, R395, R398) -/

/-- The registers of the mailbox, its frame's and its own. -/
def isMbox (a : Nat) : Prop := 0x60150000 ≤ a ∧ a < 0x60160000

/-- No fault writes the mailbox. -/
theorem not_faultReg_of_mbox {a : Nat} (h : isMbox a) : ¬faultReg a := by
  obtain ⟨hlo, hhi⟩ := h
  unfold faultReg
  simp only [pwmPstat, clnkPstat, fltSum, fltHkstat, fltPinstat, safeStat, safeOutst, poldEvdrop]
  rintro (⟨k, hk, h⟩ | ⟨k, hk, h⟩ | h | h | h | h | ⟨k, hk, h⟩) <;> omega

/-- An effect of events only: the calm part of the machine and the mailbox stay. -/
structure MboxQuiet (s t : State) : Prop where
  calm : calm t = calm s
  regs : ∀ a, isMbox a → SameReg a s t

theorem MboxQuiet.mem {s t : State} (h : MboxQuiet s t) : t.mem = s.mem := congrArg (·.mem) h.calm
theorem MboxQuiet.met {s t : State} (h : MboxQuiet s t) : t.met = s.met := congrArg (·.met) h.calm

theorem MboxQuiet.refl (s : State) : MboxQuiet s s := ⟨rfl, fun _ _ => SameReg.of_regs rfl⟩

theorem MboxQuiet.trans {s t u : State} (h2 : MboxQuiet t u) (h1 : MboxQuiet s t) : MboxQuiet s u :=
  ⟨h2.calm.trans h1.calm, fun a ha => (h2.regs a ha).trans (h1.regs a ha)⟩

theorem mboxQuiet_event (s : State) (code cls : Nat) (l : List Word) : MboxQuiet s (event s code cls 0 l) :=
  ⟨calm_event _ _ _ _ _, fun _ ha => sameReg_event (not_faultReg_of_mbox ha) _ _ _ _ _ (by decide)⟩

theorem mboxQuiet_notice (s : State) (code : Nat) (l : List Word) : MboxQuiet s (notice s code 0 l) :=
  ⟨calm_notice _ _ _ _, fun _ ha => sameReg_notice (not_faultReg_of_mbox ha) _ _ _ _ (by decide)⟩

theorem mboxQuiet_ite {s t : State} (c : Prop) [Decidable c] (ht : MboxQuiet s t) : MboxQuiet s (if c then t else s) := by
  split
  · exact ht
  · exact MboxQuiet.refl s

/-- The events of a valid frame leave the mailbox as the frame wrote it. -/
theorem mboxQuiet_mboxEvents (old s : State) (seen : Bool) : MboxQuiet s (mboxEvents old s seen) := by
  unfold mboxEvents
  dsimp only
  have hnotice (c : Prop) [Decidable c] (s : State) (code : Nat) (l : List Word) : MboxQuiet s (if c then notice s code 0 l else s) :=
    mboxQuiet_ite c (mboxQuiet_notice s code l)
  have hevent (c : Prop) [Decidable c] (s : State) (code cls : Nat) (l : List Word) : MboxQuiet s (if c then event s code cls 0 l else s) :=
    mboxQuiet_ite c (mboxQuiet_event s code cls l)
  exact (hnotice _ _ _ _).trans ((hevent _ _ _ _ _).trans ((hevent _ _ _ _ _).trans
    ((hnotice _ _ _ _).trans ((hnotice _ _ _ _).trans ((hnotice _ _ _ _).trans (hnotice _ _ _ _))))))

/-- Registers that are written one after the other, each once. -/
def writeFrame (s : State) (l : Cells Word) : State := l.foldl (fun t c => setReg t c.1 c.2) s

theorem getReg_writeFrame_other (l : Cells Word) (s : State) {a : Nat} (ha : a ∉ l.map fun c => c.1) : getReg (writeFrame s l) a = getReg s a := by
  unfold writeFrame
  induction l generalizing s with
  | nil => rfl
  | cons c t ih =>
    rw [List.map_cons, List.mem_cons, not_or] at ha
    rw [List.foldl_cons, ih _ ha.2, getReg_setReg_other _ _ ha.1]

theorem getReg_writeFrame (l : Cells Word) (s : State) (hl : (l.map fun c => c.1).Nodup) {c : Nat × Word} (hc : c ∈ l) :
    getReg (writeFrame s l) c.1 = c.2 := by
  induction l generalizing s with
  | nil => cases hc
  | cons d t ih =>
    obtain ⟨hd, ht⟩ := List.nodup_cons.mp hl
    rcases List.mem_cons.mp hc with rfl | hc
    · exact (getReg_writeFrame_other t _ hd).trans (getReg_setReg_same _ _ _)
    · exact ih _ ht hc

theorem writeFrame_mem (l : Cells Word) (s : State) : (writeFrame s l).mem = s.mem :=
  foldl_keeps (·.mem) l s (fun t c => setReg t c.1 c.2) fun _ _ => rfl

section
variable {s : State}

/-- A die that is off, or has had no window, sends no frame (R31). -/
theorem exec_metFrameReceived_none (ok : Bool) (h : s.met.on = false ∨ s.met.frame = []) : exec (.metFrameReceived ok) s = .next s :=
  next_of_true (by rcases h with h | h <;> simp [h, metOn]) _ _

theorem computeOn_of_phase (hoff : s.dev.phase ≠ .off) (hheld : s.dev.phase ≠ .held) : computeOn s = true := by
  simp [computeOn, hoff, hheld]

variable (hon : metOn s = true) (hframe : s.met.frame ≠ []) (hcompute : computeOn s = true)
include hon hframe hcompute

theorem frameArrives : (!metOn s || s.met.frame.isEmpty || !computeOn s) = false := by
  simp [hon, hframe, hcompute]

/-- A frame with a good CRC: its words, LINK, events. -/
theorem exec_metFrameReceived_good (hl : (s.met.frame.map fun c => c.1).Nodup) (hmbox : ∀ c ∈ s.met.frame, isMbox c.1) :
    ∃ t, exec (.metFrameReceived true) s = .next t ∧ getB t mboxStat mboxStat_Link = true ∧ t.met.seen = true ∧ t.mem = s.mem ∧
      ∀ c ∈ s.met.frame, c.1 ≠ mboxStat → getReg t c.1 = c.2 := by
  let w := setB (writeFrame s s.met.frame) mboxStat mboxStat_Link true
  let u := setMet w { w.met with seen := true }
  have hquiet : MboxQuiet u (mboxEvents s u s.met.seen) := mboxQuiet_mboxEvents s u s.met.seen
  have hrun : exec (.metFrameReceived true) s = .next (mboxEvents s u s.met.seen) :=
    (next_of_false (frameArrives hon hframe hcompute) _ _).trans (next_of_false (b := !true) rfl _ _)
  refine ⟨_, hrun, ?_, congrArg (·.seen) hquiet.met,
    hquiet.mem.trans (writeFrame_mem s.met.frame s), fun c hc hne => ?_⟩
  · unfold getB getF
    rw [hquiet.regs mboxStat (by unfold isMbox; decide)]
    exact getB_setB_same (writeFrame s s.met.frame) mboxStat mboxStat_Link true (by decide)
  · rw [hquiet.regs c.1 (hmbox c hc)]
    exact (getReg_setB_other _ _ _ hne).trans (getReg_writeFrame _ s hl hc)

/-- A frame with a bad CRC only counts. -/
theorem exec_metFrameReceived_bad : exec (.metFrameReceived false) s = .next (countF s mboxLinkerr mboxLinkerr_Bad 1) :=
  next_of_false (frameArrives hon hframe hcompute) _ _
end

/-- An event of a class above 0 is held as a fault. -/
theorem faultHeld_event {s : State} {code cls scope : Nat} {l : List Word} (h : cls ≠ 0) :
    FaultHeld (event s code cls scope l) code cls scope (l.headD 0) := by
  rw [event, if_neg h]
  exact faultHeld_collect

/-- 600 ms without a valid frame clear LINK, and are a fault (R370). -/
theorem exec_metLinkTimeout {s : State} (h : getB s mboxStat mboxStat_Link = true) : ∃ t, exec .metLinkTimeout s = .next t ∧
    getB t mboxStat mboxStat_Link = false ∧ FaultHeld t 0x1301 1 0 (getReg s mboxSeq) ∧ t.mem = s.mem := by
  have hquiet := mboxQuiet_event (setB s mboxStat mboxStat_Link false) 0x1301 1 [getReg s mboxSeq]
  refine ⟨_, next_of_true h _ _, ?_, faultHeld_event (l := [getReg s mboxSeq]) (by decide), hquiet.mem⟩
  unfold getB getF
  rw [hquiet.regs mboxStat (by unfold isMbox; decide)]
  exact getB_setB_same s mboxStat mboxStat_Link false (by decide)

/-- Settles O24: a window measures, commits and closes; a pulse is sent; a frame writes the mailbox or counts; the link times out. -/
theorem metWindowsAndMailbox : Obligations.MetWindowsAndMailbox := by
  refine ⟨⟨fun s volts hon hca hp => ?_, fun s j hon hca hj => exec_metPulse (metOn_of_on hon hca) hj⟩, fun s ok h => exec_metFrameReceived_none ok h,
    fun s hon hca hframe hoff hheld hl hmbox => ?_, fun s h => exec_metLinkTimeout h⟩
  · obtain ⟨t, hrun, ⟨hseq, hwindows, hfirst, hregs, hmem, hasked, hnew, hold⟩, hcommit, hnone⟩ := metWindowEnd_spec (metOn_of_on hon hca) hp volts
    exact ⟨t, hrun, hseq, hwindows, hfirst, hregs, hmem, hasked, hnew, hold, hcommit, hnone⟩
  · have hcompute := computeOn_of_phase hoff hheld
    refine ⟨exec_metFrameReceived_good (metOn_of_on hon hca) hframe hcompute hl hmbox,
      _, exec_metFrameReceived_bad (metOn_of_on hon hca) hframe hcompute, getF_countF s _ _ 1 (by decide), fun a ha => getReg_setF_other s _ _ ha, rfl, rfl⟩

end Sys2Proof.Proofs
end

section
/-! SUPPORT. Proofs. Image loads (R446–R453) and the reload of a polder in reset (R36). -/

namespace Sys2Proof.Proofs

open Sys2Proof.Machine Sys2Proof.Claims

/-! ## Tables and data memory -/

/-- Two states that agree but for the memory. -/
def MemOnly (s t : State) : Prop := ∃ m, t = { s with mem := m }

theorem MemOnly.refl (s : State) : MemOnly s s := ⟨s.mem, rfl⟩

theorem MemOnly.trans {s t u : State} (h2 : MemOnly t u) (h1 : MemOnly s t) : MemOnly s u := by
  obtain ⟨m, rfl⟩ := h1
  obtain ⟨n, rfl⟩ := h2
  exact ⟨n, rfl⟩

theorem memOnly_forEach {α : Type} (l : List α) (s : State) (f : State → α → State) (h : ∀ u x, MemOnly u (f u x)) :
    MemOnly s (forEach l s f) :=
  forEach_preserves (MemOnly s) l s f (fun u x hu => (h u x).trans hu) (MemOnly.refl s)

theorem memOnly_wrWord (s : State) (a : Nat) (w : Word) : MemOnly s (wrWord s a w) := ⟨_, rfl⟩

theorem memOnly_wrWords (l : List Word) (s : State) (a : Nat) : MemOnly s (wrWords s a l) := by
  induction l generalizing s a with
  | nil => exact MemOnly.refl s
  | cons w l ih => exact (ih (wrWord s a w) (a + 4)).trans (memOnly_wrWord s a w)

theorem memOnly_zeroMem (s : State) (lo hi : Nat) : MemOnly s (zeroMem s lo hi) := ⟨_, rfl⟩

theorem memOnly_wrBank (s : State) (e b : Nat) (l : List (BitVec 128)) : MemOnly s (wrBank s e b l) :=
  (memOnly_wrWords _ _ _).trans (memOnly_zeroMem s _ _)

/-- Filling the shadow banks changes memory only. -/
theorem memOnly_wrShadow (s : State) (p : Nat) (u : SubImage) : MemOnly s (wrShadow s p u) :=
  memOnly_forEach _ _ _ fun t e => memOnly_wrBank t e _ _

theorem memOnly_startPlaced (s : State) (u : SubImage) : MemOnly s (startPlaced s u) :=
  memOnly_forEach _ _ _ fun t _ => memOnly_forEach _ t _ fun v _ => memOnly_zeroMem v _ _

theorem memOnly_ite {s t : State} (c : Prop) [Decidable c] (h : MemOnly s t) : MemOnly s (if c then t else s) := by
  split
  · exact h
  · exact MemOnly.refl s

/-- Loading data memory changes memory only. -/
theorem memOnly_loadDmem (s : State) (p : Nat) (u : SubImage) : MemOnly s (loadDmem s p u) :=
  (memOnly_startPlaced _ u).trans <| memOnly_forEach _ s _ fun t _ =>
    (memOnly_forEach _ _ _ fun v _ => memOnly_ite _ (memOnly_wrWord v _ _)).trans (memOnly_zeroMem t _ _)

/-! ## POLDER_RELOAD_COMPLETE (R36) -/

theorem event_inReset (s : State) (code cls scope : Nat) (l : List Word) : (event s code cls scope l).dev.inReset = s.dev.inReset := by
  obtain ⟨-, -, -, -, -, -, hreset, -⟩ := calm_fields (calm_event s code cls scope l)
  exact hreset

theorem event_img (s : State) (code cls scope : Nat) (l : List Word) : (event s code cls scope l).img = s.img := by
  obtain ⟨-, -, -, -, -, -, -, -, -, -, -, -, -, -, himg, -⟩ := calm_fields (calm_event s code cls scope l)
  exact himg

section
variable {s : State} {p : Fin 8} {r : InReset} (hfind : cellFind s.dev.inReset p = some r) (hrel : r.reloaded = false) (hstuck : r.stuck = false)
include hfind hrel hstuck

/-- Good digests: the memory is loaded and the reset may end. -/
theorem exec_reloadComplete_good (sect : BitVec 16) : ∃ u, MemOnly s u ∧ exec (.polderReloadComplete p true sect) s =
    .next { u with dev := { u.dev with inReset := cellPut u.dev.inReset p { r with reloaded := true } } } := by
  let v := (slotSub s p).getD (emptySub p)
  refine ⟨if r.whole then wrShadow (loadDmem s p v) p v else loadDmem s p v, ?_, ?_⟩
  · split
    · exact (memOnly_wrShadow _ _ _).trans (memOnly_loadDmem s p v)
    · exact memOnly_loadDmem s p v
  · show execPolderReloadComplete p true sect s = _
    unfold execPolderReloadComplete
    simp only [hfind, hrel, hstuck]
    rfl

/-- A bad digest: the polder stays in its reset, and the fault is collected. -/
theorem exec_reloadComplete_bad (sect : BitVec 16) : exec (.polderReloadComplete p false sect) s =
    .next (event { s with dev := { s.dev with inReset := cellPut s.dev.inReset p { r with stuck := true } } } 0x0117 2 p [pw p, pw sect.toNat]) := by
  show execPolderReloadComplete p false sect s = _
  unfold execPolderReloadComplete
  simp only [hfind, hrel, hstuck]
  rfl

theorem reloadComplete_spec (sect : BitVec 16) :
    (∃ t, exec (.polderReloadComplete p true sect) s = .next t ∧ cellFind t.dev.inReset p = some { r with reloaded := true } ∧ t.regs = s.regs) ∧
    (∃ t, exec (.polderReloadComplete p false sect) s = .next t ∧ cellFind t.dev.inReset p = some { r with stuck := true } ∧
      FaultHeld t 0x0117 2 p (pw p) ∧ t.mem = s.mem) := by
  constructor
  · obtain ⟨u, ⟨m, hu⟩, hexec⟩ := exec_reloadComplete_good hfind hrel hstuck sect
    exact ⟨_, hexec, cellFind_put_same _ _ _, congrArg (·.regs) hu⟩
  · refine ⟨_, exec_reloadComplete_bad hfind hrel hstuck sect, ?_, faultHeld_event (by decide), event_mem _ _ _ _ _⟩
    rw [event_inReset]
    exact cellFind_put_same _ _ _
end

/-! ## IMG.STAT -/

theorem getF_setImgStat (s : State) (p st result sect : Nat) :
    imgState (setImgStat s p st result sect) p = st % 4 ∧ getF (setImgStat s p st result sect) (banked imgStat p) imgStat_Result = result % 16 := by
  unfold imgState setImgStat
  dsimp only
  constructor
  · rw [getF_setF_field _ _ _ _ _ (by decide) (by decide) (by decide), getF_setF_field _ _ _ _ _ (by decide) (by decide) (by decide),
      getF_setF_same _ _ _ _ (by decide)]
    rfl
  · rw [getF_setF_field _ _ _ _ _ (by decide) (by decide) (by decide), getF_setF_same _ _ _ _ (by decide)]
    rfl

@[simp] theorem polImg_setPolImg (s : State) (p : Nat) (x : PolImg) : polImg (setPolImg s p x) p = x := cellGet_set_same polImgReset s.img.pol p x

/-- No fault and no event writes IMG.STAT. -/
theorem not_faultReg_imgStat (p : Nat) : ¬faultReg (banked imgStat p) := by
  unfold faultReg
  simp only [banked, bankStride, imgStat, pwmPstat, clnkPstat, fltSum, fltHkstat, fltPinstat, safeStat, safeOutst, poldEvdrop]
  rintro (⟨k, hk, h⟩ | ⟨k, hk, h⟩ | h | h | h | h | ⟨k, hk, h⟩) <;> omega

theorem sameReg_breach_imgStat (s : State) {p : Nat} (hp : p < 8) (who : Who) (kind reason addr : Nat) :
    SameReg (banked imgStat p) s (breach s p who kind reason addr) := by
  have hne : banked imgStat p ≠ poldBrcnt p ∧ banked imgStat p ≠ poldBrcaplo p ∧ banked imgStat p ≠ poldBrcaphi p := by
    simp only [banked, bankStride, imgStat, poldBrcnt, poldBrcaplo, poldBrcaphi]
    omega
  obtain ⟨hcnt, hlo, hhi⟩ := hne
  exact (sameReg_breach (not_faultReg_imgStat p) hp hlo hhi who kind reason addr).trans (sameReg_countF s poldBrcnt_Count 1 hcnt)

theorem breach_img (s : State) (p : Nat) (who : Who) (kind reason addr : Nat) : (breach s p who kind reason addr).img = s.img := by
  obtain ⟨d, first, l, h⟩ := breach_eq s p who kind reason addr
  have hcap : (breachCapture (countF s (poldBrcnt p) poldBrcnt_Count 1) p who kind reason addr).img = s.img := by
    unfold breachCapture
    split <;> rfl
  rw [h]
  split
  · rw [event_img]
    exact hcap
  · exact hcap

/-- A window of one of the four ports, or no window. -/
def PortOf (pl : Place) : Prop := ∀ n, pl = .sqWin n → n < 4

theorem portOf_ite {x y : Place} (c : Prop) [Decidable c] (hx : PortOf x) (hy : PortOf y) : PortOf (if c then x else y) := by
  split
  · exact hx
  · exact hy

theorem portOf_sqWin {n : Nat} (h : n < 4) : PortOf (.sqWin n) := fun _ e => Place.sqWin.inj e ▸ h

theorem portOf_other {pl : Place} (h : ∀ n, pl ≠ .sqWin n) : PortOf pl := fun n e => absurd e (h n)

/-- The address map has four windows (R23). -/
theorem portOf_placeOf (a : Nat) : PortOf (placeOf a) := by
  have hreg : PortOf .register := portOf_other (by simp)
  have hres : PortOf .reserved := portOf_other (by simp)
  unfold placeOf
  refine portOf_ite _ (portOf_other (by simp)) <| portOf_ite _ (portOf_sqWin (by decide)) <| portOf_ite _ (portOf_sqWin (by decide)) <|
    portOf_ite _ (portOf_other (by simp)) <| portOf_ite _ ?engine <| portOf_ite _ hreg <| portOf_ite _ hreg <|
    portOf_ite _ (portOf_other (by simp)) <| portOf_ite _ (portOf_other (by simp)) <| portOf_ite _ (portOf_other (by simp)) <|
    portOf_ite _ (portOf_sqWin (by decide)) <| portOf_ite _ (portOf_sqWin (by decide)) hres
  case engine =>
    exact portOf_ite _ (portOf_other (by simp)) <| portOf_ite _ (portOf_other (by simp)) <| portOf_ite _ hreg hres

/-! ## The loader reads (R452) -/

/-- The loader's next access: at most 256 bytes, within a page. -/
def loaderAcc (s : State) (p : Nat) (src : Source) : Acc :=
  let at' := 4 * (polImg s p).fetched.length
  let a := imgSource s p + at'
  { p := p, who := sourceWho src, write := false, addr := a, len := min (min 256 (4096 - a % 4096)) ((imgBytes s p - at') / 4 * 4), data := []
    gen := none, ecc := .clean }

section
variable {s t : State} {p : Nat} {src : Source}

/-- A load that has all its bytes reads no more. -/
theorem loaderRead_of_short (h : imgBytes s p - 4 * (polImg s p).fetched.length < 4) (fuel : Nat) : loaderRead s p fuel = s := by
  cases fuel with
  | zero => rfl
  | succ n =>
    unfold loaderRead
    dsimp only
    split
    · rfl
    · exact if_pos (by rw [decide_eq_true h, Bool.or_true])

section
variable (hload : (polImg s p).loading = some src) (hbad : (polImg s p).fetchBad = false)
  (hrest : 4 ≤ imgBytes s p - 4 * (polImg s p).fetched.length)
include hload hbad hrest

theorem loaderRead_of_ok {l : List Word} (hacc : access s (loaderAcc s p src) = (t, .ok l)) (fuel : Nat) :
    loaderRead s p (fuel + 1) = loaderRead (setPolImg t p { polImg t p with fetched := (polImg t p).fetched ++ l }) p fuel := by
  have hgo : (false || decide (imgBytes s p - 4 * (polImg s p).fetched.length < 4)) = false := by simpa using hrest
  rw [loaderRead]
  simp only [hload, hbad, hgo]
  rw [loaderAcc] at hacc
  rw [hacc]
  rfl

/-- An access that brings no data leaves the load with its error, or waiting for the window's port. -/
theorem loaderRead_of_no_data {r : AccRes} (hacc : access s (loaderAcc s p src) = (t, r)) (hr : ∀ l, r ≠ .ok l) (fuel : Nat) :
    ∃ sqs x, loaderRead s p (fuel + 1) = setPolImg { t with sqs := sqs } p x ∧ x.loading = (polImg t p).loading := by
  have hgo : (false || decide (imgBytes s p - 4 * (polImg s p).fetched.length < 4)) = false := by simpa using hrest
  rw [loaderRead]
  simp only [hload, hbad, hgo]
  rw [loaderAcc] at hacc
  rw [hacc]
  cases r with
  | ok l => exact absurd rfl (hr l)
  | sq q off => exact ⟨_, _, rfl, rfl⟩
  | err => exact ⟨t.sqs, _, rfl, rfl⟩
  | breach => exact ⟨t.sqs, _, rfl, rfl⟩
  | stale => exact ⟨t.sqs, _, rfl, rfl⟩
  | queued => exact ⟨t.sqs, _, rfl, rfl⟩
end

theorem length_rdWords (s : State) (a n : Nat) : (rdWords s a n).length = n := by
  induction n generalizing a with
  | zero => rfl
  | succ n ih => rw [rdWords, List.length_cons, ih]

/-- A source of at most 256 bytes in a page of the polder's own memory is read in one access. -/
theorem loaderRead_shared {p : Fin 8} (hload : (polImg s p).loading = some src) (hnew : (polImg s p).fetched = []) (hbad : (polImg s p).fetchBad = false)
    (hphase : s.dev.phase ≠ .recovery) (hreset : inReset s p = false) (hplace : placeOf (imgSource s p) = .shared)
    (hown : segOwner s (imgSource s p) = p) (hform : formOk (imgSource s p) (imgBytes s p) = true) :
    loaderRead s p (imgBytes s p / 4 + 1) =
      setPolImg s p { polImg s p with fetched := rdWords s (imgSource s p) (imgBytes s p / 4) } := by
  obtain ⟨ha4, hl4, hl, hl256, hpage⟩ := formOk_iff.mp hform
  have haddr : (loaderAcc s p src).addr = imgSource s p := by simp only [loaderAcc, hnew, List.length_nil, Nat.mul_zero, Nat.add_zero]
  have hlen : (loaderAcc s p src).len = imgBytes s p := by
    simp only [loaderAcc, hnew, List.length_nil, Nat.mul_zero, Nat.add_zero, Nat.sub_zero]
    omega
  have hwrite : (loaderAcc s p src).write = false := rfl
  have hread : access s (loaderAcc s p src) = (s, .ok (rdWords s (imgSource s p) (imgBytes s p / 4))) := by
    rw [access_shared (by rw [haddr, hplace]) hphase (by rw [haddr, hlen, hform]) (by simp [hwrite]) (by rw [haddr, hown, hreset]), haddr, hlen, hwrite]
    exact if_pos hown
  rw [loaderRead_of_ok hload hbad (by rw [hnew]; simpa using hl) hread, hnew, List.nil_append]
  refine loaderRead_of_short ?_ _
  rw [polImg_setPolImg, length_rdWords]
  show imgBytes s p - 4 * (imgBytes s p / 4) < 4
  omega

end

/-- What a read of an SQ window answers: no data at once; memory, image state and IMG.STAT stay. -/
structure NoData (s : State) (p : Nat) (r : State × AccRes) : Prop where
  data : ∀ l, r.2 ≠ .ok l
  mem : r.1.mem = s.mem
  img : r.1.img = s.img
  stat : SameReg (banked imgStat p) s r.1

/-- What the loader notes of such an answer changes none of it. -/
theorem NoData.noted {s : State} {p : Nat} {r : State × AccRes} (h : NoData s p r) (sqs : Cells SqPort) (x : PolImg) :
    SameReg (banked imgStat p) s (setPolImg { r.1 with sqs := sqs } p x) ∧ (setPolImg { r.1 with sqs := sqs } p x).mem = s.mem :=
  ⟨h.stat, h.mem⟩

theorem noData_error (s : State) (p : Nat) : NoData s p (s, .err) := ⟨by simp, rfl, rfl, rfl⟩

theorem noData_breach (s : State) {p : Nat} (hp : p < 8) (who : Who) (kind reason addr : Nat) : NoData s p (breach s p who kind reason addr, .breach) :=
  ⟨by simp, breach_mem _ _ _ _ _ _, breach_img _ _ _ _ _ _, sameReg_breach_imgStat s hp who kind reason addr⟩

theorem noData_sqWinRead (s : State) (p a : Nat) {n : Nat} (hn : n < 4) : NoData s p (sqWinRead s n a) := by
  have hbound := hn
  have hne : banked imgStat p ≠ sqStat n := by
    simp only [banked, bankStride, imgStat, sqStat]
    omega
  unfold sqWinRead
  dsimp only
  split
  · exact ⟨by simp, rfl, rfl, sameReg_countF s _ _ hne⟩
  · exact ⟨by simp, rfl, rfl, rfl⟩

/-- An access to an SQ window is refused, a breach, or what the port answers. -/
theorem access_sqWin {s : State} {x : Acc} {n : Nat} (hplace : placeOf x.addr = .sqWin n) :
    access s x = (s, .err) ∨ access s x = (breach s x.p x.who (bit x.write) 2 x.addr, .breach) ∨ access s x = sqWinRead s n x.addr := by
  have hres : placeOf x.addr ≠ .reserved := by simp [hplace]
  have hwindow : windowAccess s x = sqWinRead s n x.addr := by rw [windowAccess, hplace]
  have hown : ownerOf s x.addr = some (resPol s (resSqSel n (getF s (sqCfg n) sqCfg_Wsel))) := by rw [ownerOf, hplace]
  unfold access
  dsimp only
  rw [if_neg hres, hown, hwindow]
  dsimp only
  repeat' split
  all_goals simp

theorem noData_access {s : State} {x : Acc} {n : Nat} (hplace : placeOf x.addr = .sqWin n) (hp : x.p < 8) : NoData s x.p (access s x) := by
  rcases access_sqWin (s := s) hplace with h | h | h <;> rw [h]
  · exact noData_error s x.p
  · exact noData_breach s hp _ _ _ _
  · exact noData_sqWinRead s x.p x.addr (portOf_placeOf x.addr n hplace)

/-! ## LOAD (R452, R453) -/

def imgCtlDesc : RegDesc := ⟨0x0, [], [fd 1 0 .wo .any 0]⟩

theorem regAt_imgCtl : regAt imgCtl = some (imgCtlDesc, []) := by decide

theorem regAction_imgCtl (s : State) (src : Source) (p : Nat) (w : Word) :
    regAction s src p imgCtl w = (if w.toNat % 4 = 1 then loadCmd s src p else s, false) := by
  unfold regAction
  rw [regPlace_of_regAt regAt_imgCtl]
  rfl

section
variable {s : State} {src : Source} {p : Nat}

theorem exec_load (h : HostReady s src p imgCtl) : exec (.load src) s = .next (respond (loadCmd s src p) false []) := by
  have hr : ∀ f ∈ imgCtlDesc.fields, f.rights = .any := by decide
  refine congrArg Host.Outcome.next (hostWrite_command (m := 3) h (by decide) (by decide) regAt_imgCtl hr (by decide) (by decide) (by decide) ?_)
  rw [regAction_imgCtl]
  rfl

/-- The loader may start: nothing is loading or loaded, and no activation runs. -/
def LoaderFree (s : State) (p : Nat) : Prop := imgState s p = 0 ∧ getF s updStat updStat_State ≠ 4 ∧ getF s updStat updStat_State ≠ 5

theorem loadCmd_of_busy (h : ¬LoaderFree s p) : loadCmd s src p = setF s (banked imgStat p) imgStat_Result 0xA := by
  refine if_pos ?_
  by_cases h0 : imgState s p = 0
  · exact .inr (Decidable.byContradiction fun hn => h ⟨h0, fun h4 => hn (.inl h4), fun h5 => hn (.inr h5)⟩)
  · exact .inl h0

/-- The loader of a polder starts. -/
def loadStart (s : State) (src : Source) (p : Nat) : State :=
  setImgStat (setPolImg s p { polImg s p with loading := some src, fetched := [], fetchBad := false, fetchWait := false }) p 1 0 0

/-- A load starts; from an SQ window its first read is asked for at once. -/
theorem loadCmd_of_free (h : LoaderFree s p) : loadCmd s src p = loadStart s src p ∨
    (∃ n, placeOf (imgSource (loadStart s src p) p) = .sqWin n) ∧
      loadCmd s src p = loaderRead (loadStart s src p) p (imgBytes (loadStart s src p) p / 4 + 1) := by
  obtain ⟨h0, h4, h5⟩ := h
  have hno : ¬(imgState s p ≠ 0 ∨ getF s updStat updStat_State = 4 ∨ getF s updStat updStat_State = 5) := by
    rintro (h | h | h)
    · exact h h0
    · exact h4 h
    · exact h5 h
  unfold loadCmd
  dsimp only
  rw [if_neg hno]
  split
  · next n hn => exact .inr ⟨⟨n, hn⟩, rfl⟩
  · exact .inl rfl
theorem loadStart_stat : imgState (loadStart s src p) p = 1 ∧ getF (loadStart s src p) (banked imgStat p) imgStat_Result = 0 :=
  getF_setImgStat _ p 1 0 0

/-- A read from a window leaves the load as it stands, but for what the port will bring. -/
theorem loaderRead_window {n : Nat} (hplace : placeOf (imgSource s p) = .sqWin n) (hp : p < 8)
    (hload : (polImg s p).loading = some src) (hnew : (polImg s p).fetched = []) (hbad : (polImg s p).fetchBad = false) (fuel : Nat) :
    let t := loaderRead s p (fuel + 1)
    (polImg t p).loading = some src ∧ SameReg (banked imgStat p) s t ∧ t.mem = s.mem := by
  dsimp only
  by_cases hshort : imgBytes s p - 4 * (polImg s p).fetched.length < 4
  · rw [loaderRead_of_short hshort]
    exact ⟨hload, rfl, rfl⟩
  · have haddr : (loaderAcc s p src).addr = imgSource s p := by simp only [loaderAcc, hnew, List.length_nil, Nat.mul_zero, Nat.add_zero]
    have hacc : NoData s p (access s (loaderAcc s p src)) := noData_access (by rw [haddr, hplace]) hp
    obtain ⟨sqs, x, hread, hx⟩ := loaderRead_of_no_data hload hbad (by omega) (Prod.mk.eta (p := access s (loaderAcc s p src))).symm hacc.data fuel
    rw [hread]
    refine ⟨?_, hacc.noted sqs x⟩
    rw [polImg_setPolImg, hx, polImg, hacc.img, ← hload, polImg]

/-- LOAD by an idle polder starts its loader. -/
theorem loadCmd_free_spec (h : LoaderFree s p) (hp : p < 8) : let t := loadCmd s src p
    t.mem = s.mem ∧ imgState t p = 1 ∧ getF t (banked imgStat p) imgStat_Result = 0 ∧ (polImg t p).loading = some src := by
  have hstart : (polImg (loadStart s src p) p) = { polImg s p with loading := some src, fetched := [], fetchBad := false, fetchWait := false } :=
    polImg_setPolImg s p _
  obtain ⟨hstate, hresult⟩ := loadStart_stat (s := s) (src := src) (p := p)
  rcases loadCmd_of_free (src := src) h with heq | ⟨⟨n, hn⟩, heq⟩
  · rw [heq]
    exact ⟨rfl, hstate, hresult, by rw [hstart]⟩
  · obtain ⟨hload, hstat, hmem⟩ := loaderRead_window (src := src) hn hp (by rw [hstart]) (by rw [hstart]) (by rw [hstart])
      (imgBytes (loadStart s src p) p / 4)
    rw [heq]
    refine ⟨hmem, ?_, ?_, hload⟩
    · rw [imgState, getF, hstat]
      exact hstate
    · rw [getF, hstat]
      exact hresult

/-- LOAD while the loader may not start shows BUSY only. -/
theorem loadCmd_busy_spec (h : ¬LoaderFree s p) : let t := loadCmd s src p
    t.mem = s.mem ∧ imgState t p = imgState s p ∧ getF t (banked imgStat p) imgStat_Result = 0xA ∧ t.img = s.img := by
  rw [loadCmd_of_busy h]
  exact ⟨rfl, getF_setF_field _ _ _ _ _ (by decide) (by decide) (by decide), getF_setF_same _ _ _ _ (by decide), rfl⟩

theorem load_spec (h : HostReady s src p imgCtl) : ∃ t, exec (.load src) s = .next t ∧ Answered t [] ∧ t.mem = s.mem ∧
    (LoaderFree s p → imgState t p = 1 ∧ getF t (banked imgStat p) imgStat_Result = 0 ∧ (polImg t p).loading = some src) ∧
    (¬LoaderFree s p → imgState t p = imgState s p ∧ getF t (banked imgStat p) imgStat_Result = 0xA ∧ t.img = s.img) := by
  obtain ⟨-, -, hsrc, -⟩ := id h
  refine ⟨_, exec_load h, answered_respond _ _, ?_, fun hfree => (loadCmd_free_spec hfree (sourcePolder_lt hsrc)).2, fun hbusy =>
    (loadCmd_busy_spec hbusy).2⟩
  by_cases hfree : LoaderFree s p
  · exact (loadCmd_free_spec hfree (sourcePolder_lt hsrc)).1
  · exact (loadCmd_busy_spec hfree).1
end

/-! ## The end of a load (R449, R452) -/

/-- The state in which the last read of a load has been made, or still waits for its port. -/
def loadEnd (s : State) (p : Nat) : State := if (polImg s p).fetchWait then s else loaderRead s p (imgBytes s p / 4 + 1)

/-- The bytes that a load has read. -/
def loadBytes (s : State) (p : Nat) : List (BitVec 8) := ((polImg s p).fetched.flatMap wordBytes).map fun b => BitVec.ofNat 8 b

/-- The sub-image that was read: its header and sections from the bytes, and what the sections hold. -/
def readSub (s : State) (p : Nat) (u : SubImage) : SubImage :=
  { u with header := (loadBytes s p).take 64, sects := parseSects ((loadBytes s p).length / 8) ((loadBytes s p).drop 64) }

/-- RESULT of the load (R449). -/
def loadCode (s : State) (p : Nat) (u : SubImage) : Nat := if (polImg s p).fetchBad then 0xB else subResult s p (imgBytes s p) (readSub s p u)

/-- The loader is idle again. -/
def unloading (x : PolImg) : PolImg := { x with loading := none, fetched := [], fetchBad := false }

/-- A sub-image that passed is LOADED, and the staged set of IMG. -/
def loadAccept (s : State) (p : Nat) (v : SubImage) : State :=
  stageSub (setImgStat (wrShadow (setPolImg s p { unloading (polImg s p) with loaded := some v }) p v) p 2 0 0) p

/-- A sub-image that failed leaves IDLE and its code. -/
def loadRefuse (s : State) (p code sect : Nat) : State := setImgStat (setPolImg s p (unloading (polImg s p))) p 0 code sect

section
variable {s : State} {p : Fin 8} {u : SubImage}

theorem exec_imgLoadDone_of_over (h : (polImg (loadEnd s p) p).loading = none ∨ (polImg (loadEnd s p) p).fetchWait = true) :
    exec (.imgLoadDone p u) s = .next (loadEnd s p) := by
  refine congrArg Host.Outcome.next (if_pos ?_)
  rcases h with h | h
  · exact (congrArg (fun o : Option Source => o.isNone || (polImg (loadEnd s p) p).fetchWait) h).trans (Bool.true_or _)
  · exact (congrArg (fun b => (polImg (loadEnd s p) p).loading.isNone || b) h).trans (Bool.or_true _)

theorem exec_imgLoadDone (hload : (polImg (loadEnd s p) p).loading ≠ none) (hwait : (polImg (loadEnd s p) p).fetchWait = false) :
    let s' := loadEnd s p
    let v := readSub s' p u
    let code := loadCode s' p u
    exec (.imgLoadDone p u) s = .next (if code = 0 then notice (loadAccept s' p v) 0x0110 p [pw p, v.imgVer, v.layout]
      else notice (loadRefuse s' p code (sectOf v code)) 0x0111 p [pw p, pw code, pw (sectOf v code)]) := by
  have hgo : ¬((polImg (loadEnd s p) p).loading.isNone || (polImg (loadEnd s p) p).fetchWait) = true := by
    rw [hwait, Bool.or_false]
    simpa using hload
  exact congrArg Host.Outcome.next (if_neg hgo)
end

/-- A failing row's code is one of the rows' codes. -/
theorem firstFail_lt {n : Nat} (hn : 0 < n) (l : List (Nat × Bool)) (h : ∀ c ∈ l, c.1 < n) : firstFail l < n := by
  induction l with
  | nil => exact hn
  | cons c l ih =>
    obtain ⟨k, ok⟩ := c
    cases ok with
    | true => exact ih fun c hc => h c (List.mem_cons_of_mem _ hc)
    | false => exact h _ List.mem_cons_self

theorem loadCode_lt (s : State) (p : Nat) (u : SubImage) : loadCode s p u < 16 := by
  unfold loadCode
  split
  · decide
  · exact firstFail_lt (by decide) _ (by simp)

/-- The end of a load is a notice in its own polder's scope over a state that changed outside the recorder. -/
theorem notice_imgStat (s : State) (code : Nat) {p : Nat} (hp : p < 8) (l : List Word) (f : Fld) :
    getF (notice s code p l) (banked imgStat p) f = getF s (banked imgStat p) f := by
  rw [getF, sameReg_notice (not_faultReg_imgStat p) s code p l hp]
  rfl

theorem notice_polImg (s : State) (code scope : Nat) (l : List Word) (p : Nat) : polImg (notice s code scope l) p = polImg s p := by
  obtain ⟨⟨rg, rec, fr, h⟩, -⟩ := notice_shape s code scope l
  rw [h]
  rfl

theorem notice_stageMeta (s : State) (code scope : Nat) (l : List Word) : (notice s code scope l).tick.stageMeta = s.tick.stageMeta := by
  obtain ⟨⟨rg, rec, fr, h⟩, -⟩ := notice_shape s code scope l
  rw [h]

/-- The tables of the sub-image go to memory; besides, only the polder's image state, its IMG.STAT and its staged set change. -/
theorem loadAccept_eq (s : State) (p : Nat) (v : SubImage) : ∃ m, loadAccept s p v =
    stageSub (setImgStat { setPolImg s p { unloading (polImg s p) with loaded := some v } with mem := m } p 2 0 0) p := by
  obtain ⟨m, h⟩ := memOnly_wrShadow (setPolImg s p { unloading (polImg s p) with loaded := some v }) p v
  exact ⟨m, by rw [loadAccept, h]⟩

/-- What the end of a load leaves of the polder's loader: idle, with this state of IMG.STAT, and the recorder as it was. -/
structure LoadEnded (s t : State) (p : Nat) (loaded : Option SubImage) (st code : Nat) : Prop where
  img : polImg t p = { unloading (polImg s p) with loaded := loaded }
  state : imgState t p = st
  result : getF t (banked imgStat p) imgStat_Result = code
  recorder : t.recorder = s.recorder

theorem loadEnded_accept (s : State) (p : Nat) (v : SubImage) : LoadEnded s (loadAccept s p v) p (some v) 2 0 := by
  obtain ⟨m, h⟩ := loadAccept_eq s p v
  obtain ⟨hstate, hresult⟩ := getF_setImgStat { setPolImg s p { unloading (polImg s p) with loaded := some v } with mem := m } p 2 0 0
  rw [h]
  exact ⟨polImg_setPolImg s p _, hstate, hresult, rfl⟩

theorem age_loadAccept (s : State) (p : Nat) (v : SubImage) (n scope : Nat) (l : List Word) :
    (cellFind (notice (loadAccept s p v) n scope l).tick.stageMeta (metaKey 3 p)).map (·.age) = some 0 := by
  rw [notice_stageMeta, loadAccept, stageSub, cellFind_put_same]
  rfl

theorem loadEnded_refuse (s : State) (p sect : Nat) {code : Nat} (hcode : code < 16) :
    LoadEnded s (loadRefuse s p code sect) p (polImg s p).loaded 0 code := by
  obtain ⟨hstate, hresult⟩ := getF_setImgStat (setPolImg s p (unloading (polImg s p))) p 0 code sect
  exact ⟨polImg_setPolImg s p _, hstate, hresult.trans (Nat.mod_eq_of_lt hcode), rfl⟩

section
variable {s t : State} {p : Fin 8} {v : Option SubImage} {st code : Nat} (h : LoadEnded s t p v st code)
include h

/-- The notice of the end is taken where there was room, and the end stands. -/
theorem LoadEnded.noted (hroom : RecorderRoom s p 1) (n : Nat) (l : List Word) : Noted (notice t n p l) n p l :=
  noted_notice (by rw [RecorderRoom, h.recorder]; exact hroom)

theorem LoadEnded.notice (n : Nat) (l : List Word) : let u := notice t n p l
    (polImg u p).loading = none ∧ (polImg u p).loaded = v ∧ imgState u p = st ∧ getF u (banked imgStat p) imgStat_Result = code := by
  dsimp only
  rw [notice_polImg, h.img, imgState, notice_imgStat _ _ p.isLt, notice_imgStat _ _ p.isLt]
  exact ⟨rfl, rfl, h.state, h.result⟩
end

/-- A sub-image that passed: LOADED, staged with a new age, and reported. -/
theorem loadAccepted (s : State) (p : Fin 8) (v : SubImage) (hroom : RecorderRoom s p 1) :
    let t := notice (loadAccept s p v) 0x0110 p [pw p, v.imgVer, v.layout]
    (polImg t p).loading = none ∧ getF t (banked imgStat p) imgStat_Result = 0 ∧ imgState t p = 2 ∧ (polImg t p).loaded = some v ∧
      (cellFind t.tick.stageMeta (metaKey 3 p)).map (·.age) = some 0 ∧ Noted t 0x0110 p [pw p, v.imgVer, v.layout] := by
  have hend := loadEnded_accept s p v
  obtain ⟨hidle, hloaded, hstate, hresult⟩ := hend.notice 0x0110 [pw p, v.imgVer, v.layout]
  exact ⟨hidle, hresult, hstate, hloaded, age_loadAccept s p v _ _ _, hend.noted hroom _ _⟩

/-- A sub-image that failed: IDLE with its code, memory as it was, and reported. -/
theorem loadRefused (s : State) (p : Fin 8) {code : Nat} (hcode : code < 16) (sect : Nat) (hroom : RecorderRoom s p 1) :
    let t := notice (loadRefuse s p code sect) 0x0111 p [pw p, pw code, pw sect]
    (polImg t p).loading = none ∧ getF t (banked imgStat p) imgStat_Result = code ∧ imgState t p = 0 ∧ t.mem = s.mem ∧
      Noted t 0x0111 p [pw p, pw code, pw sect] := by
  have hend := loadEnded_refuse s p sect hcode
  obtain ⟨hidle, -, hstate, hresult⟩ := hend.notice 0x0111 [pw p, pw code, pw sect]
  exact ⟨hidle, hresult, hstate, notice_mem _ _ _ _, hend.noted hroom _ _⟩

section
variable {s : State} {p : Fin 8} {u : SubImage}

/-- The end of a load that has read what it could. -/
theorem imgLoadDone_spec (hload : (polImg (loadEnd s p) p).loading ≠ none) (hwait : (polImg (loadEnd s p) p).fetchWait = false)
    (hroom : RecorderRoom (loadEnd s p) p 1) :
    let s' := loadEnd s p
    let v := readSub s' p u
    let code := loadCode s' p u
    ∃ t, exec (.imgLoadDone p u) s = .next t ∧ (polImg t p).loading = none ∧ getF t (banked imgStat p) imgStat_Result = code ∧
      if code = 0 then imgState t p = 2 ∧ (polImg t p).loaded = some v ∧ (cellFind t.tick.stageMeta (metaKey 3 p)).map (·.age) = some 0 ∧
        Noted t 0x0110 p [pw p, v.imgVer, v.layout]
      else imgState t p = 0 ∧ t.mem = s'.mem ∧ Noted t 0x0111 p [pw p, pw code, pw (sectOf v code)] := by
  intro s' v code
  have hexec := exec_imgLoadDone (u := u) hload hwait
  by_cases hcode : code = 0
  · obtain ⟨hidle, hresult, hend⟩ := loadAccepted s' p v hroom
    refine ⟨notice (loadAccept s' p v) 0x0110 p [pw p, v.imgVer, v.layout], hexec.trans (congrArg _ (if_pos hcode)), hidle, hresult.trans hcode.symm, ?_⟩
    rw [if_pos hcode]
    exact hend
  · obtain ⟨hidle, hresult, hend⟩ := loadRefused s' p (loadCode_lt s' p u) (sectOf v code) hroom
    refine ⟨_, hexec.trans (congrArg _ (if_neg hcode)), hidle, hresult, ?_⟩
    rw [if_neg hcode]
    exact hend
end

/-- Settles O40. LOAD is the command's two answers; the end of a load reads the rest and is a notice over the accepted or refused sub-image; the
loader's read of own memory is one access; a reload loads memory only, or is a collected fault. -/
theorem loadsAndReloadsAreChecked : Obligations.LoadsAndReloadsAreChecked := by
  unfold Obligations.LoadsAndReloadsAreChecked
  refine ⟨fun s src p h => load_spec h, ?_, ?_, fun s p sect r hfind hrel hstuck => reloadComplete_spec hfind hrel hstuck sect⟩
  · intro s p u
    exact ⟨exec_imgLoadDone_of_over, imgLoadDone_spec⟩
  · intro s p src x a len hload hnew hbad hphase hreset hplace hown hform
    exact loaderRead_shared hload hnew hbad hphase hreset hplace hown hform

end Sys2Proof.Proofs
end

section
/-! SUPPORT. Proofs. The resets of the whole device but tick loss (R29, R30, R32, R33, R39, R40, R613). -/

namespace Sys2Proof.Proofs

open Sys2Proof.Machine Sys2Proof.Claims

/-! ## What a restart of the main dies leaves (R32) -/

/-- Memory is zero, the queue of commands stays, and what does not survive has its reset value. -/
def Cleared (s t : State) : Prop := t.mem = [] ∧ t.pending = s.pending ∧ ∀ a, survives a = false → getReg t a = regReset a

theorem cleared_mainRestart (s : State) (ph : Phase) : Cleared s (mainRestart s ph) := by
  refine ⟨rfl, rfl, fun a ha => ?_⟩
  have hnone : cellFind (mainRestart s ph).regs a = none := cellFind_filter_out s.regs (fun c => survives c.1) a fun _ => ha
  rw [getReg, hnone]
  rfl

theorem getReg_mainRestart (s : State) (ph : Phase) {a : Nat} (ha : survives a = true) : getReg (mainRestart s ph) a = getReg s a := by
  have hsame : cellFind (mainRestart s ph).regs a = cellFind s.regs a := cellFind_filter_in s.regs (fun c => survives c.1) a fun _ => ha
  rw [getReg, hsame]
  rfl

/-- Writes of surviving registers, and what is neither memory nor queue, leave it cleared. -/
theorem Cleared.keep {s t u : State} (h : Cleared s t) (hmem : u.mem = t.mem) (hpend : u.pending = t.pending)
    (hregs : ∀ a, survives a = false → getReg u a = getReg t a) : Cleared s u := by
  obtain ⟨h1, h2, h3⟩ := h
  exact ⟨hmem.trans h1, hpend.trans h2, fun a ha => (hregs a ha).trans (h3 a ha)⟩

theorem ne_of_survives {a b : Nat} (ha : survives a = false) (hb : survives b = true) : a ≠ b := fun h => by
  rw [h, hb] at ha
  cases ha

theorem Cleared.setReg {s t : State} (h : Cleared s t) {b : Nat} (hb : survives b = true) (w : Word) : Cleared s (setReg t b w) :=
  h.keep rfl rfl fun _ ha => getReg_setReg_other t w (ne_of_survives ha hb)

theorem survives_sysRstcause : survives sysRstcause = true := by decide
theorem survives_keepStat : survives keepStat = true := by decide

/-! ## The Warden's restart (R490, R508, R509, R569) -/

/-- The registers that the Warden's restart writes: the safety channel's and the recorder's nonce. -/
def wardenReg (a : Nat) : Prop := (0x600E0000 ≤ a ∧ a < 0x600F0000) ∨ a = keepNoncelo 0 ∨ a = keepNoncelo 1

/-- An effect on the safety channel, the nonce and the count of free values only. -/
structure WardenOnly (s t : State) : Prop where
  shape : ∃ rg sf fr, t = { s with regs := rg, safe := sf, free := fr }
  regs : ∀ a, ¬wardenReg a → getReg t a = getReg s a

theorem WardenOnly.refl (s : State) : WardenOnly s s := ⟨⟨s.regs, s.safe, s.free, rfl⟩, fun _ _ => rfl⟩

theorem WardenOnly.trans {s t u : State} (h2 : WardenOnly t u) (h1 : WardenOnly s t) : WardenOnly s u := by
  obtain ⟨⟨rg, sf, fr, rfl⟩, hr1⟩ := h1
  obtain ⟨⟨rg', sf', fr', rfl⟩, hr2⟩ := h2
  exact ⟨⟨rg', sf', fr', rfl⟩, fun a ha => (hr2 a ha).trans (hr1 a ha)⟩

theorem wardenOnly_setReg (s : State) {b : Nat} (hb : wardenReg b) (w : Word) : WardenOnly s (setReg s b w) :=
  ⟨⟨_, s.safe, s.free, rfl⟩, fun _ ha => getReg_setReg_other s w fun h => ha (h ▸ hb)⟩

theorem wardenOnly_setF (s : State) {b : Nat} (hb : wardenReg b) (f : Fld) (v : Nat) : WardenOnly s (setF s b f v) := wardenOnly_setReg s hb _

theorem wardenOnly_safe (s : State) (sf : Safe) : WardenOnly s { s with safe := sf } := ⟨⟨s.regs, sf, s.free, rfl⟩, fun _ _ => rfl⟩

theorem wardenOnly_nextFree (s : State) : WardenOnly s (nextFree s) := ⟨⟨s.regs, s.safe, _, rfl⟩, fun _ _ => rfl⟩

theorem wardenOnly_resetSafe (s : State) : WardenOnly s (resetRegs s 0x600E0000 0x600F0000) := by
  refine ⟨⟨_, s.safe, s.free, rfl⟩, fun a ha => ?_⟩
  have hout : a < 0x600E0000 ∨ 0x600F0000 ≤ a := by
    by_contra h
    exact ha (.inl (by omega))
  have hsame : cellFind (resetRegs s 0x600E0000 0x600F0000).regs a = cellFind s.regs a := cellFind_clear_out s.regs hout
  rw [getReg, hsame]
  rfl

theorem wardenOnly_showPairs (s : State) : WardenOnly s (showPairs s) :=
  forEach_preserves (WardenOnly s) _ s _ (fun t _ ht => (wardenOnly_setF t (.inl (by decide)) _ _).trans ht) (WardenOnly.refl s)

theorem wardenOnly_safeRestart (s : State) (switches : Option (Nat × Bool)) : WardenOnly s (safeRestart s switches) := by
  have hcfg : wardenReg safeCfg := .inl (by decide)
  have hkept (r : Word) (f : Nat) : WardenOnly s (setF (setReg (resetRegs s 0x600E0000 0x600F0000) safeDgrem r) safeOutst safeOutst_Fail f) :=
    ((wardenOnly_setF _ (.inl (by decide)) _ _).trans (wardenOnly_setReg _ (.inl (by decide)) r)).trans (wardenOnly_resetSafe s)
  have hset (t : State) (sf : Safe) (w v : Nat) (ht : WardenOnly s t) :
      WardenOnly s (showPairs (setF (setF { t with safe := sf } safeCfg safeCfg_Switches w) safeCfg safeCfg_Adopted v)) :=
    (wardenOnly_showPairs _).trans (((wardenOnly_setF _ hcfg _ _).trans (wardenOnly_setF _ hcfg _ _)).trans ((wardenOnly_safe t sf).trans ht))
  cases switches with
  | none => exact hset _ _ _ _ (hkept _ _)
  | some x => exact hset _ _ _ _ (hkept _ _)

theorem wardenOnly_newNonce (s : State) : WardenOnly s (newNonce s) :=
  ((wardenOnly_nextFree _).trans (wardenOnly_nextFree _)).trans ((wardenOnly_setReg _ (.inr (.inr rfl)) _).trans (wardenOnly_setReg s (.inr (.inl rfl)) _))

theorem wardenOnly_restart (s : State) (switches : Option (Nat × Bool)) : WardenOnly s (wardenRestart s switches) :=
  (wardenOnly_newNonce _).trans (wardenOnly_safeRestart s switches)

theorem not_wardenReg {a : Nat} (h : a < 0x600E0000 ∨ a = keepStat) : ¬wardenReg a := by
  unfold wardenReg
  simp only [keepNoncelo, keepStat] at h ⊢
  omega

theorem survives_of_wardenReg {a : Nat} (h : wardenReg a) : survives a = true := by
  rcases h with ⟨hlo, hhi⟩ | rfl | rfl
  · have hmod : a % bankStride = a := Nat.mod_eq_of_lt (by simp only [bankStride]; omega)
    have hin : (decide (0x600E0000 ≤ a) && decide (a < 0x600F0000)) = true := by simp [hlo, hhi]
    unfold survives
    simp only [hmod, hin, Bool.or_true, Bool.true_or]
  · decide
  · decide

/-- The Warden's restart writes surviving registers only. -/
theorem Cleared.warden {s t u : State} (h : Cleared s t) (hw : WardenOnly t u) : Cleared s u := by
  obtain ⟨⟨rg, sf, fr, hu⟩, hregs⟩ := hw
  refine h.keep (by rw [hu]) (by rw [hu]) fun a ha => hregs a fun hin => ?_
  rw [survives_of_wardenReg hin] at ha
  cases ha

/-- A restart with the switches read shows what was read (R490). -/
theorem switches_wardenRestart (s : State) (w : BitVec 16) (loop : Bool) :
    getF (wardenRestart s (some (w.toNat, loop))) safeCfg safeCfg_Switches = w.toNat := by
  have hshow (t : State) : getReg (showPairs t) safeCfg = getReg t safeCfg :=
    forEach_keeps (getReg · safeCfg) _ t _ fun v _ => getReg_setF_other v _ _ (by decide)
  have hnonce (t : State) : getReg (newNonce t) safeCfg = getReg t safeCfg :=
    (getReg_setReg_other _ _ (by decide)).trans (getReg_setReg_other t _ (by decide))
  rw [getF, wardenRestart, hnonce, safeRestart]
  dsimp only
  rw [hshow]
  refine (getF_setF_field _ _ _ _ _ (by decide) (by decide) (by decide)).trans ((getF_setF_same _ _ _ _ (by decide)).trans ?_)
  exact Nat.mod_eq_of_lt w.isLt

/-! ## Power-on reset (R29, R39) -/

/-- The main dies at power-on reset. -/
def powerOnMain (s : State) : State :=
  setReg (mainRestart (keepPowerOn { s with tick := { s.tick with captures := [] } }) .held) sysRstcause (fset 0 sysRstcause_Por 1)

theorem cleared_powerOnMain (s : State) : Cleared s (powerOnMain s) :=
  (cleared_mainRestart (keepPowerOn { s with tick := { s.tick with captures := [] } }) .held).setReg survives_sysRstcause _

theorem powerOnReset_spec (s : State) (switches : BitVec 16) (loop : Bool) : ∃ t, exec (.powerOnReset switches loop) s = .next t ∧ Cleared s t ∧
    t.dev.phase = .held ∧ getReg t sysRstcause = fset 0 sysRstcause_Por 1 ∧ getF t safeCfg safeCfg_Switches = switches.toNat ∧
    t.recorder.tail = s.recorder.tail ∧ t.recorder.mram = s.recorder.mram ∧ t.met.keep = s.met.keep := by
  have hw := wardenOnly_restart (powerOnMain s) (some (switches.toNat, loop))
  have hcleared := (cleared_powerOnMain s).warden hw
  have hcause := (hw.regs sysRstcause (not_wardenReg (.inl (by decide)))).trans (getReg_setReg_same _ _ _)
  have hshow := switches_wardenRestart (powerOnMain s) switches loop
  obtain ⟨⟨rg, sf, fr, ht⟩, -⟩ := hw
  refine ⟨wardenRestart (powerOnMain s) (some (switches.toNat, loop)), rfl, hcleared, ?_, hcause, hshow, ?_, ?_, ?_⟩ <;> rw [ht] <;> rfl

/-! ## Notices of the modes that a reset ends (R66) -/

/-- Notices change the recorder's queues, the counts of dropped events and of free values only. -/
structure NoticeOnly (s t : State) : Prop where
  shape : ∃ rg rec fr, t = { s with regs := rg, recorder := rec, free := fr }
  mram : t.recorder.mram = s.recorder.mram
  scanning : t.recorder.scanning = s.recorder.scanning

theorem NoticeOnly.refl (s : State) : NoticeOnly s s := ⟨⟨s.regs, s.recorder, s.free, rfl⟩, rfl, rfl⟩

theorem NoticeOnly.trans {s t u : State} (h2 : NoticeOnly t u) (h1 : NoticeOnly s t) : NoticeOnly s u := by
  obtain ⟨⟨rg, rec, fr, rfl⟩, hm1, hs1⟩ := h1
  obtain ⟨⟨rg', rec', fr', rfl⟩, hm2, hs2⟩ := h2
  exact ⟨⟨rg', rec', fr', rfl⟩, hm2.trans hm1, hs2.trans hs1⟩

theorem noticeOnly_notice (s : State) (code scope : Nat) (l : List Word) : NoticeOnly s (notice s code scope l) := by
  refine ⟨(notice_shape s code scope l).1, ?_, ?_⟩
  all_goals
    unfold notice enqueue enqueueKeep
    dsimp only
    split
    · split <;> rfl
    · split <;> rfl

/-- The keep domain's queue takes a notice only while the recorder scans, and then one at most. -/
theorem keepQ_notice (s : State) (code scope : Nat) (l : List Word) :
    (notice s code scope l).recorder.keepQ.length ≤ s.recorder.keepQ.length + 1 ∧
      (s.recorder.scanning = false → (notice s code scope l).recorder.keepQ = s.recorder.keepQ) := by
  unfold notice enqueue enqueueKeep
  dsimp only
  by_cases hs : s.recorder.scanning = true
  · rw [if_pos hs]
    refine ⟨?_, fun h => absurd hs (by simp [h])⟩
    split
    · exact Nat.le_succ _
    · exact (List.length_append).le
  · rw [if_neg hs]
    split <;> exact ⟨Nat.le_succ _, fun _ => rfl⟩

theorem noticeOnly_noteModes (s : State) : NoticeOnly s (noteModes s) :=
  forEach_preserves (NoticeOnly s) _ s _ (fun t p ht => by
    split
    · exact ht
    · exact (noticeOnly_notice t _ _ _).trans ht) (NoticeOnly.refl s)

/-- What grows by one at most with every element grows by the list's length at most. -/
theorem forEach_le {α : Type} (m : State → Nat) (f : State → α → State) (h : ∀ s x, m (f s x) ≤ m s + 1) (l : List α) (s : State) :
    m (forEach l s f) ≤ m s + l.length := by
  induction l generalizing s with
  | nil => exact Nat.le_refl _
  | cons x l ih =>
    have h1 := ih (f s x)
    have h2 := h s x
    rw [List.length_cons]
    show m (forEach l (f s x) f) ≤ _
    omega

theorem keepQ_noteModes_le (s : State) : (noteModes s).recorder.keepQ.length ≤ s.recorder.keepQ.length + 8 :=
  forEach_le (fun t => t.recorder.keepQ.length) _ (fun t p => by
    split
    · exact Nat.le_succ _
    · exact (keepQ_notice t _ _ _).1) (upto 8) s

theorem keepQ_noteModes (s : State) (h : s.recorder.scanning = false) : (noteModes s).recorder.keepQ = s.recorder.keepQ :=
  (forEach_preserves (fun t => t.recorder.scanning = false ∧ t.recorder.keepQ = s.recorder.keepQ) (upto 8) s _ (fun t p ⟨hs, hq⟩ => by
    split
    · exact ⟨hs, hq⟩
    · exact ⟨(noticeOnly_notice t _ _ _).scanning.trans hs, ((keepQ_notice t _ _ _).2 hs).trans hq⟩) ⟨h, rfl⟩).2

/-! ## HRSTN (R29, R30) -/

theorem hrstnAssert_spec (s : State) (h : s.dev.phase ≠ .off) : ∃ t, exec .hrstnAssert s = .next t ∧ Cleared s t ∧ t.dev.phase = .held ∧
    getB t sysRstcause sysRstcause_Hrstn = true ∧ t.keep = s.keep ∧ t.recorder.mram = s.recorder.mram := by
  obtain ⟨⟨rg, rec, fr, hn⟩, hmram, -⟩ := noticeOnly_noteModes s
  have hpend : (noteModes s).pending = s.pending := by rw [hn]
  let m := setB (mainRestart (noteModes s) .held) sysRstcause sysRstcause_Hrstn true
  have hclear : Cleared s m := by
    obtain ⟨hm, hp, hr⟩ := cleared_mainRestart (noteModes s) .held
    exact Cleared.setReg ⟨hm, hp.trans hpend, hr⟩ survives_sysRstcause _
  have hw := wardenOnly_restart m none
  have hbit : getB (wardenRestart m none) sysRstcause sysRstcause_Hrstn = true := by
    rw [getB, getF, hw.regs sysRstcause (not_wardenReg (.inl (by decide)))]
    exact getB_setB_same _ _ _ _ (by decide)
  refine ⟨wardenRestart m none, congrArg Host.Outcome.next (if_neg h), hclear.warden hw, ?_, hbit, ?_, ?_⟩
  all_goals
    obtain ⟨⟨rg', sf, fr', ht⟩, -⟩ := hw
    rw [ht]
  · rfl
  · show (noteModes s).keep = s.keep
    rw [hn]
  · exact hmram

/-- The state at HRSTN's release, the straps read. -/
def strapsRead (s : State) (straps : Nat) : State :=
  setF (setB { s with dev := { s.dev with phase := .released } } keepStat keepStat_Mainon true) clkRefcfg clkRefcfg_Rsel straps

/-- The reference is present, the APLL locks, the CPLL searches its bands. -/
def clocksStart (s : State) : State := setB (setB (setB s clkStat clkStat_Refok true) clkStat clkStat_Alock true) clkStat clkStat_Srch true

/-- The tick generator runs. -/
def ticksStart (s : State) : State := { s with dev := { s.dev with tickRun := true } }

theorem getReg_ticksStart (s : State) (a : Nat) : getReg (ticksStart s) a = getReg s a := rfl

theorem getF_ticksStart (s : State) (a : Nat) (f : Fld) : getF (ticksStart s) a f = getF s a f := by rw [getF, getReg_ticksStart, getF]

theorem getB_ticksStart (s : State) (a : Nat) (f : Fld) : getB (ticksStart s) a f = getB s a f := by rw [getB, getF_ticksStart, getB]

theorem getReg_clocksStart (s : State) {a : Nat} (h : a ≠ clkStat) : getReg (clocksStart s) a = getReg s a :=
  ((sameReg_setB _ _ _ h).trans (sameReg_setB _ _ _ h)).trans (sameReg_setB s _ _ h)

theorem clocks_clocksStart (s : State) : getB (clocksStart s) clkStat clkStat_Refok = true ∧ getB (clocksStart s) clkStat clkStat_Alock = true ∧
    getB (clocksStart s) clkStat clkStat_Srch = true := by
  unfold clocksStart
  refine ⟨?_, ?_, getB_setB_same _ _ _ _ (by decide)⟩
  · rw [getB_setB_field _ _ _ _ _ (by decide) (by decide) (by decide), getB_setB_field _ _ _ _ _ (by decide) (by decide) (by decide),
      getB_setB_same _ _ _ _ (by decide)]
  · rw [getB_setB_field _ _ _ _ _ (by decide) (by decide) (by decide), getB_setB_same _ _ _ _ (by decide)]

theorem strapsRead_spec (s : State) (straps : BitVec 2) :
    getF (strapsRead s straps.toNat) clkRefcfg clkRefcfg_Rsel = straps.toNat ∧ mainOn (strapsRead s straps.toNat) = true := by
  unfold strapsRead mainOn
  constructor
  · rw [getF_setF_same _ _ _ _ (by decide)]
    exact Nat.mod_eq_of_lt straps.isLt
  · rw [getB_setF_other _ _ _ _ (by decide), getB_setB_same _ _ _ _ (by decide)]

theorem exec_hrstnRelease {s : State} (h : s.dev.phase = .held) (straps : BitVec 2) : exec (.hrstnRelease straps) s =
    .next (if straps.toNat = 3 then strapsRead s straps.toNat else ticksStart (clocksStart (strapsRead s straps.toNat))) :=
  congrArg Host.Outcome.next (if_pos h)

/-- HRSTN's release starts clocks and ticks, unless the straps are reserved (R613). -/
theorem hrstnRelease_spec (s : State) (straps : BitVec 2) (h : s.dev.phase = .held) : ∃ t, exec (.hrstnRelease straps) s = .next t ∧
    t.dev.phase = .released ∧ getF t clkRefcfg clkRefcfg_Rsel = straps.toNat ∧ mainOn t = true ∧ t.mem = s.mem ∧
      if straps = 3 then t.dev.tickRun = s.dev.tickRun
      else t.dev.tickRun = true ∧ getB t clkStat clkStat_Refok = true ∧ getB t clkStat clkStat_Alock = true ∧ getB t clkStat clkStat_Srch = true := by
  obtain ⟨hrsel, hmain⟩ := strapsRead_spec s straps
  have hthree : straps.toNat = 3 ↔ straps = 3 := by
    rw [← BitVec.toNat_inj]
    rfl
  have hexec := exec_hrstnRelease h straps
  by_cases hs : straps = 3
  · rw [if_pos (hthree.mpr hs)] at hexec
    refine ⟨_, hexec, rfl, hrsel, hmain, rfl, ?_⟩
    rw [if_pos hs]
    rfl
  · rw [if_neg (hthree.not.mpr hs)] at hexec
    refine ⟨_, hexec, rfl, ?_, ?_, rfl, ?_⟩
    · rw [getF_ticksStart, getF, getReg_clocksStart _ (by decide)]
      exact hrsel
    · rw [mainOn, getB_ticksStart, getB, getF, getReg_clocksStart _ (by decide)]
      exact hmain
    · rw [if_neg hs, getB_ticksStart, getB_ticksStart, getB_ticksStart]
      exact ⟨rfl, clocks_clocksStart _⟩

/-! ## Loss of the main supplies (R29, R561) -/

theorem event_pending (s : State) (code cls scope : Nat) (l : List Word) : (event s code cls scope l).pending = s.pending := by
  obtain ⟨-, hpend, -⟩ := calm_fields (calm_event s code cls scope l)
  exact hpend

theorem enqueueKeep_shape (s : State) (e : Event) : ∃ rec, enqueueKeep s e = { s with recorder := rec } ∧
    ∃ l, rec.keepQ = s.recorder.keepQ ++ l ∧ (s.recorder.keepQ.length < 256 → l = [e]) := by
  unfold enqueueKeep
  dsimp only
  split
  · exact ⟨_, rfl, [], (List.append_nil _).symm, fun h => by omega⟩
  · exact ⟨_, rfl, [e], rfl, fun _ => rfl⟩

theorem keepEvent_pending (s : State) (code cls : Nat) (l : List Word) : (keepEvent s code cls l).pending = s.pending := by
  unfold keepEvent
  split
  · exact event_pending _ _ _ _ _
  · dsimp only
    obtain ⟨rec, h, -⟩ := enqueueKeep_shape s _
    rw [h]
    rfl

/-- While the main supplies are off, an effect on the keep domain only: no register, no command; its queue grows at the end. -/
structure KeepOnly (s t : State) : Prop where
  regs : t.regs = s.regs
  pending : t.pending = s.pending
  queue : ∃ l, t.recorder.keepQ = s.recorder.keepQ ++ l

theorem KeepOnly.refl (s : State) : KeepOnly s s := ⟨rfl, rfl, [], (List.append_nil _).symm⟩

theorem KeepOnly.trans {s t u : State} (h2 : KeepOnly t u) (h1 : KeepOnly s t) : KeepOnly s u := by
  obtain ⟨hr1, hp1, l, hl⟩ := h1
  obtain ⟨hr2, hp2, m, hm⟩ := h2
  exact ⟨hr2.trans hr1, hp2.trans hp1, l ++ m, by rw [hm, hl, List.append_assoc]⟩

theorem mainOn_of_regs {s t : State} (h : t.regs = s.regs) : mainOn t = mainOn s := by
  unfold mainOn getB getF getReg
  rw [h]

theorem KeepOnly.off {s t : State} (h : KeepOnly s t) (hoff : mainOn s = false) : mainOn t = false := (mainOn_of_regs h.regs).trans hoff

/-- An event with the main supplies off, at the clock's time. -/
def offEvent (s : State) (code cls : Nat) (l : List Word) : Event :=
  { code := code, cls := cls, scope := 0, params := l, time := (recordTime s).1, timeq := (recordTime s).2 }

/-- An event with the main supplies off joins the keep domain's queue, where there is room. -/
theorem keepEvent_of_off {s : State} (hoff : mainOn s = false) (code cls : Nat) (l : List Word) : KeepOnly s (keepEvent s code cls l) ∧
    (s.recorder.keepQ.length < 256 → ∃ e ∈ (keepEvent s code cls l).recorder.keepQ, e.code = code ∧ e.params = l) := by
  have heq : keepEvent s code cls l = nextFree (enqueueKeep s (offEvent s code cls l)) := if_neg (by simp [hoff])
  obtain ⟨rec, hrec, q, hq, hroom⟩ := enqueueKeep_shape s (offEvent s code cls l)
  rw [heq, hrec]
  refine ⟨⟨rfl, rfl, q, hq⟩, fun hlen => ⟨offEvent s code cls l, ?_, rfl, rfl⟩⟩
  show _ ∈ rec.keepQ
  rw [hq, hroom hlen]
  exact List.mem_append_right _ (List.mem_singleton.mpr rfl)

theorem keepOnly_beaconStart {s : State} (hoff : mainOn s = false) (kind vst : Nat) : KeepOnly s (beaconStart s kind vst) := by
  have hkeep (k : Keep) : KeepOnly s (nextFree { s with keep := k }) := ⟨rfl, rfl, [], (List.append_nil _).symm⟩
  unfold beaconStart
  split
  · exact (keepEvent_of_off ((hkeep _).off hoff) _ _ _).1.trans (hkeep _)
  · split
    · exact (keepEvent_of_off hoff _ _ _).1
    · exact KeepOnly.refl s

theorem keepOnly_beaconTrigger {s : State} (hoff : mainOn s = false) (kind vst : Nat) : KeepOnly s (beaconTrigger s kind vst) := by
  unfold beaconTrigger
  split
  · exact KeepOnly.refl s
  · split
    · exact ⟨rfl, rfl, [], (List.append_nil _).symm⟩
    · exact keepOnly_beaconStart hoff kind vst

theorem sendEvent_pending (s : State) (l : List Word) : (sendEvent s l).pending = s.pending := by
  have hon (t : State) (n : Nat) (f : RFrame) : (sendOn t n f).pending = t.pending := by
    unfold sendOn
    dsimp only
    split
    · rfl
    · split
      · rfl
      · split <;> rfl
  unfold sendEvent
  split
  · unfold sendNew sendRouted
    dsimp only
    split
    · exact forEach_keeps (·.pending) _ _ _ fun t n => hon t n _
    · rfl
  · rfl

theorem writeRecord_pending (s : State) (e : Event) (k : Bool) : (writeRecord s e k).pending = s.pending := by
  have hcount (t : State) (n : Nat) : (countWrites t n).pending = t.pending := by
    unfold countWrites
    dsimp only
    split
    · exact keepEvent_pending _ _ _ _
    · rfl
  have hsend (t : State) (l : List Word) : (if mainOn t then sendEvent t l else t).pending = t.pending := by
    split
    · exact sendEvent_pending _ _
    · rfl
  exact (hcount _ 1).trans (hsend _ _)

theorem flushRecords_pending (s : State) : (flushRecords s).pending = s.pending := by
  refine forEach_keeps (·.pending) _ s _ fun t _ => ?_
  unfold recordNext
  dsimp only
  split
  · exact writeRecord_pending _ _ _
  · exact writeRecord_pending _ _ _
  · split
    · split
      · exact writeRecord_pending _ _ _
      · rfl
    · rfl

/-- The records that the store still lets start are written. -/
def lastRecords (s : State) (vst : Nat) : State := if s.recorder.scanning || decide (vst < 2400) then s else flushRecords s

/-- The keep domain sees the main supplies gone. -/
def suppliesOff (s : State) : State := { setB s keepStat keepStat_Mainon false with keep := { s.keep with offMs := 0 } }

theorem mainOn_suppliesOff (s : State) : mainOn (suppliesOff s) = false := getB_setB_same s keepStat keepStat_Mainon false (by decide)

theorem keepMainLost_spec (s : State) (mon : Word) (vst : Nat) : (keepMainLost s mon vst).pending = s.pending ∧
    mainOn (keepMainLost s mon vst) = false ∧
    ((lastRecords s vst).recorder.keepQ.length < 256 → ∃ e ∈ (keepMainLost s mon vst).recorder.keepQ, e.code = 0x0F20 ∧ e.params = [mon, pw vst]) := by
  let u := suppliesOff (lastRecords s vst)
  have hoff : mainOn u = false := mainOn_suppliesOff _
  have hpend : u.pending = s.pending := by
    show (lastRecords s vst).pending = s.pending
    unfold lastRecords
    split
    · rfl
    · exact flushRecords_pending s
  obtain ⟨hkeep, hevent⟩ := keepEvent_of_off hoff 0x0F20 0 [mon, pw vst]
  let v := keepEvent u 0x0F20 0 [mon, pw vst]
  have hbeacon : KeepOnly v (if getB v keepBcfg keepBcfg_Lgasp then beaconTrigger v 1 vst else v) := by
    split
    · exact keepOnly_beaconTrigger (hkeep.off hoff) 1 vst
    · exact KeepOnly.refl v
  have heq : keepMainLost s mon vst = if getB v keepBcfg keepBcfg_Lgasp then beaconTrigger v 1 vst else v := rfl
  rw [heq]
  refine ⟨hbeacon.pending.trans (hkeep.pending.trans hpend), hbeacon.off (hkeep.off hoff), fun hlen => ?_⟩
  obtain ⟨e, he, hcode⟩ := hevent hlen
  obtain ⟨l, hl⟩ := hbeacon.queue
  exact ⟨e, by rw [hl]; exact List.mem_append_left _ he, hcode⟩

/-- The keep domain's queue has room for the event of the loss. -/
def LossRoom (s : State) (vst : Nat) : Prop :=
  (s.recorder.scanning = true ∧ s.recorder.keepQ.length + 9 ≤ 256) ∨ (s.recorder.scanning = false ∧ vst < 2400 ∧ s.recorder.keepQ.length < 256)

theorem lastRecords_room {s : State} {vst : Nat} (h : LossRoom s vst) : (lastRecords (noteModes s) vst).recorder.keepQ.length < 256 := by
  have hscan := (noticeOnly_noteModes s).scanning
  have hle := keepQ_noteModes_le s
  unfold lastRecords
  rcases h with ⟨hs, hq⟩ | ⟨hs, hv, hq⟩
  · rw [if_pos (by simp [hscan, hs])]
    omega
  · rw [if_pos (by simp [hv]), keepQ_noteModes s hs]
    exact hq

theorem mainSuppliesLost_spec (s : State) (mon : BitVec 32) (vst : BitVec 16) (hon : mainOn s = true) (halive : s.keep.alive = true) :
    ∃ t, exec (.mainSuppliesLost mon vst) s = .next t ∧ Cleared s t ∧ t.dev.phase = .off ∧ mainOn t = false ∧
      (LossRoom s vst.toNat → ∃ e ∈ t.recorder.keepQ, e.code = 0x0F20 ∧ e.params = [mon, pw vst.toNat]) := by
  obtain ⟨hpend, hoff, hevent⟩ := keepMainLost_spec (noteModes s) mon vst.toNat
  have hnotes : (noteModes s).pending = s.pending := by
    obtain ⟨⟨rg, rec, fr, hn⟩, -, -⟩ := noticeOnly_noteModes s
    rw [hn]
  let k := keepMainLost (noteModes s) mon vst.toNat
  have hw := wardenOnly_restart (mainRestart k .off) none
  have hclear : Cleared s (mainRestart k .off) := by
    obtain ⟨hm, hp, hr⟩ := cleared_mainRestart k .off
    exact ⟨hm, hp.trans (hpend.trans hnotes), hr⟩
  have hstat : getReg (wardenRestart (mainRestart k .off) none) keepStat = getReg k keepStat :=
    (hw.regs keepStat (not_wardenReg (.inr rfl))).trans (getReg_mainRestart k .off survives_keepStat)
  have hmain : mainOn (wardenRestart (mainRestart k .off) none) = false := by
    rw [mainOn, getB, getF, hstat]
    exact hoff
  have hgo : (mainOn s && s.keep.alive) = true := by rw [hon, halive, Bool.and_self]
  refine ⟨wardenRestart (mainRestart k .off) none, congrArg Host.Outcome.next (if_pos hgo), hclear.warden hw, ?_, hmain, fun hroom => ?_⟩
  · obtain ⟨⟨rg, sf, fr, ht⟩, -⟩ := hw
    rw [ht]
    rfl
  · obtain ⟨⟨rg, sf, fr, ht⟩, -⟩ := hw
    rw [ht]
    exact hevent (lastRecords_room hroom)

/-! ## Return of the main supplies (R29, R561) -/

/-- A notice that finds room writes no register. -/
theorem notice_regs {s : State} {scope : Nat} (h : RecorderRoom s scope 1) (code : Nat) (l : List Word) : (notice s code scope l).regs = s.regs := by
  unfold RecorderRoom at h
  unfold notice enqueue enqueueKeep
  dsimp only
  by_cases hs : s.recorder.scanning = true
  · rw [if_pos hs] at h ⊢
    rw [if_neg (by omega)]
    rfl
  · rw [if_neg hs] at h ⊢
    rw [if_neg (by omega)]
    rfl

theorem recorderRoom_congr {s t : State} (h : t.recorder = s.recorder) {scope n : Nat} (hroom : RecorderRoom s scope n) : RecorderRoom t scope n := by
  rw [RecorderRoom, h]
  exact hroom

/-- The main dies start as after power-on reset. -/
def suppliesBack (s : State) (switches : BitVec 16) (loop : Bool) : State :=
  wardenRestart (setReg (mainRestart s .held) sysRstcause (fset 0 sysRstcause_Keepsurv 1)) (some (switches.toNat, loop))

theorem wardenOnly_suppliesBack (s : State) (switches : BitVec 16) (loop : Bool) :
    WardenOnly (setReg (mainRestart s .held) sysRstcause (fset 0 sysRstcause_Keepsurv 1)) (suppliesBack s switches loop) := wardenOnly_restart _ _

/-- Whether an event of the system finds room does not change with the restart but for the better. -/
theorem recorderRoom_suppliesBack {s : State} (h : RecorderRoom s 0 1) (switches : BitVec 16) (loop : Bool) :
    RecorderRoom (suppliesBack s switches loop) 0 1 := by
  obtain ⟨⟨rg, sf, fr, ht⟩, -⟩ := wardenOnly_suppliesBack s switches loop
  have hrec : (suppliesBack s switches loop).recorder = { s.recorder with placed := [], dropped := [] } := by
    rw [ht]
    rfl
  unfold RecorderRoom at h ⊢
  rw [hrec]
  by_cases hs : s.recorder.scanning = true
  · rw [if_pos hs] at h
    rw [if_pos hs]
    exact h
  · rw [if_neg hs] at h
    rw [if_neg hs]
    exact ⟨h.1, by simp [cellGet, cellFind]⟩

theorem notice_pending (s : State) (code scope : Nat) (l : List Word) : (notice s code scope l).pending = s.pending := by
  obtain ⟨⟨rg, rec, fr, h⟩, -⟩ := notice_shape s code scope l
  rw [h]

theorem notice_dev (s : State) (code scope : Nat) (l : List Word) : (notice s code scope l).dev = s.dev := by
  obtain ⟨⟨rg, rec, fr, h⟩, -⟩ := notice_shape s code scope l
  rw [h]

/-- The keep domain sees the main supplies again, and notes it. -/
theorem keepMainBack_spec {u : State} (hroom : RecorderRoom u 0 1) : let t := keepMainBack u
    mainOn t = true ∧ (∀ a, a ≠ keepStat → getReg t a = getReg u a) ∧ t.mem = u.mem ∧ t.pending = u.pending ∧ t.dev = u.dev := by
  let v := setB u keepStat keepStat_Mainon true
  have hmain : mainOn v = true := getB_setB_same u keepStat keepStat_Mainon true (by decide)
  have heq : keepMainBack u = notice v 0x0F21 0 [pw (u.keep.offMs / 1000)] := by
    show keepEvent v 0x0F21 0 [pw (u.keep.offMs / 1000)] = _
    rw [keepEvent, if_pos hmain, event, if_pos rfl]
  have hregs : (notice v 0x0F21 0 [pw (u.keep.offMs / 1000)]).regs = v.regs := notice_regs (recorderRoom_congr (s := u) (t := v) rfl hroom) _ _
  dsimp only
  rw [heq]
  refine ⟨(mainOn_of_regs hregs).trans hmain, fun a ha => ?_, notice_mem v _ _ _, notice_pending v _ _ _, notice_dev v _ _ _⟩
  rw [getReg, hregs]
  exact getReg_setB_other u keepStat_Mainon true ha

theorem exec_mainSuppliesReturn {s : State} (hoff : s.dev.phase = .off) (switches : BitVec 16) (loop : Bool) :
    exec (.mainSuppliesReturn switches loop) s = .next (keepMainBack (suppliesBack s switches loop)) :=
  congrArg Host.Outcome.next (if_pos hoff)

theorem suppliesBack_phase (s : State) (switches : BitVec 16) (loop : Bool) : (suppliesBack s switches loop).dev.phase = .held := by
  obtain ⟨⟨rg, sf, fr, ht⟩, -⟩ := wardenOnly_suppliesBack s switches loop
  rw [ht]
  rfl

theorem mainSuppliesReturn_spec (s : State) (switches : BitVec 16) (loop : Bool) (hoff : s.dev.phase = .off) (hroom : RecorderRoom s 0 1) :
    ∃ t, exec (.mainSuppliesReturn switches loop) s = .next t ∧ Cleared s t ∧ t.dev.phase = .held ∧ mainOn t = true ∧
      getReg t sysRstcause = fset 0 sysRstcause_Keepsurv 1 := by
  obtain ⟨hmain, hregs, hmem, hpend, hdev⟩ := keepMainBack_spec (recorderRoom_suppliesBack hroom switches loop)
  have hw := wardenOnly_suppliesBack s switches loop
  have hclear := ((cleared_mainRestart s .held).setReg survives_sysRstcause (fset 0 sysRstcause_Keepsurv 1)).warden hw
  refine ⟨_, exec_mainSuppliesReturn hoff switches loop, hclear.keep hmem hpend fun a ha => hregs a (ne_of_survives ha survives_keepStat), ?_, hmain, ?_⟩
  · rw [hdev, suppliesBack_phase]
  · rw [hregs sysRstcause (by decide), hw.regs sysRstcause (not_wardenReg (.inl (by decide))), getReg_setReg_same]

end Sys2Proof.Proofs
end

section
/-! SUPPORT. Proofs. Tick loss and the restart of the ticks (R29, R32, R33, R483). -/

namespace Sys2Proof.Proofs

open Sys2Proof.Machine Sys2Proof.Claims

/-! ## The ticks restart (R33, R483) -/

theorem isol_refreshFaults (s : State) : (refreshFaults s).flt.isol = s.flt.isol := by
  have h : (forEach (upto 8) s fun s p => startModeHold (refreshSum s p) p).flt = s.flt :=
    forEach_keeps (·.flt) _ _ _ fun t p => by
      unfold startModeHold
      split <;> rfl
  have hconds (t : State) : (latchAllConds t).flt = t.flt := forEach_keeps (·.flt) _ _ _ fun _ _ => rfl
  have hpins (t : State) : (refreshPins t).flt.isol = t.flt.isol := rfl
  unfold refreshFaults
  generalize forEach (upto 8) s (fun s p => startModeHold (refreshSum s p) p) = x at h ⊢
  dsimp only
  rw [hconds, hpins]
  split
  · rw [flt_notice, flt_demand]
    exact congrArg (·.isol) h
  · exact congrArg (·.isol) h

/-- Free-running carriers move alone. -/
theorem runFree_shape (s : State) (dt : Nat) : ∃ cars, runFree s dt = { s with cars := cars } :=
  forEach_preserves (fun t => ∃ cars, t = { s with cars := cars }) _ s _ (fun t k ht => by
    obtain ⟨cars, rfl⟩ := ht
    dsimp only
    split
    · exact ⟨_, rfl⟩
    · exact ⟨cars, rfl⟩) ⟨s.cars, rfl⟩

/-- The ticks run again, and the isolations of tick loss end. -/
def ticksBack (s : State) : State :=
  { s with dev := { s.dev with tickRun := true, tickLost := false }
           flt := { s.flt with isol := s.flt.isol.filter fun p => inReset s p || (cellFind s.dev.resetReq p).isSome } }

/-- How far carriers and fabric time have run in the meantime is free (R623). -/
def freeTime (s : State) : State :=
  let s := nextFree (runFree s (Config.freeOffset s.free))
  nextFree { s with time := unsigned 64 (s.time + Config.freeOffset s.free : Nat) }

theorem freeTime_shape (s : State) : ∃ cars fr tm, freeTime s = { s with cars := cars, free := fr, time := tm } := by
  obtain ⟨cars, h⟩ := runFree_shape s (Config.freeOffset s.free)
  unfold freeTime
  rw [h]
  exact ⟨cars, _, _, rfl⟩

theorem exec_tickRestart {s : State} (hrun : s.dev.tickRun = false) (hlost : s.dev.tickLost = true) (hlock : getB s clkStat clkStat_Alock = true) :
    exec .tickRestart s = .next (refreshFaults (ticksBack (freeTime s))) := by
  have hgo : (s.dev.tickLost && !s.dev.tickRun && getB s clkStat clkStat_Alock) = true := by rw [hlost, hrun, hlock]; rfl
  exact congrArg Host.Outcome.next (if_pos hgo)

theorem tickRestart_spec (s : State) (hrun : s.dev.tickRun = false) (hlost : s.dev.tickLost = true) (hlock : getB s clkStat clkStat_Alock = true) :
    ∃ t, exec .tickRestart s = .next t ∧ t.dev.tickRun = true ∧ t.dev.tickLost = false ∧ t.mem = s.mem ∧
      ∀ p, p ∈ t.flt.isol ↔ p ∈ s.flt.isol ∧ (inReset s p = true ∨ (cellFind s.dev.resetReq p).isSome = true) := by
  obtain ⟨cars, fr, tm, hfree⟩ := freeTime_shape s
  have hexec := exec_tickRestart hrun hlost hlock
  rw [hfree] at hexec
  obtain ⟨hmem, -, -, -, hr, hl, -⟩ := calm_fields (calm_refreshFaults (ticksBack { s with cars := cars, free := fr, time := tm }))
  refine ⟨_, hexec, hr, hl, hmem, fun p => ?_⟩
  rw [isol_refreshFaults]
  show p ∈ s.flt.isol.filter (fun p => inReset s p || (cellFind s.dev.resetReq p).isSome) ↔ _
  rw [List.mem_filter, Bool.or_eq_true]

/-! ## What one step of tick loss leaves alone -/

/-- The registers of SYS, CLK and TICK. -/
def LowReg (a : Nat) : Prop := 0x60000000 ≤ a ∧ a < 0x60030000

theorem lowReg_sysRstcause : LowReg sysRstcause := ⟨by decide, by decide⟩

theorem lowReg_tickMode {p : Nat} (hp : p < 8) : LowReg (tickMode p) := by
  simp only [LowReg, tickMode]
  omega

theorem LowReg.not_fault {a : Nat} (h : LowReg a) : ¬faultReg a := by
  obtain ⟨hlo, hhi⟩ := h
  unfold faultReg
  simp only [pwmPstat, clnkPstat, fltSum, fltHkstat, fltPinstat, safeStat, safeOutst, poldEvdrop]
  rintro (⟨k, hk, h⟩ | ⟨k, hk, h⟩ | h | h | h | h | ⟨k, hk, h⟩) <;> omega

/-- A register outside SYS, CLK and TICK. -/
theorem LowReg.ne {a b : Nat} (h : LowReg a) (hb : b < 0x60000000 ∨ 0x60030000 ≤ b) : a ≠ b := by
  obtain ⟨hlo, hhi⟩ := h
  omega

/-- The ticks stand as they stand, and so does RSTCAUSE. -/
structure Ticks (s t : State) : Prop where
  run : t.dev.tickRun = s.dev.tickRun
  lost : t.dev.tickLost = s.dev.tickLost
  cause : SameReg sysRstcause s t

/-- What was formed for the edge stays. -/
structure Formed (s t : State) : Prop where
  sets : t.tick.sets = s.tick.sets
  next : t.tick.nextMode = s.tick.nextMode

/-- All of that, and every register of SYS, CLK and TICK. -/
structure Steady (s t : State) : Prop where
  run : t.dev.tickRun = s.dev.tickRun
  lost : t.dev.tickLost = s.dev.tickLost
  formed : Formed s t
  low : ∀ a, LowReg a → SameReg a s t

theorem Ticks.refl (s : State) : Ticks s s := ⟨rfl, rfl, rfl⟩
theorem Ticks.trans {s t u : State} (h2 : Ticks t u) (h1 : Ticks s t) : Ticks s u :=
  ⟨h2.run.trans h1.run, h2.lost.trans h1.lost, h2.cause.trans h1.cause⟩

theorem Formed.refl (s : State) : Formed s s := ⟨rfl, rfl⟩
theorem Formed.trans {s t u : State} (h2 : Formed t u) (h1 : Formed s t) : Formed s u := ⟨h2.sets.trans h1.sets, h2.next.trans h1.next⟩

theorem Steady.ticks {s t : State} (h : Steady s t) : Ticks s t := ⟨h.run, h.lost, h.low _ lowReg_sysRstcause⟩

theorem Steady.refl (s : State) : Steady s s := ⟨rfl, rfl, Formed.refl s, fun _ _ => rfl⟩
theorem Steady.trans {s t u : State} (h2 : Steady t u) (h1 : Steady s t) : Steady s u :=
  ⟨h2.run.trans h1.run, h2.lost.trans h1.lost, h2.formed.trans h1.formed, fun a ha => (h2.low a ha).trans (h1.low a ha)⟩

theorem steady_forEach {α : Type} (l : List α) (s : State) (f : State → α → State) (h : ∀ t x, x ∈ l → Steady t (f t x)) :
    Steady s (forEach l s f) :=
  forEach_preserves_mem (Steady s) l s f (fun t x hx ht => (h t x hx).trans ht) (Steady.refl s)

/-- A change elsewhere in the state. -/
theorem steady_of_regs {s t : State} (hdev : t.dev = s.dev) (htick : t.tick = s.tick) (hregs : t.regs = s.regs) : Steady s t :=
  ⟨by rw [hdev], by rw [hdev], ⟨by rw [htick], by rw [htick]⟩, fun _ _ => SameReg.of_regs hregs⟩

theorem Steady.elsewhere {s t u : State} (h : Steady s t) (hdev : u.dev = t.dev) (htick : u.tick = t.tick) (hregs : u.regs = t.regs) : Steady s u :=
  (steady_of_regs hdev htick hregs).trans h

theorem steady_of_memOnly {s t : State} (h : MemOnly s t) : Steady s t := by
  obtain ⟨m, rfl⟩ := h
  exact steady_of_regs rfl rfl rfl

/-- What events and faults do is calm. -/
theorem steady_of_calm {s t : State} (h : calm t = calm s) (hlow : ∀ a, LowReg a → SameReg a s t) : Steady s t := by
  obtain ⟨-, -, -, -, hrun, hlost, -, -, -, -, hsets, hnext, -⟩ := calm_fields h
  exact ⟨hrun, hlost, ⟨hsets, hnext⟩, hlow⟩

theorem steady_setReg (s : State) {b : Nat} (hb : b < 0x60000000 ∨ 0x60030000 ≤ b) (w : Word) : Steady s (setReg s b w) :=
  ⟨rfl, rfl, ⟨rfl, rfl⟩, fun _ ha => getReg_setReg_other s w (ha.ne hb)⟩

theorem steady_setF (s : State) {b : Nat} (hb : b < 0x60000000 ∨ 0x60030000 ≤ b) (f : Fld) (v : Nat) : Steady s (setF s b f v) := steady_setReg s hb _

theorem steady_setB (s : State) {b : Nat} (hb : b < 0x60000000 ∨ 0x60030000 ≤ b) (f : Fld) (v : Bool) : Steady s (setB s b f v) := steady_setReg s hb _

theorem steady_setSlu (s : State) (c : Nat) (x : Slu) : Steady s (setSlu s c x) := steady_of_regs rfl rfl rfl
theorem steady_setEng (s : State) (e : Nat) (x : Eng) : Steady s (setEng s e x) := steady_of_regs rfl rfl rfl

theorem steady_sqs (s : State) (q : Cells SqPort) : Steady s { s with sqs := q } := steady_of_regs rfl rfl rfl

theorem steady_ite {s t u : State} (c : Prop) [Decidable c] (ht : Steady s t) (hu : Steady s u) : Steady s (if c then t else u) := by
  split
  · exact ht
  · exact hu

/-- A notice of any scope. -/
theorem steady_notice (s : State) (code scope : Nat) (l : List Word) : Steady s (notice s code scope l) :=
  steady_of_calm (calm_notice _ _ _ _) fun a ha => (notice_shape s code scope l).2 a (ha.ne (by unfold poldEvdrop; omega))

/-- What the recorder and the fault collector write for a scope lies above TICK. -/
theorem LowReg.ne_scope {a : Nat} (ha : LowReg a) (k : Nat) : a ≠ poldEvdrop k ∧ a ≠ fltSum k ∧ a ≠ fltCapa k ∧ a ≠ fltCapb k ∧
    a ≠ fltCaptl k ∧ a ≠ fltCapth k := by
  obtain ⟨hlo, hhi⟩ := ha
  simp only [poldEvdrop, fltSum, fltCapa, fltCapb, fltCaptl, fltCapth]
  omega

theorem low_enqueue {a : Nat} (ha : LowReg a) (s : State) (e : Event) : SameReg a s (enqueue s e) := by
  unfold enqueue enqueueKeep
  dsimp only
  split
  · split <;> exact SameReg.of_regs rfl
  · split
    · exact sameReg_countF _ _ _ (ha.ne_scope e.scope).1
    · exact SameReg.of_regs rfl

theorem low_captureFault {a : Nat} (ha : LowReg a) (s : State) (e : Event) (esc : Bool) : SameReg a s (captureFault s e esc) := by
  obtain ⟨-, -, hc, hb, hl, hh⟩ := ha.ne_scope e.scope
  unfold captureFault
  dsimp only
  split
  · exact (sameReg_countF _ _ _ hc).trans (sameReg_setB _ _ _ hc)
  · exact (sameReg_setReg _ _ hh).trans ((sameReg_setReg _ _ hl).trans ((sameReg_setReg _ _ hb).trans ((sameReg_setF _ _ _ hc).trans
      ((sameReg_setF _ _ _ hc).trans ((sameReg_setB _ _ _ hc).trans (sameReg_setB _ _ _ hc))))))

/-- A fault of any scope leaves them alone, also where the resource map names no polder. -/
theorem low_collect {a : Nat} (ha : LowReg a) (s : State) (code cls scope : Nat) (l : List Word) (hk : Option Nat) (r : Bool) :
    SameReg a s (collect s code cls scope l hk r) := by
  have hf := ha.not_fault
  obtain ⟨-, hsum, -⟩ := ha.ne_scope scope
  have hcap (b : Bool) (e : Event) (esc : Bool) (t : State) : SameReg a t (if b then captureFault t e esc else t) := by
    split
    · exact low_captureFault ha t e esc
    · exact SameReg.of_regs rfl
  have hhold (t : State) : SameReg a t (demand (setB { t with flt := { t.flt with hold := true } } safeStat safeStat_Hold true) 0) :=
    (sameReg_demand hf _ 0).trans ((sameReg_setB _ _ _ (faultReg_stat hf)).trans (SameReg.of_regs (t := { t with flt := { t.flt with hold := true } }) rfl))
  unfold collect
  dsimp only
  refine (sameReg_refreshFaults hf _).trans ((sameReg_when' _ _ _ (hhold _)).trans
    ((sameReg_when' _ _ _ (sameReg_forEach _ _ _ fun t p _ => sameReg_isolate hf t p _)).trans
    ((sameReg_when' _ _ _ (sameReg_isolate hf _ scope r)).trans ((sameReg_when' _ _ _ (SameReg.of_regs rfl)).trans ((hcap _ _ _ _).trans ?_)))))
  refine SameReg.trans (sameReg_when' (a := a) _ _ _ (low_enqueue ha _ _)) ((low_enqueue ha _ _).trans ?_)
  exact sameReg_when' _ _ _ (sameReg_setB _ _ _ hsum)

theorem steady_event (s : State) (code cls scope : Nat) (l : List Word) : Steady s (event s code cls scope l) := by
  refine steady_of_calm (calm_event _ _ _ _ _) fun a ha => ?_
  unfold event
  split
  · exact low_enqueue ha s _
  · exact low_collect ha s code cls scope l none true

theorem steady_breach (s : State) (p : Nat) (who : Who) (kind reason addr : Nat) : Steady s (breach s p who kind reason addr) := by
  obtain ⟨d, first, l, h⟩ := breach_eq s p who kind reason addr
  have hcount : Steady s (countF s (poldBrcnt p) poldBrcnt_Count 1) := steady_setF s (by unfold poldBrcnt; omega) _ _
  have hcap (t : State) : Steady t (breachCapture t p who kind reason addr) := by
    unfold breachCapture
    split
    · exact Steady.refl t
    · exact (steady_setReg _ (by unfold poldBrcaplo; omega) _).trans (steady_setReg t (by unfold poldBrcaphi; omega) _)
  have hdike := ((hcap _).trans hcount).elsewhere (u := { breachCapture (countF s (poldBrcnt p) poldBrcnt_Count 1) p who kind reason addr with dike := d })
    rfl rfl rfl
  rw [h]
  split
  · exact (steady_event _ _ _ _ _).trans hdike
  · exact hdike

/-! ## A channel halts (R441) -/

theorem steady_culvertAccess (s : State) (x : Acc) (page : Nat) : Steady s (culvertAccess s x page).1 := by
  have hused (t : State) (n p : Nat) : Steady t (markUsed t n p) := by
    unfold markUsed
    dsimp only
    split
    · exact steady_of_regs rfl rfl rfl
    · exact Steady.refl t
  have hstale (t : State) (n g : Nat) : Steady t (staleRefusal t x.p n g) := by
    have hcount : Steady t (countF t (banked culvStalecnt x.p) culvStalecnt_Count 1) :=
      steady_setF t (by simp only [banked, bankStride, culvStalecnt]; omega) _ _
    unfold staleRefusal
    dsimp only
    split
    · exact hcount
    · exact (steady_notice _ _ _ _).trans (hcount.elsewhere rfl rfl rfl)
  unfold culvertAccess
  split
  · exact hstale s page _
  · split
    · exact Steady.refl s
    · split
      · exact steady_breach s _ _ _ _ _
      · have hpage : Steady s (if s.dev.phase = .recovery then s else markUsed s page x.p) := steady_ite _ (Steady.refl s) (hused s page x.p)
        dsimp only
        split
        · exact (steady_of_memOnly (memOnly_wrWords _ _ _)).trans hpage
        · exact hpage

theorem steady_access_sqWin {s : State} {x : Acc} {n : Nat} (hplace : placeOf x.addr = .sqWin n) : Steady s (access s x).1 := by
  rcases access_sqWin (s := s) hplace with h | h | h <;> rw [h]
  · exact Steady.refl s
  · exact steady_breach s _ _ _ _ _
  · unfold sqWinRead
    dsimp only
    split
    · exact steady_setF s (by unfold sqStat; omega) _ _
    · exact Steady.refl s

theorem steady_outIssued (s : State) (c i : Nat) : Steady s (outIssued s c i) := by
  unfold outIssued
  dsimp only
  split
  · exact Steady.refl s
  · split
    · exact Steady.refl s
    · split
      · unfold outExecute
        split
        · exact (steady_setSlu _ c _).trans (steady_culvertAccess s _ _)
        · exact Steady.refl s
      · next hplace =>
        have hacc := steady_access_sqWin (s := s) (x := sluAcc s (sluPol s c) c _) hplace
        have hset := fun x => (steady_setSlu _ c x).trans hacc
        split
        · exact (steady_sqs _ _).trans (hset _)
        · exact hset _
      · exact Steady.refl s

theorem steady_sluSplit (s : State) (c : Nat) (write : Bool) : Steady s (sluSplit s c write) := by
  unfold sluSplit
  dsimp only
  split
  · exact Steady.refl s
  · exact (steady_outIssued _ _ _).trans (steady_setSlu s c _)

theorem steady_sluEvent (s : State) (c code cls : Nat) (l : List Word) : Steady s (sluEvent s c code cls l) := by
  unfold sluEvent
  dsimp only
  split
  · exact Steady.refl s
  · exact (steady_event _ _ _ _ _).trans (steady_setSlu s c _)

theorem steady_sluResetHalt (s : State) (c : Nat) : Steady s (sluResetHalt s c) := by
  have hstat : sluStat c < 0x60000000 ∨ 0x60030000 ≤ sluStat c := by unfold sluStat; omega
  have hhalt : Steady s (sluHalt s c 5) := by
    unfold sluHalt sluSetState sluClose
    exact (steady_setF _ hstat _ _).trans ((steady_setF _ hstat _ _).trans ((steady_setSlu _ c _).trans
      ((steady_sluSplit _ c true).trans (steady_sluSplit s c false))))
  unfold sluResetHalt
  dsimp only
  split
  · exact Steady.refl s
  · exact (steady_sluEvent _ _ _ _ _).trans hhalt

/-! ## The steps of tick loss (R32, R33, R60) -/

/-- The ticks stop, and RSTCAUSE shows it. -/
def lossStart (s : State) : State :=
  setB { s with dev := { s.dev with tickRun := false, tickLost := true, resetReq := [] }, tick := { s.tick with whole := false } } sysRstcause
    sysRstcause_Tickloss true

/-- Staged sets and loads are dropped; an entry of a migration is void. -/
def lossDrop (s : State) : State :=
  forEach (upto 8) (forEach (upto 8) s fun s p => dropStaged s p 4) fun s p =>
    if (polImg s p).migrating.isSome then setPolImg s p { polImg s p with entryLost := true } else s

/-- The engines and the placed segments. -/
def lossEngines (s : State) : State := forEach (knownEngines s) s fun s e => engineTickLoss (laneStop s e) e

/-- What was formed for the edge is dropped. -/
def lossFormed (s : State) : State := fsTickLost { s with latches := [], tick := { s.tick with nextMode := [], sets := [] } }

/-- Every polder enters mode 0. -/
def lossModes (s : State) : State := forEach (upto 8) s fun s p => enterMode s p 0 0xFE false

/-- The culvert and the sluices. -/
def lossBlocks (s : State) : State := forEach (upto 32) (culvTickLoss s) sluResetHalt

/-- The link, and an activation that was armed. -/
def lossUpdate (s : State) : State :=
  let s := { s with rlm := { s.rlm with heart := none, roles := [], mirWrites := [] }, upd := { s.upd with actDue := false, pchDue := false } }
  let st := getF s updStat updStat_State
  let s := if st = 4 ∨ st = 5 then setF (setF { s with upd := { s.upd with loaded := false } } updStat updStat_State 3) updStat updStat_Result 0xD else s
  setB s updPchper updPchper_Valid false

/-- Outputs trip, and the fault is collected. -/
def lossFault (s : State) : State := forEach (upto 48) (collect (forEach (upto 8) s tripPolder) 0x0310 3 0 [] none false) portIdle

theorem tickLoss_eq {s : State} (h : s.dev.tickRun = true) :
    tickLoss s = lossFault (lossUpdate (lossBlocks (lossModes (lossFormed (lossEngines (lossDrop (lossStart s))))))) := by
  unfold tickLoss lossFault lossUpdate lossBlocks lossModes lossFormed lossEngines lossDrop lossStart
  exact if_neg (by simp [h])

theorem ticks_dropStaged (s : State) (p cause : Nat) : Ticks s (dropStaged s p cause) := by
  have hstat (t : State) (x : PolImg) (st r k : Nat) : Steady t (setImgStat (setPolImg t p x) p st r k) := by
    have ha : banked imgStat p < 0x60000000 ∨ 0x60030000 ≤ banked imgStat p := by
      simp only [banked, bankStride, imgStat]
      omega
    exact (steady_setF _ ha _ _).trans ((steady_setF _ ha _ _).trans ((steady_setF _ ha _ _).trans (steady_of_regs rfl rfl rfl)))
  have hdiscard (t : State) : Steady t (discardSub t p cause) := by
    unfold discardSub
    dsimp only
    split
    · split
      · exact (steady_notice _ _ _ _).trans (hstat t _ _ _ _)
      · exact hstat t _ _ _ _
    · exact Steady.refl t
  exact (hdiscard _).ticks.trans ⟨rfl, rfl, SameReg.of_regs rfl⟩

theorem ticks_lossDrop (s : State) : Ticks s (lossDrop s) := by
  have h1 : Ticks s (forEach (upto 8) s fun s p => dropStaged s p 4) :=
    forEach_preserves (Ticks s) _ s _ (fun t p ht => (ticks_dropStaged t p 4).trans ht) (Ticks.refl s)
  refine (steady_forEach _ _ _ fun t p _ => ?_).ticks.trans h1
  split
  · exact steady_of_regs rfl rfl rfl
  · exact Steady.refl t

theorem steady_snapTaps (s : State) (e : Nat) : Steady s (snapTaps s e) := steady_setEng s e _

theorem memOnly_putHostWords (l : List Word) (s : State) (e a : Nat) : MemOnly s (putHostWords s e a l) := by
  induction l generalizing s a with
  | nil => exact MemOnly.refl s
  | cons v l ih =>
    refine (ih _ _).trans ?_
    unfold putHostWord
    split
    · exact memOnly_forEach _ _ _ fun t d => memOnly_wrWord t _ v
    · exact memOnly_wrWord s a v

theorem steady_applyHostWrite (s : State) (e : Nat) (w : HostWrite) : Steady s (applyHostWrite s e w) :=
  (steady_of_memOnly (memOnly_putHostWords _ _ _ _)).trans (steady_forEach _ s _ fun t x _ => steady_snapTaps t x)

theorem steady_drainList (l : List HostWrite) (s : State) (e : Nat) (force : Bool) : Steady s (drainList s e force l) := by
  induction l generalizing s with
  | nil => exact steady_of_regs rfl rfl rfl
  | cons w l ih =>
    unfold drainList
    split
    · exact (ih _).trans (steady_applyHostWrite s e w)
    · exact steady_of_regs rfl rfl rfl

theorem steady_resetEngRegs (s : State) {e : Nat} (he : e < 256) : Steady s (resetEngRegs s e) := by
  have hstat : engStat e < 0x60000000 := by unfold engStat; omega
  have hlist : ∀ a ∈ [engEsf e, engEtick e, engCyclast e, engCycmax e, engEcc e], a < 0x60000000 := by
    simp only [List.forall_mem_cons, engEsf, engEtick, engCyclast, engCycmax, engEcc]
    refine ⟨?_, ?_, ?_, ?_, ?_, by simp⟩ <;> omega
  exact (steady_forEach _ _ resetReg fun t a ha => steady_setReg t (.inl (hlist a ha)) _).trans
    ((steady_setF _ (.inl hstat) _ _).trans (steady_setB s (.inl hstat) _ _))

theorem steady_engineTickLoss (s : State) {e : Nat} (he : e < 256) : Steady s (engineTickLoss s e) := by
  have hregs := fun t : State => steady_resetEngRegs t he
  unfold engineTickLoss
  dsimp only
  split
  · exact (steady_setB _ (.inl (by unfold engStat; omega)) _ _).trans (hregs s)
  · exact (steady_setEng _ e _).trans ((steady_setEng _ e _).trans ((hregs _).trans (steady_drainList _ s e true)))

theorem steady_laneStop (s : State) {e : Nat} (he : e < 256) : Steady s (laneStop s e) :=
  steady_ite _ (steady_setF s (.inl (by unfold engTrstat; omega)) _ _) (Steady.refl s)

theorem lt_of_mem_knownEngines {s : State} {e : Nat} (h : e ∈ knownEngines s) : e < 256 := by
  rw [knownEngines, List.mem_filter, mem_upto] at h
  exact h.1

theorem steady_lossEngines (s : State) : Steady s (lossEngines s) :=
  steady_forEach _ s _ fun t e he => by
    have hlt := lt_of_mem_knownEngines he
    exact (steady_engineTickLoss _ hlt).trans (steady_laneStop t hlt)

theorem memOnly_fsTickLost (s : State) : MemOnly s (fsTickLost s) :=
  memOnly_forEach _ s _ fun t f => by
    split
    · exact memOnly_wrWord t _ _
    · exact memOnly_ite _ (memOnly_wrWord t _ _)
    · exact (memOnly_wrWord _ _ _).trans (memOnly_wrWord t _ _)
    · exact MemOnly.refl t

theorem ticks_lossFormed (s : State) : Ticks s (lossFormed s) :=
  (steady_of_memOnly (memOnly_fsTickLost _)).ticks.trans ⟨rfl, rfl, SameReg.of_regs rfl⟩

/-- Nothing formed for the edge is left. -/
theorem formed_lossFormed (s : State) : (lossFormed s).tick.sets = [] ∧ (lossFormed s).tick.nextMode = [] := by
  obtain ⟨m, h⟩ := memOnly_fsTickLost { s with latches := [], tick := { s.tick with nextMode := [], sets := [] } }
  unfold lossFormed
  rw [h]
  exact ⟨rfl, rfl⟩

/-! ## Every polder in mode 0 -/

theorem notice_tick (s : State) (code scope : Nat) (l : List Word) : (notice s code scope l).tick = s.tick := by
  obtain ⟨⟨rg, rec, fr, h⟩, -⟩ := notice_shape s code scope l
  rw [h]

/-- A polder's mode registers. -/
def modeSet (s : State) (p m : Nat) : State :=
  setF (setF (setF s (tickMode p) tickMode_Cur m) (tickMode p) tickMode_Prev (curMode s p)) (tickMode p) tickMode_Tim 0

theorem enterMode_eq (s : State) (p m rule : Nat) (always : Bool) : enterMode s p m rule always = modeSet s p m ∨
    ∃ l, enterMode s p m rule always = notice (modeSet s p m) 0x0340 p l := by
  unfold enterMode
  dsimp only
  split
  · exact .inl rfl
  · exact .inr ⟨_, rfl⟩

section
variable {p : Nat} (hp : p < 8) (s : State) (m rule : Nat) (always : Bool)
include hp

theorem getReg_enterMode {a : Nat} (ha : LowReg a) : getReg (enterMode s p m rule always) a = getReg (modeSet s p m) a := by
  rcases enterMode_eq s p m rule always with h | ⟨l, h⟩
  · rw [h]
  · rw [h, sameReg_notice ha.not_fault _ _ _ _ hp]

/-- Another register of SYS, CLK and TICK stays. -/
theorem sameReg_enterMode {a : Nat} (ha : LowReg a) (hne : a ≠ tickMode p) : SameReg a s (enterMode s p m rule always) :=
  (getReg_enterMode hp s m rule always ha).trans
    (((sameReg_setF _ _ _ hne).trans (sameReg_setF _ _ _ hne)).trans (sameReg_setF s _ _ hne))

theorem ticks_enterMode : Ticks s (enterMode s p m rule always) := by
  have hcause := sameReg_enterMode hp s m rule always lowReg_sysRstcause (by simp only [sysRstcause, tickMode]; omega)
  rcases enterMode_eq s p m rule always with h | ⟨l, h⟩
  · exact ⟨by rw [h]; rfl, by rw [h]; rfl, hcause⟩
  · exact ⟨by rw [h, notice_dev]; rfl, by rw [h, notice_dev]; rfl, hcause⟩

theorem curMode_enterMode (hm : m < 16) : curMode (enterMode s p m rule always) p = m := by
  rw [curMode, getF, getReg_enterMode hp s m rule always (lowReg_tickMode hp)]
  refine (getF_setF_field _ _ _ _ _ (by decide) (by decide) (by decide)).trans
    ((getF_setF_field _ _ _ _ _ (by decide) (by decide) (by decide)).trans ((getF_setF_same _ _ _ _ (by decide)).trans ?_))
  exact Nat.mod_eq_of_lt hm
end

theorem formed_enterMode (s : State) (p m rule : Nat) (always : Bool) : Formed s (enterMode s p m rule always) := by
  rcases enterMode_eq s p m rule always with h | ⟨l, h⟩
  · rw [h]
    exact ⟨rfl, rfl⟩
  · rw [h]
    exact ⟨by rw [notice_tick]; rfl, by rw [notice_tick]; rfl⟩

/-- What an element's effect brings about, and no element's effect undoes, holds behind the fold. -/
theorem forEach_reaches {α : Type} (P : State → Prop) (f : State → α → State) {l : List α} {x : α} (hx : x ∈ l) (hset : ∀ s, P (f s x))
    (hkeep : ∀ s y, y ∈ l → P s → P (f s y)) (s : State) : P (forEach l s f) := by
  obtain ⟨l1, l2, rfl⟩ := List.append_of_mem hx
  have hsplit : forEach (l1 ++ x :: l2) s f = forEach l2 (f (forEach l1 s f) x) f := List.foldl_append
  rw [hsplit]
  exact forEach_preserves_mem P l2 _ f (fun t y hy => hkeep t y (List.mem_append_right _ (List.mem_cons_of_mem _ hy))) (hset _)

theorem curMode_lossModes (s : State) {p : Nat} (hp : p < 8) : curMode (lossModes s) p = 0 := by
  refine forEach_reaches (fun t => curMode t p = 0) _ (mem_upto.mpr hp) (fun t => curMode_enterMode hp t 0 0xFE false (by decide)) (fun t q hq ht => ?_) s
  have hq8 := mem_upto.mp hq
  by_cases hqp : q = p
  · rw [hqp]
    exact curMode_enterMode hp t 0 0xFE false (by decide)
  · rw [curMode, getF, sameReg_enterMode hq8 t 0 0xFE false (lowReg_tickMode hp) (by simp only [tickMode]; omega)]
    exact ht

theorem ticks_lossModes (s : State) : Ticks s (lossModes s) :=
  forEach_preserves_mem (Ticks s) _ s _ (fun t _ hp ht => (ticks_enterMode (mem_upto.mp hp) t 0 0xFE false).trans ht) (Ticks.refl s)

theorem formed_lossModes (s : State) : Formed s (lossModes s) :=
  forEach_preserves (Formed s) _ s _ (fun t p ht => (formed_enterMode t p 0 0xFE false).trans ht) (Formed.refl s)

/-! ## The blocks, and the fault -/

/-- Pages that are freed for zeroing. -/
theorem steady_freePages (l : List Nat) (s : State) (c : Culv) :
    Steady s { forEach l s (fun s n => setReg s (culvFlag n) (flagWord (pageGen s n + 1) 0xFF 0 0 0)) with culv := c } := by
  have hpages : Steady s (forEach l s fun s n => setReg s (culvFlag n) (flagWord (pageGen s n + 1) 0xFF 0 0 0)) :=
    steady_forEach l s _ fun t n _ => steady_setReg t (.inr (by unfold culvFlag; omega)) _
  exact hpages.elsewhere rfl rfl rfl

theorem steady_culvTickLoss (s : State) : Steady s (culvTickLoss s) := steady_freePages _ s _

theorem steady_lossBlocks (s : State) : Steady s (lossBlocks s) :=
  (steady_forEach _ _ _ fun t c _ => steady_sluResetHalt t c).trans (steady_culvTickLoss s)

theorem steady_lossUpdate (s : State) : Steady s (lossUpdate s) := by
  have hstat : updStat < 0x60000000 ∨ 0x60030000 ≤ updStat := by decide
  have hback (t : State) : Steady t (setF (setF { t with upd := { t.upd with loaded := false } } updStat updStat_State 3) updStat updStat_Result 0xD) :=
    (steady_setF _ hstat _ _).trans ((steady_setF _ hstat _ _).trans (steady_of_regs rfl rfl rfl))
  unfold lossUpdate
  dsimp only
  exact (steady_setB _ (.inr (by decide)) _ _).trans ((steady_ite _ (hback _) (Steady.refl _)).trans (steady_of_regs rfl rfl rfl))

/-- The fault of tick loss, with every pair and port tripped. -/
def lossCollect (s : State) : State := collect (forEach (upto 8) s tripPolder) 0x0310 3 0 [] none false

theorem lossFault_eq (s : State) : lossFault s = forEach (upto 48) (lossCollect s) portIdle := rfl

theorem portIdle_frame (s : State) (n : Nat) : (portIdle s n).regs = s.regs ∧ (portIdle s n).dev = s.dev ∧ (portIdle s n).tick = s.tick ∧
    (portIdle s n).flt = s.flt := by
  unfold portIdle
  split <;> exact ⟨rfl, rfl, rfl, rfl⟩

theorem sameReg_lossFault {a : Nat} (ha : ¬faultReg a) (s : State) : SameReg a s (lossFault s) := by
  rw [lossFault_eq]
  exact (sameReg_forEach _ _ _ fun t n _ => SameReg.of_regs (portIdle_frame t n).1).trans
    ((sameReg_collect ha _ _ _ _ _ _ _ (by decide)).trans (sameReg_forEach _ s _ fun t p _ => sameReg_tripPolder ha t p))

theorem steady_lossFault (s : State) : Steady s (lossFault s) := by
  have hcalm : calm (lossCollect s) = calm s :=
    (calm_collect _ _ _ _ _ _ _).trans (calm_forEach _ s _ fun t p => calm_tripPolder t p)
  have hcollect : Steady s (lossCollect s) := steady_of_calm hcalm fun a ha =>
    (sameReg_collect ha.not_fault _ _ _ _ _ _ _ (by decide)).trans (sameReg_forEach _ s _ fun t p _ => sameReg_tripPolder ha.not_fault t p)
  rw [lossFault_eq]
  refine (steady_forEach _ _ _ fun t n _ => ?_).trans hcollect
  obtain ⟨hregs, hdev, htick, -⟩ := portIdle_frame t n
  exact steady_of_regs hdev htick hregs

theorem faultHeld_lossFault (s : State) : FaultHeld (lossFault s) 0x0310 3 0 0 := by
  have hflt : (lossFault s).flt = (lossCollect s).flt := by
    rw [lossFault_eq]
    refine forEach_keeps (·.flt) _ _ _ fun t n => ?_
    obtain ⟨-, -, -, hflt⟩ := portIdle_frame t n
    exact hflt
  obtain ⟨x, hx, hfields⟩ := faultHeld_collect (s := forEach (upto 8) s tripPolder) (code := 0x0310) (cls := 3) (scope := 0) (l := []) (hk := none) (r := false)
  exact ⟨x, by rw [hflt]; exact hx, hfields⟩

theorem not_faultReg_updPchper : ¬faultReg updPchper := by
  unfold faultReg
  simp only [updPchper, pwmPstat, clnkPstat, fltSum, fltHkstat, fltPinstat, safeStat, safeOutst, poldEvdrop]
  rintro (⟨k, hk, h⟩ | ⟨k, hk, h⟩ | h | h | h | h | ⟨k, hk, h⟩) <;> omega

/-- What tick loss leaves. -/
structure TicksLost (t : State) : Prop where
  run : t.dev.tickRun = false
  lost : t.dev.tickLost = true
  cause : getB t sysRstcause sysRstcause_Tickloss = true
  modes : ∀ p < 8, curMode t p = 0
  sets : t.tick.sets = []
  next : t.tick.nextMode = []
  fault : FaultHeld t 0x0310 3 0 0
  period : getB t updPchper updPchper_Valid = false

/-- From the dropped sets on: modes, blocks, link, fault. -/
theorem ticksLost_of_dropped {s d : State} (hticks : Ticks (lossStart s) d) (hsets : d.tick.sets = []) (hnext : d.tick.nextMode = []) :
    TicksLost (lossFault (lossUpdate (lossBlocks (lossModes d)))) := by
  have hafter : Steady (lossModes d) (lossFault (lossUpdate (lossBlocks (lossModes d)))) :=
    (steady_lossFault _).trans ((steady_lossUpdate _).trans (steady_lossBlocks _))
  have hall := hafter.ticks.trans ((ticks_lossModes d).trans hticks)
  have hformed := hafter.formed.trans (formed_lossModes d)
  refine ⟨hall.run, hall.lost, ?_, fun p hp => ?_, hformed.sets.trans hsets, hformed.next.trans hnext, faultHeld_lossFault _, ?_⟩
  · rw [getB, getF, hall.cause]
    exact getB_setB_same _ _ _ _ (by decide)
  · rw [curMode, getF, hafter.low _ (lowReg_tickMode hp)]
    exact curMode_lossModes d hp
  · rw [getB, getF, sameReg_lossFault not_faultReg_updPchper]
    exact getB_setB_same _ _ _ _ (by decide)

theorem exec_tickLoss (s : State) (h : s.dev.tickRun = true) : ∃ t, exec .tickLoss s = .next t ∧ TicksLost t := by
  have hticks := (ticks_lossFormed (lossEngines (lossDrop (lossStart s)))).trans ((steady_lossEngines _).ticks.trans (ticks_lossDrop (lossStart s)))
  obtain ⟨hsets, hnext⟩ := formed_lossFormed (lossEngines (lossDrop (lossStart s)))
  exact ⟨_, congrArg Host.Outcome.next (tickLoss_eq h), ticksLost_of_dropped hticks hsets hnext⟩

/-- Settles O55. The restarts of the main dies keep only surviving registers, and the Warden's restart writes only such; tick loss is followed step
by step over what it leaves alone. -/
theorem resetsLeaveTheirState : Obligations.ResetsLeaveTheirState := by
  unfold Obligations.ResetsLeaveTheirState
  intro s cleared
  refine ⟨powerOnReset_spec s, mainSuppliesLost_spec s, mainSuppliesReturn_spec s, hrstnAssert_spec s, hrstnRelease_spec s, fun hrun => ?_,
    tickRestart_spec s⟩
  obtain ⟨t, hexec, h⟩ := exec_tickLoss s hrun
  exact ⟨t, hexec, h.run, h.lost, h.cause, h.modes, h.sets, h.next, h.fault, h.period⟩

end Sys2Proof.Proofs
end

section
/-! SUPPORT. Proofs. The L slots of the engines: the address that a slot forms, what a load and a store do by where the address reaches (R84,
R85, R100, R102). -/

namespace Sys2Proof.Proofs

open Sys2Proof.Machine Sys2Proof.Claims

/-! ## The address and the post-modify (R100) -/

theorem lAddr_eq (s : State) (e gb : Nat) {am : Fin 4} (ham : am ≠ 3) (off : Int) :
    lAddr (getEng s e) am gb off = some (slotAddress s e am gb off) := by
  unfold lAddr slotAddress unsigned inG
  match am with
  | 0 => rfl
  | 1 => rfl
  | 2 => rfl
  | 3 => exact absurd rfl ham

/-- A write of a general register touches no other part of the engine. -/
@[simp] theorem gprWrite_frame (x : Eng) (r : Nat) (w : Word) :
    (gprWrite x r w).nxt.a = x.nxt.a ∧ (gprWrite x r w).nxt.f = x.nxt.f ∧ (gprWrite x r w).cur = x.cur ∧ (gprWrite x r w).stall = x.stall ∧
    (gprWrite x r w).fetchErr = x.fetchErr ∧ (gprWrite x r w).wordFlags = x.wordFlags ∧ (gprWrite x r w).running = x.running ∧
    (gprWrite x r w).cycles = x.cycles ∧ (gprWrite x r w).outs = x.outs ∧ (gprWrite x r w).vouts = x.vouts := by
  unfold gprWrite
  split <;> and_intros <;> rfl

/-- The post-modify touches the base register alone. -/
@[simp] theorem postModify_frame (x : Eng) (am gb : Nat) (off : Int) :
    (postModify x am gb off).nxt.a = x.nxt.a ∧ (postModify x am gb off).nxt.f = x.nxt.f ∧ (postModify x am gb off).cur = x.cur ∧
    (postModify x am gb off).stall = x.stall ∧ (postModify x am gb off).fetchErr = x.fetchErr ∧
    (postModify x am gb off).wordFlags = x.wordFlags ∧ (postModify x am gb off).running = x.running ∧
    (postModify x am gb off).cycles = x.cycles ∧ (postModify x am gb off).outs = x.outs ∧ (postModify x am gb off).vouts = x.vouts := by
  unfold postModify
  split
  · exact gprWrite_frame _ _ _
  · and_intros <;> rfl

/-- A general register as the word under way leaves it, after one of them is written; g0 discards it. -/
theorem cellGet_gprWrite (x : Eng) (r i : Nat) (w : Word) :
    cellGet 0 (gprWrite x r w).nxt.g i = if i = r ∧ r ≠ 0 then w else cellGet 0 x.nxt.g i := by
  unfold gprWrite
  by_cases hr : r = 0
  · rw [if_pos hr, if_neg fun h => h.2 hr]
  · rw [if_neg hr]
    by_cases hi : i = r
    · rw [if_pos ⟨hi, hr⟩, hi]
      exact cellGet_set_same _ _ _ _
    · rw [if_neg fun h => hi h.1]
      exact cellGet_set_other _ _ _ _ hi

/-- The post-modify of an engine that reads and writes its general registers as engine `e` does. -/
theorem cellGet_postModify {s : State} {e : Nat} {x : Eng} (hcur : x.cur = (getEng s e).cur) (hnxt : x.nxt = (getEng s e).nxt) (am gb : Nat)
    (off : Int) (r : Nat) : cellGet 0 (postModify x am gb off).nxt.g r = afterModify s e am gb off r := by
  have hread : gprRead x gb = inG s e gb := by rw [inG, gprRead, gprRead, hcur]
  unfold postModify afterModify
  by_cases ham : am = 1
  · rw [if_pos ham, cellGet_gprWrite, hread, hnxt]
    by_cases h : r = gb ∧ gb ≠ 0
    · rw [if_pos h, if_pos ⟨ham, h⟩]
      rfl
    · rw [if_neg h, if_neg fun k => h k.2]
      rfl
  · rw [if_neg ham, if_neg fun k => ham k.1, hnxt]
    rfl

/-! ## What a slot leaves alone, but for memory -/

/-- The word under way leaves the general registers as `g` has them, its accumulators, its predicate flags, the output window and the other
engines as they were. -/
structure Leaves (s t : State) (e : Nat) (g : Nat → Word) : Prop where
  regs : ∀ r, outG t e r = g r
  accs : ∀ a, outA t e a = outA s e a
  flags : outF t e = outF s e
  win : t.win = s.win
  other : ∀ d, d ≠ e → getEng t d = getEng s d

section
variable {s t u : State} {e : Nat} {g : Nat → Word}

theorem leaves_setEng {x : Eng} (hg : ∀ r, cellGet 0 x.nxt.g r = g r) (ha : x.nxt.a = (getEng s e).nxt.a) (hf : x.nxt.f = (getEng s e).nxt.f) :
    Leaves s (setEng s e x) e g :=
  ⟨fun r => by rw [outG, getEng_setEng_same]; exact hg r, fun a => by rw [outA, getEng_setEng_same, ha, outA],
    by rw [outF, getEng_setEng_same, hf, outF], rfl, fun _ hd => getEng_setEng_other s x hd⟩

theorem Leaves.congr (h : Leaves s t e g) (heng : u.eng = t.eng) (hwin : u.win = t.win) : Leaves s u e g := by
  have hget (d : Nat) : getEng u d = getEng t d := by rw [getEng, getEng, heng]
  exact ⟨fun r => by rw [outG, hget]; exact h.regs r, fun a => by rw [outA, hget]; exact h.accs a, by rw [outF, hget]; exact h.flags,
    hwin.trans h.win, fun d hd => (hget d).trans (h.other d hd)⟩

theorem Leaves.keeps (h : Leaves s t e g) (hnxt : (getEng u e).nxt = (getEng t e).nxt) (hwin : u.win = t.win)
    (hother : ∀ d, d ≠ e → getEng u d = getEng t d) : Leaves s u e g :=
  ⟨fun r => by rw [outG, hnxt]; exact h.regs r, fun a => by rw [outA, hnxt]; exact h.accs a, by rw [outF, hnxt]; exact h.flags,
    hwin.trans h.win, fun d hd => (hother d hd).trans (h.other d hd)⟩

theorem Leaves.slotKeeps (h : Leaves s t e g) (hu : SlotKeeps t u e) : Leaves s u e g := h.keeps hu.nxt hu.win hu.other

theorem Leaves.afterSlot (h : Leaves s t e g) (eow : Bool) : Leaves s (afterSlot t e eow) e g := by
  obtain ⟨-, hwin, hother, hnxt, -⟩ := afterSlot_spec t e eow
  exact h.keeps hnxt hwin hother

/-- What `Leaves` says, with memory kept, is what no load touches. -/
theorem Leaves.slotFrame (h : Leaves s t e g) (hmem : t.mem = s.mem) : SlotFrame s t e := ⟨hmem, h.win, h.other⟩

theorem afterSlot_mem (s : State) (e : Nat) (eow : Bool) : (Machine.afterSlot s e eow).mem = s.mem := (afterSlot_spec s e eow).1

/-- A flag that waits for the end of the word is noted (R105). -/
theorem slotNotes_afterSlot {i : Nat} (hi : i < 32) (hflag : nbit (getEng u e).wordFlags i = true) (hstall : (getEng u e).stall = (getEng s e).stall)
    (herr : (getEng u e).fetchErr = (getEng s e).fetchErr) (eow : Bool) : SlotNotes s (Machine.afterSlot u e eow) e i eow := by
  obtain ⟨-, -, -, -, hstays, hends⟩ := afterSlot_spec u e eow
  refine ⟨fun h => by rw [hstays h]; exact hflag, fun h hs hf => ?_⟩
  rw [(hends h (hstall.trans hs)).2 (herr.trans hf)]
  rw [nbit_eq_testBit] at hflag ⊢
  rw [BitVec.toNat_ofNat, Nat.testBit_mod_two_pow, Nat.testBit_or, hflag]
  simp [hi]

/-- At the last slot of a word an access that stalls holds the word's end back (R85). -/
theorem stall_afterSlot {st : Stall} (h : (getEng u e).stall = some st) (heow : st.eow = false) (eow : Bool) :
    (getEng (Machine.afterSlot u e eow) e).stall = some { st with eow := eow } ∧ (Machine.afterSlot u e eow).culv = u.culv := by
  unfold Machine.afterSlot
  cases eow with
  | false =>
    refine ⟨h.trans ?_, rfl⟩
    rw [← heow]
  | true =>
    rw [if_pos rfl, h]
    exact ⟨by rw [getEng_setEng_same], rfl⟩
end

/-! ## A memory error at an access (R112) -/

/-- Beside what it records, a memory error leaves the engine its mark for the vote. -/
theorem getEng_eccRecord (s : State) (e loc : Nat) (k : Ecc) (meets : Bool) :
    ∃ b, getEng (eccRecord s e loc k meets) e = { getEng s e with eccFault := b } := by
  have hcalm {t u : State} (h : calm u = calm t) : getEng u e = getEng t e := by rw [getEng, getEng, show u.eng = t.eng from congrArg (·.eng) h]
  unfold eccRecord
  dsimp only
  cases k with
  | clean => exact ⟨_, rfl⟩
  | single i =>
    refine ⟨(getEng s e).eccFault, ?_⟩
    dsimp only
    split
    · exact hcalm (calm_notice _ _ _ _)
    · rfl
  | double i =>
    dsimp only
    split
    · exact ⟨true, (hcalm (calm_event _ _ _ _ _)).trans (getEng_setEng_same _ _ _)⟩
    · exact ⟨(getEng s e).eccFault, hcalm (calm_event _ _ _ _ _)⟩

/-! ## What a load takes into registers (R102) -/

/-- The words of a load: two for a pair. -/
def loadPair (pair : Bool) (x y : Word) : List Word := if pair then [x, y] else [x]

theorem loadWords_eq (s : State) {half pair : Bool} (hp : half = true → pair = false) (uns : Bool) (q : Nat) :
    loadWords s half uns pair q = loadPair pair (loadValue s half uns q) (rdWord s (q + 4)) := by
  unfold loadWords loadPair loadValue halfValue
  cases half with
  | true =>
    rw [hp rfl]
    rfl
  | false => rfl

@[simp] theorem loadInto_frame (x : Eng) (gr : Nat) (pair : Bool) (v w : Word) :
    (loadInto x gr (loadPair pair v w)).nxt.a = x.nxt.a ∧ (loadInto x gr (loadPair pair v w)).nxt.f = x.nxt.f ∧
    (loadInto x gr (loadPair pair v w)).stall = x.stall ∧ (loadInto x gr (loadPair pair v w)).fetchErr = x.fetchErr ∧
    (loadInto x gr (loadPair pair v w)).wordFlags = x.wordFlags := by
  cases pair <;> simp [loadPair, loadInto]

/-- The registers after a load into `gr` of words `v` and, for a pair, `w`; `g` has them before. -/
def loadedRegs (g : Nat → Word) (gr : Fin 32) (pair : Bool) (v w : Word) (r : Nat) : Word :=
  if pair = true ∧ r = gr.val + 1 then w else if r = gr.val ∧ gr ≠ 0 then v else g r

theorem cellGet_loadInto (x : Eng) (gr : Fin 32) (pair : Bool) (v w : Word) (r : Nat) :
    cellGet 0 (loadInto x gr (loadPair pair v w)).nxt.g r = loadedRegs (fun r => cellGet 0 x.nxt.g r) gr pair v w r := by
  have hgr : r = gr.val ∧ gr.val ≠ 0 ↔ r = gr.val ∧ gr ≠ 0 := and_congr_right fun _ => not_congr (Fin.ext_iff (b := 0)).symm
  cases pair with
  | false =>
    show cellGet 0 (gprWrite x gr v).nxt.g r = _
    rw [cellGet_gprWrite]
    exact (if_congr hgr rfl rfl).trans (if_neg fun h => Bool.false_ne_true h.1).symm
  | true =>
    show cellGet 0 (gprWrite (gprWrite x gr v) (gr + 1) w).nxt.g r = _
    rw [cellGet_gprWrite, cellGet_gprWrite]
    exact if_congr ⟨fun h => ⟨rfl, h.1⟩, fun h => ⟨h.2, Nat.succ_ne_zero _⟩⟩ rfl (if_congr hgr rfl rfl)

/-! ## Loads (R84, R85) -/

section
variable (s : State) (e : Nat) (half uns pair : Bool) (gr gb am : Nat) (off : Int) (ecc : Ecc) (eow : Bool) (a : Nat)

/-- A refused load: its registers take 0, and LREF is noted. -/
def slotLoadRefuse : State := setEng s e (loadInto (postModify (lRefused (getEng s e)) am gb off) gr (loadPair pair 0 0))

theorem lLoad_refused (h : Claims.loadRefused s e a (lWidth half pair)) :
    lLoad s e half uns pair gr gb am off ecc eow a = afterSlot (slotLoadRefuse s e pair gr gb am off) e eow := by
  unfold lLoad
  dsimp only
  congr 1
  by_cases halign : a % lWidth half pair ≠ 0
  · rw [if_pos halign]
    rfl
  · rw [if_neg halign]
    have h := h.resolve_left halign
    cases hr : reach s e a <;> rw [hr] at h
    case culvert q => exact if_neg (by rw [show pageAllows _ _ _ _ = false from h]; decide)
    case window | none => rfl
    all_goals exact h.elim

/-- The stall that a load starts. -/
def slotLoadStall (q : Nat) : Stall :=
  { load := true, half := half, unsignedHalf := uns, pair := pair, addr := q, gr := gr, data := [], eow := false }

theorem lLoad_waits {q : Nat} (h : loadWaits s e a (lWidth half pair) q) : lLoad s e half uns pair gr gb am off ecc eow a =
    afterSlot (stallEnter (setEng s e { postModify (getEng s e) am gb off with stall := some (slotLoadStall half uns pair gr q) }) e q) e eow := by
  obtain ⟨halign, h⟩ := h
  unfold lLoad
  dsimp only
  rw [if_neg (not_not.mpr halign)]
  rcases h with h | ⟨h, hpage⟩
  · rw [h]
    rfl
  · rw [h]
    dsimp only
    rw [if_pos hpage]
    rfl

/-- A load from the engine's own memories. -/
def slotLoadOwn (q : Nat) : State :=
  eccRecord (setEng s e (loadInto (postModify { getEng s e with wordFlags := (getEng s e).wordFlags ||| eccFlag ecc } am gb off) gr
    (if eccBad ecc then loadPair pair 0 0 else loadWords (seenMem s e) half uns pair q))) e
    (eccLoc (q + 4 * eccAt ecc (if pair then 2 else 1))) ecc true

theorem lLoad_own {q : Nat} (halign : a % lWidth half pair = 0) (h : reach s e a = .dmem q ∨ reach s e a = .table q) :
    lLoad s e half uns pair gr gb am off ecc eow a = afterSlot (slotLoadOwn s e half uns pair gr gb am off ecc q) e eow := by
  unfold lLoad
  dsimp only
  rw [if_neg (not_not.mpr halign)]
  rcases h with h | h <;> rw [h] <;> rfl
end

/-! ## The queue at the culvert (R415) -/

theorem wheelUntil_of_done {s : State} {p : Nat} {done : List Beat → Bool} (h : done (beatQueue s p) = true) : wheelUntil s p done = s :=
  forEach_preserves (· = s) (upto 128) s _ (fun t _ ht => by rw [ht, if_pos h]) rfl

theorem beatEnter_frame (s : State) (p : Nat) (b : Beat) : (beatEnter s p b).mem = s.mem ∧ (beatEnter s p b).win = s.win ∧
    (beatEnter s p b).eng = s.eng := by
  unfold beatEnter
  dsimp only
  split <;> exact ⟨rfl, rfl, rfl⟩

theorem beatQueue_beatEnter (s : State) (p : Nat) (b : Beat) : beatQueue (beatEnter s p b) p = beatQueue s p ++ [b] := by
  unfold beatEnter
  dsimp only
  split <;> exact cellGet_set_same _ _ _ _

/-- An access that has room joins its polder's queue, where it goes to the culvert. -/
theorem stallEnter_spec {s : State} {e q : Nat} (h : inCulvert q = true → beatRoom s (resPol s (resEngine e)) = true) :
    (stallEnter s e q).mem = s.mem ∧ (stallEnter s e q).win = s.win ∧ (stallEnter s e q).eng = s.eng ∧
    (inCulvert q = true →
      beatQueue (stallEnter s e q) (resPol s (resEngine e)) = beatQueue s (resPol s (resEngine e)) ++ [.engine e]) := by
  unfold stallEnter
  dsimp only
  split
  · rename_i hq
    rw [wheelUntil_of_done (done := fun l => decide (l.length < 16)) (h hq)]
    obtain ⟨hmem, hwin, heng⟩ := beatEnter_frame s (resPol s (resEngine e)) (.engine e)
    exact ⟨hmem, hwin, heng, fun _ => beatQueue_beatEnter _ _ _⟩
  · rename_i hq
    exact ⟨rfl, rfl, rfl, fun h => absurd h hq⟩

/-! ## What a load does -/

section
variable {s : State} {e : Nat} {half uns pair : Bool} {gr : Fin 32} {gb am : Nat} {off : Int} {ecc : Ecc} {eow : Bool} {a : Nat}

theorem leaves_load {x : Eng} (ha : x.nxt.a = (getEng s e).nxt.a) (hf : x.nxt.f = (getEng s e).nxt.f)
    (hg : ∀ r, cellGet 0 x.nxt.g r = afterModify s e am gb off r) (v w : Word) :
    Leaves s (setEng s e (loadInto x gr (loadPair pair v w))) e (loadedRegs (afterModify s e am gb off) gr pair v w) := by
  obtain ⟨hla, hlf, -⟩ := loadInto_frame x gr pair v w
  refine leaves_setEng (fun r => ?_) (hla.trans ha) (hlf.trans hf)
  rw [cellGet_loadInto, funext hg]

/-- A refused load gives 0 and notes LREF. -/
theorem slotLoadRefuse_spec (eow : Bool) :
    Leaves s (afterSlot (slotLoadRefuse s e pair gr gb am off) e eow) e (loadedRegs (afterModify s e am gb off) gr pair 0 0) ∧
    SlotNotes s (afterSlot (slotLoadRefuse s e pair gr gb am off) e eow) e 5 eow := by
  obtain ⟨ha, hf, -, hstall, herr, hflags, -⟩ := postModify_frame (lRefused (getEng s e)) am gb off
  obtain ⟨-, -, hstall', herr', hflags'⟩ := loadInto_frame (postModify (lRefused (getEng s e)) am gb off) gr pair 0 0
  refine ⟨(leaves_load ha hf (cellGet_postModify (x := lRefused (getEng s e)) rfl rfl am gb off) 0 0).afterSlot eow, slotNotes_afterSlot (by decide) ?_ ?_ ?_ eow⟩
  all_goals rw [slotLoadRefuse, getEng_setEng_same]
  · rw [hflags', hflags, nbit_eq_testBit]
    show ((getEng s e).wordFlags ||| 32).testBit 5 = true
    rw [Nat.testBit_or]
    simp [show Nat.testBit 32 5 = true by decide]
  · rw [hstall', hstall]; rfl
  · rw [herr', herr]; rfl

/-- A load from the engine's own memories gives what they hold, and what SECDED finds is noted. -/
theorem slotLoadOwn_spec (hp : half = true → pair = false) (ecc : Ecc) (eow : Bool) (q : Nat) :
    let t := afterSlot (slotLoadOwn s e half uns pair gr gb am off ecc q) e eow
    t.mem = s.mem ∧
    Leaves s t e (if eccBad ecc = true then loadedRegs (afterModify s e am gb off) gr pair 0 0
      else loadedRegs (afterModify s e am gb off) gr pair (loadValue (seenMem s e) half uns q) (rdWord (seenMem s e) (q + 4))) ∧
    (∀ i < 32, nbit (eccFlag ecc) i = true → SlotNotes s t e i eow) := by
  have hwords : (if eccBad ecc then loadPair pair 0 0 else loadWords (seenMem s e) half uns pair q) =
      loadPair pair (if eccBad ecc then 0 else loadValue (seenMem s e) half uns q) (if eccBad ecc then 0 else rdWord (seenMem s e) (q + 4)) := by
    rw [loadWords_eq _ hp]
    split <;> rfl
  unfold slotLoadOwn
  rw [hwords]
  generalize hv : (if eccBad ecc = true then 0 else loadValue (seenMem s e) half uns q) = v
  generalize hw : (if eccBad ecc = true then 0 else rdWord (seenMem s e) (q + 4)) = w
  generalize hx : { getEng s e with wordFlags := (getEng s e).wordFlags ||| eccFlag ecc } = x
  obtain ⟨ha, hf, -, hstall, herr, hflags, -⟩ := postModify_frame x am gb off
  obtain ⟨-, -, hstall', herr', hflags'⟩ := loadInto_frame (postModify x am gb off) gr pair v w
  have hleaves : Leaves s (setEng s e (loadInto (postModify x am gb off) gr (loadPair pair v w))) e
      (loadedRegs (afterModify s e am gb off) gr pair v w) :=
    leaves_load (ha.trans (by rw [← hx])) (hf.trans (by rw [← hx])) (cellGet_postModify (by rw [← hx]) (by rw [← hx]) am gb off) v w
  have hkeeps := slotKeeps_eccRecord (setEng s e (loadInto (postModify x am gb off) gr (loadPair pair v w))) e
    (eccLoc (q + 4 * eccAt ecc (if pair then 2 else 1))) ecc true
  obtain ⟨b, heng⟩ := getEng_eccRecord (setEng s e (loadInto (postModify x am gb off) gr (loadPair pair v w))) e
    (eccLoc (q + 4 * eccAt ecc (if pair then 2 else 1))) ecc true
  rw [getEng_setEng_same] at heng
  refine ⟨(afterSlot_mem _ _ _).trans hkeeps.mem, ?_, fun i hi hbit => slotNotes_afterSlot hi ?_ ?_ ?_ eow⟩
  · have hall := (hleaves.slotKeeps hkeeps).afterSlot eow
    rw [← hv, ← hw] at hall ⊢
    split <;> rename_i hbad
    · simpa only [if_pos hbad] using hall
    · simpa only [if_neg hbad] using hall
  · rw [heng]
    show nbit (loadInto _ _ _).wordFlags i = true
    rw [hflags', hflags, ← hx]
    show nbit ((getEng s e).wordFlags ||| eccFlag ecc) i = true
    rw [nbit_eq_testBit] at hbit ⊢
    rw [Nat.testBit_or, hbit, Bool.or_true]
  · rw [heng]
    show (loadInto _ _ _).stall = _
    rw [hstall', hstall, ← hx]
  · rw [heng]
    show (loadInto _ _ _).fetchErr = _
    rw [herr', herr, ← hx]

/-- An access that waits leaves its stall, and joins the queue at the culvert where it goes there. -/
theorem slotWait_spec {q : Nat} (hroom : inCulvert q = true → beatRoom s (resPol s (resEngine e)) = true) (st : Stall)
    (heow : st.eow = false) (eow : Bool) :
    let t := afterSlot (stallEnter (setEng s e { postModify (getEng s e) am gb off with stall := some st }) e q) e eow
    t.mem = s.mem ∧ Leaves s t e (afterModify s e am gb off) ∧
    (inCulvert q = true → beatQueue t (resPol s (resEngine e)) = beatQueue s (resPol s (resEngine e)) ++ [.engine e]) ∧
    (getEng t e).stall = some { st with eow := eow } := by
  generalize hu : setEng s e { postModify (getEng s e) am gb off with stall := some st } = u
  have hleaves : Leaves s u e (afterModify s e am gb off) := by
    obtain ⟨ha, hf, -⟩ := postModify_frame (getEng s e) am gb off
    rw [← hu]
    exact leaves_setEng (cellGet_postModify rfl rfl am gb off) ha hf
  have hstall : (getEng u e).stall = some st := by rw [← hu, getEng_setEng_same]
  have himg : u.img = s.img := by rw [← hu]; rfl
  have hculv : u.culv = s.culv := by rw [← hu]; rfl
  have hmem : u.mem = s.mem := by rw [← hu]; rfl
  have hpol : resPol u (resEngine e) = resPol s (resEngine e) := by rw [resPol, himg, resPol]
  have hqueue (p : Nat) : beatQueue u p = beatQueue s p := by rw [beatQueue, hculv, beatQueue]
  obtain ⟨hm, hw, he, hq⟩ := stallEnter_spec (s := u) (e := e) (q := q) (by rw [hpol, beatRoom, hqueue]; exact hroom)
  obtain ⟨hst, hc⟩ := stall_afterSlot (u := stallEnter u e q) (st := st) (by rw [getEng, he]; exact hstall) heow eow
  refine ⟨(afterSlot_mem _ _ _).trans (hm.trans hmem), (hleaves.congr he hw).afterSlot eow, fun h => ?_, hst⟩
  rw [beatQueue, hc]
  rw [hpol, hqueue] at hq
  exact hq h

/-- The word under way leaves everything but the registers that a load gives. -/
def LoadGives (s t : State) (e : Nat) (g : Nat → Word) : Prop :=
  ((∀ a, outA t e a = outA s e a) ∧ outF t e = outF s e ∧ SlotFrame s t e) ∧ ∀ r, outG t e r = g r

theorem Leaves.gives {t : State} {g : Nat → Word} (h : Leaves s t e g) (hmem : t.mem = s.mem) : LoadGives s t e g :=
  ⟨⟨h.accs, h.flags, h.slotFrame hmem⟩, h.regs⟩

/-- What a load does, by where its address reaches. -/
def LoadDoes (s t : State) (e : Nat) (half uns pair : Bool) (gr : Fin 32) (ecc : Ecc) (eow : Bool) (a : Nat) (moved : Nat → Word) : Prop :=
  (Claims.loadRefused s e a (lWidth half pair) → LoadGives s t e (loadedRegs moved gr pair 0 0) ∧ SlotNotes s t e 5 eow) ∧
  (∀ q, loadWaits s e a (lWidth half pair) q → (inCulvert q = true → beatRoom s (resPol s (resEngine e)) = true) →
    ((∀ a, outA t e a = outA s e a) ∧ outF t e = outF s e ∧ SlotFrame s t e) ∧ (∀ r, outG t e r = moved r) ∧
    (inCulvert q = true → beatQueue t (resPol s (resEngine e)) = beatQueue s (resPol s (resEngine e)) ++ [.engine e]) ∧
    (getEng t e).stall = some { slotLoadStall half uns pair gr q with eow := eow }) ∧
  (∀ q, a % lWidth half pair = 0 → (reach s e a = .dmem q ∨ reach s e a = .table q) →
    (if eccBad ecc = true then LoadGives s t e (loadedRegs moved gr pair 0 0)
     else LoadGives s t e (loadedRegs moved gr pair (loadValue (seenMem s e) half uns q) (rdWord (seenMem s e) (q + 4)))) ∧
    (∀ i, ecc = .single i → SlotNotes s t e 6 eow) ∧ (∀ i, ecc = .double i → SlotNotes s t e 7 eow))

theorem lLoad_spec (hp : half = true → pair = false) :
    LoadDoes s (lLoad s e half uns pair gr gb am off ecc eow a) e half uns pair gr ecc eow a (afterModify s e am gb off) := by
  refine ⟨fun h => ?_, fun q h hroom => ?_, fun q halign h => ?_⟩
  · rw [lLoad_refused _ _ _ _ _ _ _ _ _ _ _ _ h]
    obtain ⟨hleaves, hnotes⟩ := slotLoadRefuse_spec (s := s) (e := e) (pair := pair) (gr := gr) (gb := gb) (am := am) (off := off) eow
    exact ⟨hleaves.gives (afterSlot_mem _ _ _), hnotes⟩
  · rw [lLoad_waits _ _ _ _ _ _ _ _ _ _ _ _ h]
    obtain ⟨hmem, hleaves, hqueue, hstall⟩ := slotWait_spec (gb := gb) (am := am) (off := off) hroom (slotLoadStall half uns pair gr q) rfl eow
    exact ⟨(hleaves.gives hmem).1, hleaves.regs, hqueue, hstall⟩
  · rw [lLoad_own _ _ _ _ _ _ _ _ _ _ _ _ halign h]
    obtain ⟨hmem, hleaves, hnotes⟩ := slotLoadOwn_spec (s := s) (e := e) (uns := uns) (gr := gr) (gb := gb) (am := am) (off := off) hp ecc eow q
    refine ⟨?_, fun i hi => hnotes 6 (by decide) (by rw [hi]; show nbit 64 6 = true; decide), fun i hi => hnotes 7 (by decide) (by rw [hi]; show nbit 128 7 = true; decide)⟩
    split <;> rename_i hbad
    · rw [if_pos hbad] at hleaves
      exact hleaves.gives hmem
    · rw [if_neg hbad] at hleaves
      exact hleaves.gives hmem
end

/-- Settles O7. One load serves all four forms: they differ in width, sign and the second register alone. -/
theorem loadsByWhereTheyReach : Obligations.LoadsByWhereTheyReach := by
  unfold Obligations.LoadsByWhereTheyReach
  intro s e gr gb am off ecc eow ham hruns
  have haddr := lAddr_eq s e gb ham off.toInt
  have hrun (f : State → State) : inWord s e f = f s := inWord_runs hruns
  refine ⟨⟨_, ?_, lLoad_spec (by decide)⟩, ⟨_, ?_, lLoad_spec (by decide)⟩, ⟨_, ?_, lLoad_spec (by decide)⟩, fun heven => ⟨_, ?_, lLoad_spec (by decide)⟩⟩
  · show execLdw e gr gb am off ecc eow s = _
    rw [execLdw, haddr]
    exact congrArg Host.Outcome.next (hrun _)
  · show execLdh e gr gb am off ecc eow s = _
    rw [execLdh, haddr]
    exact congrArg Host.Outcome.next (hrun _)
  · show execLdhu e gr gb am off ecc eow s = _
    rw [execLdhu, haddr]
    exact congrArg Host.Outcome.next (hrun _)
  · show execLdd e gr gb am off ecc eow s = _
    rw [execLdd, haddr]
    exact (if_pos heven).trans (congrArg Host.Outcome.next (hrun _))

end Sys2Proof.Proofs
end

section
/-! SUPPORT. Proofs. What notes and memory errors leave of an engine; bytes, halves and words of memory; the output window. -/

namespace Sys2Proof.Proofs

open Sys2Proof.Machine Sys2Proof.Claims

/-! ## What the notes of a step leave of its engine (R105, R112) -/

/-- An engine but for its flags, its request lane, the memory error that waits for a fetch and whether its step has come to its end. -/
def core (x : Eng) : Eng := { x with setFlags := 0, newFlags := 0, reqLane := [], eccFault := false, fetchErr := none, atEnd := false }

theorem core_getEng_eccMeet (s : State) (e loc : Nat) (k : Ecc) (meets : Bool) :
    core (getEng (eccMeet s e loc k meets) e) = core (getEng s e) ∧ (getEng (eccMeet s e loc k meets) e).atEnd = (getEng s e).atEnd := by
  unfold eccMeet
  split
  · exact ⟨rfl, rfl⟩
  · obtain ⟨b, hb⟩ := getEng_eccRecord (raiseEsf s e (eccFlag k)) e loc k meets
    have hraise : getEng (raiseEsf s e (eccFlag k)) e = _ := getEng_setEng_same s e _
    rw [hb, hraise]
    exact ⟨rfl, rfl⟩

/-- The fetch of an engine's next word meets an uncorrectable error. -/
def fetchFails (x : Eng) : Bool := x.fetchErr.any fun c => decide (c.1 = x.wp) && eccBad c.2

/-- A step whose fetch meets an uncorrectable error has come to its end; a fetch changes nothing else of the engine's core. -/
theorem fetchCheck_engine (s : State) (e : Nat) : core (getEng (fetchCheck s e) e) = core (getEng s e) ∧
    (getEng (fetchCheck s e) e).atEnd = ((getEng s e).atEnd || fetchFails (getEng s e)) := by
  unfold fetchCheck fetchFails
  dsimp only
  cases herr : (getEng s e).fetchErr with
  | none => exact ⟨rfl, (Bool.or_false _).symm⟩
  | some c =>
    obtain ⟨w, k⟩ := c
    dsimp only [Option.any_some]
    by_cases hw : w = (getEng s e).wp
    · rw [if_pos hw, decide_eq_true hw, Bool.true_and]
      obtain ⟨hcore, hend⟩ := core_getEng_eccMeet (setEng s e { getEng s e with fetchErr := none }) e (0x8000 + 4096 * execBank s e + w) k true
      rw [getEng_setEng_same] at hcore hend
      cases hk : eccBad k with
      | true =>
        rw [if_pos rfl, getEng_setEng_same, Bool.or_true]
        exact ⟨hcore, rfl⟩
      | false =>
        rw [if_neg Bool.false_ne_true, Bool.or_false]
        exact ⟨hcore, hend⟩
    · rw [if_neg hw, decide_eq_false hw, Bool.false_and, Bool.or_false]
      exact ⟨rfl, rfl⟩

theorem core_getEng_setRequest (s : State) (e n : Nat) (v : Bool) : core (getEng (setRequest s e n v) e) = core (getEng s e) := by
  unfold setRequest
  dsimp only
  split
  · rfl
  · split
    · rw [getEng_setEng_same]
      rfl
    · rfl

/-! ## The output words of an engine (R283) -/

/-- An output word that an engine holds: in its voter lane or in its writes of this tick. -/
def heldWord (x : Eng) (i : Nat) : Option Word := if inVoterStep x then cellFind x.vouts i else cellFind x.outs i

/-- An engine with a word of the output window written. -/
def holdWord (x : Eng) (i : Nat) (w : Word) : Eng :=
  if inVoterStep x then { x with vouts := cellPut x.vouts i w } else { x with outs := cellPut x.outs i w }

theorem windowWrite_eq (s : State) (e off : Nat) (w : Word) : windowWrite s e off w = setEng s e (holdWord (getEng s e) (off / 4) w) :=
  (apply_ite (setEng s e) _ _ _).symm

theorem holdWord_frame (x : Eng) (i : Nat) (w : Word) : (holdWord x i w).nxt = x.nxt ∧ (holdWord x i w).cur = x.cur := by
  unfold holdWord
  split <;> exact ⟨rfl, rfl⟩

theorem heldWord_holdWord_same (x : Eng) (i : Nat) (w : Word) : heldWord (holdWord x i w) i = some w := by
  unfold holdWord
  cases h : inVoterStep x with
  | true => exact (if_pos h).trans (cellFind_put_same _ _ _)
  | false =>
    have hno : ¬inVoterStep x = true := by rw [h]; decide
    exact (if_neg hno).trans (cellFind_put_same _ _ _)

theorem heldWord_holdWord_other (x : Eng) {i j : Nat} (w : Word) (hij : j ≠ i) : heldWord (holdWord x i w) j = heldWord x j := by
  unfold holdWord
  cases h : inVoterStep x with
  | true => exact (if_pos h).trans ((cellFind_put_other _ _ hij).trans (if_pos h).symm)
  | false =>
    have hno : ¬inVoterStep x = true := by rw [h]; decide
    exact (if_neg hno).trans ((cellFind_put_other _ _ hij).trans (if_neg hno).symm)

theorem windowWord_of_held {s : State} {e off : Nat} {w : Word} (h : heldWord (getEng s e) (off / 4) = some w) : windowWord s e off = w := by
  unfold heldWord at h
  unfold windowWord
  dsimp only
  split <;> rename_i hv
  · rw [if_pos hv] at h
    rw [h]
    rfl
  · rw [if_neg hv] at h
    rw [h]

/-- The output words that an engine holds are part of its core. -/
theorem heldWord_of_core {x y : Eng} (h : core y = core x) (i : Nat) : heldWord y i = heldWord x i := by
  show (if inVoterStep (core y) then cellFind (core y).vouts i else cellFind (core y).outs i) = _
  rw [h]
  rfl

theorem heldWord_endWord (s : State) (e i : Nat) : heldWord (getEng (endWord s e) e) i = heldWord (getEng s e) i := by
  unfold endWord
  dsimp only
  generalize hx : ({ getEng s e with
    cur := (getEng s e).nxt, wordFlags := 0, cycles := (getEng s e).cycles + 1, reps := _, wp := _, atEnd := _
    lines := _, nextLines := _, nextReqs := _ } : Eng) = x
  have hheld : heldWord x i = heldWord (getEng s e) i := by rw [← hx]; rfl
  have hreqs : core (getEng (forEach (getEng s e).nextReqs (setEng s e x) fun s c => setRequest s e c.1 c.2) e) = core x := by
    refine forEach_preserves (fun t => core (getEng t e) = core x) _ _ _ (fun t c h => (core_getEng_setRequest t e _ _).trans h) ?_
    rw [getEng_setEng_same]
  generalize forEach (getEng s e).nextReqs (setEng s e x) (fun s c => setRequest s e c.1 c.2) = z at hreqs ⊢
  have hflags : core (getEng (if (getEng s e).wordFlags = 0 then z else raiseEsf z e (getEng s e).wordFlags) e) = core x := by
    split
    · exact hreqs
    · exact (congrArg core (getEng_setEng_same z e _)).trans hreqs
  refine (heldWord_of_core ?_ i).trans hheld
  split
  · exact hflags
  · exact (fetchCheck_engine _ e).1.trans hflags

theorem heldWord_afterSlot (s : State) (e : Nat) (eow : Bool) (i : Nat) :
    heldWord (getEng (afterSlot s e eow) e) i = heldWord (getEng s e) i := by
  unfold afterSlot
  split
  · split
    · rw [getEng_setEng_same]
      rfl
    · exact heldWord_endWord s e i
  · rfl

/-- A word of the output window is a matter of the engines' outputs, the resource map and the last tick alone. -/
theorem windowWord_setEng (s : State) (e : Nat) {x : Eng} (hrun : x.running = (getEng s e).running) (houts : x.outs = (getEng s e).outs)
    (hvouts : x.vouts = (getEng s e).vouts) (off : Nat) : windowWord (setEng s e x) e off = windowWord s e off := by
  have hother (d : Nat) : (getEng (setEng s e x) d).outs = (getEng s d).outs := by
    by_cases hd : d = e
    · rw [hd, getEng_setEng_same, houts]
    · rw [getEng_setEng_other s x hd]
  have hvoter : inVoterStep x = inVoterStep (getEng s e) := by rw [inVoterStep, hrun, inVoterStep]
  have hpol : resPol (setEng s e x) (resEngine e) = resPol s (resEngine e) := rfl
  have hengines (p : Nat) : enginesOf (setEng s e x) p = enginesOf s p := rfl
  have hwin : (setEng s e x).win = s.win := rfl
  unfold windowWord
  simp only [hother, getEng_setEng_same, hvouts, houts, hvoter, hpol, hengines, hwin]

/-! ## Bytes of memory -/

/-- The byte that words put at place `i` of what they fill, the first word first. -/
def byteOf (l : List Word) (i : Nat) : Byte := wordByte (l.getD (i / 4) 0) (i % 4)

theorem rdByte_wrWord (s : State) (a : Nat) (w : Word) {i : Nat} (hi : i < 4) : rdByte (wrWord s a w) (a + i) = wordByte w i := by
  unfold wrWord
  match i, hi with
  | 0, _ =>
    rw [rdByte_wrByte_other _ _ (by omega), rdByte_wrByte_other _ _ (by omega), rdByte_wrByte_other _ _ (by omega)]
    exact rdByte_wrByte_same _ _ _
  | 1, _ => rw [rdByte_wrByte_other _ _ (by omega), rdByte_wrByte_other _ _ (by omega), rdByte_wrByte_same]
  | 2, _ => rw [rdByte_wrByte_other _ _ (by omega), rdByte_wrByte_same]
  | 3, _ => rw [rdByte_wrByte_same]

theorem wordByte_rdWord (s : State) (a : Nat) {i : Nat} (hi : i < 4) : wordByte (rdWord s a) i = rdByte s (a + i) := by
  have h0 := (rdByte s a).isLt
  have h1 := (rdByte s (a + 1)).isLt
  have h2 := (rdByte s (a + 2)).isLt
  have h3 := (rdByte s (a + 3)).isLt
  apply BitVec.eq_of_toNat_eq
  simp only [wordByte, rdWord, wordOfBytes, BitVec.toNat_ofNat]
  match i, hi with
  | 0, _ =>
    show _ = (rdByte s a).toNat
    omega
  | 1, _ => omega
  | 2, _ => omega
  | 3, _ => omega

theorem rdByte_wrWords (l : List Word) (s : State) (a : Nat) {i : Nat} (hi : i < 4 * l.length) :
    rdByte (wrWords s a l) (a + i) = byteOf l i := by
  induction l generalizing s a i with
  | nil => exact absurd hi (Nat.not_lt_zero i)
  | cons w t ih =>
    rw [List.length_cons] at hi
    rw [wrWords]
    by_cases h4 : i < 4
    · rw [rdByte_wrWords_other _ _ (.inl (by omega)), rdByte_wrWord _ _ _ h4, byteOf, Nat.div_eq_of_lt h4, Nat.mod_eq_of_lt h4]
      rfl
    · rw [show a + i = a + 4 + (i - 4) by omega, ih _ _ (by omega), byteOf, byteOf, show i / 4 = (i - 4) / 4 + 1 by omega,
        show (i - 4) % 4 = i % 4 by omega]
      rfl

theorem rdByte_wrHalf (s : State) (a : Nat) (w : Word) {i : Nat} (hi : i < 2) :
    rdByte (wrHalf s a (w.toNat % 65536)) (a + i) = wordByte w i := by
  unfold wrHalf
  match i, hi with
  | 0, _ =>
    rw [rdByte_wrByte_other _ _ (by omega), Nat.add_zero, rdByte_wrByte_same]
    apply BitVec.eq_of_toNat_eq
    simp only [wordByte, BitVec.toNat_ofNat]
    omega
  | 1, _ =>
    rw [rdByte_wrByte_same]
    apply BitVec.eq_of_toNat_eq
    simp only [wordByte, BitVec.toNat_ofNat]
    omega

theorem rdByte_wrHalf_other (s : State) {a i : Nat} (h : Nat) (hi : i < a ∨ a + 2 ≤ i) : rdByte (wrHalf s a h) i = rdByte s i := by
  rw [wrHalf, rdByte_wrByte_other _ _ (by omega), rdByte_wrByte_other _ _ (by omega)]

/-! ## A store's data -/

/-- The words that a store moves: two for a pair. -/
def storeData (s : State) (e gr : Nat) (pair : Bool) : List Word := if pair then [inG s e gr, inG s e (gr + 1)] else [inG s e gr]

section
variable {s : State} {half pair : Bool} {data : List Word} {q i x : Nat}

theorem rdByte_storeWords (hp : half = true → pair = false) (hlen : data.length = if pair then 2 else 1) (hi : i < lWidth half pair) :
    rdByte (storeWords s half q data) (q + i) = byteOf data i := by
  unfold storeWords
  cases half with
  | true =>
    have hi : i < 2 := hi
    rw [if_pos rfl, rdByte_wrHalf _ _ _ hi, byteOf, Nat.div_eq_of_lt (by omega), Nat.mod_eq_of_lt (by omega)]
    cases data <;> rfl
  | false =>
    rw [if_neg Bool.false_ne_true]
    refine rdByte_wrWords data s q (Nat.lt_of_lt_of_eq hi ?_)
    rw [hlen]
    cases pair <;> rfl

theorem memoryKept_storeWords (hp : half = true → pair = false) (hlen : data.length = if pair then 2 else 1) :
    MemoryKept s (storeWords s half q data) q (q + lWidth half pair) := by
  intro x hx
  unfold storeWords
  cases half with
  | true => exact rdByte_wrHalf_other s _ hx
  | false =>
    refine rdByte_wrWords_other data s ?_
    rw [hlen]
    cases pair <;> exact hx

theorem memOnly_storeWords (s : State) (half : Bool) (q : Nat) (data : List Word) : MemOnly s (storeWords s half q data) := by
  unfold storeWords
  split
  · exact ⟨_, rfl⟩
  · exact memOnly_wrWords data s q
end

/-! ## A store in the first 40 ns of a tick (R53) -/

/-- A byte that one of the words delivered early covers. -/
def Covers (l : List (Nat × Word)) (x : Nat) : Prop := ∃ c ∈ l, c.1 ≤ x ∧ x < c.1 + 4

theorem rdByte_restored (l : List (Nat × Word)) (s t : State) {x : Nat} (h : Covers l x ∨ rdByte t x = rdByte s x) :
    rdByte (forEach l t fun t c => wrWord t c.1 (rdWord s c.1)) x = rdByte s x := by
  induction l generalizing t with
  | nil => exact h.resolve_left fun ⟨_, hc, _⟩ => absurd hc List.not_mem_nil
  | cons c l ih =>
    refine ih (wrWord t c.1 (rdWord s c.1)) ?_
    by_cases hx : c.1 ≤ x ∧ x < c.1 + 4
    · right
      obtain ⟨i, rfl⟩ := Nat.exists_eq_add_of_le hx.1
      rw [rdByte_wrWord _ _ _ (by omega), wordByte_rdWord _ _ (by omega)]
    · rw [rdByte_wrWord_other t _ (by omega)]
      refine h.imp_left fun ⟨d, hd, hcov⟩ => ⟨d, (List.mem_cons.mp hd).resolve_left fun heq => hx (heq ▸ hcov), hcov⟩

theorem rdByte_notRestored (l : List (Nat × Word)) (s t : State) {x : Nat} (h : ¬Covers l x) :
    rdByte (forEach l t fun t c => wrWord t c.1 (rdWord s c.1)) x = rdByte t x := by
  refine forEach_preserves_mem (fun u => rdByte u x = rdByte t x) l t _ (fun u c hc hu => ?_) rfl
  have hx : ¬(c.1 ≤ x ∧ x < c.1 + 4) := fun hcov => h ⟨c, hc, hcov⟩
  exact (rdByte_wrWord_other u _ (by omega)).trans hu

section
variable {s : State} {e : Nat} {half : Bool} {q x : Nat} {data : List Word}

/-- The words that a store waits for are none where none come or the tick is older. -/
theorem storeOwn_at_once (h : (isEarly s e && !s.tick.early.isEmpty) = false) : storeOwn s e half q data = storeWords s half q data :=
  if_neg (by rw [h]; decide)

theorem comesLater_iff : comesLater s e x ↔ isEarly s e = true ∧ Covers s.tick.early x := Iff.rfl

theorem rdByte_storeOwn_early (h : (isEarly s e && !s.tick.early.isEmpty) = true) : rdByte (storeOwn s e half q data) x =
    rdByte (forEach s.tick.early (storeWords s half q data) fun t c => wrWord t c.1 (rdWord s c.1)) x := by
  unfold storeOwn
  dsimp only
  rw [if_pos h]
  rfl

theorem rdByte_storeOwn_later (h : comesLater s e x) : rdByte (storeOwn s e half q data) x = rdByte s x := by
  obtain ⟨hearly, hcov⟩ := comesLater_iff.mp h
  have hsome : s.tick.early.isEmpty = false := by
    obtain ⟨c, hc, -⟩ := hcov
    exact List.isEmpty_eq_false_iff_exists_mem.mpr ⟨c, hc⟩
  rw [rdByte_storeOwn_early (by rw [hearly, hsome]; rfl)]
  exact rdByte_restored _ _ _ (.inl hcov)

theorem rdByte_storeOwn_now (h : ¬comesLater s e x) : rdByte (storeOwn s e half q data) x = rdByte (storeWords s half q data) x := by
  cases hearly : (isEarly s e && !s.tick.early.isEmpty) with
  | false => rw [storeOwn_at_once hearly]
  | true =>
    rw [rdByte_storeOwn_early hearly]
    exact rdByte_notRestored _ _ _ fun hcov => h (comesLater_iff.mpr ⟨(Bool.and_eq_true_iff.mp hearly).1, hcov⟩)

theorem storeOwn_frame (s : State) (e : Nat) (half : Bool) (q : Nat) (data : List Word) :
    (storeOwn s e half q data).eng = s.eng ∧ (storeOwn s e half q data).win = s.win := by
  obtain ⟨m, hm⟩ := memOnly_storeWords s half q data
  unfold storeOwn
  dsimp only
  split
  · obtain ⟨n, hn⟩ := memOnly_forEach s.tick.early (storeWords s half q data) (fun t c => wrWord t c.1 (rdWord s c.1)) fun t c => memOnly_wrWord t _ _
    rw [hn, hm]
    exact ⟨rfl, rfl⟩
  · rw [hm]
    exact ⟨rfl, rfl⟩
end

end Sys2Proof.Proofs
end

section
/-! SUPPORT. Proofs. Stores of the L slot: what a store does by where its address reaches (R84, R85, R87, R102, R283). -/

namespace Sys2Proof.Proofs

open Sys2Proof.Machine Sys2Proof.Claims

/-! ## The cases of a store -/

section
variable (s : State) (e : Nat) (half pair : Bool) (gr gb am : Nat) (off : Int) (eow : Bool) (a : Nat)

/-- The state in which a store acts: the base of mode 0b01 has taken its post-modify. -/
def slotMoved : State := setEng s e (postModify (getEng s e) am gb off)

/-- A refused store notes LREF. -/
def slotStoreRefuse : State := setEng s e (postModify (lRefused (getEng s e)) am gb off)

/-- The stall that a store starts. -/
def slotStoreStall (q : Nat) : Stall :=
  { load := false, half := half, unsignedHalf := false, pair := pair, addr := q, gr := gr, data := storeData s e gr pair, eow := false }

/-- A store that the output window takes. -/
def windowTakes (o : Nat) : Prop := windowOwner s o = some (resPol s (resEngine e)) ∧
  (pair = true → windowOwner s (o + 4) = some (resPol s (resEngine e)))

theorem lStore_refused (h : storeRefused s e a (lWidth half pair) pair) :
    lStore s e half pair gr gb am off eow a = afterSlot (slotStoreRefuse s e gb am off) e eow := by
  unfold lStore
  dsimp only
  congr 1
  by_cases halign : a % lWidth half pair ≠ 0
  · rw [if_pos halign]
    rfl
  · rw [if_neg halign]
    have h := h.resolve_left halign
    cases hr : reach s e a <;> rw [hr] at h
    case dmem q => exact if_pos h
    case culvert q => exact if_neg (by rw [show pageAllows _ _ _ _ = false from h]; decide)
    case window o =>
      refine if_neg fun ⟨hown, hpair⟩ => h.elim (fun hne => hne hown) fun ⟨hp, hne⟩ => hne ?_
      rw [hp] at hpair
      exact beq_iff_eq.mp hpair
    case table | none => rfl
    case shared => exact h.elim

theorem lStore_own {q : Nat} (halign : a % lWidth half pair = 0) (h : reach s e a = .dmem q) (hq : q % 0x100000 < 0x1FF00) :
    lStore s e half pair gr gb am off eow a = afterSlot (storeOwn (slotMoved s e gb am off) e half q (storeData s e gr pair)) e eow := by
  unfold lStore
  dsimp only
  rw [if_neg (not_not.mpr halign), h]
  dsimp only
  rw [if_neg (Nat.not_le.mpr hq)]
  rfl

theorem lStore_waits {q : Nat} (halign : a % lWidth half pair = 0) (h : reach s e a = .shared q ∨
    (reach s e a = .culvert q ∧ pageAllows s ((q - 0x40000000) / 4096) (resPol s (resEngine e)) true = true)) :
    lStore s e half pair gr gb am off eow a =
    afterSlot (stallEnter (setEng s e { postModify (getEng s e) am gb off with stall := some (slotStoreStall s e half pair gr q) }) e q) e eow := by
  unfold lStore
  dsimp only
  rw [if_neg (not_not.mpr halign)]
  rcases h with h | ⟨h, hpage⟩
  · rw [h]
    rfl
  · rw [h]
    dsimp only
    rw [if_pos hpage]
    rfl

theorem lStore_window {o : Nat} (halign : a % lWidth half pair = 0) (h : reach s e a = .window o) (htakes : windowTakes s e pair o) :
    lStore s e half pair gr gb am off eow a =
    afterSlot (if (cellGet polImgReset s.img.pol (resPol s (resEngine e))).migrating.isSome then slotMoved s e gb am off
      else windowStore (slotMoved s e gb am off) e half o (storeData s e gr pair)) e eow := by
  obtain ⟨hown, hpair⟩ := htakes
  unfold lStore
  dsimp only
  rw [if_neg (not_not.mpr halign), h]
  dsimp only
  refine congrArg (afterSlot · e eow) (if_pos ⟨hown, ?_⟩)
  cases pair with
  | true => exact beq_iff_eq.mpr (hpair rfl)
  | false => rfl

/-- A store is refused, or one of its three ways is open. -/
theorem store_cases : storeRefused s e a (lWidth half pair) pair ∨ (a % lWidth half pair = 0 ∧
    ((∃ q, reach s e a = .dmem q ∧ q % 0x100000 < 0x1FF00) ∨
     (∃ q, reach s e a = .shared q ∨ (reach s e a = .culvert q ∧ pageAllows s ((q - 0x40000000) / 4096) (resPol s (resEngine e)) true = true)) ∨
     ∃ o, reach s e a = .window o ∧ windowTakes s e pair o)) := by
  unfold storeRefused windowTakes
  by_cases halign : a % lWidth half pair = 0
  · cases hr : reach s e a with
    | dmem q =>
      by_cases hq : 0x1FF00 ≤ q % 0x100000
      · exact .inl (.inr hq)
      · exact .inr ⟨halign, .inl ⟨q, rfl, Nat.not_le.mp hq⟩⟩
    | table q => exact .inl (.inr trivial)
    | shared q => exact .inr ⟨halign, .inr (.inl ⟨q, .inl rfl⟩)⟩
    | culvert q =>
      cases hpage : pageAllows s ((q - 0x40000000) / 4096) (resPol s (resEngine e)) true with
      | true => exact .inr ⟨halign, .inr (.inl ⟨q, .inr ⟨rfl, hpage⟩⟩)⟩
      | false => exact .inl (.inr hpage)
    | window o =>
      by_cases htakes : windowTakes s e pair o
      · exact .inr ⟨halign, .inr (.inr ⟨o, rfl, htakes⟩)⟩
      · refine .inl (.inr ?_)
        by_cases hown : windowOwner s o = some (resPol s (resEngine e))
        · exact .inr (Classical.not_imp.mp fun hpair => htakes ⟨hown, hpair⟩)
        · exact .inl hown
    | none => exact .inl (.inr trivial)
  · exact .inl (.inl halign)
end

/-! ## What each case does -/

section
variable {s : State} {e : Nat} {half pair : Bool} {gr gb am : Nat} {off : Int} {eow : Bool} {a q : Nat}

theorem leaves_slotMoved : Leaves s (slotMoved s e gb am off) e (afterModify s e am gb off) := by
  obtain ⟨ha, hf, -⟩ := postModify_frame (getEng s e) am gb off
  exact leaves_setEng (cellGet_postModify rfl rfl am gb off) ha hf

theorem length_storeData : (storeData s e gr pair).length = if pair then 2 else 1 := by cases pair <;> rfl

/-- A refused store changes nothing but the base, and notes LREF. -/
theorem slotStoreRefuse_spec : Leaves s (afterSlot (slotStoreRefuse s e gb am off) e eow) e (afterModify s e am gb off) ∧
    SlotNotes s (afterSlot (slotStoreRefuse s e gb am off) e eow) e 5 eow := by
  obtain ⟨ha, hf, -, hstall, herr, hflags, -⟩ := postModify_frame (lRefused (getEng s e)) am gb off
  refine ⟨(leaves_setEng (cellGet_postModify (x := lRefused (getEng s e)) rfl rfl am gb off) ha hf).afterSlot eow,
    slotNotes_afterSlot (by decide) ?_ ?_ ?_ eow⟩
  all_goals rw [slotStoreRefuse, getEng_setEng_same]
  · rw [hflags, nbit_eq_testBit]
    show ((getEng s e).wordFlags ||| 32).testBit 5 = true
    rw [Nat.testBit_or]
    simp [show Nat.testBit 32 5 = true by decide]
  · rw [hstall]; rfl
  · rw [herr]; rfl

theorem comesLater_slotMoved (x : Nat) : comesLater (slotMoved s e gb am off) e x ↔ comesLater s e x := by
  obtain ⟨-, -, -, -, -, -, -, hcycles, -⟩ := postModify_frame (getEng s e) am gb off
  have hearly : isEarly (slotMoved s e gb am off) e = isEarly s e := by
    unfold isEarly
    rw [slotMoved, getEng_setEng_same, hcycles]
    rfl
  rw [comesLater, comesLater, hearly]
  rfl

/-- A store to data memory: its bytes, but for those that come later (R53), and no other. -/
theorem slotStoreOwn_spec (hp : half = true → pair = false) :
    let t := afterSlot (storeOwn (slotMoved s e gb am off) e half q (storeData s e gr pair)) e eow
    Leaves s t e (afterModify s e am gb off) ∧
    (∀ i < lWidth half pair, ¬comesLater s e (q + i) → rdByte t (q + i) = byteOf (storeData s e gr pair) i) ∧
    (∀ x, comesLater s e x → rdByte t x = rdByte s x) ∧ MemoryKept s t q (q + lWidth half pair) := by
  have hread (u : State) (x : Nat) : rdByte (afterSlot u e eow) x = rdByte u x := congrArg (fun m => cellGet 0 m x) (afterSlot_mem u e eow)
  obtain ⟨heng, hwin⟩ := storeOwn_frame (slotMoved s e gb am off) e half q (storeData s e gr pair)
  have hlater (x : Nat) (hx : comesLater s e x) :
      rdByte (storeOwn (slotMoved s e gb am off) e half q (storeData s e gr pair)) x = rdByte s x :=
    rdByte_storeOwn_later ((comesLater_slotMoved x).mpr hx)
  have hnow (x : Nat) (hx : ¬comesLater s e x) := rdByte_storeOwn_now (half := half) (q := q) (data := storeData s e gr pair)
    ((comesLater_slotMoved (gb := gb) (am := am) (off := off) x).not.mpr hx)
  refine ⟨(leaves_slotMoved.congr heng hwin).afterSlot eow, fun i hi hx => ?_, fun x hx => ?_, fun x hx => ?_⟩
  · exact (hread _ _).trans ((hnow _ hx).trans (rdByte_storeWords hp length_storeData hi))
  · exact (hread _ _).trans (hlater x hx)
  · refine (hread _ _).trans ?_
    by_cases hc : comesLater s e x
    · exact hlater x hc
    · exact (hnow x hc).trans (memoryKept_storeWords hp length_storeData x hx)

/-- Only a culvert access goes to the culvert, so with room there no store waits for its queue. -/
theorem culvert_room (halign : a % lWidth half pair = 0) (h : reach s e a = .shared q ∨ reach s e a = .culvert q)
    (hroom : stallRoom s e a (lWidth half pair)) : inCulvert q = true → beatRoom s (resPol s (resEngine e)) = true := by
  rcases h with h | h
  · intro hq
    have hlow : q < 0x41000000 := of_decide_eq_true (Bool.and_eq_true_iff.mp hq).2
    exfalso
    unfold reach at h
    split_ifs at h
    injection h with h
    rw [sharedBase] at h
    omega
  · exact fun _ => hroom halign q h

/-! ## The output window (R283) -/

theorem slotKeeps_windowWrite (s : State) (e off : Nat) (w : Word) : SlotKeeps s (windowWrite s e off w) e := by
  obtain ⟨hnxt, hcur⟩ := holdWord_frame (getEng s e) (off / 4) w
  rw [windowWrite_eq]
  exact slotKeeps_setEng hnxt hcur

theorem windowWrite_same (s : State) (e off : Nat) {i : Nat} (w : Word) (h : i = off / 4) : heldWord (getEng (windowWrite s e off w) e) i = some w := by
  rw [windowWrite_eq, getEng_setEng_same, h]
  exact heldWord_holdWord_same _ _ _

theorem windowWrite_other (s : State) (e off : Nat) {i : Nat} (w : Word) (h : i ≠ off / 4) :
    heldWord (getEng (windowWrite s e off w) e) i = heldWord (getEng s e) i := by
  rw [windowWrite_eq, getEng_setEng_same]
  exact heldWord_holdWord_other _ _ h

/-- What a store leaves in the first word of the output window that it names; `old` was there. -/
def windowValue (half : Bool) (o : Nat) (old w : Word) : Word :=
  if half then
    (if o % 4 = 0 then BitVec.ofNat 32 (old.toNat / 65536 * 65536 + w.toNat % 65536)
     else BitVec.ofNat 32 (old.toNat % 65536 + 65536 * (w.toNat % 65536)))
  else w

theorem windowStore_half (s : State) (e o : Nat) (w : Word) :
    windowStore s e true o [w] = windowWrite s e (o / 4 * 4) (windowValue true o (windowWord s e (o / 4 * 4)) w) := by
  unfold windowValue
  rw [if_pos rfl, ← apply_ite (BitVec.ofNat 32)]
  rfl

/-- A store of one word or half into the output window. -/
theorem windowStore_one (s : State) (e o : Nat) (half : Bool) (w : Word) :
    SlotKeeps s (windowStore s e half o [w]) e ∧
    heldWord (getEng (windowStore s e half o [w]) e) (o / 4) = some (windowValue half o (windowWord s e (o / 4 * 4)) w) := by
  cases half with
  | true =>
    rw [windowStore_half]
    exact ⟨slotKeeps_windowWrite _ _ _ _, windowWrite_same s e (o / 4 * 4) _ (Nat.mul_div_cancel _ (by decide)).symm⟩
  | false => exact ⟨slotKeeps_windowWrite _ _ _ _, windowWrite_same s e o w rfl⟩

/-- A store of two words into the output window. -/
theorem windowStore_pair (s : State) (e o : Nat) (w v : Word) :
    SlotKeeps s (windowStore s e false o [w, v]) e ∧
    heldWord (getEng (windowStore s e false o [w, v]) e) (o / 4) = some w ∧
    heldWord (getEng (windowStore s e false o [w, v]) e) (o / 4 + 1) = some v := by
  refine ⟨(slotKeeps_windowWrite _ _ _ _).trans (slotKeeps_windowWrite _ _ _ _), ?_, ?_⟩
  · exact (windowWrite_other _ _ _ _ (by omega)).trans (windowWrite_same s e o w rfl)
  · exact windowWrite_same (windowWrite s e o w) e (o + 4) v (Nat.add_div_right o (by decide)).symm

theorem windowStore_spec (s t : State) (e o gr : Nat) {half pair : Bool} (hp : half = true → pair = false) :
    SlotKeeps t (windowStore t e half o (storeData s e gr pair)) e ∧
    heldWord (getEng (windowStore t e half o (storeData s e gr pair)) e) (o / 4) =
      some (windowValue half o (windowWord t e (o / 4 * 4)) ((storeData s e gr pair).headD 0)) ∧
    (pair = true → heldWord (getEng (windowStore t e half o (storeData s e gr pair)) e) (o / 4 + 1) = some ((storeData s e gr pair).getD 1 0)) := by
  cases pair with
  | false =>
    obtain ⟨hkeeps, hheld⟩ := windowStore_one t e o half (inG s e gr)
    exact ⟨hkeeps, hheld, fun h => absurd h (by decide)⟩
  | true =>
    have hhalf : half = false := Bool.eq_false_iff.mpr fun h => absurd (hp h) (by decide)
    obtain ⟨hkeeps, hfirst, hsecond⟩ := windowStore_pair t e o (inG s e gr) (inG s e (gr + 1))
    rw [hhalf]
    exact ⟨hkeeps, hfirst, fun _ => hsecond⟩

/-- A store into the output window: the words that it names, as this engine's step writes them. -/
theorem slotWindow_spec {o : Nat} (hp : half = true → pair = false) :
    let t := afterSlot (windowStore (slotMoved s e gb am off) e half o (storeData s e gr pair)) e eow
    t.mem = s.mem ∧ Leaves s t e (afterModify s e am gb off) ∧
    windowWord t e (o / 4 * 4) = windowValue half o (windowWord s e (o / 4 * 4)) ((storeData s e gr pair).headD 0) ∧
    (pair = true → windowWord t e (o + 4) = (storeData s e gr pair).getD 1 0) := by
  obtain ⟨hkeeps, hfirst, hsecond⟩ := windowStore_spec s (slotMoved s e gb am off) e o gr hp
  have hword : o / 4 * 4 / 4 = o / 4 := Nat.mul_div_cancel _ (by decide)
  obtain ⟨-, -, -, -, -, -, hrun, -, houts, hvouts⟩ := postModify_frame (getEng s e) am gb off
  rw [slotMoved, windowWord_setEng s e hrun houts hvouts, ← slotMoved] at hfirst
  refine ⟨(afterSlot_mem _ _ _).trans hkeeps.mem, (leaves_slotMoved.slotKeeps hkeeps).afterSlot eow, ?_, fun h => ?_⟩
  · exact windowWord_of_held ((heldWord_afterSlot _ _ _ _).trans (hword.symm ▸ hfirst))
  · refine windowWord_of_held ((heldWord_afterSlot _ _ _ _).trans ?_)
    rw [Nat.add_div_right o (by decide)]
    exact hsecond h

/-! ## What a store does -/

/-- In each of its cases a store leaves the registers but the base, the flags and the other engines. -/
theorem leaves_lStore (hp : half = true → pair = false) (hroom : stallRoom s e a (lWidth half pair)) :
    Leaves s (lStore s e half pair gr gb am off eow a) e (afterModify s e am gb off) := by
  rcases store_cases s e half pair a with h | ⟨halign, ⟨q, hr, hq⟩ | ⟨q, hr⟩ | ⟨o, hr, htakes⟩⟩
  · rw [lStore_refused _ _ _ _ _ _ _ _ _ _ h]
    exact slotStoreRefuse_spec.1
  · rw [lStore_own _ _ _ _ _ _ _ _ _ _ halign hr hq]
    exact (slotStoreOwn_spec hp).1
  · rw [lStore_waits _ _ _ _ _ _ _ _ _ _ halign hr]
    exact (slotWait_spec (culvert_room halign (hr.imp_right And.left) hroom) (slotStoreStall s e half pair gr q) rfl eow).2.1
  · rw [lStore_window _ _ _ _ _ _ _ _ _ _ halign hr htakes]
    split
    · exact leaves_slotMoved.afterSlot eow
    · exact (slotWindow_spec hp).2.1

/-- What a store does, by where its address reaches. -/
def StoreDoes (s t : State) (e : Nat) (half pair : Bool) (gr : Nat) (eow : Bool) (a : Nat) (bytes : List Byte) (data : List Word)
    (moved : Nat → Word) : Prop :=
  let p := resPol s (resEngine e)
  let kept : Prop := (∀ r, outG t e r = moved r) ∧ (∀ x, outA t e x = outA s e x) ∧ outF t e = outF s e ∧ t.win = s.win
  (stallRoom s e a (lWidth half pair) → kept) ∧
  (∀ q, a % lWidth half pair = 0 → reach s e a = .dmem q → q % 0x100000 < 0x1FF00 →
    (∀ i < lWidth half pair, ¬comesLater s e (q + i) → rdByte t (q + i) = bytes.getD i 0) ∧
    (∀ x, comesLater s e x → rdByte t x = rdByte s x) ∧ MemoryKept s t q (q + lWidth half pair)) ∧
  (∀ q, a % lWidth half pair = 0 → (reach s e a = .shared q ∨ (reach s e a = .culvert q ∧ pageAllows s ((q - 0x40000000) / 4096) p true = true)) →
    stallRoom s e a (lWidth half pair) → t.mem = s.mem ∧ (inCulvert q = true → beatQueue t p = beatQueue s p ++ [.engine e]) ∧
    (getEng t e).stall = some { slotStoreStall s e half pair gr q with eow := eow }) ∧
  (∀ o, a % lWidth half pair = 0 → reach s e a = .window o → windowOwner s o = some p → (pair = true → windowOwner s (o + 4) = some p) →
    (cellGet polImgReset s.img.pol p).migrating = none → t.mem = s.mem ∧
      windowWord t e (o / 4 * 4) = windowValue half o (windowWord s e (o / 4 * 4)) (data.headD 0) ∧
      (pair = true → windowWord t e (o + 4) = data.getD 1 0)) ∧
  (storeRefused s e a (lWidth half pair) pair → kept ∧ t.mem = s.mem ∧ SlotNotes s t e 5 eow)

theorem lStore_spec (hp : half = true → pair = false) {bytes : List Byte}
    (hbytes : ∀ i < lWidth half pair, byteOf (storeData s e gr pair) i = bytes.getD i 0) :
    StoreDoes s (lStore s e half pair gr gb am off eow a) e half pair gr eow a bytes (storeData s e gr pair) (afterModify s e am gb off) := by
  refine ⟨fun hroom => ?_, fun q halign hr hq => ?_, fun q halign hr hroom => ?_, fun o halign hr hown hpair hmig => ?_, fun h => ?_⟩
  · have h := leaves_lStore (gr := gr) (gb := gb) (am := am) (off := off) (eow := eow) hp hroom
    exact ⟨h.regs, h.accs, h.flags, h.win⟩
  · rw [lStore_own _ _ _ _ _ _ _ _ _ _ halign hr hq]
    obtain ⟨-, hin, hlater, hkept⟩ := slotStoreOwn_spec (s := s) (e := e) (gr := gr) (gb := gb) (am := am) (off := off) (eow := eow) (q := q) hp
    exact ⟨fun i hi hx => (hin i hi hx).trans (hbytes i hi), hlater, hkept⟩
  · rw [lStore_waits _ _ _ _ _ _ _ _ _ _ halign hr]
    obtain ⟨hmem, -, hqueue, hstall⟩ := slotWait_spec (gb := gb) (am := am) (off := off) (culvert_room halign (hr.imp_right And.left) hroom)
      (slotStoreStall s e half pair gr q) rfl eow
    exact ⟨hmem, hqueue, hstall⟩
  · rw [lStore_window _ _ _ _ _ _ _ _ _ _ halign hr ⟨hown, hpair⟩, hmig]
    obtain ⟨hmem, -, hfirst, hsecond⟩ := slotWindow_spec (s := s) (e := e) (gr := gr) (gb := gb) (am := am) (off := off) (eow := eow) (o := o) hp
    exact ⟨hmem, hfirst, hsecond⟩
  · rw [lStore_refused _ _ _ _ _ _ _ _ _ _ h]
    obtain ⟨hleaves, hnotes⟩ := slotStoreRefuse_spec (s := s) (e := e) (gb := gb) (am := am) (off := off) (eow := eow)
    exact ⟨⟨hleaves.regs, hleaves.accs, hleaves.flags, hleaves.win⟩, afterSlot_mem _ _ _, hnotes⟩
end

/-- Settles O8. One store serves all three forms: they differ in width and the second word alone. -/
theorem storesByWhereTheyReach : Obligations.StoresByWhereTheyReach := by
  unfold Obligations.StoresByWhereTheyReach
  intro s e gr gb am off eow ham hruns
  have haddr := lAddr_eq s e gb ham off.toInt
  have hrun (f : State → State) : inWord s e f = f s := inWord_runs hruns
  refine ⟨⟨_, ?_, lStore_spec (by decide) ?_⟩, ⟨_, ?_, lStore_spec (by decide) ?_⟩, fun heven => ⟨_, ?_, lStore_spec (by decide) ?_⟩⟩
  · show execStw e gr gb am off eow s = _
    rw [execStw, haddr]
    exact congrArg Host.Outcome.next (hrun _)
  · intro i hi
    match i, hi with
    | 0, _ | 1, _ | 2, _ | 3, _ => rfl
  · show execSth e gr gb am off eow s = _
    rw [execSth, haddr]
    exact congrArg Host.Outcome.next (hrun _)
  · intro i hi
    match i, hi with
    | 0, _ | 1, _ => rfl
  · show execStd e gr gb am off eow s = _
    rw [execStd, haddr]
    exact (if_pos heven).trans (congrArg Host.Outcome.next (hrun _))
  · intro i hi
    match i, hi with
    | 0, _ | 1, _ | 2, _ | 3, _ | 4, _ | 5, _ | 6, _ | 7, _ => rfl

end Sys2Proof.Proofs
end

section
/-! SUPPORT. Proofs. The loss of REFCLK with a sluice whose owner in the resource map is no polder (R441, R615): what the model counts for a dropped
notice of such an owner falls upon a register of the link. -/

namespace Sys2Proof.Proofs

open Sys2Proof.Machine Sys2Proof.Claims

/-! ## The state -/

/-- An owner number that is no polder's: its drop counter stands where RLM.PSTAT of port 0 does. -/
def strayOwner : Nat := 0x2BFA1

theorem poldEvdrop_strayOwner : poldEvdrop strayOwner = rlmPstat 0 := rfl

/-- Sluice 31 runs and belongs to the stray owner, which has had its 64 events of the tick; port 0 is in UP. -/
def strayState : State :=
  { State.reset with
    regs := [(clkStat, 4), (sluStat 31, 0x40000000), (fltHknow, 0x2000000), (rlmPstat 0, 0xBFFFFFFF)]
    dev := { devReset with phase := .running, tickRun := true }
    img := { imgReset with resmap := [(resSlu 31, strayOwner)] }
    recorder := { recReset with scanning := false, placed := [(strayOwner, 64)] }
    clk := { clkReset with gateC := true, gateA := true } }

/-- The state when the ticks are lost. -/
def strayStop : State := countF (setB strayState clkStat clkStat_Refok false) clkLoss clkLoss_Rloss 1

/-- The state when tick loss has come to the culvert and the sluices. -/
def strayModes : State := lossModes (lossFormed (lossEngines (lossDrop (lossStart strayStop))))

/-! ## What tick loss finds there -/

/-- Sluice 31 is the only one that runs; a notice of its owner is dropped. -/
structure SluiceStrays (s : State) : Prop where
  slus : s.slus = []
  idle : ∀ c < 31, sluState s c = sIdle
  runs : sluState s 31 = 2
  owner : resPol s (resSlu 31) = strayOwner
  scans : s.recorder.scanning = false
  full : 64 ≤ cellGet 0 s.recorder.placed strayOwner

theorem strayModes_facts : (strayModes.slus = [] ∧ (∀ c < 31, sluState strayModes c = sIdle) ∧ sluState strayModes 31 = 2 ∧
    resPol strayModes (resSlu 31) = strayOwner ∧ strayModes.recorder.scanning = false ∧ 64 ≤ cellGet 0 strayModes.recorder.placed strayOwner) ∧
    getReg strayModes (rlmPstat 0) = 0xBFFFFFFF ∧ ∀ n < 8, n ≠ 0 → rState strayModes n = 0 := by
  decide +kernel

theorem sluiceStrays_strayModes : SluiceStrays strayModes := by
  obtain ⟨⟨hslus, hidle, hruns, howner, hscans, hfull⟩, -⟩ := strayModes_facts
  exact ⟨hslus, hidle, hruns, howner, hscans, hfull⟩

theorem ports_strayModes : getReg strayModes (rlmPstat 0) = 0xBFFFFFFF ∧ ∀ n < 8, n ≠ 0 → rState strayModes n = 0 := strayModes_facts.2

/-- What freeing pages of the culvert leaves alone: sluices, map, recorder, every register behind the pages' flags. -/
structure PagesOnly (s t : State) : Prop where
  slus : t.slus = s.slus
  img : t.img = s.img
  recorder : t.recorder = s.recorder
  regs : ∀ a, 0x60060000 ≤ a → SameReg a s t

theorem pagesOnly_setReg {s t : State} (h : PagesOnly s t) {n : Nat} (hn : n < 4096) (w : Word) : PagesOnly s (setReg t (culvFlag n) w) := by
  obtain ⟨hslus, himg, hrec, hregs⟩ := h
  refine ⟨hslus, himg, hrec, fun a ha => (sameReg_setReg t w ?_).trans (hregs a ha)⟩
  unfold culvFlag
  omega

theorem pagesOnly_freed {l : List Nat} (hl : ∀ n ∈ l, n < 4096) (s : State) (c : Culv) :
    PagesOnly s { forEach l s (fun s n => setReg s (culvFlag n) (flagWord (pageGen s n + 1) 0xFF 0 0 0)) with culv := c } := by
  obtain ⟨hslus, himg, hrec, hregs⟩ := forEach_preserves_mem (PagesOnly s) l s (fun s n => setReg s (culvFlag n) (flagWord (pageGen s n + 1) 0xFF 0 0 0))
    (fun t n hn ht => pagesOnly_setReg ht (hl n hn) _) ⟨rfl, rfl, rfl, fun _ _ => rfl⟩
  exact ⟨hslus, himg, hrec, hregs⟩

theorem pagesOnly_culvTickLoss (s : State) : PagesOnly s (culvTickLoss s) := by
  have hpages : ∀ n ∈ (upto 4096).filter fun n => pageState s n != 3, n < 4096 := fun _ hn => mem_upto.mp (List.mem_of_mem_filter hn)
  exact pagesOnly_freed hpages s _

theorem SluiceStrays.pagesOnly {s t : State} (h : SluiceStrays s) (ht : PagesOnly s t) : SluiceStrays t := by
  have hstate (c : Nat) : sluState t c = sluState s c := by
    rw [sluState, getF, ht.regs _ (by unfold sluStat; omega), sluState, getF]
  exact ⟨ht.slus.trans h.slus, fun c hc => (hstate c).trans (h.idle c hc), (hstate 31).trans h.runs,
    by rw [resPol, ht.img]; exact h.owner, by rw [ht.recorder]; exact h.scans, by rw [ht.recorder]; exact h.full⟩

/-- A dropped notice is counted, whatever register its scope's counter is. -/
theorem getReg_notice_dropped {s : State} {scope : Nat} (hscans : s.recorder.scanning = false) (hfull : 64 ≤ cellGet 0 s.recorder.placed scope)
    (code : Nat) (l : List Word) (a : Nat) : getReg (notice s code scope l) a = getReg (countF s (poldEvdrop scope) poldEvdrop_Count 1) a := by
  unfold notice enqueue
  dsimp only
  rw [if_neg (by rw [hscans]; decide), if_pos (.inr hfull)]
  rfl

/-- The halted sluice, before its event. -/
def strayHalted (s : State) : State :=
  setSlu (setF (setF (setSlu s 31 sluReset) (sluStat 31) sluStat_State sHalted) (sluStat 31) sluStat_Cause 5) 31 { sluReset with noted := [0x0707] }

theorem sameReg_strayHalted (s : State) {a : Nat} (hne : a ≠ sluStat 31) : SameReg a s (strayHalted s) := by
  have hstate : SameReg a s (setF (setSlu s 31 sluReset) (sluStat 31) sluStat_State sHalted) := sameReg_setF (setSlu s 31 sluReset) _ _ hne
  exact (sameReg_setF (setF (setSlu s 31 sluReset) (sluStat 31) sluStat_State sHalted) sluStat_Cause 5 hne).trans hstate

theorem SluiceStrays.sluResetHalt {s : State} (h : SluiceStrays s) :
    sluResetHalt s 31 = notice (strayHalted s) 0x0707 strayOwner [pw 31, pw (sluState s 31)] := by
  have hslu : getSlu s 31 = sluReset := by rw [getSlu, h.slus]; rfl
  have hclose : sluClose s 31 = s := by
    have hsplit (write : Bool) : sluSplit s 31 write = s := by
      unfold sluSplit
      dsimp only
      rw [hslu]
      cases write <;> rfl
    rw [sluClose, hsplit, hsplit]
  have hhalt : sluHalt s 31 5 = setF (setF (setSlu s 31 sluReset) (sluStat 31) sluStat_State sHalted) (sluStat 31) sluStat_Cause 5 := by
    unfold sluHalt
    dsimp only
    rw [hclose, hslu]
    rfl
  have hget : getSlu (sluHalt s 31 5) 31 = sluReset := by
    rw [hhalt]
    exact cellGet_set_same sluReset s.slus 31 sluReset
  have howner : sluPol (sluHalt s 31 5) 31 = strayOwner := by
    rw [hhalt]
    exact h.owner
  unfold Machine.sluResetHalt sluEvent
  dsimp only
  rw [if_neg (fun hrest => absurd hrest.1 (by rw [h.runs]; decide)), hget, if_neg (by decide), howner, hhalt]
  rfl

/-- The other sluices are idle, so only the last of the 32 does anything. -/
theorem SluiceStrays.halts {s : State} (h : SluiceStrays s) : forEach (upto 32) s Machine.sluResetHalt = Machine.sluResetHalt s 31 := by
  have hidle : forEach (upto 31) s Machine.sluResetHalt = s := by
    refine forEach_preserves_mem (· = s) (upto 31) s _ (fun t c hc ht => ?_) rfl
    rw [ht]
    unfold Machine.sluResetHalt
    dsimp only
    refine if_pos ⟨.inl (h.idle c (mem_upto.mp hc)), ?_⟩
    rw [getSlu, h.slus]
    rfl
  have hsplit : forEach (upto 32) s Machine.sluResetHalt = Machine.sluResetHalt (forEach (upto 31) s Machine.sluResetHalt) 31 :=
    List.foldl_append
  rw [hsplit, hidle]

/-- The halt of sluice 31 counts at port 0 of the link. -/
theorem SluiceStrays.sameReg_halts {s : State} (h : SluiceStrays s) {a : Nat} (hne : a ≠ sluStat 31) : ∃ u, SameReg a s u ∧
    getReg (forEach (upto 32) s Machine.sluResetHalt) a = getReg (countF u (rlmPstat 0) poldEvdrop_Count 1) a := by
  rw [h.halts, h.sluResetHalt, ← poldEvdrop_strayOwner]
  exact ⟨strayHalted s, sameReg_strayHalted s hne, getReg_notice_dropped (s := strayHalted s) h.scans h.full _ _ _⟩

theorem sameReg_lossBlocks_stray {s : State} (h : SluiceStrays s) {a : Nat} (ha : 0x600f0000 ≤ a) :
    ∃ u, SameReg a s u ∧ getReg (lossBlocks s) a = getReg (countF u (rlmPstat 0) poldEvdrop_Count 1) a := by
  have hpages := pagesOnly_culvTickLoss s
  have hlow : SameReg a s (culvTickLoss s) := hpages.regs a (by omega)
  obtain ⟨u, hu, hcount⟩ := (h.pagesOnly hpages).sameReg_halts (a := a) (by unfold sluStat; omega)
  exact ⟨u, hu.trans hlow, hcount⟩

/-- Tick loss leaves port 0 in no state of a port, and no port in UP. -/
theorem ports_lossBlocks_stray {s : State} (h : SluiceStrays s) (hport : getReg s (rlmPstat 0) = 0xBFFFFFFF) :
    rState (lossBlocks s) 0 = 6 ∧ ∀ n < 8, n ≠ 0 → rState (lossBlocks s) n = rState s n := by
  refine ⟨?_, fun n _ hn => ?_⟩
  · obtain ⟨u, hu, hcount⟩ := sameReg_lossBlocks_stray h (a := rlmPstat 0) (by decide)
    have hvalue : getReg u (rlmPstat 0) = 0xBFFFFFFF := Eq.trans hu hport
    rw [rState, getF, hcount, countF, setF, getReg_setReg_same, getF, hvalue]
    decide
  · obtain ⟨u, hu, hcount⟩ := sameReg_lossBlocks_stray h (a := rlmPstat n) (by unfold rlmPstat; omega)
    have hne : rlmPstat n ≠ rlmPstat 0 := by unfold rlmPstat; omega
    rw [rState, getF, hcount, sameReg_countF u _ _ hne, hu, rState, getF]

/-! ## The ports after the loss -/

theorem not_faultReg_rlmPstat {n : Nat} : ¬faultReg (rlmPstat n) := by
  unfold faultReg
  simp only [rlmPstat, pwmPstat, clnkPstat, fltSum, fltHkstat, fltPinstat, safeStat, safeOutst, poldEvdrop]
  rintro (⟨k, hk, h⟩ | ⟨k, hk, h⟩ | h | h | h | h | ⟨k, hk, h⟩) <;> omega

theorem rState_lossUpdate (s : State) (n : Nat) : rState (lossUpdate s) n = rState s n := by
  have hstat : rlmPstat n ≠ updStat := by unfold rlmPstat updStat; omega
  have hper : rlmPstat n ≠ updPchper := by unfold rlmPstat updPchper; omega
  have hback (t : State) : SameReg (rlmPstat n) t (setF (setF { t with upd := { t.upd with loaded := false } } updStat updStat_State 3) updStat updStat_Result 0xD) :=
    (sameReg_setF _ _ _ hstat).trans (sameReg_setF { t with upd := { t.upd with loaded := false } } _ _ hstat)
  have hall : SameReg (rlmPstat n) s (lossUpdate s) := by
    unfold lossUpdate
    dsimp only
    refine (sameReg_setB _ _ _ hper).trans ?_
    split
    · exact (hback _).trans rfl
    · rfl
  rw [rState, getF, hall, rState, getF]

/-- What tick loss makes of the ports. -/
theorem ports_tickLoss_stray : rState (tickLoss strayStop) 0 = 6 ∧ ∀ n < 8, n ≠ 0 → rState (tickLoss strayStop) n = 0 := by
  obtain ⟨hport, hothers⟩ := ports_strayModes
  obtain ⟨hzero, hrest⟩ := ports_lossBlocks_stray sluiceStrays_strayModes hport
  have hafter (n : Nat) : rState (tickLoss strayStop) n = rState (lossBlocks strayModes) n := by
    rw [tickLoss_eq rfl, rState, getF, sameReg_lossFault not_faultReg_rlmPstat]
    exact rState_lossUpdate _ n
  exact ⟨(hafter 0).trans hzero, fun n hn hne => (hafter n).trans ((hrest n hn hne).trans (hothers n hn hne))⟩

/-- REFCLK_LOST where both PLLs are gated already. -/
theorem exec_refclkLost_gated {s u t : State} (hplls : pllsRun s = true) (hok : getB s clkStat clkStat_Refok = true) (hgateC : s.clk.gateC = true)
    (hgateA : s.clk.gateA = true) (freq phaseC phaseA : BitVec 32)
    (hu : hkBegin (countF (setB s clkStat clkStat_Refok false) clkLoss clkLoss_Rloss 1) 25 0x0203 3 [freq] = u)
    (ht : tickLoss u = t) (hdown : upPorts t = []) : exec (.refclkLost freq phaseC phaseA) s = .next t := by
  show execRefclkLost freq phaseC phaseA s = _
  unfold execRefclkLost
  dsimp only
  have hC : (countF (setB s clkStat clkStat_Refok false) clkLoss clkLoss_Rloss 1).clk.gateC = true := hgateC
  have hA : (countF (setB s clkStat clkStat_Refok false) clkLoss clkLoss_Rloss 1).clk.gateA = true := hgateA
  rw [hplls, hok, if_neg (by decide), if_pos hC, if_pos hA, hu, ht, hdown]
  rfl

theorem exec_refclkLost_stray : exec (.refclkLost 0 0 0) strayState = .next (tickLoss strayStop) := by
  obtain ⟨hzero, hrest⟩ := ports_tickLoss_stray
  have hdown : upPorts (tickLoss strayStop) = [] := by
    refine List.filter_eq_nil_iff.mpr fun n hn hport => ?_
    have hfive : rState (tickLoss strayStop) n = 5 := beq_iff_eq.mp hport
    by_cases hn0 : n = 0
    · rw [hn0, hzero] at hfive
      exact absurd hfive (by decide)
    · rw [hrest n (mem_upto.mp hn) hn0] at hfive
      exact absurd hfive (by decide)
  have hknown : hkBegin strayStop 25 0x0203 3 [0] = strayStop := if_pos (by decide)
  exact exec_refclkLost_gated (by decide) (by decide) rfl rfl 0 0 0 hknown rfl hdown

/-- Refutes O56. The resource map's owners have no bound in the model's states, and a dropped notice is counted in
POLD.EVDROP of its scope whatever number that is. At tick loss sluice 31 halts and its notice (0x0707) goes to an owner whose counter would stand where RLM.PSTAT of port 0 does: the count carries
into the field STATE, which was UP and becomes 6, so that the loss of REFCLK finds port 0 not UP and does not take it down. -/
theorem not_clocksAndTickBoundary : ¬ Obligations.ClocksAndTickBoundary := by
  unfold Obligations.ClocksAndTickBoundary
  intro h
  obtain ⟨-, -, hplls, -⟩ := h strayState
  obtain ⟨-, -, hlost, -⟩ := hplls (by decide)
  obtain ⟨t, ht, -, -, -, -, hdown, -⟩ := hlost 0 0 0 (by decide)
  obtain rfl : tickLoss strayStop = t := Host.Outcome.next.inj (exec_refclkLost_stray.symm.trans ht)
  have hzero := hdown 0 (by decide) (by decide)
  rw [ports_tickLoss_stray.1] at hzero
  exact absurd hzero (by decide)

end Sys2Proof.Proofs
end

section
/-! SUPPORT. Proofs. COMMIT and GCOMMIT: GO and DISCARD of staged sets, the notice of old staged values (R68, R71–R73). -/

namespace Sys2Proof.Proofs

open Sys2Proof.Machine Sys2Proof.Claims

/-! ## GO (R68, R73) -/

section
variable (s : State) (p : Nat) {blk : Nat} (hblk : commitBlocks.contains blk = true)
include hblk

/-- GO notes that the polder asks for the block. -/
theorem go_commitGo : (cellFind (commitGo s p blk).tick.stageMeta (metaKey blk p)).map (·.go) = some true := by
  rw [commitGo, if_pos hblk]
  exact congrArg (Option.map _) (cellFind_put_same _ _ _)

theorem stageMeta_commitGo_other {k : Nat} (hk : k ≠ metaKey blk p) :
    cellFind (commitGo s p blk).tick.stageMeta k = cellFind s.tick.stageMeta k := by
  rw [commitGo, if_pos hblk]
  exact cellFind_put_other _ _ hk
end

/-- GO changes nothing but what it notes. -/
theorem commitGo_frame (s : State) (p blk : Nat) : (commitGo s p blk).regs = s.regs ∧ (commitGo s p blk).tick.staged = s.tick.staged ∧
    (commitGo s p blk).mem = s.mem := by
  unfold commitGo
  split <;> exact ⟨rfl, rfl, rfl⟩

theorem mem_codeBlocks {b c : Nat} : b ∈ codeBlocks c ↔ b ∈ commitBlocks ∧ blockCode b = c := by
  rw [codeBlocks, List.mem_filter, beq_iff_eq]

/-- What a block's GO notes, no other GO takes back. -/
theorem go_commitGo_keeps {s : State} {p b d : Nat} (hd : commitBlocks.contains d = true)
    (h : (cellFind s.tick.stageMeta (metaKey b p)).map (·.go) = some true) :
    (cellFind (commitGo s p d).tick.stageMeta (metaKey b p)).map (·.go) = some true := by
  by_cases hk : metaKey b p = metaKey d p
  · have hbd : b = d := by
      unfold metaKey at hk
      omega
    rw [hbd]
    exact go_commitGo s p hd
  · rw [stageMeta_commitGo_other s p hd hk]
    exact h

/-- GCOMMIT asks for every block whose code it names. -/
theorem go_gcommit (s : State) (p : Nat) {mask b : Nat} (hb : b ∈ commitBlocks) (hbit : nbit mask (blockCode b) = true) :
    (cellFind (gcommit s p mask).tick.stageMeta (metaKey b p)).map (·.go) = some true := by
  have hcode : ∀ b ∈ commitBlocks, 1 ≤ blockCode b ∧ blockCode b < 25 := by decide
  have hblock := List.contains_iff_mem.mpr hb
  have hkeep (c : Nat) (t : State) (d : Nat) (hd : d ∈ codeBlocks c) :=
    go_commitGo_keeps (s := t) (p := p) (b := b) (List.contains_iff_mem.mpr (mem_codeBlocks.mp hd).1)
  refine forEach_reaches (fun t => (cellFind t.tick.stageMeta (metaKey b p)).map (·.go) = some true) _ (x := blockCode b) ?_
    (fun t => ?_) (fun t c _ ht => ?_) s
  · obtain ⟨hlow, hhigh⟩ := hcode b hb
    exact List.mem_filter.mpr ⟨mem_upto.mpr hhigh, Bool.and_eq_true_iff.mpr ⟨decide_eq_true hlow, hbit⟩⟩
  · exact forEach_reaches (fun t => (cellFind t.tick.stageMeta (metaKey b p)).map (·.go) = some true) _ (mem_codeBlocks.mpr ⟨hb, rfl⟩)
      (fun u => go_commitGo u p hblock) (fun u d hd => hkeep _ u d hd) t
  · exact forEach_preserves_mem (fun t => (cellFind t.tick.stageMeta (metaKey b p)).map (·.go) = some true) _ t _
      (fun u d hd => hkeep _ u d hd) ht

theorem gcommit_frame (s : State) (p mask : Nat) : (gcommit s p mask).regs = s.regs ∧ (gcommit s p mask).tick.staged = s.tick.staged ∧
    (gcommit s p mask).mem = s.mem := by
  refine forEach_preserves (fun t => t.regs = s.regs ∧ t.tick.staged = s.tick.staged ∧ t.mem = s.mem) _ s _ (fun t c ht => ?_) ⟨rfl, rfl, rfl⟩
  refine forEach_preserves (fun u => u.regs = s.regs ∧ u.tick.staged = s.tick.staged ∧ u.mem = s.mem) _ t _ (fun u b hu => ?_) ht
  obtain ⟨hregs, hstaged, hmem⟩ := hu
  obtain ⟨hregs', hstaged', hmem'⟩ := commitGo_frame u p b
  exact ⟨hregs'.trans hregs, hstaged'.trans hstaged, hmem'.trans hmem⟩

/-! ## DISCARD (R72) -/

/-- DISCARD in IMG drops a staged sub-image: staged values, memory and every other register of the block stay. -/
theorem dropSub_frame {p : Nat} (hp : p < 8) (s : State) : (dropSub s p).tick = s.tick ∧ (dropSub s p).mem = s.mem ∧
    SameReg (blockStagestat 3) s (dropSub s p) := by
  have hstat : blockStagestat 3 ≠ banked imgStat p := by unfold blockStagestat banked imgStat bankStride; omega
  have hdrop : blockStagestat 3 ≠ poldEvdrop p := by unfold blockStagestat poldEvdrop; omega
  have hidle : SameReg (blockStagestat 3) s
      (setF (setPolImg s p { polImg s p with loading := none, loaded := none }) (banked imgStat p) imgStat_State 0) :=
    sameReg_setF (setPolImg s p { polImg s p with loading := none, loaded := none }) _ _ hstat
  unfold dropSub
  dsimp only
  split
  · split
    · obtain ⟨⟨rg, rec, fr, hshape⟩, hregs⟩ := notice_shape
        (setF (setPolImg s p { polImg s p with loading := none, loaded := none }) (banked imgStat p) imgStat_State 0) 0x0115 p
        [pw p, Config.causeWord 0x0115 9]
      refine ⟨by rw [hshape]; rfl, by rw [hshape]; rfl, ?_⟩
      exact (show SameReg _ _ _ from hregs _ hdrop).trans hidle
    · exact ⟨rfl, rfl, hidle⟩
  · exact ⟨rfl, rfl, rfl⟩

/-- The state in which the polder's values of the block are dropped. -/
def unstaged (s : State) (p blk : Nat) : State :=
  setFbit { s with tick := { s.tick with staged := s.tick.staged.filter (fun v => !(v.pol == p && blockNo v.addr == blk))
                                         stageMeta := cellDel s.tick.stageMeta (metaKey blk p) } }
    (blockStagestat blk) stagestat_Ref p false

theorem commitDiscard_frame {p blk : Nat} (hp : p < 8) (hblk : commitBlocks.contains blk = true) (s : State) :
    (commitDiscard s p blk).tick = (unstaged s p blk).tick ∧ (commitDiscard s p blk).mem = s.mem ∧
    SameReg (blockStagestat blk) (unstaged s p blk) (commitDiscard s p blk) := by
  unfold commitDiscard
  dsimp only
  rw [if_pos hblk]
  change (if _ then dropSub (unstaged s p blk) p else unstaged s p blk).tick = _ ∧ (if _ then dropSub (unstaged s p blk) p else unstaged s p blk).mem = _ ∧
    SameReg _ _ (if _ then dropSub (unstaged s p blk) p else unstaged s p blk)
  split
  · rename_i h
    obtain ⟨htick, hmem, hreg⟩ := dropSub_frame hp (unstaged s p blk)
    rw [h.1] at *
    exact ⟨htick, hmem, hreg⟩
  · exact ⟨rfl, rfl, rfl⟩

/-- DISCARD forgets the polder's values of the block and its REF bit, and nothing that others have staged. -/
theorem commitDiscard_spec {p blk : Nat} (hp : p < 8) (hblk : commitBlocks.contains blk = true) (s : State) :
    stagedOf (commitDiscard s p blk) blk p = [] ∧ getFbit (commitDiscard s p blk) (blockStagestat blk) stagestat_Ref p = false ∧
    (∀ g ∈ s.tick.staged, ¬(g.pol = p ∧ blockNo g.addr = blk) → g ∈ (commitDiscard s p blk).tick.staged) ∧
    (commitDiscard s p blk).mem = s.mem := by
  obtain ⟨htick, hmem, hreg⟩ := commitDiscard_frame hp hblk s
  refine ⟨?_, ?_, fun g hg hother => ?_, hmem⟩
  · rw [stagedOf, htick]
    refine List.filter_eq_nil_iff.mpr fun v hv => ?_
    have hkept := (List.mem_filter.mp hv).2
    exact Bool.eq_false_iff.mp ((Bool.not_eq_true' _).mp hkept)
  · rw [getFbit, getF, hreg]
    exact (getFbit_setFbit _ _ _ p p false (by decide) (by simp only [stagestat_Ref]; omega)).trans (if_pos rfl)
  · rw [htick]
    refine List.mem_filter.mpr ⟨hg, ?_⟩
    rw [Bool.not_eq_true', Bool.eq_false_iff, ne_eq, Bool.and_eq_true, beq_iff_eq, beq_iff_eq]
    exact hother

/-! ## The registers COMMIT and GCOMMIT -/

def commitDesc : RegDesc := ⟨0xFF00, [], [fd 1 1 .wo .any 0, fd 0 0 .wo .any 0]⟩
def gcommitDesc : RegDesc := ⟨0x180, [], [fd 24 1 .wo .any 0, fd 0 0 .wo .any 0]⟩

theorem regAt_blockCommit : ∀ b ∈ commitBlocks, regAt (blockCommit b) = some (commitDesc, []) := by decide +kernel

theorem regAt_tickGcommit : regAt tickGcommit = some (gcommitDesc, []) := by decide +kernel

theorem register_blockCommit : ∀ b ∈ commitBlocks, placeOf (blockCommit b) = .register ∧ blockCommit b % 4 = 0 ∧ blockNo (blockCommit b) = b ∧ b < 23 := by
  decide +kernel

section
variable {s : State} {src : Source} {p blk : Nat} (hblk : blk ∈ commitBlocks)
include hblk

theorem regAction_blockCommit (w : Word) : regAction s src p (blockCommit blk) w =
    (if nbit w.toNat 1 then commitDiscard s p blk else if nbit w.toNat 0 then commitGo s p blk else s, false) := by
  obtain ⟨-, -, hno, hlt⟩ := register_blockCommit blk hblk
  unfold regAction
  rw [regPlace_of_regAt (regAt_blockCommit blk hblk), hno]
  exact if_pos ⟨hlt, rfl⟩

theorem hostWrite_blockCommit (h : HostReady s src p (blockCommit blk)) (w : Word) : hostWrite s src (blockCommit blk) w =
    respond (if nbit (w &&& 3).toNat 1 then commitDiscard s p blk else if nbit (w &&& 3).toNat 0 then commitGo s p blk else s) false [] := by
  obtain ⟨hplace, h4, -⟩ := register_blockCommit blk hblk
  have hr : ∀ f ∈ commitDesc.fields, f.rights = .any := by decide
  exact hostWrite_command (m := 3) h hplace h4 (regAt_blockCommit blk hblk) hr (by decide) (by decide) (by decide) (regAction_blockCommit hblk _)
end

/-- GCOMMIT as GCOMMIT_GO writes it: GO, and the codes of the blocks one place up. -/
theorem nbit_gcommit (blocks : BitVec 24) :
    nbit (fset 1 tickGcommit_Blocks blocks.toNat &&& 0x1FFFFFF).toNat 0 = true ∧
    ∀ c, 1 ≤ c → blocks.getLsbD (c - 1) = true → nbit (fset 1 tickGcommit_Blocks blocks.toNat &&& 0x1FFFFFF).toNat c = true := by
  have hmask : ∀ c < 25, (0x1FFFFFF : Word).getLsbD c = true := by decide
  have hbit (c : Nat) (hc : c < 25) : nbit (fset 1 tickGcommit_Blocks blocks.toNat &&& 0x1FFFFFF).toNat c =
      if 1 ≤ c ∧ c ≤ 24 then blocks.toNat.testBit (c - 1) else (1 : Word).getLsbD c := by
    rw [nbit_eq_testBit, BitVec.testBit_toNat, BitVec.getLsbD_and, hmask c hc, Bool.and_true]
    exact getLsbD_fset 1 tickGcommit_Blocks blocks.toNat c (by decide) (by omega)
  refine ⟨(hbit 0 (by decide)).trans rfl, fun c hc hset => ?_⟩
  have hlt : c - 1 < 24 := BitVec.lt_of_getLsbD hset
  rw [hbit c (by omega), if_pos ⟨hc, by omega⟩, BitVec.testBit_toNat]
  exact hset

theorem exec_gcommitGo {s : State} {src : Source} {p : Nat} (h : HostReady s src p tickGcommit) (blocks : BitVec 24) :
    exec (.gcommitGo src blocks) s = .next (respond (gcommit s p (fset 1 tickGcommit_Blocks blocks.toNat &&& 0x1FFFFFF).toNat) false []) := by
  have hr : ∀ f ∈ gcommitDesc.fields, f.rights = .any := by decide
  refine congrArg Host.Outcome.next (hostWrite_command (m := 0x1FFFFFF) h (by decide) (by decide) regAt_tickGcommit hr (by decide) (by decide) (by decide) ?_)
  unfold regAction
  rw [regPlace_of_regAt regAt_tickGcommit]
  show (if nbit _ 0 then _ else s, false) = _
  rw [if_pos (nbit_gcommit blocks).1]

/-! ## STALE_STAGE_NOTICE (R71) -/

/-- The state in which the age of a polder's values of a block has been noted. -/
def ageNoted (s : State) (k : Nat) (m : StageMeta) : State :=
  { s with tick := { s.tick with stageMeta := cellPut s.tick.stageMeta k { m with noticed := true } } }

theorem exec_staleStageNotice {s : State} {blk : Fin 23} {p : Fin 8} {m : StageMeta} (hm : cellFind s.tick.stageMeta (metaKey blk p) = some m)
    (hage : 256 ≤ m.age) (hnew : m.noticed = false) (hsome : stagedOf s blk p ≠ []) : exec (.staleStageNotice blk p) s =
      .next (notice (ageNoted s (metaKey blk p) m) (blockCode blk * 0x100 + 0xF0) 0 [pw p]) := by
  show execStaleStageNotice blk p s = _
  unfold execStaleStageNotice
  rw [hm]
  refine congrArg Host.Outcome.next (if_pos ⟨hage, by rw [hnew]; decide, ?_⟩)
  rw [List.isEmpty_eq_false_iff.mpr hsome]
  rfl

theorem staleStageNotice_spec {s : State} (hroom : RecorderRoom s 0 1) (k : Nat) (m : StageMeta) (code : Nat) (l : List Word) :
    let t := notice (ageNoted s k m) code 0 l
    Noted t code 0 l ∧ (cellFind t.tick.stageMeta k).map (·.noticed) = some true ∧ t.regs = s.regs ∧ t.tick.staged = s.tick.staged ∧ t.mem = s.mem := by
  have hroom' : RecorderRoom (ageNoted s k m) 0 1 := hroom
  obtain ⟨⟨rg, rec, fr, hshape⟩, -⟩ := notice_shape (ageNoted s k m) code 0 l
  refine ⟨noted_notice hroom', ?_, notice_regs hroom' code l, ?_, ?_⟩
  · rw [notice_tick]
    exact congrArg (Option.map _) (cellFind_put_same _ _ _)
  · rw [notice_tick]
    rfl
  · rw [hshape]
    rfl

/-- Settles O29: each form of a write of COMMIT or GCOMMIT is one action on what the polder has staged. -/
theorem stagedSetsAreCommittedOrDropped : Obligations.StagedSetsAreCommittedOrDropped := by
  unfold Obligations.StagedSetsAreCommittedOrDropped
  refine ⟨fun s src p blk h hblk => ⟨?_, ?_⟩, fun s src p blocks h => ?_, fun s blk p m hm hage hnew hsome hroom => ?_⟩
  · obtain ⟨hregs, hstaged, hmem⟩ := commitGo_frame s p blk
    exact ⟨_, congrArg Host.Outcome.next (hostWrite_blockCommit (List.contains_iff_mem.mp hblk) h 1), answered_respond _ _, go_commitGo s p hblk,
      fun _ hk => stageMeta_commitGo_other s p hblk hk, hregs, hstaged, hmem⟩
  · obtain ⟨-, -, hsrc, -⟩ := id h
    obtain ⟨hnone, href, hothers, hmem⟩ := commitDiscard_spec (sourcePolder_lt hsrc) hblk s
    exact ⟨_, congrArg Host.Outcome.next (hostWrite_blockCommit (List.contains_iff_mem.mp hblk) h 2), answered_respond _ _, hnone, href, hothers, hmem⟩
  · obtain ⟨hregs, hstaged, hmem⟩ := gcommit_frame s p (fset 1 tickGcommit_Blocks blocks.toNat &&& 0x1FFFFFF).toNat
    have hcode : ∀ b ∈ commitBlocks, 1 ≤ blockCode b := by decide
    exact ⟨_, exec_gcommitGo h blocks, answered_respond _ _,
      fun b hb hbit => go_gcommit s p hb ((nbit_gcommit blocks).2 _ (hcode b hb) hbit), hregs, hstaged, hmem⟩
  · exact ⟨_, exec_staleStageNotice hm hage hnew hsome, staleStageNotice_spec hroom _ m _ _⟩

end Sys2Proof.Proofs
end

section
/-! SUPPORT. Proofs. Placed ROM segments: a tick of one leaves the step that runs it, on every engine, as it was (R143, R148). -/

namespace Sys2Proof.Proofs

open Sys2Proof.Machine Sys2Proof.Claims

/-! ## What a placed segment leaves of an engine -/

/-- The step of an engine: what runs, what comes next, its registers, whether it has come to its end. -/
structure StepView where
  running : Option Running
  nextStep : Nat
  wp : Nat
  cur : EngRegs
  nxt : EngRegs
  atEnd : Bool

def stepView (x : Eng) : StepView := ⟨x.running, x.nextStep, x.wp, x.cur, x.nxt, x.atEnd⟩

/-- No engine's step changes. -/
def StepsKept (s t : State) : Prop := ∀ e, stepView (getEng t e) = stepView (getEng s e)

namespace StepsKept

variable {s t u : State}

theorem refl : StepsKept s s := fun _ => rfl

theorem trans (h2 : StepsKept t u) (h1 : StepsKept s t) : StepsKept s u := fun e => (h2 e).trans (h1 e)

theorem of_eng (heng : u.eng = t.eng) (h : StepsKept s t) : StepsKept s u := fun e => by rw [getEng, heng]; exact h e

theorem fsHist {m : Cells (List Nat)} (h : StepsKept s t) : StepsKept s { t with fsHist := m } := of_eng rfl h
theorem fsChips {m : Cells (List (Int × Int))} (h : StepsKept s t) : StepsKept s { t with fsChips := m } := of_eng rfl h
theorem fsHistChips {m : Cells (List Nat)} {c : Cells (List (Int × Int))} (h : StepsKept s t) :
    StepsKept s { t with fsHist := m, fsChips := c } := of_eng rfl h

theorem setEng {e : Nat} {x : Eng} (hx : stepView x = stepView (getEng t e)) (h : StepsKept s t) : StepsKept s (setEng t e x) := by
  intro d
  by_cases hd : d = e
  · rw [hd, getEng_setEng_same, hx]
    exact h e
  · rw [getEng_setEng_other t x hd]
    exact h d

/-- A branch: both ways keep the steps. -/
theorem ite {c : Prop} [Decidable c] {a b : State} (ha : StepsKept t a) (hb : StepsKept t b) (h : StepsKept s t) : StepsKept s (if c then a else b) := by
  split
  · exact ha.trans h
  · exact hb.trans h

theorem forEach {α : Type} {l : List α} {g : State → α → State} (hg : ∀ v x, StepsKept v (g v x)) (h : StepsKept s t) :
    StepsKept s (forEach l t g) :=
  forEach_preserves (StepsKept s) l t g (fun v x hv => (hg v x).trans hv) h

section
variable {f : FsAt} {o : Nat}

theorem wrWord {a : Nat} {w : Word} (h : StepsKept s t) : StepsKept s (wrWord t a w) := of_eng rfl h
theorem emSet {a : Nat} {w : Word} (h : StepsKept s t) : StepsKept s (emSet t f a w) := h.wrWord
theorem lvSet {w : Word} (h : StepsKept s t) : StepsKept s (lvSet t f o w) := h.wrWord
theorem lvSetN {n : Nat} (h : StepsKept s t) : StepsKept s (lvSetN t f o n) := h.lvSet
theorem lvSetI {i : Int} (h : StepsKept s t) : StepsKept s (lvSetI t f o i) := h.lvSet
theorem lvSetL {n : Nat} (h : StepsKept s t) : StepsKept s (lvSetL t f o n) := h.lvSetN.lvSetN
theorem lvSetS {i : Int} (h : StepsKept s t) : StepsKept s (lvSetS t f o i) := h.lvSetL
theorem lvRun {b : Bool} (h : StepsKept s t) : StepsKept s (lvRun t f o b) := h.lvSetN
theorem lvBitSet {i : Nat} {b : Bool} (h : StepsKept s t) : StepsKept s (lvBitSet t f o i b) := h.lvSetN

theorem event {code cls scope : Nat} {l : List Word} (h : StepsKept s t) : StepsKept s (event t code cls scope l) :=
  of_eng (congrArg (·.eng) (calm_event t code cls scope l)) h

theorem fsEvent {code cls : Nat} {l : List Word} (h : StepsKept s t) : StepsKept s (fsEvent t f code cls l) := .ite (.event .refl) .refl h

theorem setRequest {e n : Nat} {b : Bool} (h : StepsKept s t) : StepsKept s (setRequest t e n b) :=
  .ite .refl (.ite (.setEng rfl .refl) (.of_eng rfl .refl) .refl) h

theorem windowWrite {e off : Nat} {w : Word} (h : StepsKept s t) : StepsKept s (windowWrite t e off w) :=
  .ite (.setEng rfl .refl) (.setEng rfl .refl) h

theorem copyLive {tk n : Nat} (h : StepsKept s t) : StepsKept s (copyLive t f tk n) := by
  induction n with
  | zero => exact h
  | succ n ih => exact ih.lvSet

theorem takeLive {tk n : Nat} {ranges : List Live} {status bitNo code : Nat} (h : StepsKept s t) :
    StepsKept s (takeLive t f tk n ranges status bitNo code) :=
  .ite .refl (.ite .refl (.forEach (fun _ _ => .fsEvent .refl) .refl) (.lvBitSet (.forEach (fun _ _ => .lvSet .refl) (.copyLive .refl)))) h
end

/-! ## The cell balancing set -/

section
variable {f : FsAt}

theorem cbsLeg {i k start e1 e2 : Nat} (h : StepsKept s t) : StepsKept s (cbsLeg t f i k start e1 e2) := h.windowWrite

theorem cbsArm {arm : Nat} {v : Int} (h : StepsKept s t) : StepsKept s (cbsArm t f arm v) :=
  .ite (.forEach (fun _ _ => .windowWrite .refl) .refl)
    (.forEach (fun _ _ => .ite (.cbsLeg .refl) (.ite (.cbsLeg .refl) (.cbsLeg .refl) .refl) .refl) .refl)
    (.forEach (fun _ _ => .cbsLeg (.cbsLeg .refl)) h)

theorem cbsShort {arm : Nat} (h : StepsKept s t) : StepsKept s (cbsShort t f arm) := .ite .refl (.fsEvent .refl) (.lvBitSet h)

theorem cbsTick (h : StepsKept s t) : StepsKept s (cbsTick t f) :=
  .cbsArm <| .cbsArm <| .lvSet <| .setRequest <| .lvSet <| .cbsShort <| .cbsShort <| .takeLive h

/-! ## The grid set -/

theorem gfsRequests (h : StepsKept s t) : StepsKept s (gfsRequests t f) := .setRequest <| .setRequest <| .setRequest <| .setRequest h

theorem gfsRamp (h : StepsKept s t) : StepsKept s (gfsRamp t f) := .lvSetL <| .lvSetI h

theorem gfsShow (h : StepsKept s t) : StepsKept s (gfsShow t f) :=
  .forEach (fun _ _ => .lvSet .refl) <| .lvSetN <| .forEach (fun _ _ => .lvSet .refl) h

theorem gfsOut (h : StepsKept s t) : StepsKept s (gfsOut t f) := by
  unfold Machine.gfsOut
  refine .gfsShow (.gfsRequests (.emSet (.emSet (.emSet ?_))))
  exact .forEach (fun _ _ => .emSet <| .lvSetI .refl) <| .lvSetI <| .lvSetI <| .lvSetI <| .lvSetI <| .lvSetI <| .lvSetI <| .lvBitSet h

theorem gfsCurrent (h : StepsKept s t) : StepsKept s (gfsCurrent t f) :=
  .lvSetI <| .lvSetI <| .lvSetI <| .lvSetI <| .lvSetI <| .lvSetI <| .lvSetI h

theorem gfsForming (h : StepsKept s t) : StepsKept s (gfsForming t f) :=
  .ite (.lvBitSet .refl) (.lvBitSet <| .ite (.lvSetI <| .lvSet <| .lvSetI .refl) (.lvSet <| .lvSetI <| .lvSetI .refl) .refl) <| .lvBitSet h

theorem gfsUnlock (h : StepsKept s t) : StepsKept s (gfsUnlock t f) := .ite (.setRequest <| .fsEvent <| .lvBitSet .refl) .refl h

theorem gfsJump {m : Word} (h : StepsKept s t) : StepsKept s (gfsJump t f m) := .lvSet <| .lvRun <| .ite .refl (.lvSetI .refl) h

theorem gfsTrack (h : StepsKept s t) : StepsKept s (gfsTrack t f) := by
  unfold Machine.gfsTrack
  refine .ite (.lvSetI .refl) .refl (.ite .refl (.lvSetN .refl) (.lvRun ?_))
  refine .ite .refl (.ite (.gfsUnlock .refl) .refl <| .ite (.fsEvent .refl) .refl <| .lvRun <| .lvRun .refl) (.lvBitSet ?_)
  exact .ite (.lvSetN <| .lvSet <| .lvSet .refl) (.lvSetI <| .lvSetN <| .lvSet <| .lvSetN <| .gfsJump .refl) <| .lvSet <| .lvSetI <| .lvSetI h

theorem gfsClass (h : StepsKept s t) : StepsKept s (gfsClass t f) :=
  .ite (.lvBitSet <| .lvBitSet .refl) .refl <| .lvRun <| .lvRun <| .lvRun <| .lvRun <| .lvRun <| .lvRun <| .lvRun <| .lvSetI h

theorem gfsTimers (h : StepsKept s t) : StepsKept s (gfsTimers t f) :=
  .ite (.gfsRamp .refl) .refl <| .ite (.lvSetN <| .lvSetL .refl) .refl <| .lvRun <| .ite (.lvSetL .refl) .refl h

theorem gfsLoops (h : StepsKept s t) : StepsKept s (gfsLoops t f) := by
  unfold Machine.gfsLoops
  dsimp only
  split
  · exact .forEach (fun _ _ => .lvSet .refl) h
  · exact .forEach (fun _ _ => .lvSet .refl) h
  · exact h

theorem gfsBegin (h : StepsKept s t) : StepsKept s (gfsBegin t f) :=
  .lvSetN <| .lvSet <| .lvSet <| .forEach (fun _ _ => .lvSet .refl) <| .lvSet <| .lvSet <| .ite (.lvSetI <| .lvSetN .refl) .refl h

theorem gfsEnd (h : StepsKept s t) : StepsKept s (gfsEnd t f) := .forEach (fun _ _ => .lvSetI .refl) <| .lvSetN h

theorem gfsTick (h : StepsKept s t) : StepsKept s (gfsTick t f) :=
  .gfsEnd <| .gfsOut <| .ite .refl (.lvSetN .refl) <| .lvRun <| .gfsLoops <| .gfsForming <| .gfsCurrent <| .gfsTimers <| .gfsClass <|
    .gfsTrack <| .forEach (fun _ _ => .lvSet .refl) <| .lvSetN <| .takeLive <| .gfsBegin h

/-! ## The islanding set -/

theorem ifsDigest {x : Int} (h : StepsKept s t) : StepsKept s (ifsDigest t f x) := h.lvSet

theorem ifsShow (h : StepsKept s t) : StepsKept s (ifsShow t f) :=
  .forEach (fun _ _ => .lvSet .refl) <| .forEach (fun _ _ => .lvSet .refl) <| .lvSetN <| .lvSetN <| .forEach (fun _ _ => .lvSet .refl) h

theorem ifsOut (h : StepsKept s t) : StepsKept s (ifsOut t f) := by
  unfold Machine.ifsOut
  refine .ifsShow (.setRequest (.setRequest (.setRequest (.setRequest ?_))))
  exact .lvBitSet <| .lvBitSet <| .lvBitSet <| .emSet h

theorem lvZero {o n : Nat} (h : StepsKept s t) : StepsKept s (lvZero t f o n) := .forEach (fun _ _ => .lvSet .refl) h

theorem ifsEnter {new cause : Nat} (h : StepsKept s t) : StepsKept s (ifsEnter t f new cause) :=
  .ifsOut <| .ite .refl (.ite (.fsEvent .refl) (.ite (.fsEvent .refl) (.ite (.fsEvent .refl) (.ite (.fsEvent .refl) .refl .refl) .refl) .refl) .refl) <|
    .ite (.lvSetN .refl) .refl <|
    .ite (.lvBitSet <| .lvSetN <| .lvSetN <| .lvSetN <| .lvSetN <| .lvSetN <| .lvZero <| .lvZero <| .lvZero <| .lvZero .refl) .refl <|
    .lvSetN <| .lvSetN h

theorem ifsApply1to5 (h : StepsKept s t) : StepsKept s (ifsApply1to5 t f) := by
  unfold Machine.ifsApply1to5
  split
  · exact .ite (.lvSetN .refl) (.ifsEnter .refl) <| .ite (.fsEvent .refl) .refl h
  · exact h

theorem ifsPassive (h : StepsKept s t) : StepsKept s (ifsPassive t f) :=
  .lvRun <| .lvRun <| .lvBitSet <| .lvBitSet <| .ite (.lvSetN <| .lvSetN <| .lvBitSet .refl) (.lvSetN .refl) <| .lvBitSet <| .lvBitSet <|
    .ite (.lvSetI .refl) .refl <| .ifsDigest <| .fsHist h

theorem ifsChip (h : StepsKept s t) : StepsKept s (ifsChip t f) :=
  .ite (.lvSetN <| .fsChips <| .ifsDigest .refl) .refl <| .lvSetL <| .lvSetL <| .ite (.lvSetL <| .lvSetL .refl) .refl h

theorem ifsWindowTick (h : StepsKept s t) : StepsKept s (ifsWindowTick t f) :=
  .ite (.lvSetN <| .lvSetN .refl) .refl <|
    .ite (.lvSetN <| .lvSetN <| .lvSetN <| .lvSetN <| .lvSetN <| .lvSetN <| .lvSetN <| .lvSetN .refl) .refl <|
    .lvSetN <| .lvSetN <| .lvSetN <| .lvRun <| .lvRun h

theorem ifsClamp {o v : Nat} (h : StepsKept s t) : StepsKept s (ifsClamp t f o v) := .ite .refl (.fsEvent <| .lvBitSet <| .lvSetN .refl) h

theorem ifsTake (h : StepsKept s t) : StepsKept s (ifsTake t f) :=
  .ite .refl (.ite (.ifsClamp .refl) .refl <| .ifsClamp <| .takeLive .refl) h

theorem ifsTick (h : StepsKept s t) : StepsKept s (ifsTick t f) :=
  .ifsOut <| .ite .refl
    (.ite .refl (.ite (.ifsEnter .refl) (.ite .refl (.ite (.lvSetN <| .ifsEnter .refl) .refl .refl) .refl) .refl) <| .ifsApply1to5 .refl) <|
    .ifsPassive <| .lvSetN <| .ifsChip <| .ite (.lvSetN .refl) .refl <| .lvSetN <| .ifsTake <| .ifsWindowTick <|
    .ite (.fsHistChips <| .lvSetI <| .lvSetN .refl) .refl h

/-! ## The machine set -/

theorem mfsEmf (h : StepsKept s t) : StepsKept s (mfsEmf t f) := .lvSetI <| .lvSetI <| .lvSetI <| .lvSetI h

theorem mfsPll (h : StepsKept s t) : StepsKept s (mfsPll t f) := .lvSetI <| .lvSetI <| .lvSetL <| .lvSet h

theorem mfsTracker (h : StepsKept s t) : StepsKept s (mfsTracker t f) :=
  .ite .refl (.lvSetN .refl) <| .lvRun <| .lvSet <| .lvRun <| .lvRun <| .mfsPll <| .mfsEmf h

theorem mfsAngle (h : StepsKept s t) : StepsKept s (mfsAngle t f) := by
  unfold Machine.mfsAngle
  dsimp only
  split
  · exact .lvSetN <| .lvSetN <| .ite (.ite (.lvSet .refl) .refl .refl) (.lvSet .refl) <| .lvBitSet <| .lvSetN <| .lvSet <| .lvSet <| .lvSetI h
  · exact .ite (.lvSetN <| .lvSet .refl) (.lvSetN <| .lvSetN .refl) <| .lvBitSet <| .lvSetN h

theorem mfsSpeed (h : StepsKept s t) : StepsKept s (mfsSpeed t f) := .lvSetI <| .lvSetI h

theorem mfsIntegrate {last : Int} {cut : Bool} (h : StepsKept s t) : StepsKept s (mfsIntegrate t f last cut) :=
  .ite (.lvSet .refl) (.ite (.lvSetI .refl) (.ite .refl (.lvSetI .refl) .refl) .refl) h

theorem mfsPark (h : StepsKept s t) : StepsKept s (mfsPark t f) := .lvSetI <| .lvSetI h

theorem mfsLoops (h : StepsKept s t) : StepsKept s (mfsLoops t f) := .lvSetI <| .lvSetI h

theorem mfsShow (h : StepsKept s t) : StepsKept s (mfsShow t f) := .forEach (fun _ _ => .lvSet .refl) <| .forEach (fun _ _ => .lvSet .refl) h

theorem mfsOut (h : StepsKept s t) : StepsKept s (mfsOut t f) := by
  unfold Machine.mfsOut
  refine .mfsShow (.setRequest (.setRequest (.setRequest (.setRequest ?_))))
  refine .lvBitSet (.lvBitSet (.lvBitSet (.lvBitSet ?_)))
  exact .emSet <| .emSet <| .forEach (fun _ _ => .emSet .refl) <| .lvSetI <| .lvSetI h

theorem mfsClear (h : StepsKept s t) : StepsKept s (mfsClear t f) := .lvBitSet <| .lvBitSet <| .forEach (fun _ _ => .lvSet .refl) h

theorem mfsRefs (h : StepsKept s t) : StepsKept s (mfsRefs t f) :=
  .ite .refl (.lvSetN .refl) <| .lvRun <|
    .ite (.mfsClear .refl) (.lvBitSet <| .lvBitSet <| .mfsLoops <| .lvSetI <| .lvSetI <| .lvSetI <| .lvSetI <| .mfsIntegrate .refl) <|
    .ite .refl (.lvSetN .refl) <| .lvRun <| .lvBitSet <| .lvSetI <| .mfsPark <| .mfsSpeed h

theorem mfsTick (h : StepsKept s t) : StepsKept s (mfsTick t f) :=
  .ite .refl (.fsEvent .refl) <| .lvSetN <| .mfsOut <| .mfsRefs <| .mfsAngle <| .mfsTracker <| .takeLive h

/-! ## The repetitive controller -/

theorem repMode {frz : Bool} (h : StepsKept s t) : StepsKept s (repMode t f frz) := .lvSetN <| .lvSetN <| .ite .refl (.lvSet .refl) h

theorem repLearn {e : Int} {j : Nat} (h : StepsKept s t) : StepsKept s (repLearn t f e j) := h.emSet

theorem repTick (h : StepsKept s t) : StepsKept s (repTick t f) :=
  .emSet <| .lvSetN <| .lvSetN <| .lvSetN <| .ite (.forEach (fun _ _ => .repLearn .refl) .refl) .refl <| .repMode <| .takeLive h

/-! ## The tracking set -/

theorem pvRequest {k key : Nat} (h : StepsKept s t) : StepsKept s (pvRequest t f k key) := .ite .refl (.lvSetL <| .lvBitSet .refl) h

theorem pvAbort {cause k : Nat} (h : StepsKept s t) : StepsKept s (pvAbort t f cause k) :=
  .ite (.fsEvent <| .ite (.lvSetL <| .lvBitSet .refl) .refl <| .lvSetN <| .lvBitSet .refl) .refl h

theorem pvCloseBin {k : Nat} (h : StepsKept s t) : StepsKept s (pvCloseBin t f k) :=
  .ite .refl (.lvSetN <| .lvSetL <| .lvSetL <| .ite (.lvBitSet <| .lvSetI <| .lvSetI .refl) .refl .refl) h

theorem pvString {k : Nat} (h : StepsKept s t) : StepsKept s (pvString t f k) :=
  .emSet <| .ite .refl (.lvSet .refl) <|
    .ite (.ite (.lvSetI <| .lvSetN <| .lvSetN <| .lvSetS <| .lvSetS <| .ite .refl (.pvCloseBin .refl) .refl) .refl .refl) (.lvSetN .refl) <|
    .ite (.lvSetN <| .lvSet .refl) .refl <| .lvSetS <| .lvSetS <| .lvSetS h

theorem pvShow (h : StepsKept s t) : StepsKept s (pvShow t f) :=
  .forEach (fun _ _ => .forEach (fun _ _ => .lvSet .refl) .refl) <| .forEach (fun _ _ => .lvSet .refl) h

theorem pvOut (h : StepsKept s t) : StepsKept s (pvOut t f) := by
  unfold Machine.pvOut
  refine .setRequest (.setRequest (.setRequest (.setRequest ?_)))
  refine .pvShow (.lvBitSet (.lvBitSet ?_))
  exact .forEach (fun _ _ => .emSet .refl) h

theorem pvTick (h : StepsKept s t) : StepsKept s (pvTick t f) := by
  unfold Machine.pvTick
  refine .pvOut (.lvSetN (.forEach (fun _ _ => .pvString .refl) ?_))
  refine .forEach (fun _ _ => .ite .refl (.lvBitSet .refl) .refl) (.lvSetN ?_)
  refine .forEach (fun _ _ => .ite (.pvAbort .refl) (.ite (.pvAbort .refl) (.ite (.pvAbort .refl) .refl .refl) .refl) .refl) ?_
  refine .ite .refl (.forEach (fun _ _ => .pvRequest .refl) .refl) (.lvSetL (.takeLive ?_))
  exact .ite (.forEach (fun _ _ => .lvSetN <| .lvSet .refl) <| .lvSetN .refl) .refl h

theorem wtRestart (h : StepsKept s t) : StepsKept s (wtRestart t f) := .lvSetN <| .lvSetL <| .lvSetL <| .lvSetL <| .lvSetL <| .lvSetL h

theorem wtTake (h : StepsKept s t) : StepsKept s (wtTake t f) :=
  .ite .refl
    (.ite (.ite .refl (.fsEvent <| .lvSetI .refl) .refl) (.wtRestart <| .lvSet .refl) <|
      .ite .refl (.fsEvent <| .lvBitSet <| .lvSetI .refl) <| .ite (.fsEvent <| .lvBitSet <| .lvSet .refl) .refl .refl) <|
    .takeLive h

theorem wtObserve (h : StepsKept s t) : StepsKept s (wtObserve t f) :=
  .lvRun <| .lvRun <| .lvBitSet <| .lvSet <| .ite (.lvSetI <| .lvSetI .refl) (.lvSetI .refl) h

theorem wtTorque (h : StepsKept s t) : StepsKept s (wtTorque t f) :=
  .ite (.lvBitSet .refl) (.ite (.lvBitSet <| .lvSet .refl) (.lvSetN <| .lvSetI <| .lvBitSet .refl) .refl) <| .lvBitSet h

theorem wtAdapt (h : StepsKept s t) : StepsKept s (wtAdapt t f) :=
  .ite (.wtRestart .refl) (.lvSetL <| .lvSetS <| .lvSetS <| .ite .refl (.lvSetN .refl) .refl) h

theorem wtOut (h : StepsKept s t) : StepsKept s (wtOut t f) := by
  unfold Machine.wtOut
  refine .setRequest (.setRequest (.setRequest (.setRequest ?_)))
  exact .emSet <| .emSet <| .forEach (fun _ _ => .lvSet .refl) <| .lvBitSet h

theorem wtTick (h : StepsKept s t) : StepsKept s (wtTick t f) := by
  unfold Machine.wtTick
  exact .wtOut <| .wtAdapt <| .wtTorque <| .wtObserve <| .wtTake <| .ite (.lvBitSet <| .lvSet <| .lvSetN .refl) .refl h

theorem tfsTick (h : StepsKept s t) : StepsKept s (tfsTick t f) := .ite (.pvTick .refl) (.wtTick .refl) h
end

/-! ## Every placed segment -/

theorem fsStep {e seg : Nat} (h : StepsKept s t) : StepsKept s (fsStep t e seg) := by
  unfold Machine.fsStep
  split
  · exact h
  · split
    · exact h.gfsTick
    · exact h.ifsTick
    · exact h.tfsTick
    · exact h.mfsTick
    · exact h.cbsTick
    · exact h.repTick
    · exact h

theorem fsRun {e seg : Nat} (h : StepsKept s t) : StepsKept s (fsRun t e seg) := by
  unfold Machine.fsRun
  split
  · exact h
  · exact .setEng rfl h.fsStep

end StepsKept

end Sys2Proof.Proofs
end

section
/-! SUPPORT. Proofs. STEP_START: the next due step starts, its first fetch or its placed segment meets a memory error or none (R59, R93, R112). -/

namespace Sys2Proof.Proofs

open Sys2Proof.Machine Sys2Proof.Claims

/-! ## Registers that no event of a scope writes -/

/-- What the recorder and the fault collector write for a scope, which the resource map need not make a polder, is not at this address. -/
structure ScopeApart (a k : Nat) : Prop where
  fault : ¬faultReg a
  drop : a ≠ poldEvdrop k
  sum : a ≠ fltSum k
  capa : a ≠ fltCapa k
  capb : a ≠ fltCapb k
  captl : a ≠ fltCaptl k
  capth : a ≠ fltCapth k

/-- The registers of the engines stand below all of these. -/
theorem scopeApart_engine {a : Nat} (ha : a < 0x60000000) (k : Nat) : ScopeApart a k := by
  refine ⟨?_, ?_, ?_, ?_, ?_, ?_, ?_⟩
  · unfold faultReg
    simp only [pwmPstat, clnkPstat, fltSum, fltHkstat, fltPinstat, safeStat, safeOutst, poldEvdrop]
    rintro (⟨k, hk, h⟩ | ⟨k, hk, h⟩ | h | h | h | h | ⟨k, hk, h⟩) <;> omega
  all_goals simp only [poldEvdrop, fltSum, fltCapa, fltCapb, fltCaptl, fltCapth]; omega

section
variable {a k : Nat} (h : ScopeApart a k)
include h

theorem sameReg_notice_apart (s : State) (code : Nat) (l : List Word) : SameReg a s (notice s code k l) := (notice_shape s code k l).2 a h.drop

theorem sameReg_enqueue_apart (s : State) {e : Event} (he : e.scope = k) : SameReg a s (enqueue s e) := by
  unfold enqueue enqueueKeep
  dsimp only
  split
  · split <;> exact SameReg.of_regs rfl
  · split
    · exact sameReg_countF _ _ _ (he ▸ h.drop)
    · exact SameReg.of_regs rfl

theorem sameReg_captureFault_apart (s : State) {e : Event} (he : e.scope = k) (esc : Bool) : SameReg a s (captureFault s e esc) := by
  have hc := h.capa
  unfold captureFault
  dsimp only
  rw [he]
  split
  · exact (sameReg_countF _ _ _ hc).trans (sameReg_setB _ _ _ hc)
  · exact (sameReg_setReg _ _ h.capth).trans ((sameReg_setReg _ _ h.captl).trans ((sameReg_setReg _ _ h.capb).trans ((sameReg_setF _ _ _ hc).trans
      ((sameReg_setF _ _ _ hc).trans ((sameReg_setB _ _ _ hc).trans (sameReg_setB _ _ _ hc))))))

theorem sameReg_collect_apart (s : State) (code cls : Nat) (l : List Word) (hk : Option Nat) (r : Bool) :
    SameReg a s (collect s code cls k l hk r) := by
  have hf := h.fault
  have hcap (b : Bool) (e : Event) (he : e.scope = k) (esc : Bool) (t : State) : SameReg a t (if b then captureFault t e esc else t) := by
    split
    · exact sameReg_captureFault_apart h t he esc
    · exact SameReg.of_regs rfl
  have hhold (t : State) : SameReg a t (demand (setB { t with flt := { t.flt with hold := true } } safeStat safeStat_Hold true) 0) :=
    (sameReg_demand hf _ 0).trans (sameReg_setB { t with flt := { t.flt with hold := true } } _ _ (faultReg_stat hf))
  unfold collect
  dsimp only
  refine (sameReg_refreshFaults hf _).trans ?_
  refine (sameReg_when' _ _ _ (hhold _)).trans ?_
  refine (sameReg_when' _ _ _ (sameReg_forEach _ _ _ fun t p _ => sameReg_isolate hf t p _)).trans ?_
  refine (sameReg_when' _ _ _ (sameReg_isolate hf _ k r)).trans ?_
  refine (sameReg_when' _ _ _ (SameReg.of_regs rfl)).trans ((hcap _ _ rfl _ _).trans ?_)
  refine SameReg.trans (sameReg_when' (a := a) _ _ _ (sameReg_notice_apart h _ _ _)) ?_
  exact (sameReg_enqueue_apart h _ rfl).trans (sameReg_when' _ _ _ (sameReg_setB _ _ _ h.sum))

theorem sameReg_event_apart (s : State) (code cls : Nat) (l : List Word) : SameReg a s (event s code cls k l) := by
  unfold event
  split
  · exact sameReg_notice_apart h s code l
  · exact sameReg_collect_apart h s code cls l none true
end

/-! ## A memory error leaves ENG.STAT (R112) -/

section
variable (s : State) {e : Nat} (he : e < 256)
include he

theorem sameReg_eccMeet_engStat (loc : Nat) (k : Ecc) (meets : Bool) : SameReg (engStat e) s (eccMeet s e loc k meets) := by
  have hesf : engStat e ≠ engEsf e := by unfold engStat engEsf; omega
  have hecc : engStat e ≠ engEcc e := by unfold engStat engEcc; omega
  have hscope (p : Nat) : ScopeApart (engStat e) p := scopeApart_engine (by unfold engStat; omega) p
  have hraise : SameReg (engStat e) s (raiseEsf s e (eccFlag k)) := sameReg_setReg (setEng s e _) _ hesf
  have hrecord (t : State) : SameReg (engStat e) t (eccRecord t e loc k meets) := by
    unfold eccRecord
    dsimp only
    cases k with
    | clean => rfl
    | single i =>
      have hcount (w : Word) : SameReg (engStat e) t (setReg (countF t (engEcc e) engEcc_Ccount 1) (engEcc e) w) :=
        (sameReg_setReg _ _ hecc).trans (sameReg_countF t _ _ hecc)
      dsimp only
      split
      · exact (sameReg_notice_apart (hscope _) _ _ _).trans (hcount _)
      · exact hcount _
    | double i =>
      refine (sameReg_event_apart (hscope _) _ _ _ _).trans ?_
      split
      · exact sameReg_setReg t _ hecc
      · exact sameReg_setReg t _ hecc
  unfold eccMeet
  split
  · rfl
  · exact (hrecord _).trans hraise

theorem sameReg_fetchCheck_engStat : SameReg (engStat e) s (fetchCheck s e) := by
  unfold fetchCheck
  dsimp only
  split
  · split
    · have hmeet (w : Nat) (k : Ecc) : SameReg (engStat e) s
          (eccMeet (setEng s e { getEng s e with fetchErr := none }) e (0x8000 + 4096 * execBank s e + w) k true) :=
        sameReg_eccMeet_engStat (setEng s e { getEng s e with fetchErr := none }) he _ k true
      split
      · exact hmeet _ _
      · exact hmeet _ _
    · rfl
  · rfl
end

/-! ## What a memory error leaves of the steps -/

theorem stepView_of_core {x y : Eng} (hcore : core y = core x) (hend : y.atEnd = x.atEnd) : stepView y = stepView x := by
  have hview (z : Eng) : stepView z = { stepView (core z) with atEnd := z.atEnd } := rfl
  rw [hview y, hview x, hcore, hend]

theorem StepsKept.eccMeet {s t : State} {e loc : Nat} {k : Ecc} {meets : Bool} (h : StepsKept s t) : StepsKept s (eccMeet t e loc k meets) := by
  intro d
  refine Eq.trans ?_ (h d)
  by_cases hd : d = e
  · obtain ⟨hcore, hend⟩ := core_getEng_eccMeet t e loc k meets
    rw [hd]
    exact stepView_of_core hcore hend
  · rw [(slotKeeps_eccMeet t e loc k meets).other d hd]

/-! ## STEP_START -/

/-- The engine as the step starts. -/
def startedEng (s : State) (e : Nat) (i kind seg loc : Nat) (ecc : Ecc) : Eng :=
  { getEng s e with
    cur := engRegsReset, nxt := engRegsReset, running := some ⟨i, resPol s (resEngine e), kind, seg⟩, nextStep := i + 1
    wp := seg, reps := [], atEnd := false, stall := none, wordFlags := 0, nextReqs := [], nextLines := 0
    cycles := (getEng s e).cycles + (if (getEng s e).stepEnded then 4 else 0)
    fetchErr := tableErr loc ecc }

/-- The state as the step starts. -/
def startedState (s : State) (e i kind seg loc : Nat) (ecc : Ecc) : State :=
  setB (setEng s e (startedEng s e i kind seg loc ecc)) (engStat e) engStat_Busy true

theorem getEng_startedState (s : State) (e i kind seg loc : Nat) (ecc : Ecc) :
    getEng (startedState s e i kind seg loc ecc) e = startedEng s e i kind seg loc ecc :=
  getEng_setEng_same s e (startedEng s e i kind seg loc ecc)

/-- The conditions of a start (R59, R60, R93). -/
structure MayStart (s : State) (e : Nat) : Prop where
  ticks : s.dev.tickRun = true
  clock : s.clk.gateC = false
  free : s.flt.hold = false
  owner : inReset s (resPol s (resEngine e)) = false
  idle : (getEng s e).running = none
  ready : waitsTransfer s e = false

section
variable {s : State} {e : Fin 256} {loc : Fin 36864} {ecc : Ecc} (h : MayStart s e)
include h

theorem exec_stepStart_over (hdue : nextDue s e (getEng s e).nextStep = none) :
    exec (.stepStart e loc ecc) s = .next (setEng s e { getEng s e with done := true }) := by
  show execStepStart e loc ecc s = _
  unfold execStepStart
  dsimp only
  rw [h.ticks, h.clock, h.free, h.owner, h.idle, h.ready, hdue]
  rfl

theorem exec_stepStart_due {i kind seg : Nat} (hdue : nextDue s e (getEng s e).nextStep = some (i, kind, seg)) :
    exec (.stepStart e loc ecc) s = .next
      (if (migSteps s e).isSome || (fsAt s e seg).isNone then fetchCheck (startedState s e i kind seg loc ecc) e
       else placedTick (setEng (startedState s e i kind seg loc ecc) e { startedEng s e i kind seg loc ecc with fetchErr := none }) e seg
         (if ecc = .clean then none else some (loc.val, ecc))) := by
  rw [← getEng_startedState s e i kind seg loc ecc]
  show execStepStart e loc ecc s = _
  unfold execStepStart
  dsimp only
  rw [h.ticks, h.clock, h.free, h.owner, h.idle, h.ready, hdue]
  rfl
end

/-- What a start leaves of the engine's step; `ended` says whether it has come to its end at once. -/
def startView (s : State) (e i kind seg : Nat) (ended : Bool) : StepView :=
  ⟨some ⟨i, resPol s (resEngine e), kind, seg⟩, i + 1, seg, engRegsReset, engRegsReset, ended⟩

/-- Memory stays, ENG.STAT shows BUSY, and a step after another of the tick costs 4 cycles more (R59). -/
structure StartsPlain (s t : State) (e : Nat) : Prop where
  mem : t.mem = s.mem
  busy : getB t (engStat e) engStat_Busy = true
  cycles : (getEng t e).cycles = (getEng s e).cycles + if (getEng s e).stepEnded then 4 else 0

section
variable {s t : State} {e i kind seg loc : Nat} {ecc : Ecc}

/-- An engine that differs from the one that starts in its notes alone. -/
theorem stepView_started (hcore : core (getEng t e) = core (startedEng s e i kind seg loc ecc)) :
    stepView (getEng t e) = startView s e i kind seg (getEng t e).atEnd := by
  have hview : stepView (getEng t e) = { stepView (core (getEng t e)) with atEnd := (getEng t e).atEnd } := rfl
  rw [hview, hcore]
  rfl

theorem startsPlain_of (hmem : t.mem = s.mem) (hreg : SameReg (engStat e) (startedState s e i kind seg loc ecc) t)
    (hcore : core (getEng t e) = core (startedEng s e i kind seg loc ecc)) : StartsPlain s t e := by
  refine ⟨hmem, ?_, (congrArg Eng.cycles hcore :)⟩
  rw [getB, getF, hreg]
  exact getB_setB_same _ _ _ _ (by decide)

/-- The first fetch of a step fails where an uncorrectable error waits at its first word. -/
theorem fetchFails_startedEng : fetchFails (startedEng s e i kind seg loc ecc) = true ↔ eccBad ecc = true ∧ loc = 32768 + seg := by
  show (tableErr loc ecc).any (fun c => decide (c.1 = seg) && eccBad c.2) = true ↔ _
  unfold tableErr
  split
  · rename_i h
    rw [Option.any_some, Bool.and_eq_true, decide_eq_true_eq]
    exact ⟨fun ⟨hseg, hbad⟩ => ⟨hbad, by omega⟩, fun ⟨hbad, hloc⟩ => ⟨by omega, hbad⟩⟩
  · rename_i h
    refine ⟨fun hnone => absurd hnone Bool.false_ne_true, fun ⟨hbad, hloc⟩ => absurd ⟨by omega, ?_⟩ h⟩
    rintro rfl
    exact absurd hbad (by decide)

/-- A step of the engine's own code starts with the fetch of its first word. -/
theorem start_fetch (he : e < 256) : ∃ ended, (ended = true ↔ eccBad ecc = true ∧ loc = 32768 + seg) ∧
    stepView (getEng (fetchCheck (startedState s e i kind seg loc ecc) e) e) = startView s e i kind seg ended ∧
    StartsPlain s (fetchCheck (startedState s e i kind seg loc ecc) e) e := by
  obtain ⟨hcore, hend⟩ := fetchCheck_engine (startedState s e i kind seg loc ecc) e
  rw [getEng_startedState] at hcore hend
  refine ⟨fetchFails (startedEng s e i kind seg loc ecc), fetchFails_startedEng, ?_, ?_⟩
  · rw [stepView_started hcore, hend]
    rfl
  · exact startsPlain_of (slotKeeps_fetchCheck (startedState s e i kind seg loc ecc) e).mem (sameReg_fetchCheck_engStat _ he) hcore

/-- The state in which a placed segment does its tick: no error waits at a fetch. -/
def placedState (s : State) (e i kind seg loc : Nat) (ecc : Ecc) : State :=
  setEng (startedState s e i kind seg loc ecc) e { startedEng s e i kind seg loc ecc with fetchErr := none }

theorem stepView_placedState : stepView (getEng (placedState s e i kind seg loc ecc) e) = startView s e i kind seg false := by
  rw [placedState, getEng_setEng_same]
  rfl

/-- A word of the placed segment's copy whose fetch fails ends the step (assumption log 84). -/
theorem placedTick_fails (hmig : migSteps s e = none) (hfs : (fsAt s e seg).isSome = true) (hloc : 32768 ≤ loc) (hbad : eccBad ecc = true) :
    ∃ l, placedTick s e seg (some (loc, ecc)) = setEng (eccMeet s e l ecc true) e { getEng (eccMeet s e l ecc true) e with atEnd := true } := by
  unfold placedTick
  rw [if_neg (by rw [hmig, Option.isNone_eq_false_iff.mpr hfs]; decide)]
  dsimp only
  rw [if_pos hloc, if_pos hbad]
  exact ⟨_, rfl⟩

/-- In every other case the tick of a placed segment leaves the steps alone. -/
theorem stepsKept_placedTick {err : Option (Nat × Ecc)} (herr : ∀ l k, err = some (l, k) → 32768 ≤ l → eccBad k = false) :
    StepsKept s (placedTick s e seg err) := by
  unfold placedTick
  split
  · exact .refl
  · cases err with
    | none => exact .fsRun .refl
    | some c =>
      obtain ⟨l, k⟩ := c
      dsimp only
      split
      · rename_i hl
        rw [if_neg (by rw [herr l k rfl hl]; decide)]
        exact .fsRun <| .eccMeet .refl
      · exact .ite (.ite (.wrWord .refl) .refl <| .fsRun <| .wrWord .refl) (.fsRun .refl) <| .eccMeet .refl

/-- A step of a placed segment starts with the segment's tick. -/
theorem start_placed (he : e < 256) (hmig : migSteps s e = none) (hfs : (fsAt s e seg).isSome = true) :
    let t := placedTick (placedState s e i kind seg loc ecc) e seg (if ecc = .clean then none else some (loc, ecc))
    ∃ ended, (ended = true ↔ eccBad ecc = true ∧ 32768 ≤ loc) ∧ stepView (getEng t e) = startView s e i kind seg ended ∧
      (eccBad ecc = true ∧ 32768 ≤ loc → StartsPlain s t e) := by
  dsimp only
  by_cases hfails : eccBad ecc = true ∧ 32768 ≤ loc
  · obtain ⟨hbad, hloc⟩ := hfails
    have hne : ecc ≠ .clean := by
      rintro rfl
      exact absurd hbad (by decide)
    rw [if_neg hne]
    obtain ⟨l, hl⟩ := placedTick_fails (s := placedState s e i kind seg loc ecc) hmig hfs hloc hbad
    obtain ⟨hcore, -⟩ := core_getEng_eccMeet (placedState s e i kind seg loc ecc) e l ecc true
    have hmem := (slotKeeps_eccMeet (placedState s e i kind seg loc ecc) e l ecc true).mem
    have hreg := sameReg_eccMeet_engStat (placedState s e i kind seg loc ecc) he l ecc true
    generalize eccMeet (placedState s e i kind seg loc ecc) e l ecc true = u at hl hcore hmem hreg
    have hcore' : core (getEng (Machine.setEng u e { getEng u e with atEnd := true }) e) = core (startedEng s e i kind seg loc ecc) := by
      rw [getEng_setEng_same]
      refine Eq.trans (show _ = core (getEng u e) from rfl) (hcore.trans ?_)
      rw [placedState, getEng_setEng_same]
      rfl
    rw [hl]
    refine ⟨true, iff_of_true rfl ⟨hbad, hloc⟩, ?_, fun _ => startsPlain_of (hmem.trans rfl) (hreg.trans rfl) hcore'⟩
    rw [stepView_started hcore', getEng_setEng_same]
  · refine ⟨false, iff_of_false Bool.false_ne_true hfails, ?_, fun h => absurd h hfails⟩
    refine (stepsKept_placedTick (fun l k herr hl => ?_) e).trans stepView_placedState
    split at herr
    · cases herr
    · cases herr
      exact Bool.eq_false_iff.mpr fun hbad => hfails ⟨hbad, hl⟩
end

/-- What a start does, `fails` where its fetch fails, `plain` where nothing else has run. -/
theorem start_of_view {s : State} {e : Nat} {c : Instr} {i kind seg : Nat} {fails plain : Prop} {t : State} {ended : Bool} (hexec : exec c s = .next t)
    (hended : ended = true ↔ fails) (hview : stepView (getEng t e) = startView s e i kind seg ended) (hplain : plain → StartsPlain s t e) :
    ∃ t, exec c s = .next t ∧ (getEng t e).running = some ⟨i, resPol s (resEngine e), kind, seg⟩ ∧
      (getEng t e).nextStep = i + 1 ∧ (getEng t e).wp = seg ∧ (getEng t e).cur = engRegsReset ∧ (getEng t e).nxt = engRegsReset ∧
      ((getEng t e).atEnd = true ↔ fails) ∧
      (plain → t.mem = s.mem ∧ getB t (engStat e) engStat_Busy = true ∧
        (getEng t e).cycles = (getEng s e).cycles + if (getEng s e).stepEnded then 4 else 0) := by
  refine ⟨t, hexec, congrArg StepView.running hview, congrArg StepView.nextStep hview, congrArg StepView.wp hview, congrArg StepView.cur hview,
    congrArg StepView.nxt hview, ?_, fun h => ?_⟩
  · rw [show (getEng t e).atEnd = ended from congrArg StepView.atEnd hview]
    exact hended
  · obtain ⟨hmem, hbusy, hcycles⟩ := hplain h
    exact ⟨hmem, hbusy, hcycles⟩

/-- Settles O10. A due step starts with a fetch, or as a placed segment with its tick; each leaves the step as it started, at its end where the
fetch failed. -/
theorem stepStartRunsTheNextDueStep : Obligations.StepStartRunsTheNextDueStep := by
  unfold Obligations.StepStartRunsTheNextDueStep
  intro s e loc ecc hticks hclock hfree howner hidle hready
  have hstart : MayStart s e := ⟨hticks, hclock, hfree, howner, hidle, hready⟩
  refine ⟨fun hdue => ⟨_, exec_stepStart_over hstart hdue, ?_, ?_, rfl, rfl⟩, fun i kind seg hdue => ?_⟩
  · rw [getEng_setEng_same]
  · rw [getEng_setEng_same]
    exact hidle
  · have hexec := exec_stepStart_due (loc := loc) (ecc := ecc) hstart hdue
    by_cases hplaced : migSteps s e = none ∧ (fsAt s e seg).isSome = true
    · obtain ⟨hmig, hfs⟩ := id hplaced
      rw [if_neg (by rw [hmig, Option.isNone_eq_false_iff.mpr hfs]; decide)] at hexec
      obtain ⟨ended, hended, hview, hplain⟩ := start_placed (i := i) (kind := kind) (loc := loc.val) (ecc := ecc) e.isLt hmig hfs
      have hfails : eccBad ecc = true ∧ 32768 ≤ loc.val ↔
          eccBad ecc = true ∧ (loc.val = 32768 + seg ∨ (migSteps s e = none ∧ (fsAt s e seg).isSome = true) ∧ 32768 ≤ loc.val) :=
        and_congr_right fun _ => ⟨fun hloc => .inr ⟨hplaced, hloc⟩, fun h => h.elim (fun hloc => by omega) And.right⟩
      exact start_of_view hexec (hended.trans hfails) hview fun h => hplain (hfails.mpr (h.resolve_left (not_not.mpr hplaced)))
    · have hown : ((migSteps s e).isSome || (fsAt s e seg).isNone) = true := by
        cases hmig : migSteps s e with
        | some l => rfl
        | none =>
          cases hfs : fsAt s e seg with
          | some f => exact absurd ⟨hmig, by rw [hfs]; rfl⟩ hplaced
          | none => rfl
      rw [if_pos hown] at hexec
      obtain ⟨ended, hended, hview, hplain⟩ := start_fetch (s := s) (i := i) (kind := kind) (seg := seg) (loc := loc.val) (ecc := ecc) e.isLt
      have hfails : eccBad ecc = true ∧ loc.val = 32768 + seg ↔
          eccBad ecc = true ∧ (loc.val = 32768 + seg ∨ (migSteps s e = none ∧ (fsAt s e seg).isSome = true) ∧ 32768 ≤ loc.val) :=
        and_congr_right fun _ => ⟨.inl, fun h => h.resolve_right fun hfs => hplaced hfs.1⟩
      exact start_of_view hexec (hended.trans hfails) hview fun _ => hplain

end Sys2Proof.Proofs
end

section
/-! SUPPORT. Proofs. The slots on registers alone: a write of one register with its sticky flag, and the results of the M slots (R92, R96, R101, R104,
R105). -/

namespace Sys2Proof.Proofs

open Sys2Proof.Machine Sys2Proof.Claims

/-! ## Saturation and rounding shift (R101, R104) -/

theorem satS_32 (x : Int) : satS 32 x = max (-2147483648) (min 2147483647 x) := rfl

theorem satS_72 (x : Int) : satS 72 x = max (-2361183241434822606848) (min 2361183241434822606847 x) := rfl

theorem sat32_fst (x : Int) : (sat32 x).1 = sat32Word x := congrArg (BitVec.ofInt 32) (satS_32 x)

theorem sat72_fst (x : Int) : (sat72 x).1 = sat72Word x := congrArg (BitVec.ofInt 72) (satS_72 x)

/-- A result is clipped where 32 signed bits do not hold it. -/
theorem sat32_snd (x : Int) : (sat32 x).2 = true ↔ x < -2147483648 ∨ 2147483647 < x := by
  rw [show (sat32 x).2 = !decide (satS 32 x = x) from rfl, satS_32, Bool.not_eq_true', decide_eq_false_iff_not]
  omega

theorem sat72_snd (x : Int) : (sat72 x).2 = true ↔ x < -2361183241434822606848 ∨ 2361183241434822606847 < x := by
  rw [show (sat72 x).2 = !decide (satS 72 x = x) from rfl, satS_72, Bool.not_eq_true', decide_eq_false_iff_not]
  omega

theorem shiftQ_eq (x : Int) (q : Nat) (rnd : Bool) : shiftQ x q rnd = shifted x q rnd := by
  unfold shiftQ shifted
  refine congrArg (· / (2 : Int) ^ q) (if_congr ?_ rfl rfl)
  rw [Bool.and_eq_true, decide_eq_true_eq, Nat.pos_iff_ne_zero]

/-- The number of the low 16 bits of a word. -/
theorem signed_low (a : Word) : signed 16 a.toNat = (a.setWidth 16).toInt := by
  rw [BitVec.toInt_eq_toNat_cond, BitVec.toNat_setWidth]
  unfold signed
  dsimp only
  split <;> split <;> omega

theorem signed_high (a : Word) : signed 16 (a.toNat / 65536) = ((a >>> 16).setWidth 16).toInt := by
  rw [← signed_low, BitVec.toNat_ushiftRight, Nat.shiftRight_eq_div_pow]

/-- The dual product takes the halves of both words as signed numbers (R101). -/
theorem prodPD_eq (a b : Word) : prodPD a b = (a.setWidth 16).toInt * (b.setWidth 16).toInt +
    ((a >>> 16).setWidth 16).toInt * ((b >>> 16).setWidth 16).toInt := by
  unfold prodPD
  rw [signed_low, signed_low, signed_high, signed_high]

/-! ## A slot's write of one register, with its sticky flag -/

theorem gprWrite_noFlag (x : Eng) (r : Nat) (w : Word) : gprWrite x r w = { gprWrite x r w with wordFlags := x.wordFlags ||| 0 } := by
  obtain ⟨-, -, -, -, -, hflags, -⟩ := gprWrite_frame x r w
  rw [Nat.or_zero, ← hflags]

/-- A general register is written saturated, and the flag is noted where the result clips. -/
theorem gprFlagged_eq (x : Eng) (r : Nat) (v : Int) (flag : Nat) :
    (if (sat32 v).2 then { gprWrite x r (sat32 v).1 with wordFlags := (gprWrite x r (sat32 v).1).wordFlags ||| flag } else gprWrite x r (sat32 v).1) =
      { gprWrite x r (sat32Word v) with wordFlags := x.wordFlags ||| if v < -2147483648 ∨ 2147483647 < v then flag else 0 } := by
  obtain ⟨-, -, -, -, -, hflags, -⟩ := gprWrite_frame x r (sat32 v).1
  by_cases hclip : v < -2147483648 ∨ 2147483647 < v
  · rw [if_pos ((sat32_snd v).mpr hclip), if_pos hclip, hflags, sat32_fst]
  · rw [if_neg (mt (sat32_snd v).mp hclip), if_neg hclip, sat32_fst]
    exact gprWrite_noFlag x r _

theorem gprSat_eq (x : Eng) (r : Nat) (v : Int) :
    gprSat x r v = { gprWrite x r (sat32Word v) with wordFlags := x.wordFlags ||| xsatFlag v } := gprFlagged_eq x r v esfXsat

theorem accWrite_noFlag (x : Eng) (a : Nat) (v : BitVec 72) : accWrite x a v = { accWrite x a v with wordFlags := x.wordFlags ||| 0 } := by
  rw [Nat.or_zero]
  rfl

/-- An accumulator is written saturated, and the slot's flag is noted where the result clips. -/
theorem accSat_eq (x : Eng) (m1 : Bool) (a : Nat) (v : Int) :
    accSat x m1 a v = { accWrite x a (sat72Word v) with wordFlags := x.wordFlags ||| accFlag m1 v } := by
  unfold accSat accFlag
  dsimp only
  by_cases hclip : v < -2361183241434822606848 ∨ 2361183241434822606847 < v
  · rw [if_pos ((sat72_snd v).mpr hclip), if_pos hclip, sat72_fst]
    rfl
  · rw [if_neg (mt (sat72_snd v).mp hclip), if_neg hclip, sat72_fst]
    exact accWrite_noFlag x a _

/-! ## Commands of one slot -/

section
variable {s : State} {e : Nat} {eow : Bool} {c : Instr} (hruns : wordRuns s e = true)
include hruns

/-- An operation that writes a general register as it is. -/
theorem exec_writesReg {gd : Nat} {g : Eng → Word} {w : Word} (hexec : exec c s = .next (regSlot s e eow fun x => gprWrite x gd (g x)))
    (hw : g (getEng s e) = w) : ∃ t, exec c s = .next t ∧ SlotWrites s t e gd w 0 eow :=
  ⟨_, hexec, slotWrites_regSlot hruns (by rw [hw]; exact gprWrite_noFlag _ _ _)⟩

/-- An operation that writes a general register saturated. -/
theorem exec_saturatesReg {gd : Nat} {g : Eng → Int} {v : Int} (hexec : exec c s = .next (regSlot s e eow fun x => gprSat x gd (g x)))
    (hv : g (getEng s e) = v) : ∃ t, exec c s = .next t ∧ SlotWrites s t e gd (sat32Word v) (xsatFlag v) eow :=
  ⟨_, hexec, slotWrites_regSlot hruns (by rw [hv]; exact gprSat_eq _ _ _)⟩

/-- An operation that writes an accumulator as it is. -/
theorem exec_writesAcc {ad : Nat} {g : Eng → BitVec 72} {w : BitVec 72} (hexec : exec c s = .next (regSlot s e eow fun x => accWrite x ad (g x)))
    (hw : g (getEng s e) = w) : ∃ t, exec c s = .next t ∧ SlotAccumulates s t e ad w 0 eow :=
  ⟨_, hexec, slotAccumulates_regSlot hruns (by rw [hw]; exact accWrite_noFlag _ _ _)⟩

/-- An operation that writes an accumulator saturated. -/
theorem exec_saturatesAcc {m1 : Bool} {ad : Nat} {g : Eng → Int} {v : Int}
    (hexec : exec c s = .next (regSlot s e eow fun x => accSat x m1 ad (g x))) (hv : g (getEng s e) = v) :
    ∃ t, exec c s = .next t ∧ SlotAccumulates s t e ad (sat72Word v) (accFlag m1 v) eow :=
  ⟨_, hexec, slotAccumulates_regSlot hruns (by rw [hv]; exact accSat_eq _ _ _ _)⟩
end

/-! ## The M slots (R101) -/

/-- ASAT clips under its slot's EXT flag (R105). -/
theorem exec_asat {s : State} {e : Fin 256} (hruns : wordRuns s e = true) (m1 : Bool) (ad : Fin 4) (gb q : Fin 32) (rnd eow : Bool) :
    ∃ t, exec (.asat e m1 ad gb q rnd eow) s = .next t ∧ SlotWrites s t e gb (sat32Word (shifted (inA s e ad) q rnd))
      (if shifted (inA s e ad) q rnd < -2147483648 ∨ 2147483647 < shifted (inA s e ad) q rnd then (if m1 then 16 else 8) else 0) eow := by
  refine ⟨_, rfl, slotWrites_regSlot hruns ?_⟩
  dsimp only
  rw [shiftQ_eq]
  exact gprFlagged_eq (getEng s e) gb _ (esfExt m1)

/-- Settles O6: each operation writes its accumulator as it is or saturated; ASAT writes a general register. -/
theorem mSlotResults : Obligations.MSlotResults := by
  unfold Obligations.MSlotResults
  intro s e m1 ad as ga gb q rnd eow hruns
  have hprod : shiftQ (prodP (inG s e ga) (inG s e gb)) q rnd = shifted ((inG s e ga).toInt * (inG s e gb).toInt) q rnd := shiftQ_eq _ _ _
  have hdual : shiftQ (prodPD (inG s e ga) (inG s e gb)) q rnd = shifted (((inG s e ga).setWidth 16).toInt * ((inG s e gb).setWidth 16).toInt +
      ((inG s e ga >>> 16).setWidth 16).toInt * ((inG s e gb >>> 16).setWidth 16).toInt) q rnd := by rw [prodPD_eq, shiftQ_eq]
  refine ⟨?mul, ?mac, ?msu, ?muld, ?macd, ?msud, ?aclr, ?ald, ?aadd, ?aadda, ?asuba, ?asat, ?ashl, ?ashr, ?aneg⟩
  case mul => exact exec_writesAcc hruns rfl (congrArg (BitVec.ofInt 72) hprod)
  case muld => exact exec_writesAcc hruns rfl (congrArg (BitVec.ofInt 72) hdual)
  case ashr => exact exec_writesAcc hruns rfl (congrArg (BitVec.ofInt 72) (shiftQ_eq _ _ _))
  case aclr => exact exec_writesAcc hruns rfl rfl
  case mac => exact exec_saturatesAcc hruns rfl (congrArg (inA s e ad + ·) hprod)
  case msu => exact exec_saturatesAcc hruns rfl (congrArg (inA s e ad - ·) hprod)
  case macd => exact exec_saturatesAcc hruns rfl (congrArg (inA s e ad + ·) hdual)
  case msud => exact exec_saturatesAcc hruns rfl (congrArg (inA s e ad - ·) hdual)
  case asat => exact exec_asat hruns m1 ad gb q rnd eow
  all_goals exact exec_saturatesAcc hruns rfl rfl

end Sys2Proof.Proofs
end

section
/-! SUPPORT. Proofs. The X slot: its results, its predicate flag, its trigger line and its request output; what the end of a word leaves of the engine
(R94, R96, R103–R105, R117, R159). -/

namespace Sys2Proof.Proofs

open Sys2Proof.Machine Sys2Proof.Claims

/-! ## The results of the X slot (R103) -/

theorem movh_value (a : Word) (imm : BitVec 16) :
    (a &&& (0xFFFF : Word)) ||| (imm.setWidth 32 <<< 16) = BitVec.ofNat 32 (imm.toNat * 65536 + a.toNat % 65536) := by
  have himm := imm.isLt
  have hlow : a.toNat % 65536 < 2 ^ 16 := Nat.mod_lt _ (by decide)
  have hfits : imm.toNat % 2 ^ 32 = imm.toNat := Nat.mod_eq_of_lt (by omega)
  have hshift : imm.toNat * 2 ^ 16 % 2 ^ 32 = imm.toNat * 2 ^ 16 := Nat.mod_eq_of_lt (by omega)
  have hsum : (imm.toNat * 65536 + a.toNat % 65536) % 2 ^ 32 = imm.toNat * 2 ^ 16 + a.toNat % 65536 := Nat.mod_eq_of_lt (by omega)
  have hmask : a.toNat &&& (0xFFFF : Word).toNat = a.toNat % 65536 := Nat.and_two_pow_sub_one_eq_mod a.toNat 16
  apply BitVec.eq_of_toNat_eq
  rw [BitVec.toNat_or, BitVec.toNat_and, BitVec.toNat_shiftLeft, BitVec.toNat_setWidth, BitVec.toNat_ofNat, hsum, hmask, hfits, Nat.shiftLeft_eq,
    hshift, Nat.or_comm, ← Nat.shiftLeft_eq, Nat.shiftLeft_add_eq_or_of_lt hlow]

theorem wordOfInt_toInt (a : Word) : wordOfInt a.toInt = a := BitVec.ofInt_toInt

theorem min_value (a b : Word) : wordOfInt (min a.toInt b.toInt) = if a.toInt ≤ b.toInt then a else b := by
  split <;> rename_i h
  · rw [min_eq_left h, wordOfInt_toInt]
  · rw [min_eq_right (by omega), wordOfInt_toInt]

theorem max_value (a b : Word) : wordOfInt (max a.toInt b.toInt) = if a.toInt ≤ b.toInt then b else a := by
  split <;> rename_i h
  · rw [max_eq_right h, wordOfInt_toInt]
  · rw [max_eq_left (by omega), wordOfInt_toInt]

/-- SATS: a negative limit counts as 0. -/
theorem sats_limit (x y : Int) : min (max x (-max 0 y)) (max 0 y) = if y < 0 then 0 else if y < x then y else if x < -y then -y else x := by
  split_ifs <;> omega

theorem sats_value (a b : Word) : wordOfInt (min (max a.toInt (-max 0 b.toInt)) (max 0 b.toInt)) =
    if b.toInt < 0 then 0 else if b.toInt < a.toInt then b else if a.toInt < -b.toInt then -b else a := by
  rw [sats_limit]
  split_ifs
  · rfl
  · exact wordOfInt_toInt b
  · rw [wordOfInt, BitVec.ofInt_neg, BitVec.ofInt_toInt]
  · exact wordOfInt_toInt a

theorem sshiftRight_value (a : Word) (n : Nat) : a.sshiftRight n = BitVec.ofInt 32 (a.toInt / 2 ^ n) := by
  rw [BitVec.sshiftRight, Int.shiftRight_eq_div_pow]
  rfl

theorem ushiftRight_value (a : Word) (n : Nat) : a >>> n = BitVec.ofNat 32 (a.toNat / 2 ^ n) := by
  apply BitVec.eq_of_toNat_eq
  have ha := a.isLt
  rw [BitVec.toNat_ushiftRight, BitVec.toNat_ofNat, Nat.shiftRight_eq_div_pow, Nat.mod_eq_of_lt (Nat.lt_of_le_of_lt (Nat.div_le_self _ _) ha)]

theorem nbit_toNat {w : Nat} (x : BitVec w) (i : Nat) : nbit x.toNat i = x.getLsbD i := by
  rw [nbit_eq_testBit, BitVec.testBit_toNat]

theorem nbit_or (a b i : Nat) : nbit (a ||| b) i = (nbit a i || nbit b i) := by
  rw [nbit_eq_testBit, nbit_eq_testBit, nbit_eq_testBit, Nat.testBit_or]

/-! ## The end of a word on the engine's own side (R96, R97) -/

/-- The engine at the end of a word, before its requests and flags take effect. -/
def endedEng (s : State) (e : Nat) : Eng :=
  let x := getEng s e
  let r := closeReps (openRep (wordHeader s e x.wp) x.wp x.reps) x.wp
  { x with
    cur := x.nxt, wordFlags := 0, cycles := x.cycles + 1, reps := r.1, wp := r.2 % 4096, atEnd := nbit (wordHeader s e x.wp) 1 && r.1.isEmpty
    lines := x.lines ||| x.nextLines, nextLines := 0, nextReqs := [] }

/-- The requests that the word wrote have taken effect. -/
def requestsDone (s : State) (e : Nat) : State := forEach (getEng s e).nextReqs (setEng s e (endedEng s e)) fun s c => setRequest s e c.1 c.2

/-- The word's flags stick too. -/
def flagsDone (s : State) (e : Nat) : State :=
  if (getEng s e).wordFlags = 0 then requestsDone s e else raiseEsf (requestsDone s e) e (getEng s e).wordFlags

theorem endWord_eq (s : State) (e : Nat) : endWord s e = if (endedEng s e).atEnd then flagsDone s e else fetchCheck (flagsDone s e) e := rfl

theorem core_requestsDone (s : State) (e : Nat) : core (getEng (requestsDone s e) e) = core (endedEng s e) := by
  refine forEach_preserves (fun t => core (getEng t e) = core (endedEng s e)) _ _ _ (fun t c h => (core_getEng_setRequest t e _ _).trans h) ?_
  rw [getEng_setEng_same]

theorem core_flagsDone (s : State) (e : Nat) : core (getEng (flagsDone s e) e) = core (endedEng s e) := by
  unfold flagsDone
  split
  · exact core_requestsDone s e
  · exact (congrArg core (getEng_setEng_same (requestsDone s e) e _)).trans (core_requestsDone s e)

/-- The end of a word leaves of the engine, but for its notes, what it says. -/
theorem core_endWord (s : State) (e : Nat) : core (getEng (endWord s e) e) = core (endedEng s e) := by
  rw [endWord_eq]
  split
  · exact core_flagsDone s e
  · exact (fetchCheck_engine _ e).1.trans (core_flagsDone s e)

/-- The trigger lines that the word raised (R159). -/
theorem lines_endWord (s : State) (e : Nat) : (getEng (endWord s e) e).lines = (getEng s e).lines ||| (getEng s e).nextLines :=
  show (core (getEng (endWord s e) e)).lines = _ by rw [core_endWord]; rfl

theorem afterSlot_eow {s : State} {e : Nat} (hstall : (getEng s e).stall = none) : afterSlot s e true = endWord s e := by
  unfold afterSlot
  rw [if_pos rfl, hstall]

/-! ## Request outputs (R94, R117, R458) -/

/-- The polder of an engine is in a migration tick. -/
def migrates (s : State) (e : Nat) : Bool := (cellGet polImgReset s.img.pol (resPol s (resEngine e))).migrating.isSome

/-- A request output goes to ENG.STAT, or to the voter lane of a group step; a migration step has none. -/
theorem setRequest_written (s : State) (e n : Nat) (v : Bool) :
    (∀ i < 4, getFbit (setRequest s e n v) (engStat e) engStat_Req i =
      if i = n ∧ migrates s e = false ∧ inVoterStep (getEng s e) = false then v else getFbit s (engStat e) engStat_Req i) ∧
    (getEng (setRequest s e n v) e).reqLane =
      if migrates s e = false ∧ inVoterStep (getEng s e) = true then cellPut (getEng s e).reqLane n v else (getEng s e).reqLane := by
  unfold setRequest
  dsimp only
  cases hmig : migrates s e with
  | true =>
    rw [if_pos (show Option.isSome _ = true from hmig), if_neg (by simp)]
    exact ⟨fun i _ => (if_neg (by simp)).symm, rfl⟩
  | false =>
    rw [if_neg (by rw [show Option.isSome _ = false from hmig]; decide)]
    cases hvoter : inVoterStep (getEng s e) with
    | true =>
      rw [if_pos rfl, if_pos ⟨rfl, rfl⟩, getEng_setEng_same]
      exact ⟨fun i _ => (if_neg (by simp)).symm, rfl⟩
    | false =>
      rw [if_neg Bool.false_ne_true, if_neg (by simp)]
      refine ⟨fun i hi => ?_, rfl⟩
      refine (getFbit_setFbit s (engStat e) engStat_Req n i v (by decide) hi).trans ?_
      simp

/-- What the end of a word with one request does of it, where no memory error waits for the next fetch. -/
theorem endWord_request {s : State} {e n : Nat} {v : Bool} (hreqs : (getEng s e).nextReqs = [(n, v)]) (herr : (getEng s e).fetchErr = none) :
    (∀ i < 4, getFbit (endWord s e) (engStat e) engStat_Req i =
      if i = n ∧ migrates s e = false ∧ inVoterStep (getEng s e) = false then v else getFbit s (engStat e) engStat_Req i) ∧
    (getEng (endWord s e) e).reqLane =
      if migrates s e = false ∧ inVoterStep (getEng s e) = true then cellPut (getEng s e).reqLane n v else (getEng s e).reqLane := by
  have hdone : requestsDone s e = setRequest (setEng s e (endedEng s e)) e n v := by
    unfold requestsDone
    rw [hreqs]
    rfl
  obtain ⟨hstat, hlane⟩ := setRequest_written (setEng s e (endedEng s e)) e n v
  obtain ⟨-, hfetch, -⟩ := setRequest_spec (setEng s e (endedEng s e)) e n v
  rw [getEng_setEng_same] at hstat hlane hfetch
  rw [← hdone] at hstat hlane hfetch
  have hflags : SameReg (engStat e) (requestsDone s e) (flagsDone s e) ∧ (getEng (flagsDone s e) e).reqLane = (getEng (requestsDone s e) e).reqLane ∧
      (getEng (flagsDone s e) e).fetchErr = (getEng (requestsDone s e) e).fetchErr := by
    unfold flagsDone
    split
    · exact ⟨rfl, rfl, rfl⟩
    · have heng : getEng (raiseEsf (requestsDone s e) e (getEng s e).wordFlags) e = _ := getEng_setEng_same (requestsDone s e) e _
      refine ⟨sameReg_setReg (setEng (requestsDone s e) e _) _ (by unfold engStat engEsf; omega), ?_, ?_⟩
      · rw [heng]
      · rw [heng]
  obtain ⟨hsame, hsameLane, hsameErr⟩ := hflags
  have hend : endWord s e = flagsDone s e := by
    rw [endWord_eq]
    split
    · rfl
    · exact fetchCheck_none (hsameErr.trans (hfetch.trans herr))
  rw [hend]
  refine ⟨fun i hi => ?_, hsameLane.trans hlane⟩
  rw [getFbit, getF, hsame]
  exact hstat i hi

/-! ## The X-slot operations without a general register -/

/-- The word's results but for the predicate flags, memory, the output window and the other engines stay. -/
def KeepsResults (s t : State) (e : Nat) : Prop := (∀ r, outG t e r = outG s e r) ∧ (∀ a, outA t e a = outA s e a) ∧ SlotFrame s t e

/-- An X-slot operation that changes no general register and no accumulator. -/
theorem regSlot_keepsResults {s : State} {e : Nat} {eow : Bool} {f : Eng → Eng} (hruns : wordRuns s e = true)
    (hflags : (f (getEng s e)).wordFlags = (getEng s e).wordFlags) (hstall : (f (getEng s e)).stall = (getEng s e).stall)
    (herr : (f (getEng s e)).fetchErr = (getEng s e).fetchErr) (hcur : (f (getEng s e)).cur = (getEng s e).cur)
    (hg : (f (getEng s e)).nxt.g = (getEng s e).nxt.g) (ha : (f (getEng s e)).nxt.a = (getEng s e).nxt.a) :
    KeepsResults s (regSlot s e eow f) e ∧ outF (regSlot s e eow f) e = (f (getEng s e)).nxt.f ∧
      SlotFlags s (regSlot s e eow f) e 0 eow ∧ SlotVisible s (regSlot s e eow f) e eow := by
  obtain ⟨hnxt, hnotes, hvisible, hframe⟩ :=
    regSlot_spec (flag := 0) (eow := eow) hruns (hflags.trans (Nat.or_zero _).symm) hstall herr hcur
  refine ⟨⟨fun r => ?_, fun a => ?_, hframe⟩, ?_, hnotes, hvisible⟩
  · rw [outG, hnxt, hg, outG]
  · rw [outA, hnxt, ha, outA]
  · rw [outF, hnxt]

/-- A slot's work inside its word. -/
theorem regSlot_within {s : State} {e : Nat} {f : Eng → Eng} (hruns : wordRuns s e = true) : regSlot s e false f = setEng s e (f (getEng s e)) :=
  if_pos hruns

/-- The last slot of a word that waits for no access ends it. -/
theorem regSlot_last {s : State} {e : Nat} {f : Eng → Eng} (hruns : wordRuns s e = true) (hstall : (f (getEng s e)).stall = none) :
    regSlot s e true f = endWord (setEng s e (f (getEng s e))) e :=
  (if_pos hruns).trans (afterSlot_eow (by rw [getEng_setEng_same]; exact hstall))

section
variable {s : State} {e : Fin 256} (hruns : wordRuns s e = true)
include hruns

theorem exec_nop (eow : Bool) : ∃ t, exec (.nop e eow) s = .next t ∧ KeepsResults s t e ∧ outF t e = outF s e ∧
    SlotFlags s t e 0 eow ∧ SlotVisible s t e eow := ⟨_, rfl, regSlot_keepsResults (f := id) hruns rfl rfl rfl rfl rfl rfl⟩

/-- CMP writes its flag and leaves the others. -/
theorem exec_cmp (ga gb : Fin 32) (c : Fin 8) (n : Fin 4) (eow : Bool) : ∃ t, exec (.cmp e ga gb c n eow) s = .next t ∧ KeepsResults s t e ∧
    SlotVisible s t e eow ∧ ∀ i < 4, (outF t e).getLsbD i = if i = n then cmpCond c (inG s e ga) (inG s e gb) else (outF s e).getLsbD i := by
  obtain ⟨hkept, hf, -, hvisible⟩ := regSlot_keepsResults (eow := eow) (f := fun x =>
    { x with nxt := { x.nxt with f := BitVec.ofNat 4 (nbitSet x.nxt.f.toNat n (cmpCond c (gprRead x ga) (gprRead x gb))) } })
    hruns rfl rfl rfl rfl rfl rfl
  refine ⟨_, rfl, hkept, hvisible, fun i hi => ?_⟩
  refine (congrArg (BitVec.getLsbD · i) hf).trans ?_
  dsimp only
  rw [BitVec.getLsbD_ofNat, decide_eq_true hi, Bool.true_and, ← nbit_eq_testBit, nbit_nbitSet, nbit_toNat]
  rfl

/-- TRIG raises its line at the end of the word, and not before (R96, R159). -/
theorem exec_trig (n : Fin 4) (eow : Bool) : ∃ t, exec (.trig e n eow) s = .next t ∧ KeepsResults s t e ∧ outF t e = outF s e ∧
    (eow = false → (getEng t e).lines = (getEng s e).lines ∧
      ∀ i < 4, nbit (getEng t e).nextLines i = (decide (i = n.val) || nbit (getEng s e).nextLines i)) ∧
    (eow = true → (getEng s e).stall = none → ∀ i < 4,
      nbit (getEng t e).lines i = (decide (i = n.val) || nbit (getEng s e).nextLines i || nbit (getEng s e).lines i)) := by
  have hraised (i : Nat) : nbit (nbitSet (getEng s e).nextLines n true) i = (decide (i = n.val) || nbit (getEng s e).nextLines i) := by
    rw [nbit_nbitSet]
    split <;> rename_i h <;> simp [h]
  obtain ⟨hkept, hf, -, -⟩ := regSlot_keepsResults (eow := eow) (f := fun x => { x with nextLines := nbitSet x.nextLines n true })
    hruns rfl rfl rfl rfl rfl rfl
  refine ⟨_, rfl, hkept, hf, ?_, ?_⟩
  · rintro rfl
    rw [regSlot_within hruns, getEng_setEng_same]
    exact ⟨rfl, fun i _ => hraised i⟩
  · rintro rfl hstall i -
    rw [regSlot_last hruns (by exact hstall), lines_endWord, getEng_setEng_same, nbit_or, hraised, Bool.or_comm]

/-- REQ writes its output at the end of the word, and not before (R94, R96). -/
theorem exec_req (ga : Fin 32) (n : Fin 4) (eow : Bool) : ∃ t, exec (.req e ga n eow) s = .next t ∧ KeepsResults s t e ∧ outF t e = outF s e ∧
    (eow = false → (∀ i, getFbit t (engStat e) engStat_Req i = getFbit s (engStat e) engStat_Req i) ∧
      (getEng t e).reqLane = (getEng s e).reqLane ∧ cellFind (getEng t e).nextReqs n = some ((inG s e ga).getLsbD 0)) ∧
    (eow = true → (getEng s e).stall = none → (getEng s e).fetchErr = none → (getEng s e).nextReqs = [] →
      (∀ i < 4, getFbit t (engStat e) engStat_Req i =
        if i = n.val ∧ migrates s e = false ∧ inVoterStep (getEng s e) = false then (inG s e ga).getLsbD 0 else getFbit s (engStat e) engStat_Req i) ∧
      (getEng t e).reqLane = if migrates s e = false ∧ inVoterStep (getEng s e) = true then cellPut (getEng s e).reqLane n ((inG s e ga).getLsbD 0)
        else (getEng s e).reqLane) := by
  have hbit : nbit (gprRead (getEng s e) ga).toNat 0 = (inG s e ga).getLsbD 0 := nbit_toNat _ _
  rw [← hbit]
  obtain ⟨hkept, hf, -, -⟩ := regSlot_keepsResults (eow := eow)
    (f := fun x => { x with nextReqs := cellPut x.nextReqs n (nbit (gprRead x ga).toNat 0) }) hruns rfl rfl rfl rfl rfl rfl
  refine ⟨_, rfl, hkept, hf, ?_, ?_⟩
  · rintro rfl
    rw [regSlot_within hruns, getEng_setEng_same]
    exact ⟨fun _ => rfl, rfl, cellFind_put_same _ _ _⟩
  · rintro rfl hstall herr hnone
    rw [regSlot_last hruns (by exact hstall)]
    have hreqs : cellPut (getEng s e).nextReqs n (nbit (gprRead (getEng s e) ga).toNat 0) = [(n.val, nbit (gprRead (getEng s e) ga).toNat 0)] := by
      rw [hnone]
      rfl
    have h := endWord_request (s := setEng s e { getEng s e with nextReqs := cellPut (getEng s e).nextReqs n (nbit (gprRead (getEng s e) ga).toNat 0) })
      (e := e) (by rw [getEng_setEng_same]; exact hreqs) (by rw [getEng_setEng_same]; exact herr)
    rw [getEng_setEng_same] at h
    exact h
end

/-- Settles O5: each operation that gives a general register writes it as it is or saturated; NOP, CMP, TRIG and REQ have lemmas of their own. -/
theorem xSlotResults : Obligations.XSlotResults := by
  unfold Obligations.XSlotResults
  refine ⟨fun s e gd ga gb eow hruns => ?_, fun s e ga gb eow hruns => ⟨exec_nop hruns eow, fun c n => ?_, fun n => exec_trig hruns n eow,
    fun n => exec_req hruns ga n eow⟩⟩
  · refine ⟨?mov, ?movi, ?movh, ?add, ?sub, ?addi, ?min, ?max, ?abs, ?neg, ?sats, ?shl, ?shr, ?shru, ?and, ?or, ?xor, ?sel, ?rdsf, ?addw, ?subw⟩
    case movi => exact fun imm => exec_writesReg hruns rfl rfl
    case movh => exact fun imm => exec_writesReg hruns rfl (movh_value _ imm)
    case add | sub | neg => exact exec_saturatesReg hruns rfl rfl
    case addi | shl => exact fun _ => exec_saturatesReg hruns rfl rfl
    case abs => exact exec_saturatesReg hruns rfl (Int.abs_eq_natAbs _)
    case min => exact exec_writesReg hruns rfl (min_value _ _)
    case max => exact exec_writesReg hruns rfl (max_value _ _)
    case sats => exact exec_writesReg hruns rfl (sats_value _ _)
    case shr => exact fun n => exec_writesReg hruns rfl (sshiftRight_value _ _)
    case shru => exact fun n => exec_writesReg hruns rfl (ushiftRight_value _ _)
    case sel => exact fun n => exec_writesReg hruns rfl (by rw [nbit_toNat]; rfl)
    case mov | and | or | xor | rdsf | addw | subw => exact exec_writesReg hruns rfl rfl
  · obtain ⟨t, hexec, hkept, hvisible, hf⟩ := exec_cmp hruns ga gb c n eow
    refine ⟨t, hexec, hkept, hvisible, fun i hi => (hf i hi).trans (if_congr Iff.rfl ?_ rfl)⟩
    match c with
    | 0 => exact beq_eq_decide _ _
    | 1 => exact (congrArg not (beq_eq_decide _ _)).trans decide_not.symm
    | 2 | 3 | 4 | 5 | 6 | 7 => rfl

end Sys2Proof.Proofs
end

section
/-! SUPPORT. Proofs. Which commands complete, and the bits of a slot: what a command of an executed form encodes to decodes to that command; what a
slot's bits spell runs (R95, R97–R103). -/

namespace Sys2Proof.Proofs

open Sys2Proof.Machine Sys2Proof.Claims

/-! ## The forms of the L slot (R98, R100) -/

/-- An L command is refused in a form that is never executed, in every state; in every other form it acts inside its word. -/
def LForm (c : Instr) (e : Fin 256) (name : String) : Prop :=
  ∀ s, if neverRuns c = true then exec c s = .refused (.neverExecuted name) else ∃ f, exec c s = .next (inWord s e f)

/-- An L command forms its address first, and then refuses an odd pair. -/
theorem lForm_of_address {c : Instr} {e : Fin 256} {name : String} {am : Fin 4} {odd : Bool} (gb : Fin 32) (off : Int)
    (f : Nat → State → State)
    (hnever : neverRuns c = (am == 3 || odd))
    (hexec : ∀ s, exec c s = (lAddr (getEng s e) am gb off).elim (.refused (.neverExecuted name)) fun a =>
      if odd = true then .refused (.neverExecuted name) else .next (inWord s e (f a))) : LForm c e name := by
  intro s
  rw [hnever, hexec]
  by_cases ham : am = 3
  · rw [ham]
    exact (if_pos rfl).mpr rfl
  · rw [lAddr_eq s e gb ham, Option.elim_some, beq_false_of_ne ham, Bool.false_or]
    split
    · rfl
    · exact ⟨_, rfl⟩

section
variable (e : Fin 256) (gr gb : Fin 32) (am : Fin 4) (off : BitVec 11) (ecc : Ecc) (eow : Bool)

theorem lForm_ldw : LForm (.ldw e gr gb am off ecc eow) e "LDW" := by
  refine lForm_of_address gb off.toInt (fun a s => lLoad s e false false false gr gb am off.toInt ecc eow a) (Bool.or_false _).symm fun s => ?_
  show execLdw e gr gb am off ecc eow s = _
  unfold execLdw
  cases lAddr (getEng s e) am gb off.toInt <;> rfl

theorem lForm_stw : LForm (.stw e gr gb am off eow) e "STW" := by
  refine lForm_of_address gb off.toInt (fun a s => lStore s e false false gr gb am off.toInt eow a) (Bool.or_false _).symm fun s => ?_
  show execStw e gr gb am off eow s = _
  unfold execStw
  cases lAddr (getEng s e) am gb off.toInt <;> rfl

theorem lForm_ldh : LForm (.ldh e gr gb am off ecc eow) e "LDH" := by
  refine lForm_of_address gb off.toInt (fun a s => lLoad s e true false false gr gb am off.toInt ecc eow a) (Bool.or_false _).symm fun s => ?_
  show execLdh e gr gb am off ecc eow s = _
  unfold execLdh
  cases lAddr (getEng s e) am gb off.toInt <;> rfl

theorem lForm_ldhu : LForm (.ldhu e gr gb am off ecc eow) e "LDHU" := by
  refine lForm_of_address gb off.toInt (fun a s => lLoad s e true true false gr gb am off.toInt ecc eow a) (Bool.or_false _).symm fun s => ?_
  show execLdhu e gr gb am off ecc eow s = _
  unfold execLdhu
  cases lAddr (getEng s e) am gb off.toInt <;> rfl

theorem lForm_sth : LForm (.sth e gr gb am off eow) e "STH" := by
  refine lForm_of_address gb off.toInt (fun a s => lStore s e true false gr gb am off.toInt eow a) (Bool.or_false _).symm fun s => ?_
  show execSth e gr gb am off eow s = _
  unfold execSth
  cases lAddr (getEng s e) am gb off.toInt <;> rfl

/-- The test of an even pair, as one of an odd one. -/
theorem ite_even {α : Type} (n : Nat) (x y : α) : (if n % 2 = 0 then x else y) = if (n % 2 == 1) = true then y else x := by
  rcases Nat.mod_two_eq_zero_or_one n with h | h <;> rw [h] <;> rfl

theorem lForm_ldd : LForm (.ldd e gr gb am off ecc eow) e "LDD" := by
  refine lForm_of_address gb off.toInt (fun a s => lLoad s e false false true gr gb am off.toInt ecc eow a) rfl fun s => ?_
  show execLdd e gr gb am off ecc eow s = _
  unfold execLdd
  cases lAddr (getEng s e) am gb off.toInt with
  | none => rfl
  | some a => exact ite_even _ _ _

theorem lForm_std : LForm (.std e gr gb am off eow) e "STD" := by
  refine lForm_of_address gb off.toInt (fun a s => lStore s e false true gr gb am off.toInt eow a) rfl fun s => ?_
  show execStd e gr gb am off eow s = _
  unfold execStd
  cases lAddr (getEng s e) am gb off.toInt with
  | none => rfl
  | some a => exact ite_even _ _ _
end

section
variable {c : Instr} {e : Fin 256} {name : String} {s : State} (h : LForm c e name)
include h

theorem LForm.completes : (neverRuns c = false → ∃ t, exec c s = .next t) ∧ (neverRuns c = true → ∃ m, exec c s = .refused (.neverExecuted m)) := by
  have hs := h s
  split at hs <;> rename_i hn
  · exact ⟨fun hf => absurd (hn.symm.trans hf) (by decide), fun _ => ⟨name, hs⟩⟩
  · obtain ⟨f, hf⟩ := hs
    exact ⟨fun _ => ⟨_, hf⟩, fun ht => absurd ht hn⟩

theorem LForm.refused (hn : neverRuns c = true) : exec c s = .refused (.neverExecuted name) := by
  have hs := h s
  rwa [if_pos hn] at hs

theorem LForm.idles (hn : neverRuns c = false) (hw : wordRuns s e = false) : exec c s = .next s := by
  have hs := h s
  rw [if_neg (by rw [hn]; decide)] at hs
  obtain ⟨f, hf⟩ := hs
  rw [hf, inWord_idle hw]
end

/-! ## Completion -/

/-- Every command but those of the L slot answers a next state by its own shape; the end of a stall looks for one first. -/
theorem exec_completes (c : Instr) (s : State) :
    (neverRuns c = false → ∃ t, exec c s = .next t) ∧ (neverRuns c = true → ∃ m, exec c s = .refused (.neverExecuted m)) := by
  cases c
  case ldw => exact (lForm_ldw _ _ _ _ _ _ _).completes
  case stw => exact (lForm_stw _ _ _ _ _ _).completes
  case ldh => exact (lForm_ldh _ _ _ _ _ _ _).completes
  case ldhu => exact (lForm_ldhu _ _ _ _ _ _ _).completes
  case sth => exact (lForm_sth _ _ _ _ _ _).completes
  case ldd => exact (lForm_ldd _ _ _ _ _ _ _).completes
  case std => exact (lForm_std _ _ _ _ _ _).completes
  case lStallEnd e n =>
    refine ⟨fun _ => ?_, fun h => absurd h Bool.false_ne_true⟩
    show ∃ t, execLStallEnd e n s = .next t
    unfold execLStallEnd
    split <;> exact ⟨_, rfl⟩
  all_goals exact ⟨fun _ => ⟨_, rfl⟩, fun h => absurd h Bool.false_ne_true⟩

/-! ## What a slot's bits spell -/

/-- A command of a slot of engine `e` in a form that runs; while the step runs no words it acts as NOP. -/
def SlotRuns (e : Fin 256) (c : Instr) : Prop := neverRuns c = false ∧ ∀ s, wordRuns s e = false → exec c s = .next s

/-- Every slot on registers alone is one. -/
theorem slotRuns_regSlot {e : Fin 256} {c : Instr} {eow : Bool} {f : State → Eng → Eng} (hn : neverRuns c = false)
    (hexec : ∀ s, exec c s = .next (regSlot s e eow (f s))) : SlotRuns e c :=
  ⟨hn, fun s hw => (hexec s).trans (congrArg Host.Outcome.next (inWord_idle hw))⟩

theorem LForm.slotRuns {e : Fin 256} {c : Instr} {name : String} (h : LForm c e name) (hn : neverRuns c = false) : SlotRuns e c :=
  ⟨hn, fun _ hw => h.idles hn hw⟩

theorem slotRuns_decodeM {e : Fin 256} {m1 : Bool} {b : Nat} {eow : Bool} {c : Instr} (h : decodeM e m1 b eow = some c) : SlotRuns e c := by
  unfold decodeM at h
  dsimp only at h
  split at h
  · cases h
  · split at h <;> cases h <;> exact slotRuns_regSlot (eow := eow) rfl fun _ => rfl

theorem slotRuns_decodeX {e : Fin 256} {b : Nat} {eow : Bool} {c : Instr} (h : decodeX e b eow = some c) : SlotRuns e c := by
  unfold decodeX at h
  dsimp only at h
  split at h
  case h_3 | h_4 | h_19 =>
    split at h
    · cases h
      exact slotRuns_regSlot (eow := eow) rfl fun _ => rfl
    · cases h
  all_goals cases h <;> exact slotRuns_regSlot (eow := eow) rfl fun _ => rfl

/-- The reserved mode, as a slot's bits have it. -/
theorem beq_three (am : Fin 4) : (am == 3) = (am.val == 3) := by
  revert am
  decide

theorem slotRuns_decodeL {e : Fin 256} {b : Nat} {ecc : Ecc} {eow : Bool} {c : Instr} (h : decodeL e b ecc eow = some c) : SlotRuns e c := by
  unfold decodeL at h
  dsimp only at h
  split at h <;> cases h
  case h_1 => exact slotRuns_regSlot (eow := eow) (f := fun _ => id) rfl fun _ => rfl
  case h_2 ham => exact (lForm_ldw _ _ _ _ _ _ _).slotRuns ((beq_three _).trans ham)
  case h_3 ham => exact (lForm_stw _ _ _ _ _ _).slotRuns ((beq_three _).trans ham)
  case h_4 ham hodd => exact (lForm_ldd _ _ _ _ _ _ _).slotRuns (Bool.or_eq_false_iff.mpr ⟨(beq_three _).trans ham, hodd⟩)
  case h_5 ham hodd => exact (lForm_std _ _ _ _ _ _).slotRuns (Bool.or_eq_false_iff.mpr ⟨(beq_three _).trans ham, hodd⟩)
  case h_6 ham => exact (lForm_ldh _ _ _ _ _ _ _).slotRuns ((beq_three _).trans ham)
  case h_7 ham => exact (lForm_ldhu _ _ _ _ _ _ _).slotRuns ((beq_three _).trans ham)
  case h_8 ham => exact (lForm_sth _ _ _ _ _ _).slotRuns ((beq_three _).trans ham)

theorem slotRuns_decodeSlot {e : Fin 256} {i b : Nat} {ecc : Ecc} {eow : Bool} {c : Instr} (h : decodeSlot e i b ecc eow = some c) : SlotRuns e c := by
  unfold decodeSlot at h
  split at h
  · exact slotRuns_decodeM h
  · exact slotRuns_decodeM h
  · exact slotRuns_decodeL h
  · exact slotRuns_decodeX h

/-! ## The fields of an encoded slot (R99–R103) -/

/-- Bits of an M slot with these fields, the reserved ones 0. -/
structure MFields (b op : Nat) (ad : Fin 4) (ga gb q : Fin 32) (rnd : Bool) (as : Fin 4) : Prop where
  opcode : nbits b 27 23 = op
  ad : slotField 4 b 22 21 = ad
  ga : slotField 32 b 20 16 = ga
  gb : slotField 32 b 15 11 = gb
  q : slotField 32 b 10 6 = q
  rnd : nbit b 5 = rnd
  as : slotField 4 b 4 3 = as
  reserved : nbits b 2 0 = 0

/-- Bits of an L slot with these fields. -/
structure LFields (b op : Nat) (gr gb : Fin 32) (am : Fin 4) (off : BitVec 11) : Prop where
  opcode : nbits b 27 23 = op
  gr : slotField 32 b 22 18 = gr
  gb : slotField 32 b 17 13 = gb
  am : slotField 4 b 12 11 = am
  off : BitVec.ofNat 11 b = off

/-- Bits of an X slot in register form with these fields; its low bits are a shift count, a flag number or a condition. -/
structure XFields (b op : Nat) (gd ga gb : Fin 32) (imm : Nat) : Prop where
  opcode : nbits b 27 23 = op
  gd : slotField 32 b 22 18 = gd
  ga : slotField 32 b 17 13 = ga
  gb : slotField 32 b 12 8 = gb
  shift : slotField 32 b 4 0 = operand 32 imm
  cond : slotField 8 b 4 2 = operand 8 (imm / 4)
  flag : slotField 4 b 1 0 = operand 4 imm

section
variable {op b : Nat} (hop : op < 32)
include hop

theorem mBits_lt (ad : Fin 4) (ga gb q : Fin 32) (rnd : Bool) (as : Fin 4) : mBits op ad ga gb q rnd as < 2 ^ 28 := by
  unfold mBits slotOf
  split <;> omega

theorem mFields_mBits (ad : Fin 4) (ga gb q : Fin 32) (rnd : Bool) (as : Fin 4) : MFields (mBits op ad ga gb q rnd as) op ad ga gb q rnd as := by
  unfold mBits slotOf
  refine ⟨?_, Fin.ext ?_, Fin.ext ?_, Fin.ext ?_, Fin.ext ?_, ?_, Fin.ext ?_, ?_⟩ <;> cases rnd <;> simp [slotField, operand, nbits, nbit] <;> omega

theorem lBits_lt (gr gb : Fin 32) (am : Fin 4) (off : BitVec 11) : lBits op gr gb am off < 2 ^ 28 := by
  have hoff := off.isLt
  unfold lBits slotOf
  omega

theorem lFields_lBits (gr gb : Fin 32) (am : Fin 4) (off : BitVec 11) : LFields (lBits op gr gb am off) op gr gb am off := by
  have hoff := off.isLt
  unfold lBits slotOf
  refine ⟨?_, Fin.ext ?_, Fin.ext ?_, Fin.ext ?_, BitVec.eq_of_toNat_eq ?_⟩ <;> simp [slotField, operand, nbits] <;> omega

theorem xBits_lt (gd : Fin 32) {ga gb : Fin 32} {imm : Nat} (hrest : ga.val * 8192 + gb.val * 256 + imm < 262144) :
    xBits op gd ga gb imm < 2 ^ 28 := by
  have hsum : xBits op gd ga gb imm = op * 2 ^ 23 + (gd.val * 2 ^ 18 + (ga.val * 8192 + gb.val * 256 + imm)) := by
    simp [xBits, slotOf, Nat.add_assoc]
  omega

theorem xFields_of_sum {gd ga gb : Fin 32} {imm : Nat} (himm : imm < 32)
    (hb : b = op * 2 ^ 23 + (gd.val * 2 ^ 18 + ga.val * 2 ^ 13 + gb.val * 2 ^ 8 + imm)) : XFields b op gd ga gb imm := by
  refine ⟨?_, Fin.ext ?_, Fin.ext ?_, Fin.ext ?_, Fin.ext ?_, Fin.ext ?_, Fin.ext ?_⟩ <;> simp [slotField, operand, nbits] <;> omega

/-- An immediate of 16 bits lies beside the opcode and GD; bits 17 and 16 are reserved. -/
theorem wide_of_sum {gd : Fin 32} {imm : BitVec 16} (hb : b = op * 2 ^ 23 + (gd.val * 2 ^ 18 + imm.toNat)) :
    nbits b 27 23 = op ∧ slotField 32 b 22 18 = gd ∧ nbits b 17 16 = 0 ∧ BitVec.ofNat 16 b = imm := by
  have himm := imm.isLt
  refine ⟨?_, Fin.ext ?_, ?_, BitVec.eq_of_toNat_eq ?_⟩ <;> simp [slotField, operand, nbits] <;> omega

/-- An immediate of 13 bits lies beside the opcode, GD and GA. -/
theorem narrow_of_sum {gd ga : Fin 32} {imm : BitVec 13} (hb : b = op * 2 ^ 23 + (gd.val * 2 ^ 18 + ga.val * 2 ^ 13 + imm.toNat)) :
    nbits b 27 23 = op ∧ slotField 32 b 22 18 = gd ∧ slotField 32 b 17 13 = ga ∧ BitVec.ofNat 13 b = imm := by
  have himm := imm.isLt
  refine ⟨?_, Fin.ext ?_, Fin.ext ?_, BitVec.eq_of_toNat_eq ?_⟩ <;> simp [slotField, operand, nbits] <;> omega
end

/-! ## Decoding what was encoded -/

/-- Bits `b` of slot `i` spell the command on some engine. -/
def Spells (i b : Nat) (c : Instr) : Prop := b < 2 ^ 28 ∧ i < 4 ∧ ∃ e ecc eow, decodeSlot e i b ecc eow = some c

theorem decodeSlot_m (e : Fin 256) (m1 : Bool) (b : Nat) (ecc : Ecc) (eow : Bool) :
    decodeSlot e (if m1 then 1 else 0) b ecc eow = decodeM e m1 b eow := by
  cases m1 <;> rfl

theorem decodeSlot_l (e : Fin 256) (b : Nat) (ecc : Ecc) (eow : Bool) : decodeSlot e 2 b ecc eow = decodeL e b ecc eow := rfl

theorem decodeSlot_x (e : Fin 256) (b : Nat) (ecc : Ecc) (eow : Bool) : decodeSlot e 3 b ecc eow = decodeX e b eow := rfl

section
variable {op : Nat} (hop : op < 32) {c : Instr} {e : Fin 256} {eow : Bool}
include hop

theorem spells_m {m1 : Bool} {ad as : Fin 4} {ga gb q : Fin 32} {rnd : Bool}
    (h : ∀ b, MFields b op ad ga gb q rnd as → decodeM e m1 b eow = some c) : Spells (if m1 then 1 else 0) (mBits op ad ga gb q rnd as) c := by
  refine ⟨mBits_lt hop ad ga gb q rnd as, ?_, e, .clean, eow, (decodeSlot_m e m1 _ .clean eow).trans (h _ (mFields_mBits hop ad ga gb q rnd as))⟩
  split <;> decide

theorem spells_l {gr gb : Fin 32} {am : Fin 4} {off : BitVec 11} {ecc : Ecc}
    (h : ∀ b, LFields b op gr gb am off → decodeL e b ecc eow = some c) : Spells 2 (lBits op gr gb am off) c :=
  ⟨lBits_lt hop gr gb am off, by decide, e, ecc, eow, (decodeSlot_l e _ ecc eow).trans (h _ (lFields_lBits hop gr gb am off))⟩

theorem spells_x {gd ga gb : Fin 32} {imm : Nat} (himm : imm < 32) (h : ∀ b, XFields b op gd ga gb imm → decodeX e b eow = some c) :
    Spells 3 (xBits op gd ga gb imm) c :=
  ⟨xBits_lt hop gd (by omega), by decide, e, .clean, eow, (decodeSlot_x e _ .clean eow).trans (h _ (xFields_of_sum hop himm rfl))⟩

theorem spells_wide {gd : Fin 32} {imm : BitVec 16} (h : ∀ b, nbits b 27 23 = op → slotField 32 b 22 18 = gd → nbits b 17 16 = 0 →
    BitVec.ofNat 16 b = imm → decodeX e b eow = some c) : Spells 3 (xBits op gd 0 0 imm.toNat) c := by
  have himm := imm.isLt
  obtain ⟨hopcode, hgd, hwide, hval⟩ := wide_of_sum hop (b := xBits op gd 0 0 imm.toNat) (gd := gd) (imm := imm) (by simp [xBits, slotOf])
  exact ⟨xBits_lt hop gd (by simp; omega), by decide, e, .clean, eow, (decodeSlot_x e _ .clean eow).trans (h _ hopcode hgd hwide hval)⟩

theorem spells_narrow {gd ga : Fin 32} {imm : BitVec 13} (h : ∀ b, nbits b 27 23 = op → slotField 32 b 22 18 = gd → slotField 32 b 17 13 = ga →
    BitVec.ofNat 13 b = imm → decodeX e b eow = some c) : Spells 3 (xBits op gd ga 0 imm.toNat) c := by
  have himm := imm.isLt
  obtain ⟨hopcode, hgd, hga, hval⟩ := narrow_of_sum hop (b := xBits op gd ga 0 imm.toNat) (gd := gd) (ga := ga) (imm := imm) (by simp [xBits, slotOf])
  exact ⟨xBits_lt hop gd (by simp; omega), by decide, e, .clean, eow, (decodeSlot_x e _ .clean eow).trans (h _ hopcode hgd hga hval)⟩
end

theorem operand_val {n : Nat} [NeZero n] (x : Fin n) : operand n x.val = x := Fin.ofNat_val_eq_self x

theorem operand_cond (c : Fin 8) (n : Fin 4) : operand 8 ((4 * c.val + n.val) / 4) = c ∧ operand 4 (4 * c.val + n.val) = n := by
  revert c n
  decide

/-- A command that encodes to bits and completes is spelled by them. -/
theorem spells_encodeSlot {c : Instr} {s t : State} {i b : Nat} (h : encodeSlot c = some (i, b)) (ht : exec c s = .next t) : Spells i b c := by
  have hruns : neverRuns c = false := Bool.eq_false_iff.mpr fun hn => by
    obtain ⟨m, hm⟩ := (exec_completes c s).2 hn
    rw [hm] at ht
    cases ht
  cases c
  case nop e eow =>
    cases h
    exact ⟨by decide, by decide, e, .clean, eow, rfl⟩
  case mul | mac | msu | muld | macd | msud | aclr | ald | aadd | aadda | asuba | asat | ashl | ashr | aneg =>
    cases h
    exact spells_m (by decide) fun b hb => by
      simp only [decodeM, hb.opcode, hb.ad, hb.ga, hb.gb, hb.q, hb.rnd, hb.as, hb.reserved, ne_eq, not_true_eq_false, if_false]
      rfl
  case ldw | ldh | ldhu =>
    cases h
    exact spells_l (by decide) fun b hb => by
      simp only [decodeL, hb.opcode, hb.gr, hb.gb, hb.am, hb.off, (beq_three _).symm.trans hruns]
      rfl
  case stw | sth =>
    cases h
    exact spells_l (ecc := .clean) (by decide) fun b hb => by
      simp only [decodeL, hb.opcode, hb.gr, hb.gb, hb.am, hb.off, (beq_three _).symm.trans hruns]
      rfl
  case ldd =>
    cases h
    obtain ⟨ham, hodd⟩ := Bool.or_eq_false_iff.mp hruns
    exact spells_l (by decide) fun b hb => by
      simp only [decodeL, hb.opcode, hb.gr, hb.gb, hb.am, hb.off, (beq_three _).symm.trans ham, hodd]
      rfl
  case std =>
    cases h
    obtain ⟨ham, hodd⟩ := Bool.or_eq_false_iff.mp hruns
    exact spells_l (ecc := .clean) (by decide) fun b hb => by
      simp only [decodeL, hb.opcode, hb.gr, hb.gb, hb.am, hb.off, (beq_three _).symm.trans ham, hodd]
      rfl
  case shl | shr | shru | sel | req | trig =>
    cases h
    exact spells_x (by decide) (by omega) fun b hb => by
      simp only [decodeX, hb.opcode, hb.gd, hb.ga, hb.gb, hb.shift, hb.flag, operand_val]
      rfl
  case mov | add | sub | min | max | abs | neg | sats | and | or | xor | rdsf | addw | subw =>
    cases h
    exact spells_x (by decide) (by omega) fun b hb => by
      simp only [decodeX, hb.opcode, hb.gd, hb.ga, hb.gb]
      rfl
  case cmp e ga gb cond n eow =>
    cases h
    obtain ⟨hcond, hflag⟩ := operand_cond cond n
    exact spells_x (by decide) (by omega) fun b hb => by
      simp only [decodeX, hb.opcode, hb.gd, hb.ga, hb.gb, hb.cond, hb.flag, hcond, hflag]
      rfl
  case movi | movh =>
    cases h
    exact spells_wide (by decide) fun b hop hgd hwide himm => by
      simp only [decodeX, hop, hgd, hwide, himm]
      rfl
  case addi =>
    cases h
    exact spells_narrow (by decide) fun b hop hgd hga himm => by
      simp only [decodeX, hop, hgd, hga, himm]
      rfl
  all_goals cases h

/-! ## The refusals and the test words -/

theorem exec_reserved (s : State) (e : Fin 256) (gr gb : Fin 32) (am : Fin 4) (off : BitVec 11) (ecc : Ecc) (eow : Bool) :
    (exec (.ldw e gr gb 3 off ecc eow) s = .refused (.neverExecuted "LDW") ∧
      exec (.stw e gr gb 3 off eow) s = .refused (.neverExecuted "STW") ∧
      exec (.ldh e gr gb 3 off ecc eow) s = .refused (.neverExecuted "LDH") ∧
      exec (.ldhu e gr gb 3 off ecc eow) s = .refused (.neverExecuted "LDHU") ∧
      exec (.sth e gr gb 3 off eow) s = .refused (.neverExecuted "STH")) ∧
    ((am = 3 ∨ gr.val % 2 = 1) →
      exec (.ldd e gr gb am off ecc eow) s = .refused (.neverExecuted "LDD") ∧ exec (.std e gr gb am off eow) s = .refused (.neverExecuted "STD")) := by
  refine ⟨⟨(lForm_ldw _ _ _ _ _ _ _).refused rfl, (lForm_stw _ _ _ _ _ _).refused rfl, (lForm_ldh _ _ _ _ _ _ _).refused rfl,
    (lForm_ldhu _ _ _ _ _ _ _).refused rfl, (lForm_sth _ _ _ _ _ _).refused rfl⟩, fun h => ?_⟩
  have hn : (am == 3 || gr.val % 2 == 1) = true := by
    rw [Bool.or_eq_true, beq_iff_eq, beq_iff_eq]
    exact h
  exact ⟨(lForm_ldd _ _ _ _ _ _ _).refused hn, (lForm_std _ _ _ _ _ _).refused hn⟩

/-- Settles O2: commands complete by their shape, bits read back field by field, and what decodes is a command of a form that runs. -/
theorem onlyReservedFormsStop : Obligations.OnlyReservedFormsStop := by
  refine ⟨exec_completes, exec_reserved, fun c s t i b => spells_encodeSlot, fun c s e i b ecc eow h => ?_, fun e ecc eow => ?_⟩
  · obtain ⟨hn, hidle⟩ := slotRuns_decodeSlot h
    exact ⟨(exec_completes c s).1 hn, hidle s⟩
  · exact ⟨rfl, rfl, rfl, rfl, rfl, rfl, rfl, rfl, rfl, rfl⟩

end Sys2Proof.Proofs
end

section
/-! SUPPORT. Proofs. What decides the step list of an engine (R59, R60), and the host writes that wait for its last step (R89, R90, R113). -/

namespace Sys2Proof.Proofs

open Sys2Proof.Machine Sys2Proof.Claims

/-! ## What decides an engine's step list -/

/-- What the step lists of engine `e` are read from: image, placement groups, tick, and the mode of its polder. -/
structure SameSteps (s t : State) (e : Nat) : Prop where
  img : t.img = s.img
  groups : t.groups = s.groups
  tick : t.tick = s.tick
  mode : SameReg (tickMode (resPol s (resEngine e))) s t

section
variable {s t u : State} {e : Nat}

theorem SameSteps.refl : SameSteps s s e := ⟨rfl, rfl, rfl, rfl⟩

theorem SameSteps.trans (h2 : SameSteps t u e) (h1 : SameSteps s t e) : SameSteps s u e :=
  ⟨h2.img.trans h1.img, h2.groups.trans h1.groups, h2.tick.trans h1.tick, SameReg.trans (resPol_of_img h1.img _ ▸ h2.mode) h1.mode⟩

/-- A state that differs in none of the four fields. -/
theorem sameSteps_of_fields (himg : t.img = s.img) (hgroups : t.groups = s.groups) (htick : t.tick = s.tick) (hregs : t.regs = s.regs) :
    SameSteps s t e := ⟨himg, hgroups, htick, .of_regs hregs⟩

theorem sameSteps_setEng (s : State) (d : Nat) (x : Eng) : SameSteps s (setEng s d x) e := sameSteps_of_fields rfl rfl rfl rfl

theorem sameSteps_memOnly (h : MemOnly s t) : SameSteps s t e := by
  obtain ⟨m, rfl⟩ := h
  exact sameSteps_of_fields rfl rfl rfl rfl
end

section
variable {s t : State} {e : Nat} (h : SameSteps s t e)
include h

theorem SameSteps.resPol : resPol t (resEngine e) = resPol s (resEngine e) := resPol_of_img h.img _

theorem SameSteps.groupOf (d : Nat) : groupOf t d = groupOf s d := by rw [Machine.groupOf, h.img, Machine.groupOf]

theorem SameSteps.migSteps : migSteps t e = migSteps s e := by rw [Machine.migSteps, h.resPol, h.img, Machine.migSteps]

theorem SameSteps.sigGroup : sigGroup t e = sigGroup s e := by rw [Machine.sigGroup, h.resPol, h.img, h.groupOf, Machine.sigGroup]

theorem SameSteps.clusterSteps (k : Nat) : clusterSteps t k = clusterSteps s k := by rw [Machine.clusterSteps, h.img, Machine.clusterSteps]

theorem SameSteps.runsGroup : runsGroup t e = runsGroup s e := by
  have hget (k : Nat) : getGroup t k = getGroup s k := by rw [getGroup, h.groups, getGroup]
  simp only [Machine.runsGroup, h.groupOf, hget]

theorem SameSteps.stepDue (d : DWord) : stepDue t e d = stepDue s e d := by
  have hmode : curMode t (Machine.resPol s (resEngine e)) = curMode s (Machine.resPol s (resEngine e)) := by
    rw [curMode, getF, h.mode, curMode, getF]
  simp only [Machine.stepDue, h.resPol, hmode, h.tick, h.runsGroup]

theorem SameSteps.nextDue (i : Nat) : nextDue t e i = nextDue s e i := by
  simp only [Machine.nextDue, h.migSteps, h.clusterSteps, h.stepDue]

theorem SameSteps.groupStepLeft (i : Nat) : groupStepLeft t e i = groupStepLeft s e i := by
  simp only [Machine.groupStepLeft, h.migSteps, h.clusterSteps, h.stepDue]

theorem SameSteps.stepsOver (hrun : (getEng t e).running = (getEng s e).running) (hnext : (getEng t e).nextStep = (getEng s e).nextStep) :
    stepsOver t e = stepsOver s e := by
  rw [Machine.stepsOver, hrun, hnext, h.nextDue, Machine.stepsOver]
end

theorem stepsOver_of_none {s : State} {e : Nat} (hrun : (getEng s e).running = none) (hdue : nextDue s e (getEng s e).nextStep = none) :
    stepsOver s e = true := by
  rw [stepsOver, hrun, hdue]
  rfl

/-! ## The taps of an engine (R113) -/

/-- The taps of an engine once taken: what they took before, or what they show now. -/
def tapsTaken (s : State) (e : Nat) : List Word := (getEng s e).tapSnap.getD (tapWords s e)

theorem getEng_snapTaps (s : State) (e : Nat) : getEng (snapTaps s e) e = { getEng s e with tapSnap := some (tapsTaken s e) } := getEng_setEng_same _ _ _

/-- Taps taken again stay as they are. -/
theorem tapsTaken_of_some {s : State} {e : Nat} {l : List Word} (h : (getEng s e).tapSnap = some l) : tapsTaken s e = l := by
  rw [tapsTaken, h]
  rfl

theorem stepsOver_snapTaps (s : State) (e d : Nat) : stepsOver (snapTaps s e) d = stepsOver s d := by
  have hsame : SameSteps s (snapTaps s e) d := sameSteps_setEng s e _
  by_cases hd : d = e
  · rw [hd]
    rw [hd] at hsame
    refine hsame.stepsOver ?_ ?_ <;> rw [getEng_snapTaps]
  · have hget : getEng (snapTaps s e) d = getEng s d := getEng_setEng_other s _ hd
    exact hsame.stepsOver (by rw [hget]) (by rw [hget])

/-! ## An engine outside placement groups -/

theorem wrWords_mem_congr (l : List Word) {s t : State} (h : t.mem = s.mem) (a : Nat) : (wrWords t a l).mem = (wrWords s a l).mem := by
  induction l generalizing s t a with
  | nil => exact h
  | cons w l ih =>
    refine ih ?_ _
    simp only [wrWord, wrByte, h]

/-- The memory that writes leave depends on no more than memory. -/
theorem writes_mem_congr (l : List HostWrite) {s t : State} (h : t.mem = s.mem) :
    (l.foldl (fun s w => wrWords s w.addr w.words) t).mem = (l.foldl (fun s w => wrWords s w.addr w.words) s).mem := by
  induction l generalizing s t with
  | nil => exact h
  | cons w l ih => exact ih (wrWords_mem_congr w.words h w.addr)

section
variable {s : State} {e : Nat} (hgroup : groupOf s e = none)
include hgroup

theorem inStateArea_of_no_group (a : Nat) : inStateArea s e a = none := by
  rw [inStateArea, hgroup]

theorem writeReach_of_no_group (w : HostWrite) : writeReach s e w = [e] := by
  have hmiss : hitsState s e w = false := by
    rw [hitsState, List.any_eq_false]
    intro i _
    rw [inStateArea_of_no_group hgroup]
    decide
  rw [writeReach, if_neg (by rw [hmiss]; decide)]

theorem putHostWords_of_no_group (l : List Word) (a : Nat) : putHostWords s e a l = wrWords s a l := by
  induction l generalizing s a with
  | nil => rfl
  | cons v l ih =>
    have hput : putHostWord s e a v = wrWord s a v := by rw [putHostWord, inStateArea_of_no_group hgroup]
    rw [putHostWords, hput, wrWords]
    exact ih (s := wrWord s a v) hgroup (a + 4)

/-- The engine takes its taps, and the write takes place. -/
theorem applyHostWrite_of_no_group (hover : stepsOver s e = true) (w : HostWrite) :
    applyHostWrite s e w = wrWords (snapTaps s e) w.addr w.words := by
  have hall : (writeReach s e w).filter (stepsOver s) = [e] := by
    rw [writeReach_of_no_group hgroup, List.filter_cons_of_pos hover]
    rfl
  rw [applyHostWrite, hall]
  exact putHostWords_of_no_group (s := snapTaps s e) hgroup w.words w.addr
end

/-- What a drain leaves: no write waits, the taps stand, memory has taken the writes, no register has changed. -/
structure Drained (s t : State) (e : Nat) (l : List HostWrite) (taps : List Word) : Prop where
  queue : (getEng t e).queue = []
  held : (getEng t e).held = []
  taps : (getEng t e).tapSnap = some taps
  mem : t.mem = (l.foldl (fun s w => wrWords s w.addr w.words) s).mem
  regs : t.regs = s.regs

/-- The waiting writes of an engine outside groups are applied in their order. -/
theorem drained_of_no_group (l : List HostWrite) {s : State} {e : Nat} {taps : List Word} (hgroup : groupOf s e = none)
    (hover : stepsOver s e = true) (htaps : (getEng s e).tapSnap = some taps) : Drained s (drainList s e false l) e l taps := by
  induction l generalizing s with
  | nil =>
    have hget : getEng (drainList s e false []) e = { getEng s e with queue := [], held := [] } := getEng_setEng_same _ _ _
    exact ⟨by rw [hget], by rw [hget], by rw [hget]; exact htaps, rfl, rfl⟩
  | cons w l ih =>
    have hcan : (false || canApply s e w) = true := by
      rw [canApply, writeReach_of_no_group hgroup]
      simp [hover]
    have hmem := memOnly_wrWords w.words (snapTaps s e) w.addr
    have hget : getEng (wrWords (snapTaps s e) w.addr w.words) e = getEng (snapTaps s e) e := by
      obtain ⟨m, hm⟩ := hmem
      rw [hm]
      rfl
    have hsame : SameSteps s (wrWords (snapTaps s e) w.addr w.words) e := (sameSteps_memOnly hmem).trans (sameSteps_setEng s e _)
    rw [drainList, if_pos hcan, applyHostWrite_of_no_group hgroup hover]
    obtain ⟨hqueue, hheld, htaken, hdone, hregs⟩ := ih (s := wrWords (snapTaps s e) w.addr w.words) ((hsame.groupOf e).trans hgroup)
      ((hsame.stepsOver (by rw [hget, getEng_snapTaps]) (by rw [hget, getEng_snapTaps])).trans hover)
      (by rw [hget, getEng_snapTaps, tapsTaken_of_some htaps])
    refine ⟨hqueue, hheld, htaken, hdone.trans ?_, hregs.trans (wrWords_regs _ _ _)⟩
    exact writes_mem_congr l (wrWords_mem_congr (s := s) (t := snapTaps s e) w.words rfl w.addr)

/-! ## A word of a state area (R90) -/

theorem rdWord_wrWord_other (s : State) {a b : Nat} (w : Word) (h : b + 4 ≤ a ∨ a + 4 ≤ b) : rdWord (wrWord s a w) b = rdWord s b := by
  simp only [rdWord]
  rw [rdByte_wrWord_other _ _ (by omega), rdByte_wrWord_other _ _ (by omega), rdByte_wrWord_other _ _ (by omega), rdByte_wrWord_other _ _ (by omega)]

/-- The same word written into several engines stands in each of them. -/
theorem rdWord_forEach_wrWord (s : State) {l : List Nat} {d : Nat} (hd : d ∈ l) (o : Nat) (v : Word) :
    rdWord (forEach l s fun s d => wrWord s (engBase d + o) v) (engBase d + o) = v := by
  have hset (t : State) : rdWord (wrWord t (engBase d + o) v) (engBase d + o) = v := rdWord_wrWord_same t (engBase d + o) v
  refine forEach_reaches (fun t => rdWord t (engBase d + o) = v) (fun s d => wrWord s (engBase d + o) v) hd hset (fun t y _ ht => ?_) s
  by_cases hy : y = d
  · rw [hy]
    exact hset t
  · exact (rdWord_wrWord_other t v (by unfold engBase; omega)).trans ht

/-- A lone waiting write that reaches only engines between steps is applied. -/
theorem drainList_one {s : State} {e : Nat} {w : HostWrite} (hcan : canApply s e w = true) :
    drainList s e false [w] = waitWrites (applyHostWrite s e w) e [] := by
  rw [drainList, hcan]
  rfl

/-- One word of a group's state area goes to every member and the spare. -/
theorem rdWord_applyHostWrite {s : State} {e : Nat} {w : HostWrite} {v : Word} {g : Group} (hwords : w.words = [v])
    (harea : inStateArea s e w.addr = some g) {d : Nat} (hd : d ∈ g.members ++ g.spare.toList) :
    rdWord (applyHostWrite s e w) (engBase d + w.addr % 0x100000) = v := by
  unfold applyHostWrite
  dsimp only
  have himg : (forEach ((writeReach s e w).filter (stepsOver s)) s snapTaps).img = s.img := forEach_keeps (·.img) _ _ _ fun _ _ => rfl
  generalize forEach ((writeReach s e w).filter (stepsOver s)) s snapTaps = u at himg
  have harea' : inStateArea u e w.addr = some g := by
    rw [← harea, inStateArea, groupOf, himg, inStateArea, groupOf]
  rw [hwords, putHostWords, putHostWords, putHostWord, harea']
  exact rdWord_forEach_wrWord u hd _ v

theorem inStateArea_snapTaps (s : State) (e d a : Nat) : inStateArea (snapTaps s e) d a = inStateArea s d a := rfl

theorem canApply_snapTaps (s : State) (e : Nat) (w : HostWrite) : canApply (snapTaps s e) e w = canApply s e w := by
  rw [canApply, funext (stepsOver_snapTaps s e)]
  rfl

/-- HOST_WRITE_QUEUE_DRAIN after the engine's last step of the tick. -/
theorem exec_drain {s : State} {e : Fin 256} (hover : stepsOver s e = true) : exec (.hostWriteQueueDrain e) s =
    .next (drainList (snapTaps s e) e false ((getEng s e).queue ++ (getEng s e).held)) := congrArg Host.Outcome.next (if_pos hover)

/-- Settles O12: the list of waiting writes is drained from its front; a state area's word is one write into each engine. -/
theorem hostWritesDrainInOrder : Obligations.HostWritesDrainInOrder := by
  unfold Obligations.HostWritesDrainInOrder
  intro s e hrun hdue
  have hover := stepsOver_of_none hrun hdue
  refine ⟨fun hgroup => ⟨_, exec_drain hover, ?_⟩, fun w v g hqueue hheld hwords harea hcan _ => ⟨_, exec_drain hover, ?_⟩⟩
  · obtain ⟨hqueue, hheld, htaps, hmem, hregs⟩ := drained_of_no_group (s := snapTaps s e) (taps := tapsTaken s e)
      ((getEng s e).queue ++ (getEng s e).held) hgroup ((stepsOver_snapTaps s e e).trans hover) (by rw [getEng_snapTaps])
    exact ⟨hqueue, hheld, htaps, hmem.trans (writes_mem_congr _ rfl), hregs⟩
  · rw [hqueue, hheld, List.append_nil, drainList_one ((canApply_snapTaps s e w).trans hcan)]
    refine ⟨congrArg Eng.queue (getEng_setEng_same (applyHostWrite (snapTaps s e) e w) e _), fun d hd => ?_⟩
    exact rdWord_applyHostWrite hwords ((inStateArea_snapTaps s e e w.addr).trans harea) hd

end Sys2Proof.Proofs
end

section
/-! SUPPORT. Proofs. State transfers of placement groups: the copy of a state area, the cycles that they count, re-admission (R116, R122, R123, R127);
the end of a trace lane (R160). -/

namespace Sys2Proof.Proofs

open Sys2Proof.Machine Sys2Proof.Claims

/-! ## State areas -/

/-- The state area of an engine of a group (R115). -/
def stateArea (s : State) (g : Group) (e : Nat) : List Word := rdWords s (engBase e + 32 * g.base) (8 * g.len)

theorem rdWords_congr {s t : State} {a : Nat} (n : Nat) (h : ∀ i < 4 * n, rdByte t (a + i) = rdByte s (a + i)) : rdWords t a n = rdWords s a n := by
  induction n generalizing a with
  | zero => rfl
  | succ n ih =>
    have hword : rdWord t a = rdWord s a := by
      simp only [rdWord]
      rw [h 1 (by omega), h 2 (by omega), h 3 (by omega), show rdByte t a = rdByte s a from h 0 (by omega)]
    rw [rdWords, rdWords, hword, ih fun i hi => by rw [show a + 4 + i = a + (4 + i) by omega]; exact h (4 + i) (by omega)]

theorem stateArea_of_mem {s t : State} (h : t.mem = s.mem) (g : Group) (e : Nat) : stateArea t g e = stateArea s g e :=
  rdWords_congr _ fun i _ => by rw [rdByte, h, rdByte]

/-- A copy reaches no engine's area but the one it goes to. -/
theorem stateArea_copyState {g : Group} (hfits : 32 * (g.base + g.len) ≤ 0x20000) (s : State) (src dst d : Nat) :
    stateArea (copyState s g src dst) g d = if d = dst then stateArea s g src else stateArea s g d := by
  refine (stateArea_of_mem (s := wrWords s (engBase dst + 32 * g.base) (stateArea s g src)) (t := copyState s g src dst) rfl g d).trans ?_
  have hlen : (stateArea s g src).length = 8 * g.len := length_rdWords _ _ _
  split <;> rename_i hd
  · rw [hd, stateArea, ← hlen]
    exact rdWords_wrWords _ _ _
  · refine rdWords_congr _ fun i hi => rdByte_wrWords_other _ _ ?_
    rw [hlen]
    unfold engBase
    omega

theorem copyState_frame (s : State) (g : Group) (src dst : Nat) : (copyState s g src dst).regs = s.regs ∧ (copyState s g src dst).eng = s.eng ∧
    (copyState s g src dst).groups = s.groups := by
  obtain ⟨m, hm⟩ := memOnly_wrWords (rdWords s (engBase src + 32 * g.base) (8 * g.len)) s (engBase dst + 32 * g.base)
  unfold copyState copyHist
  rw [hm]
  exact ⟨rfl, rfl, rfl⟩

/-- A restore gives every engine of the list the area of the spare. -/
theorem stateArea_restore {g : Group} (hfits : 32 * (g.base + g.len) ≤ 0x20000) (c : Nat) (l : List Nat) (s : State) (d : Nat) :
    stateArea (forEach l s fun s m => copyState s g c m) g d = if d ∈ l then stateArea s g c else stateArea s g d := by
  induction l generalizing s with
  | nil => rfl
  | cons y l ih =>
    refine (ih (copyState s g c y)).trans ?_
    rw [stateArea_copyState hfits, stateArea_copyState hfits, ite_self]
    by_cases hy : d = y <;> simp [hy]

/-! ## The cycles of a transfer (R116, R129) -/

/-- The engines of a list count a transfer of `n` cycles at most, as far as 1.0 µs of their region's clock goes. -/
def countCycles (n : Nat) (s : State) (e : Nat) : State :=
  setEng s e { getEng s e with cycles := (getEng s e).cycles + n % (engMHz s e + 1) }

theorem cycles_countCycles_other (n : Nat) (l : List Nat) (s : State) {m : Nat} (hm : m ∉ l) : getEng (forEach l s (countCycles n)) m = getEng s m :=
  forEach_preserves_mem (fun t => getEng t m = getEng s m) l s _
    (fun t e he ht => (getEng_setEng_other t _ (show m ≠ e from fun h => hm (h ▸ he))).trans ht) rfl

theorem cycles_countCycles (n : Nat) {l : List Nat} (hl : l.Nodup) (s : State) {m : Nat} (hm : m ∈ l) :
    (getEng (forEach l s (countCycles n)) m).cycles = (getEng s m).cycles + n % (engMHz s m + 1) := by
  induction l generalizing s with
  | nil => exact absurd hm List.not_mem_nil
  | cons e l ih =>
    obtain ⟨he, hnodup⟩ := List.nodup_cons.mp hl
    show (getEng (forEach l (countCycles n s e) (countCycles n)) m).cycles = _
    by_cases hme : m = e
    · rw [hme, cycles_countCycles_other n l _ he, countCycles, getEng_setEng_same]
    · rw [ih hnodup (countCycles n s e) (List.mem_of_ne_of_mem hme hm), countCycles, getEng_setEng_other s _ hme]
      rfl

theorem countTransfer_eq (s : State) (g : Group) :
    countTransfer s g = forEach (g.members ++ g.spare.toList) (nextFree s) (countCycles (Config.freeWord s.free).toNat) := rfl

theorem countTransfer_frame (s : State) (g : Group) : (countTransfer s g).mem = s.mem ∧ (countTransfer s g).regs = s.regs ∧
    (countTransfer s g).groups = s.groups := by
  rw [countTransfer_eq]
  exact forEach_preserves (fun t => t.mem = s.mem ∧ t.regs = s.regs ∧ t.groups = s.groups) _ _ _ (fun _ _ ht => ht) ⟨rfl, rfl, rfl⟩

/-! ## The end of a transfer -/

/-- Group `k` once its transfer is over and its cycles are counted. -/
def transferOver (s : State) (k : Nat) (g : Group) : State := countTransfer (setGroup s k { getGroup s k with xfer := none }) g

theorem transferOver_frame (s : State) (k : Nat) (g : Group) : (transferOver s k g).mem = s.mem ∧ (transferOver s k g).regs = s.regs ∧
    getGroup (transferOver s k g) k = { getGroup s k with xfer := none } := by
  obtain ⟨hmem, hregs, hgroups⟩ := countTransfer_frame (setGroup s k { getGroup s k with xfer := none }) g
  refine ⟨hmem, hregs, ?_⟩
  rw [transferOver, getGroup, hgroups]
  exact getGroup_setGroup_same s k _

/-- The healthy members, but the one that returns, and the lowest of them (R127). -/
def lowestHealthy (members : List Nat) (e : Nat) : Nat :=
  (members.filter (· != e)).foldl (fun m d => min m d) ((members.filter (· != e)).headD e)

/-- What the transfer does once it is over. -/
def transferEffect (s : State) (k : Nat) (g : Group) (members : List Nat) : Xfer → Option Nat → State
  | .shadow, some c => match members.head? with
    | some m => copyState s g m c
    | none => s
  | .restore, some c => forEach members s fun s m => copyState s g c m
  | .seed e, _ => joinGroup (copyState s g (lowestHealthy members e) e) k g e
  | _, _ => s

section
variable {s : State} {p : Fin 8} {id : Fin 256} {g : Group}

theorem exec_stateTransferDone (hfind : s.img.groups.find? (fun g => g.polder == p.val && g.id == id.val) = some g) {x : Xfer}
    (hxfer : (getGroup s (p.val * 256 + id.val)).xfer = some x) : exec (.stateTransferDone p id) s =
      .next (transferEffect (transferOver s (p.val * 256 + id.val) g) (p.val * 256 + id.val) g (getGroup s (p.val * 256 + id.val)).members x
        (getGroup s (p.val * 256 + id.val)).spare) := by
  show execStateTransferDone p id s = _
  unfold execStateTransferDone
  dsimp only
  rw [hfind, hxfer]
  dsimp only [transferOver]
  cases x <;> cases (getGroup s (p.val * 256 + id.val)).spare <;> rfl
end

/-! ## The lowest healthy member -/

theorem foldl_min_spec (l : List Nat) (a : Nat) : (l.foldl (fun m d => min m d) a = a ∨ l.foldl (fun m d => min m d) a ∈ l) ∧
    l.foldl (fun m d => min m d) a ≤ a ∧ ∀ m ∈ l, l.foldl (fun m d => min m d) a ≤ m := by
  induction l generalizing a with
  | nil => exact ⟨.inl rfl, le_rfl, fun m hm => absurd hm List.not_mem_nil⟩
  | cons x l ih =>
    obtain ⟨hin, hle, hall⟩ := ih (min a x)
    rw [List.foldl_cons]
    refine ⟨?_, by omega, fun m hm => ?_⟩
    · rcases hin with h | h
      · rcases le_total a x with hax | hax
        · exact .inl (h.trans (min_eq_left hax))
        · exact .inr (List.mem_cons.mpr (.inl (h.trans (min_eq_right hax))))
      · exact .inr (List.mem_cons_of_mem _ h)
    · rcases List.mem_cons.mp hm with rfl | hm
      · omega
      · exact hall m hm

theorem lowestHealthy_spec {members : List Nat} {e : Nat} (h : ∃ m ∈ members, m ≠ e) :
    lowestHealthy members e ∈ members ∧ lowestHealthy members e ≠ e ∧ ∀ m ∈ members, m ≠ e → lowestHealthy members e ≤ m := by
  have hmem (m : Nat) : m ∈ members.filter (· != e) ↔ m ∈ members ∧ m ≠ e := by rw [List.mem_filter, bne_iff_ne]
  obtain ⟨m, hm, hne⟩ := h
  have hsome := (hmem m).mpr ⟨hm, hne⟩
  unfold lowestHealthy
  generalize members.filter (· != e) = l at hmem hsome
  obtain ⟨hin, -, hall⟩ := foldl_min_spec l (l.headD e)
  have hhead : l.headD e ∈ l := by
    cases l with
    | nil => exact absurd hsome List.not_mem_nil
    | cons x l => exact List.mem_cons_self
  have hlow : l.foldl (fun m d => min m d) (l.headD e) ∈ l := hin.elim (fun h => by rw [h]; exact hhead) id
  exact ⟨((hmem _).mp hlow).1, ((hmem _).mp hlow).2, fun d hd hde => hall d ((hmem d).mpr ⟨hd, hde⟩)⟩

/-! ## Re-admission (R127) -/

@[simp] theorem calm_showGroup (s : State) (k : Nat) (g : Group) : calm (showGroup s k g) = calm s := by
  unfold showGroup
  dsimp only
  cases (getGroup s k).spare <;>
  · refine (calm_forEach _ _ _ fun t i => ?_).trans (calm_forEach _ _ _ fun t e => ?_)
    · split <;> rfl
    · rfl

/-- The group with the engine in it again. -/
def rejoined (gs : GroupSt) (triple : Bool) (e : Nat) : GroupSt :=
  if triple then { gs with retired := gs.retired.filter (· != e), members := gs.members ++ [e] }
  else { gs with retired := gs.retired.filter (· != e), spare := some e }

theorem joinGroup_frame (s : State) (k : Nat) (g : Group) (e : Nat) : (joinGroup s k g e).mem = s.mem ∧ (joinGroup s k g e).eng = s.eng ∧
    getGroup (joinGroup s k g e) k = rejoined (getGroup s k) g.triple e := by
  have hcalm : calm (joinGroup s k g e) = calm (setGroup s k (rejoined (getGroup s k) g.triple e)) := by
    unfold joinGroup rejoined
    rw [calm_notice, calm_showGroup]
    cases g.triple <;> rfl
  refine ⟨(congrArg (·.mem) hcalm :), (congrArg (·.eng) hcalm :), ?_⟩
  have hgroups : (joinGroup s k g e).groups = (setGroup s k (rejoined (getGroup s k) g.triple e)).groups := (congrArg (·.groups) hcalm :)
  rw [getGroup, hgroups]
  exact getGroup_setGroup_same s k _

theorem rejoined_spec (gs : GroupSt) (triple : Bool) (e : Nat) : (rejoined gs triple e).xfer = gs.xfer ∧ e ∉ (rejoined gs triple e).retired ∧
    if triple then e ∈ (rejoined gs triple e).members else (rejoined gs triple e).spare = some e := by
  have hout : e ∉ gs.retired.filter (· != e) := by simp
  cases triple with
  | true => exact ⟨rfl, hout, List.mem_append_right _ (List.mem_singleton.mpr rfl)⟩
  | false => exact ⟨rfl, hout, rfl⟩

/-! ## What each transfer leaves -/

section
variable {s : State} {k : Nat} {g : Group} (members : List Nat)

/-- No transfer touches an engine beyond the cycles it counted. -/
theorem transferEffect_eng (x : Xfer) (spare : Option Nat) : (transferEffect s k g members x spare).eng = s.eng := by
  cases x with
  | shadow =>
    cases spare with
    | none => rfl
    | some c =>
      show State.eng (match members.head? with
        | some m => copyState s g m c
        | none => s) = _
      cases members.head? with
      | none => rfl
      | some m => exact (copyState_frame _ _ _ _).2.1
  | restore =>
    cases spare with
    | none => rfl
    | some c => exact forEach_keeps (·.eng) members s _ fun t m => (copyState_frame t g c m).2.1
  | seed e => exact (joinGroup_frame _ k g e).2.1.trans (copyState_frame _ _ _ _).2.1

theorem getEng_transferEffect (x : Xfer) (spare : Option Nat) (m : Nat) : getEng (transferEffect s k g members x spare) m = getEng s m :=
  congrArg (cellGet engReset · m) (transferEffect_eng members x spare)

theorem getGroup_copyState (s : State) (g : Group) (src dst k : Nat) : getGroup (copyState s g src dst) k = getGroup s k := by
  rw [getGroup, (copyState_frame s g src dst).2.2, getGroup]

theorem restore_frame (c : Nat) : (forEach members s fun s m => copyState s g c m).regs = s.regs ∧
    getGroup (forEach members s fun s m => copyState s g c m) k = getGroup s k :=
  ⟨forEach_keeps (·.regs) members s _ fun t m => (copyState_frame t g c m).1,
    forEach_keeps (getGroup · k) members s _ fun t m => getGroup_copyState t g c m k⟩
end

/-- Each engine of the group has counted at most 1.0 µs of its region's clock. -/
theorem cycles_transferOver {s : State} {k : Nat} {g : Group} (hnodup : (g.members ++ g.spare.toList).Nodup) {m : Nat}
    (hm : m ∈ g.members ++ g.spare.toList) : (getEng s m).cycles ≤ (getEng (transferOver s k g) m).cycles ∧
      (getEng (transferOver s k g) m).cycles ≤ (getEng s m).cycles + engMHz s m := by
  have hcount := cycles_countCycles (Config.freeWord s.free).toNat hnodup (nextFree (setGroup s k { getGroup s k with xfer := none })) hm
  have hover : (getEng (transferOver s k g) m).cycles = (getEng s m).cycles + (Config.freeWord s.free).toNat % (engMHz s m + 1) := hcount
  have hlt : (Config.freeWord s.free).toNat % (engMHz s m + 1) < engMHz s m + 1 := Nat.mod_lt _ (Nat.succ_pos _)
  omega

/-! ## Trace lanes (R160) -/

theorem exec_traceDone {s : State} {e : Fin 256} (hstate : getF s (engTrstat e) engTrstat_State = 2) (hleft : (getLane s e).left = 0) :
    exec (.traceDone e) s = .next (setF s (engTrstat e) engTrstat_State 3) := congrArg Host.Outcome.next (if_pos ⟨hstate, hleft⟩)

/-- Settles O13: the transfer is over and counted first; then each kind of transfer copies state areas, and a seeding joins the group. -/
theorem stateTransfersAndTraceEnd : Obligations.StateTransfersAndTraceEnd := by
  unfold Obligations.StateTransfersAndTraceEnd
  refine ⟨fun s p id g hfind hfits => ?_, fun s e hstate hleft => ⟨_, exec_traceDone hstate hleft, ?_, ?_, rfl, rfl⟩⟩
  · obtain ⟨hmem, hregs, hgroup⟩ := transferOver_frame s (p.val * 256 + id.val) g
    have harea (d : Nat) := stateArea_of_mem hmem g d
    refine ⟨fun c m l hxfer hspare hmembers => ?_, fun c hxfer hspare => ?_, fun e hxfer hhealthy => ?_, fun hxfer hnodup => ?_⟩
    · refine ⟨_, exec_stateTransferDone hfind hxfer, ?_⟩
      rw [hspare, hmembers]
      obtain ⟨hr, -, -⟩ := copyState_frame (transferOver s (p.val * 256 + id.val) g) g m c
      refine ⟨((stateArea_copyState hfits _ m c c).trans (if_pos rfl)).trans (harea m), ?_, hr.trans hregs⟩
      exact congrArg GroupSt.xfer ((getGroup_copyState _ g m c _).trans hgroup)
    · refine ⟨_, exec_stateTransferDone hfind hxfer, ?_⟩
      rw [hspare]
      obtain ⟨hr, hg⟩ := restore_frame (s := transferOver s (p.val * 256 + id.val) g) (k := p.val * 256 + id.val) (g := g)
        (getGroup s (p.val * 256 + id.val)).members c
      exact ⟨fun m hm => ((stateArea_restore hfits c _ _ m).trans (if_pos hm)).trans (harea c), congrArg GroupSt.xfer (hg.trans hgroup), hr.trans hregs⟩
    · obtain ⟨hin, hne, hlow⟩ := lowestHealthy_spec hhealthy
      refine ⟨_, _, exec_stateTransferDone hfind hxfer, hin, hne, hlow, ?_⟩
      obtain ⟨hm, -, hg⟩ := joinGroup_frame (copyState (transferOver s (p.val * 256 + id.val) g) g
        (lowestHealthy (getGroup s (p.val * 256 + id.val)).members e) e) (p.val * 256 + id.val) g e
      rw [getGroup_copyState, hgroup] at hg
      obtain ⟨hx, hretired, hplace⟩ := rejoined_spec { getGroup s (p.val * 256 + id.val) with xfer := none } g.triple e
      rw [← hg] at hx hretired hplace
      exact ⟨((stateArea_of_mem hm g e).trans ((stateArea_copyState hfits _ _ e e).trans (if_pos rfl))).trans (harea _), hx, hretired, hplace⟩
    · obtain ⟨x, hx⟩ := Option.ne_none_iff_exists'.mp hxfer
      refine ⟨_, exec_stateTransferDone hfind hx, fun m hm => ?_⟩
      rw [getEng_transferEffect]
      exact cycles_transferOver hnodup hm
  · exact getF_setF_same _ _ _ _ (by decide)
  · exact fun a ha => getReg_setF_other s _ _ ha

end Sys2Proof.Proofs
end

section
/-! SUPPORT. Proofs. The end of a step: what it shows, the set-point latches that capture it, the taps and the signature it leaves
(R95, R97, R113, R115, R134). -/

namespace Sys2Proof.Proofs

open Sys2Proof.Machine Sys2Proof.Claims

/-! ## The parts of a step's end -/

/-- The engine once its step is over: it runs nothing, and ENG.STAT no longer shows BUSY. -/
def stepOver (s : State) (e : Nat) : State :=
  setB (setEng s e { getEng s e with running := none, stall := none, stepEnded := true }) (engStat e) engStat_Busy false

/-- The latches capture a step that is no migration segment (R134, R458). -/
def stepCaptured (s : State) (e : Nat) (r : Running) (late : Bool) : State :=
  if r.kind = 1 ∨ (migSteps s e).isNone then captureLatches s e r.idx late else s

/-- After the engine's last step of the tick its taps are taken (R113). -/
def stepTapped (s : State) (e : Nat) : State := if stepsOver s e then snapTaps s e else s

/-- After the last group step the engine signs its state area (R115). -/
def stepSigned (s : State) (e : Nat) (r : Running) : State :=
  match sigGroup s e with
  | some g =>
    if (r.kind = 1 ∨ (migSteps s e).isSome) ∧ groupStepLeft s e (r.idx + 1) = false ∧ g.len ≠ 0 then
      setEng s e { getEng s e with sig := some (signature s e g), cycles := (getEng s e).cycles + g.len + 8 }
    else s
  | none => s

theorem exec_segmentEnd {s : State} {e : Fin 256} {r : Running} (late : Bool) (hrun : (getEng s e).running = some r) (hgate : s.clk.gateC = false)
    (hhold : s.flt.hold = false) (hend : (getEng s e).atEnd = true ∨ ((fsAt s e r.seg).isSome = true ∧ migSteps s e = none)) :
    exec (.segmentEnd e late) s = .next (stepSigned (stepTapped (stepCaptured (stepOver s e) e r late) e) e r) := by
  have hopen : ¬((s.clk.gateC || s.flt.hold || (!(getEng s e).atEnd && ((migSteps s e).isSome || (fsAt s e r.seg).isNone))) = true) := by
    rcases hend with hatEnd | ⟨hplaced, hmig⟩
    · simp [hgate, hhold, hatEnd]
    · simp [hgate, hhold, hmig, Option.isNone_eq_false_iff.mpr hplaced]
  show execSegmentEnd e late s = _
  unfold execSegmentEnd
  dsimp only
  rw [hrun]
  exact congrArg Host.Outcome.next (if_neg hopen)

/-! ## What the captures leave alone -/

/-- What a capture of a latch keeps: memory, engines, step lists, and every register below the device's own. -/
structure CaptureKeeps (s t : State) (e : Nat) : Prop where
  mem : t.mem = s.mem
  eng : t.eng = s.eng
  steps : SameSteps s t e
  regs : ∀ a < 0x60000000, SameReg a s t

section
variable {s t u : State} {e : Nat}

theorem CaptureKeeps.refl : CaptureKeeps s s e := ⟨rfl, rfl, .refl, fun _ _ => rfl⟩

theorem CaptureKeeps.trans (h2 : CaptureKeeps t u e) (h1 : CaptureKeeps s t e) : CaptureKeeps s u e :=
  ⟨h2.mem.trans h1.mem, h2.eng.trans h1.eng, h2.steps.trans h1.steps, fun a ha => (h2.regs a ha).trans (h1.regs a ha)⟩

theorem captureKeeps_setLatch (s : State) (e k : Nat) (l : LatchSt) : CaptureKeeps s (setLatch s k l) e :=
  ⟨rfl, rfl, sameSteps_of_fields rfl rfl rfl rfl, fun _ _ => rfl⟩

theorem captureKeeps_notice (s : State) (e code : Nat) (l : List Word) : CaptureKeeps s (notice s code (resPol s (resEngine e)) l) e := by
  obtain ⟨⟨rg, rec, fr, heq⟩, hregs⟩ := notice_shape s code (resPol s (resEngine e)) l
  refine ⟨by rw [heq], by rw [heq], ⟨by rw [heq], by rw [heq], by rw [heq], hregs _ ?_⟩, fun a ha => hregs a ?_⟩
  · unfold tickMode poldEvdrop
    omega
  · unfold poldEvdrop
    omega

theorem getLatch_notice (s : State) (code scope : Nat) (l : List Word) (k : Nat) : getLatch (notice s code scope l) k = getLatch s k :=
  (congrArg (fun t => getLatch t k) (calm_notice s code scope l) :)

theorem SameSteps.latSource (h : SameSteps s t e) (d : DWord) (i : Nat) : latSource t d e i = latSource s d e i := by
  have hstep : latStep t d = latStep s d := by rw [latStep, h.clusterSteps, latStep]
  have hgroup : latGroup t d = latGroup s d := by rw [latGroup, hstep, h.groupOf, latGroup]
  rw [Machine.latSource, hstep, hgroup, h.groupOf, h.clusterSteps, Machine.latSource]
end

/-! ## One latch (R134) -/

/-- The entry `c` at the end of step `i` of engine `e`. -/
def captureOne (e i : Nat) (late : Bool) (s : State) (c : Nat × DWord) : State :=
  if latSource s c.2 e i then
    if late then
      if !(getLatch s c.1).late then
        notice (setLatch s c.1 { getLatch s c.1 with late := true }) 0x0350 (resPol s (resEngine e)) [pw (c.1 / 64), pw (c.1 % 64)]
      else s
    else setLatch s c.1 { getLatch s c.1 with caps := cellPut (getLatch s c.1).caps e (rdWord s (dmWord e (latSrcWord c.2))) }
  else s

theorem captureLatches_eq (s : State) (e i : Nat) (late : Bool) : captureLatches s e i late = forEach s.img.latches s (captureOne e i late) := rfl

section
variable (s : State) (e i : Nat) (late : Bool) (c : Nat × DWord)

theorem captureKeeps_captureOne : CaptureKeeps s (captureOne e i late s c) e := by
  unfold captureOne
  split
  · split
    · split
      · exact (captureKeeps_notice _ e _ _).trans (captureKeeps_setLatch s e c.1 _)
      · exact .refl
    · exact captureKeeps_setLatch s e c.1 _
  · exact .refl

theorem captureKeeps_captures (l : List (Nat × DWord)) : CaptureKeeps s (forEach l s (captureOne e i late)) e :=
  forEach_preserves (CaptureKeeps s · e) l s _ (fun t c ht => (captureKeeps_captureOne t e i late c).trans ht) .refl

theorem captureKeeps_stepCaptured (r : Running) : CaptureKeeps s (stepCaptured s e r late) e := by
  unfold stepCaptured
  split
  · exact captureKeeps_captures s e r.idx late _
  · exact .refl

theorem getLatch_captureOne_other {k : Nat} (hk : k ≠ c.1) : getLatch (captureOne e i late s c) k = getLatch s k := by
  unfold captureOne
  split
  · split
    · split
      · exact (getLatch_notice _ _ _ _ k).trans (getLatch_setLatch_other s _ hk)
      · rfl
    · exact getLatch_setLatch_other s _ hk
  · rfl
end

/-- The capture of a source step that has ended in time, and of one that was late. -/
theorem getLatch_captureOne {s : State} {e i : Nat} {c : Nat × DWord} (late : Bool) (hsrc : latSource s c.2 e i = true) :
    (late = false → cellFind (getLatch (captureOne e i late s c) c.1).caps e = some (rdWord s (dmWord e (latSrcWord c.2)))) ∧
      (late = true → (getLatch (captureOne e i late s c) c.1).late = true) := by
  cases late with
  | false =>
    refine ⟨fun _ => ?_, fun h => absurd h (by decide)⟩
    rw [captureOne, if_pos hsrc, if_neg (by decide), getLatch_setLatch_same]
    exact cellFind_put_same _ _ _
  | true =>
    refine ⟨fun h => absurd h (by decide), fun _ => ?_⟩
    rw [captureOne, if_pos hsrc, if_pos rfl]
    split
    · rw [getLatch_notice, getLatch_setLatch_same]
    · rename_i hlate
      simpa using hlate

/-- Each entry of the list captures by itself: no other entry has its key. -/
theorem getLatch_captures {s : State} {e i : Nat} {l : List (Nat × DWord)} (late : Bool) (hnodup : (l.map fun c => c.1).Nodup) {c : Nat × DWord}
    (hc : c ∈ l) (hsrc : latSource s c.2 e i = true) :
    (late = false → cellFind (getLatch (forEach l s (captureOne e i late)) c.1).caps e = some (rdWord s (dmWord e (latSrcWord c.2)))) ∧
      (late = true → (getLatch (forEach l s (captureOne e i late)) c.1).late = true) := by
  obtain ⟨l1, l2, rfl⟩ := List.append_of_mem hc
  have hsplit : forEach (l1 ++ c :: l2) s (captureOne e i late) =
    forEach l2 (captureOne e i late (forEach l1 s (captureOne e i late)) c) (captureOne e i late) := List.foldl_append
  have hafter : ∀ d ∈ l2, c.1 ≠ d.1 := by
    rw [List.map_append, List.map_cons] at hnodup
    obtain ⟨hnotin, -⟩ := List.nodup_cons.mp (List.nodup_append.mp hnodup).2.1
    exact fun d hd h => hnotin (List.mem_map.mpr ⟨d, hd, h.symm⟩)
  have hlast : getLatch (forEach (l1 ++ c :: l2) s (captureOne e i late)) c.1 =
      getLatch (captureOne e i late (forEach l1 s (captureOne e i late)) c) c.1 := by
    rw [hsplit]
    exact forEach_preserves_mem (fun t => getLatch t c.1 = getLatch (captureOne e i late (forEach l1 s (captureOne e i late)) c) c.1) l2 _ _
      (fun t d hd ht => (getLatch_captureOne_other t e i late d (hafter d hd)).trans ht) rfl
  have hbefore := captureKeeps_captures s e i late l1
  have hword (a : Nat) : rdWord (forEach l1 s (captureOne e i late)) a = rdWord s a := by simp only [rdWord, rdByte, hbefore.mem]
  rw [hlast, ← hword]
  exact getLatch_captureOne late ((hbefore.steps.latSource c.2 i).trans hsrc)

/-! ## The state in which the step is over -/

section
variable (s : State) (e : Nat)

theorem sameSteps_stepOver (he : e < 256) : SameSteps s (stepOver s e) e := by
  refine ⟨rfl, rfl, rfl, sameReg_setB (setEng s e _) _ _ ?_⟩
  unfold tickMode engStat
  omega

theorem getEng_stepOver : getEng (stepOver s e) e = { getEng s e with running := none, stall := none, stepEnded := true } :=
  getEng_setEng_same s e _

theorem busy_stepOver : getB (stepOver s e) (engStat e) engStat_Busy = false := getB_setB_same _ _ _ _ (by decide)

theorem sameReg_tap_stepOver (k : Nat) (hk : k < 4) : SameReg (engTap e k) s (stepOver s e) := by
  refine sameReg_setB (setEng s e _) _ _ ?_
  unfold engTap engStat
  omega
end

/-! ## Taps and signature -/

theorem tapWords_congr {s t : State} {e : Nat} (hmem : t.mem = s.mem) (htap : ∀ k < 4, SameReg (engTap e k) s t) : tapWords t e = tapWords s e := by
  refine List.map_congr_left fun k hk => ?_
  have hreg : getReg t (engTap e k) = getReg s (engTap e k) := htap k (List.mem_range.mp hk)
  have hword (a : Nat) : rdWord t a = rdWord s a := by simp only [rdWord, rdByte, hmem]
  have hfield (f : Fld) : getF t (engTap e k) f = getF s (engTap e k) f := by rw [getF, hreg, getF]
  have hen : getB t (engTap e k) engTap_En = getB s (engTap e k) engTap_En := by rw [getB, hfield, getB]
  rw [hen, hfield, hword]

theorem crcMem_congr {s t : State} (h : t.mem = s.mem) (n a c : Nat) : crcMem t a n c = crcMem s a n c := by
  induction n generalizing a c with
  | zero => rfl
  | succ n ih => rw [crcMem, crcMem, rdByte, h, ih, rdByte]

theorem signature_congr {s t : State} (h : t.mem = s.mem) (e : Nat) (g : Group) : signature t e g = signature s e g := by
  rw [signature, crcMem_congr h, signature]

section
variable (s : State) (e : Nat)

theorem stepTapped_frame : (stepTapped s e).mem = s.mem ∧ (stepTapped s e).regs = s.regs ∧ (stepTapped s e).latches = s.latches ∧
    SameSteps s (stepTapped s e) e ∧ (getEng (stepTapped s e) e).running = (getEng s e).running ∧
    (getEng (stepTapped s e) e).stall = (getEng s e).stall := by
  unfold stepTapped
  split
  · refine ⟨rfl, rfl, rfl, sameSteps_setEng s e _, ?_, ?_⟩ <;> rw [getEng_snapTaps]
  · exact ⟨rfl, rfl, rfl, .refl, rfl, rfl⟩

theorem stepSigned_frame (r : Running) : (stepSigned s e r).mem = s.mem ∧ (stepSigned s e r).regs = s.regs ∧ (stepSigned s e r).latches = s.latches ∧
    (getEng (stepSigned s e r) e).running = (getEng s e).running ∧ (getEng (stepSigned s e r) e).stall = (getEng s e).stall ∧
    (getEng (stepSigned s e r) e).tapSnap = (getEng s e).tapSnap := by
  unfold stepSigned
  split
  · split
    · refine ⟨rfl, rfl, rfl, ?_, ?_, ?_⟩ <;> rw [getEng_setEng_same]
    · exact ⟨rfl, rfl, rfl, rfl, rfl, rfl⟩
  · exact ⟨rfl, rfl, rfl, rfl, rfl, rfl⟩
end

theorem sig_stepSigned {s : State} {e : Nat} {r : Running} {g : Group} (hgroup : sigGroup s e = some g) (hkind : r.kind = 1 ∨ migSteps s e ≠ none)
    (hleft : groupStepLeft s e (r.idx + 1) = false) (hlen : g.len ≠ 0) : (getEng (stepSigned s e r) e).sig = some (signature s e g) := by
  rw [stepSigned, hgroup]
  dsimp only
  rw [if_pos ⟨hkind.imp_right Option.isSome_iff_ne_none.mpr, hleft, hlen⟩, getEng_setEng_same]

/-- Settles O11: the parts of the step's end one after the other; none changes memory or a step list, so each sees the state before it. -/
theorem segmentEndCapturesLatches : Obligations.SegmentEndCapturesLatches := by
  intro s e late r hrun hgate hhold hend
  have hover := sameSteps_stepOver s e e.isLt
  have hkeeps := captureKeeps_stepCaptured (stepOver s e) e late r
  have heng := getEng_stepOver s e
  have hcapEng : getEng (stepCaptured (stepOver s e) e r late) e = getEng (stepOver s e) e := by rw [getEng, hkeeps.eng, getEng]
  obtain ⟨htmem, htregs, htlat, htsteps, htrun, htstall⟩ := stepTapped_frame (stepCaptured (stepOver s e) e r late) e
  obtain ⟨hsmem, hsregs, hslat, hsrun, hsstall, hssnap⟩ := stepSigned_frame (stepTapped (stepCaptured (stepOver s e) e r late) e) e r
  have hsteps : SameSteps s (stepTapped (stepCaptured (stepOver s e) e r late) e) e := htsteps.trans (hkeeps.steps.trans hover)
  refine ⟨_, exec_segmentEnd late hrun hgate hhold hend, ?_, ?_, hsmem.trans (htmem.trans hkeeps.mem), ?_, fun hkind hnodup c hc hsrc => ?_,
    fun g hgroup hkind hleft hlen => ?_, fun hdue => ?_⟩
  · rw [hsrun, htrun, hcapEng, heng]
  · rw [hsstall, htstall, hcapEng, heng]
  · have hbusy : SameReg (engStat e) (stepOver s e) (stepSigned (stepTapped (stepCaptured (stepOver s e) e r late) e) e r) :=
      (SameReg.of_regs (hsregs.trans htregs)).trans (hkeeps.regs _ (by unfold engStat; omega))
    rw [getB, getF, hbusy]
    exact busy_stepOver s e
  · have hcaptured : stepCaptured (stepOver s e) e r late = forEach s.img.latches (stepOver s e) (captureOne e r.idx late) := by
      rw [stepCaptured, hover.migSteps, if_pos (hkind.imp_right fun h => by rw [h]; rfl), captureLatches_eq]
      rfl
    have hlatch : getLatch (stepSigned (stepTapped (stepCaptured (stepOver s e) e r late) e) e r) c.1 =
        getLatch (forEach s.img.latches (stepOver s e) (captureOne e r.idx late)) c.1 := by
      rw [getLatch, hslat, htlat, hcaptured, getLatch]
    rw [hlatch]
    exact getLatch_captures late hnodup hc ((hover.latSource c.2 r.idx).trans hsrc)
  · refine (sig_stepSigned (hsteps.sigGroup.trans hgroup) ?_ ((hsteps.groupStepLeft _).trans hleft) hlen).trans
      (congrArg some (signature_congr (s := s) (htmem.trans hkeeps.mem) e g))
    rw [hsteps.migSteps]
    exact hkind
  · have hlast : stepsOver (stepCaptured (stepOver s e) e r late) e = true := by
      refine stepsOver_of_none ?_ ?_
      · rw [hcapEng, heng]
      · rw [hcapEng, heng, (hkeeps.steps.trans hover).nextDue]
        exact hdue
    have htaps : tapWords (stepCaptured (stepOver s e) e r late) e = tapWords s e :=
      tapWords_congr hkeeps.mem fun k hk => (hkeeps.regs _ (by unfold engTap; omega)).trans (sameReg_tap_stepOver s e k hk)
    rw [hssnap, stepTapped, if_pos hlast, getEng_snapTaps, tapsTaken, htaps, hcapEng, heng]

end Sys2Proof.Proofs
end

section
/-! SUPPORT. Proofs. The end of a stalled access of an engine: its turn in the culvert (R414, R415), what it transfers, and the word that
waited for it (R85, R407). -/

namespace Sys2Proof.Proofs

open Sys2Proof.Machine Sys2Proof.Claims

/-! ## The turn in the culvert (R414, R415) -/

/-- The engine's stalled access still waits for its turn in the culvert. -/
def waitsAtCulvert (s : State) (e : Nat) : Bool := ((getEng s e).stall.map fun st => st.served.isNone && inCulvert st.addr) == some true

theorem stallServed_eq (s : State) (e : Nat) : stallServed s e =
    stallExecute (forEach (upto 128) s fun t _ => if waitsAtCulvert t e then wheelTurn t else t) (resPol s (resEngine e)) e := rfl

section
variable {s : State} {e p : Nat} {st : Stall}

theorem waitsAtCulvert_of_stall (hst : (getEng s e).stall = some st) : waitsAtCulvert s e = stallOpen st := by
  rw [waitsAtCulvert, hst, stallOpen, Bool.and_comm]
  show (some (st.served.isNone && inCulvert st.addr) == some true) = (st.served.isNone && inCulvert st.addr)
  cases st.served.isNone && inCulvert st.addr <;> rfl

/-- What waits for nothing at the culvert has nothing executed there. -/
theorem stallExecute_of_not_waits (h : waitsAtCulvert s e = false) : stallExecute s p e = s := by
  unfold stallExecute
  dsimp only
  cases hst : (getEng s e).stall with
  | none => rfl
  | some st =>
    rw [waitsAtCulvert_of_stall hst, stallOpen] at h
    exact if_pos (by rw [Bool.or_comm, ← Option.not_isNone, ← Bool.not_and, h]; rfl)

theorem stallServed_of_not_waits (h : waitsAtCulvert s e = false) : stallServed s e = s := by
  have hturns : forEach (upto 128) s (fun t _ => if waitsAtCulvert t e then wheelTurn t else t) = s :=
    forEach_preserves (fun t => t = s) _ _ _ (fun t _ ht => by rw [ht, if_neg (by rw [h]; decide)]) rfl
  rw [stallServed_eq, hturns]
  exact stallExecute_of_not_waits h
end

/-- The state after the culvert has executed the access of an engine: allowed or not, and what it has read or written. -/
def servedState (s : State) (e : Nat) (st : Stall) (ok : Bool) (c : Culv) : State :=
  setEng (if ok && !st.load then storeWords { s with culv := c } st.half st.addr st.data else { s with culv := c }) e
    { getEng s e with stall := some { st with
      served := some (ok, if ok && st.load then loadWords s st.half st.unsignedHalf st.pair st.addr else []) } }

theorem markUsed_shape (s : State) (n p : Nat) : ∃ c, markUsed s n p = { s with culv := c } := by
  unfold markUsed
  dsimp only
  split <;> exact ⟨_, rfl⟩

/-- The beat of the engine is the only one: the wheel comes to it or turns on. -/
theorem wheelTurn_of_lone {s : State} {p : Nat} {b : Beat} (hq : ∀ q, beatQueue s q = if q = p then [b] else []) :
    ∃ c, wheelTurn s = beatExecute { s with culv := c } p b ∨ (c.beats = s.culv.beats ∧ wheelTurn s = { s with culv := c }) := by
  unfold wheelTurn
  dsimp only
  split
  · exact ⟨{ s.culv with slot := (s.culv.slot + 1) % 64 }, .inr ⟨rfl, rfl⟩⟩
  · rename_i q hfind
    have hsome : (!(beatQueue s q).isEmpty) = true := List.find?_some (p := fun q => !(beatQueue s q).isEmpty) hfind
    have hqp : q = p := by
      by_contra hne
      rw [hq, if_neg hne] at hsome
      exact absurd hsome (by decide)
    have hbeat : beatQueue { s with culv := { s.culv with slot := (s.culv.slot + 1) % 64 } } q = [b] := (hq q).trans (if_pos hqp)
    rw [hbeat, hqp]
    exact ⟨_, .inl rfl⟩

section
variable {s : State} {e : Nat} {st : Stall} (hst : (getEng s e).stall = some st)
include hst

theorem stallExecute_of_open (hopen : stallOpen st = true) (p : Nat) (c : Culv) :
    ∃ c', stallExecute { s with culv := c } p e = servedState s e st (pageAllows s (culvPage st.addr) p (!st.load)) c' := by
  obtain ⟨hculv, hserved⟩ := Bool.and_eq_true_iff.mp hopen
  have hpending : ¬((st.served.isSome || !inCulvert st.addr) = true) := by
    rw [hculv, Option.isNone_iff_eq_none.mp hserved]
    decide
  obtain ⟨c', hc'⟩ := markUsed_shape { s with culv := c } (culvPage st.addr) p
  unfold stallExecute
  dsimp only
  rw [show (getEng { s with culv := c } e).stall = some st from hst]
  dsimp only
  rw [if_neg hpending, show pageAllows { s with culv := c } (culvPage st.addr) p (!st.load) = pageAllows s (culvPage st.addr) p (!st.load) from rfl,
    hc']
  cases pageAllows s (culvPage st.addr) p (!st.load) with
  | false => exact ⟨c, rfl⟩
  | true =>
    refine ⟨c', ?_⟩
    rw [if_neg (by decide)]
    cases hload : st.load with
    | true =>
      unfold servedState
      rw [hload]
      rfl
    | false =>
      obtain ⟨m, hm⟩ := memOnly_storeWords { s with culv := c' } st.half st.addr st.data
      unfold servedState
      rw [hload, hm]
      rfl

/-- An open access ends as the culvert executes it, whether the wheel came to its beat or not. -/
theorem stallServed_of_open (hopen : stallOpen st = true) (hq : ∀ q, beatQueue s q = if q = resPol s (resEngine e) then [.engine e] else []) :
    ∃ c, stallServed s e = servedState s e st (pageAllows s (culvPage st.addr) (resPol s (resEngine e)) (!st.load)) c := by
  have hdone (ok : Bool) (c : Culv) : waitsAtCulvert (servedState s e st ok c) e = false := by
    rw [waitsAtCulvert, servedState, getEng_setEng_same]
    rfl
  have hturns : (∃ c, c.beats = s.culv.beats ∧
        forEach (upto 128) s (fun t _ => if waitsAtCulvert t e then wheelTurn t else t) = { s with culv := c }) ∨
      ∃ c, forEach (upto 128) s (fun t _ => if waitsAtCulvert t e then wheelTurn t else t) =
        servedState s e st (pageAllows s (culvPage st.addr) (resPol s (resEngine e)) (!st.load)) c := by
    refine forEach_preserves (fun t => (∃ c, c.beats = s.culv.beats ∧ t = { s with culv := c }) ∨
      ∃ c, t = servedState s e st (pageAllows s (culvPage st.addr) (resPol s (resEngine e)) (!st.load)) c) _ s _ (fun t _ ht => ?_)
      (.inl ⟨s.culv, rfl, rfl⟩)
    rcases ht with ⟨c, hbeats, rfl⟩ | ⟨c, rfl⟩
    · have hwaits : waitsAtCulvert { s with culv := c } e = true :=
        (waitsAtCulvert_of_stall (s := { s with culv := c }) hst).trans hopen
      rw [if_pos hwaits]
      have hlone (q : Nat) : beatQueue { s with culv := c } q = if q = resPol s (resEngine e) then [.engine e] else [] := by
        rw [← hq, beatQueue, hbeats, beatQueue]
      obtain ⟨c', h | ⟨hb, h⟩⟩ := wheelTurn_of_lone (s := { s with culv := c }) hlone
      · obtain ⟨c'', hexec⟩ := stallExecute_of_open hst hopen (resPol s (resEngine e)) c'
        exact .inr ⟨c'', h.trans hexec⟩
      · exact .inl ⟨c', hb.trans hbeats, h⟩
    · exact .inr ⟨c, if_neg (by rw [hdone]; decide)⟩
  rw [stallServed_eq]
  rcases hturns with ⟨c, -, h⟩ | ⟨c, h⟩
  · rw [h]
    exact stallExecute_of_open hst hopen _ c
  · exact ⟨c, by rw [h, stallExecute_of_not_waits (hdone _ c)]⟩
end

/-! ## What a stalled access finds -/

/-- What the end of a stall goes by: the culvert's answer, or outside it what memory holds. -/
def stallAnswer (s : State) (e : Nat) (st : Stall) : Bool × List Word :=
  ((getEng s e).stall.bind fun st => st.served).getD (true, loadWords s st.half st.unsignedHalf st.pair st.addr)

theorem storeWords_mem_congr {s t : State} (h : t.mem = s.mem) (half : Bool) (a : Nat) (l : List Word) :
    (storeWords t half a l).mem = (storeWords s half a l).mem := by
  unfold storeWords
  split
  · simp only [wrHalf, wrByte, h]
  · exact wrWords_mem_congr l h a

/-- After the turn in the culvert the engine stands as before but for the answer, and the only memory changed is that of a store that the
culvert has executed. -/
structure StallServed (s u : State) (e : Nat) (st : Stall) (ok : Bool) : Prop where
  eng : ∃ r, getEng u e = { getEng s e with stall := some { st with served := r } }
  allowed : (stallAnswer u e st).1 = ok
  data : ok = true → st.load = true → (stallAnswer u e st).2 = stallData s st
  mem : u.mem = if stallOpen st && (ok && !st.load) then (storeWords s st.half st.addr st.data).mem else s.mem

section
variable {s : State} {e : Nat} {st : Stall} (hst : (getEng s e).stall = some st)
include hst

theorem stallServed_spec (hq : stallOpen st = true → ∀ q, beatQueue s q = if q = resPol s (resEngine e) then [.engine e] else []) :
    StallServed s (stallServed s e) e st (stallAllowed s (resPol s (resEngine e)) st) := by
  cases hopen : stallOpen st with
  | true =>
    obtain ⟨hculv, hserved⟩ := Bool.and_eq_true_iff.mp hopen
    have hnone := Option.isNone_iff_eq_none.mp hserved
    obtain ⟨c, hc⟩ := stallServed_of_open hst hopen (hq hopen)
    have hok : stallAllowed s (resPol s (resEngine e)) st = pageAllows s (culvPage st.addr) (resPol s (resEngine e)) (!st.load) := by
      rw [stallAllowed, hnone, hculv]
      rfl
    rw [← hok] at hc
    generalize stallAllowed s (resPol s (resEngine e)) st = ok at hc
    have hanswer : stallAnswer (stallServed s e) e st =
        (ok, if ok && st.load then loadWords s st.half st.unsignedHalf st.pair st.addr else []) := by
      rw [stallAnswer, hc, servedState, getEng_setEng_same]
      rfl
    refine ⟨⟨some (ok, if ok && st.load then loadWords s st.half st.unsignedHalf st.pair st.addr else []), ?_⟩, by rw [hanswer], fun h hload => ?_, ?_⟩
    · rw [hc, servedState, getEng_setEng_same]
    · rw [hanswer, h, hload, stallData, hnone]
      rfl
    · rw [hc, hopen, Bool.true_and]
      show (if (ok && !st.load) = true then storeWords { s with culv := c } st.half st.addr st.data else { s with culv := c }).mem = _
      split
      · exact storeWords_mem_congr (s := s) (t := { s with culv := c }) rfl _ _ _
      · rfl
  | false =>
    have hsame := stallServed_of_not_waits ((waitsAtCulvert_of_stall hst).trans hopen)
    rw [hsame]
    have hanswer : stallAnswer s e st = st.served.getD (true, loadWords s st.half st.unsignedHalf st.pair st.addr) := by
      rw [stallAnswer, hst]
      rfl
    refine ⟨⟨st.served, by rw [← hst]⟩, ?_, fun _ _ => ?_, by rw [hopen]; rfl⟩
    · rw [hanswer, stallAllowed]
      cases hserved : st.served with
      | none =>
        rw [stallOpen, hserved, show (none : Option (Bool × List Word)).isNone = true from rfl, Bool.and_true] at hopen
        rw [hopen]
        rfl
      | some r => rfl
    · rw [hanswer, stallData]
      cases st.served <;> rfl
end

/-! ## What the transfer leaves -/

/-- What a load of any words keeps of an engine. -/
theorem loadInto_keeps (x : Eng) (gr : Nat) (l : List Word) : (loadInto x gr l).nxt.a = x.nxt.a ∧ (loadInto x gr l).nxt.f = x.nxt.f ∧
    (loadInto x gr l).stall = x.stall ∧ (loadInto x gr l).fetchErr = x.fetchErr ∧ (loadInto x gr l).wordFlags = x.wordFlags ∧
    (loadInto x gr l).cycles = x.cycles := by
  match l with
  | [] => exact ⟨rfl, rfl, rfl, rfl, rfl, rfl⟩
  | [v] => simp [loadInto]
  | v :: w :: l => simp [loadInto]

theorem cellGet_loadPair (x : Eng) (gr : Nat) (pair : Bool) (v w : Word) (r : Nat) : cellGet 0 (loadInto x gr (loadPair pair v w)).nxt.g r =
    if pair = true ∧ r = gr + 1 then w else if r = gr ∧ gr ≠ 0 then v else cellGet 0 x.nxt.g r := by
  cases pair with
  | false => exact (cellGet_gprWrite x gr r v).trans (if_neg fun h => Bool.false_ne_true h.1).symm
  | true =>
    show cellGet 0 (gprWrite (gprWrite x gr v) (gr + 1) w).nxt.g r = _
    rw [cellGet_gprWrite, cellGet_gprWrite]
    exact if_congr ⟨fun h => ⟨rfl, h.1⟩, fun h => ⟨h.2, Nat.succ_ne_zero _⟩⟩ rfl rfl

theorem eq_loadPair {l : List Word} {pair : Bool} (h : l.length = if pair then 2 else 1) : l = loadPair pair (l.getD 0 0) (l.getD 1 0) := by
  cases pair with
  | false =>
    obtain ⟨v, rfl⟩ := List.length_eq_one_iff.mp h
    rfl
  | true =>
    obtain ⟨v, w, rfl⟩ := List.length_eq_two.mp h
    rfl

theorem length_loadPair (pair : Bool) (v w : Word) : (loadPair pair v w).length = if pair then 2 else 1 := by
  cases pair <;> rfl

/-- The engine once its stall of `n` cycles is over. -/
def stallRested (s : State) (e n : Nat) : Eng := { getEng s e with stall := none, cycles := (getEng s e).cycles + n }

/-- The engine that has taken the answer to its access. -/
def answerTaken (x : Eng) (st : Stall) (r : Bool × List Word) : Eng :=
  if st.load then loadInto (if r.1 then x else lRefused x) st.gr (if r.1 then r.2 else loadPair st.pair 0 0) else if r.1 then x else lRefused x

/-- The state in which the access has made its transfer. -/
def stallTransferred (s : State) (e n : Nat) (st : Stall) : State :=
  let r := stallAnswer s e st
  let x := stallRested s e n
  if !r.1 then setEng s e (if st.load then loadInto (lRefused x) st.gr (loadPair st.pair 0 0) else lRefused x)
  else if st.load then setEng s e (loadInto x st.gr r.2)
  else if inCulvert st.addr then setEng s e x
  else storeWords (setEng s e x) st.half st.addr st.data

theorem finishStall_eq (s : State) (e n : Nat) (st : Stall) : finishStall s e n st =
    if st.eow then endWord (stallTransferred (stallServed s e) e n st) e else stallTransferred (stallServed s e) e n st := rfl

section
variable (s : State) (e n : Nat) (st : Stall)

theorem getEng_stallTransferred : getEng (stallTransferred s e n st) e = answerTaken (stallRested s e n) st (stallAnswer s e st) := by
  unfold stallTransferred answerTaken
  dsimp only
  cases (stallAnswer s e st).1 with
  | false => exact getEng_setEng_same s e _
  | true =>
    cases st.load with
    | true => exact getEng_setEng_same s e _
    | false =>
      show getEng (if inCulvert st.addr then setEng s e (stallRested s e n) else storeWords (setEng s e (stallRested s e n)) st.half st.addr st.data) e =
        stallRested s e n
      split
      · exact getEng_setEng_same s e _
      · obtain ⟨m, hm⟩ := memOnly_storeWords (setEng s e (stallRested s e n)) st.half st.addr st.data
        rw [hm]
        exact getEng_setEng_same s e _

theorem mem_stallTransferred : (stallTransferred s e n st).mem =
    if (stallAnswer s e st).1 && !st.load && !inCulvert st.addr then (storeWords s st.half st.addr st.data).mem else s.mem := by
  unfold stallTransferred
  dsimp only
  cases (stallAnswer s e st).1 with
  | false => rfl
  | true =>
    cases st.load with
    | true => rfl
    | false =>
      cases inCulvert st.addr with
      | true => rfl
      | false => exact storeWords_mem_congr (s := s) (t := setEng s e (stallRested s e n)) rfl st.half st.addr st.data
end

/-- An answer that the page allows or forbids leaves accumulators, predicate flags and the count of cycles; one that it forbids notes LREF. -/
theorem answerTaken_spec (x : Eng) (st : Stall) (r : Bool × List Word) : (answerTaken x st r).nxt.a = x.nxt.a ∧ (answerTaken x st r).nxt.f = x.nxt.f ∧
    (answerTaken x st r).stall = x.stall ∧ (answerTaken x st r).fetchErr = x.fetchErr ∧ (answerTaken x st r).cycles = x.cycles ∧
    (r.1 = false → nbit (answerTaken x st r).wordFlags 5 = true) := by
  have hlref : nbit (x.wordFlags ||| esfLref) 5 = true := by
    rw [nbit_or]
    exact Bool.or_true _
  have hbase : (if r.1 then x else lRefused x).nxt.a = x.nxt.a ∧ (if r.1 then x else lRefused x).nxt.f = x.nxt.f ∧
      (if r.1 then x else lRefused x).stall = x.stall ∧ (if r.1 then x else lRefused x).fetchErr = x.fetchErr ∧
      (if r.1 then x else lRefused x).cycles = x.cycles ∧ (r.1 = false → nbit (if r.1 then x else lRefused x).wordFlags 5 = true) := by
    cases r.1 with
    | true => exact ⟨rfl, rfl, rfl, rfl, rfl, fun h => absurd h (by decide)⟩
    | false => exact ⟨rfl, rfl, rfl, rfl, rfl, fun _ => hlref⟩
  unfold answerTaken
  split
  · obtain ⟨ha, hf, hstall, herr, hflags, hcycles⟩ := loadInto_keeps (if r.1 then x else lRefused x) st.gr (if r.1 then r.2 else loadPair st.pair 0 0)
    rw [ha, hf, hstall, herr, hflags, hcycles]
    exact hbase
  · exact hbase

theorem cellGet_answerTaken_load {x : Eng} {st : Stall} {r : Bool × List Word} (hload : st.load = true)
    (hlen : r.1 = true → r.2.length = if st.pair then 2 else 1) (i : Nat) : cellGet 0 (answerTaken x st r).nxt.g i =
      if st.pair = true ∧ i = st.gr + 1 then (if r.1 then r.2.getD 1 0 else 0)
      else if i = st.gr ∧ st.gr ≠ 0 then (if r.1 then r.2.getD 0 0 else 0) else cellGet 0 x.nxt.g i := by
  rw [answerTaken, if_pos hload]
  cases hr : r.1 with
  | false => exact cellGet_loadPair (lRefused x) st.gr st.pair 0 0 i
  | true =>
    show cellGet 0 (loadInto x st.gr r.2).nxt.g i = _
    rw [eq_loadPair (hlen hr)]
    refine (cellGet_loadPair x st.gr st.pair _ _ i).trans ?_
    rw [← eq_loadPair (hlen hr)]
    rfl

theorem nxt_answerTaken_store {x : Eng} {st : Stall} (r : Bool × List Word) (hload : st.load = false) : (answerTaken x st r).nxt = x.nxt := by
  rw [answerTaken, if_neg (by rw [hload]; decide)]
  split <;> rfl

/-! ## The word that waited (R96) -/

section
variable (s : State) (e : Nat) (eow : Bool)

theorem wordEnd_spec : (if eow then endWord s e else s).mem = s.mem ∧ (getEng (if eow then endWord s e else s) e).nxt = (getEng s e).nxt ∧
    (getEng (if eow then endWord s e else s) e).stall = (getEng s e).stall ∧
    (getEng (if eow then endWord s e else s) e).cycles = (getEng s e).cycles + (if eow then 1 else 0) := by
  cases eow with
  | false => exact ⟨rfl, rfl, rfl, rfl⟩
  | true =>
    obtain ⟨hmem, -, -, hnxt, -, -⟩ := endWord_spec s e
    have hcore := core_endWord s e
    exact ⟨hmem, hnxt, (congrArg Eng.stall hcore :), (congrArg Eng.cycles hcore :)⟩

/-- A flag of the word under way is noted, and sticks where the word ends with it. -/
theorem wordEnd_notes {i : Nat} (hi : i < 32) (hflag : nbit (getEng s e).wordFlags i = true) :
    (eow = false → nbit (getEng (if eow then endWord s e else s) e).wordFlags i = true) ∧
      (eow = true → (getEng s e).fetchErr = none → nbit (getReg (if eow then endWord s e else s) (engEsf e)).toNat i = true) := by
  cases eow with
  | false => exact ⟨fun _ => hflag, fun h => absurd h (by decide)⟩
  | true =>
    obtain ⟨-, -, -, -, -, hesf⟩ := endWord_spec s e
    refine ⟨fun h => absurd h (by decide), fun _ herr => ?_⟩
    have hreg : getReg (if true = true then endWord s e else s) (engEsf e) = _ := hesf herr
    rw [hreg, nbit_toNat, BitVec.getLsbD_ofNat, decide_eq_true hi, ← nbit_eq_testBit, nbit_or, hflag]
    exact Bool.or_true _
end

/-! ## What a store leaves in memory -/

section
variable {s t : State} {half : Bool} {a : Nat}

theorem store_one {w : Word} (hmem : t.mem = (storeWords s half a [w]).mem) :
    if half then rdHalf t a = w.toNat % 65536 ∧ MemoryKept s t a (a + 2) else rdWord t a = w ∧ MemoryKept s t a (a + 4) := by
  have hbyte (i : Nat) : rdByte t i = rdByte (storeWords s half a [w]) i := by rw [rdByte, hmem, rdByte]
  cases half with
  | true =>
    have hstored (i : Nat) : rdByte t i = rdByte (wrHalf s a (w.toNat % 65536)) i := hbyte i
    refine ⟨?_, fun i hi => (hstored i).trans (rdByte_wrHalf_other s _ hi)⟩
    have hlow := rdByte_wrHalf s a w (i := 0) (by decide)
    have hhigh := rdByte_wrHalf s a w (i := 1) (by decide)
    rw [rdHalf, hstored, hstored, hhigh, show rdByte _ a = _ from hlow]
    simp only [wordByte, BitVec.toNat_ofNat]
    omega
  | false =>
    have hstored (i : Nat) : rdByte t i = rdByte (wrWord s a w) i := hbyte i
    refine ⟨?_, fun i hi => (hstored i).trans (rdByte_wrWord_other s w hi)⟩
    have hword : rdWord t a = rdWord (wrWord s a w) a := by simp only [rdWord, hstored]
    rw [hword, rdWord_wrWord_same]

theorem store_two {w v : Word} (hmem : t.mem = (storeWords s false a [w, v]).mem) :
    rdWord t a = w ∧ rdWord t (a + 4) = v ∧ MemoryKept s t a (a + 8) := by
  have hstored (i : Nat) : rdByte t i = rdByte (wrWords s a [w, v]) i := by rw [rdByte, hmem, rdByte]; rfl
  have hwords : rdWords t a 2 = [w, v] :=
    (rdWords_congr 2 fun i _ => hstored (a + i)).trans (rdWords_wrWords [w, v] s a)
  obtain ⟨hfirst, hrest⟩ := List.cons_eq_cons.mp hwords
  obtain ⟨hsecond, -⟩ := List.cons_eq_cons.mp hrest
  exact ⟨hfirst, hsecond, fun i hi => (hstored i).trans (rdByte_wrWords_other [w, v] s hi)⟩
end

/-! ## The end of a stall (R85) -/

section
variable {s : State} {e : Fin 256} {n : Nat} {st : Stall} (hst : (getEng s e).stall = some st)
include hst

theorem exec_lStallEnd : exec (.lStallEnd e n) s = .next (if s.flt.hold then s else finishStall s e n st) := by
  show execLStallEnd e n s = _
  rw [execLStallEnd, hst]
end

theorem length_stallData {s : State} {p : Nat} {st : Stall} (hp : st.half = false ∨ st.pair = false)
    (hserved : ∀ r, st.served = some r → r.1 = true → st.load = true → r.2.length = if st.pair then 2 else 1) (hload : st.load = true)
    (hok : stallAllowed s p st = true) : (stallData s st).length = if st.pair then 2 else 1 := by
  rw [stallData]
  rw [stallAllowed] at hok
  cases hcase : st.served with
  | none =>
    dsimp only
    rw [loadWords_eq s fun h => hp.resolve_left (by rw [h]; decide)]
    exact length_loadPair _ _ _
  | some r =>
    rw [hcase] at hok
    exact hserved r hcase hok hload

theorem stall_finishStall (s : State) (e n : Nat) (st : Stall) : (getEng (finishStall s e n st) e).stall = none := by
  obtain ⟨-, -, hstall, -⟩ := wordEnd_spec (stallTransferred (stallServed s e) e n st) e st.eow
  obtain ⟨-, -, hkept, -⟩ := answerTaken_spec (stallRested (stallServed s e) e n) st (stallAnswer (stallServed s e) e st)
  rw [finishStall_eq, hstall, getEng_stallTransferred, hkept]
  rfl

/-- A store takes place once: by the culvert, or at the end of the stall. -/
theorem mem_finishStall {s : State} {e n : Nat} {st : Stall} {ok : Bool} (hserved : StallServed s (stallServed s e) e st ok) :
    (finishStall s e n st).mem =
      if ok && (st.served.isNone || !inCulvert st.addr) && !st.load then (storeWords s st.half st.addr st.data).mem else s.mem := by
  obtain ⟨-, hallowed, -, hmem⟩ := hserved
  obtain ⟨hend, -⟩ := wordEnd_spec (stallTransferred (stallServed s e) e n st) e st.eow
  rw [finishStall_eq, hend, mem_stallTransferred, hallowed]
  rw [stallOpen] at hmem
  cases hculv : inCulvert st.addr with
  | true =>
    rw [hculv] at hmem
    rw [if_neg (by simp), hmem]
    cases st.served.isNone <;> cases ok <;> rfl
  | false =>
    rw [hculv] at hmem
    have hkept : (stallServed s e).mem = s.mem := hmem
    rw [storeWords_mem_congr hkept, hkept]
    simp only [Bool.not_false, Bool.or_true, Bool.and_true]

/-- Settles O9: the culvert answers an open access in its turn, the engine takes the answer, and the word ends if it waited. -/
theorem stalledAccessEnds : Obligations.StalledAccessEnds := by
  intro s e n st hst p ok got now
  refine ⟨⟨_, exec_lStallEnd hst, fun hhold => if_pos hhold, fun hhold => ?_⟩, fun hhold hp hq hdata => ⟨_, exec_lStallEnd hst, ?_⟩⟩
  · rw [if_neg (by rw [hhold]; decide)]
    exact stall_finishStall s e n st
  · rw [if_neg (by rw [hhold]; decide)]
    have hserved : StallServed s (stallServed s e) e st ok := stallServed_spec hst hq
    have hmem : (finishStall s e n st).mem = if ok && now && !st.load then (storeWords s st.half st.addr st.data).mem else s.mem :=
      mem_finishStall hserved
    obtain ⟨⟨answer, heng⟩, hallowed, hgot, -⟩ := hserved
    have hrested : stallRested (stallServed s e) e n = stallRested s e n := by rw [stallRested, heng, stallRested]
    have hengine := getEng_stallTransferred (stallServed s e) e n st
    rw [hrested] at hengine
    obtain ⟨-, hnxt, -, hcycles⟩ := wordEnd_spec (stallTransferred (stallServed s e) e n st) e st.eow
    obtain ⟨ha, hf, -, herr, hcount, hlref⟩ := answerTaken_spec (stallRested s e n) st (stallAnswer (stallServed s e) e st)
    rw [finishStall_eq] at hmem ⊢
    refine ⟨?_, fun x => ?_, ?_, fun hrefused => ?_, fun hload => ⟨?_, fun r => ?_⟩, fun hload => ⟨fun r => ?_, fun hskip => ?_, fun hnow w hw => ?_,
      fun hnow hhalf w v hwv => ?_⟩⟩
    · rw [hcycles, hengine, hcount]
      rfl
    · rw [outA, hnxt, hengine, ha]
      rfl
    · rw [outF, hnxt, hengine, hf]
      rfl
    · obtain ⟨hword, hsticks⟩ := wordEnd_notes (stallTransferred (stallServed s e) e n st) e st.eow (i := 5) (by decide)
        (by rw [hengine]; exact hlref (hallowed.trans hrefused))
      refine ⟨hword, fun heow hfetch => hsticks heow ?_⟩
      rw [hengine, herr]
      exact hfetch
    · rw [hmem, hload, Bool.not_true, Bool.and_false]
      rfl
    · have hlen (h : (stallAnswer (stallServed s e) e st).1 = true) :
          (stallAnswer (stallServed s e) e st).2.length = if st.pair then 2 else 1 := by
        rw [hgot (hallowed.symm.trans h) hload]
        exact length_stallData hp hdata hload (hallowed.symm.trans h)
      have hword (i : Nat) : (if ok = true then (stallAnswer (stallServed s e) e st).2.getD i 0 else 0) = if ok = true then got.getD i 0 else 0 :=
        if_ctx_congr Iff.rfl (fun hok => by rw [hgot hok hload]) fun _ => rfl
      rw [outG, hnxt, hengine, cellGet_answerTaken_load hload hlen, hallowed, hword, hword]
      rfl
    · rw [outG, hnxt, hengine, nxt_answerTaken_store _ hload]
      rfl
    · rw [hmem, hskip]
      rfl
    · refine store_one ?_
      rw [hmem, hnow, hload, hw]
      rfl
    · refine store_two ?_
      rw [hmem, hnow, hload, hwv, hhalf]
      rfl

end Sys2Proof.Proofs
end

section
/-! SUPPORT. Proofs. The grid function set where its output words reach into its own fixed block (R145, R167, R183). -/

namespace Sys2Proof.Proofs

open Sys2Proof.Machine Sys2Proof.Claims

/-! ## A command of a placed segment that runs on one engine -/

theorem fsEach_of_alone {s : State} {i id size : Nat} {f : FsAt} {outs : List Nat} (h : FsAlone s i id size f outs) (g : State → FsAt → State) :
    fsEach s i id g = g s f := by
  obtain ⟨hruns, hid, -, -⟩ := h
  unfold fsEach
  simp [hruns, hid, forEach]

/-- GFS_RECOVERY_CONFIRMED evaluates the table of R183 where row 8 or row 1 asks for it and no detection of the tick has. -/
theorem exec_gfsRecoveryConfirmed_of_alone {s : State} {i : Fin 256} {size : Nat} {f : FsAt} {outs : List Nat} (h : FsAlone s i 1 size f outs)
    (hret : gfsDip (gfsState s f) = true ∧ gfsRetFor s f 0xDC = true ∨ gfsState s f = 5 ∧ gfsCode s f = 0 ∧ gfsRetFor s f 0xE0 = true)
    (hopen : gfsOpen s f = true) : exec (.gfsRecoveryConfirmed i) s = .next (gfsTable s f) := by
  show Host.Outcome.next (fsEach s i 1 _) = _
  rw [fsEach_of_alone h, if_pos]
  simpa [hopen, and_assoc] using hret

/-! ## Output words that no alignment binds

The grid set on engine 3, in LOW, its return confirmed in this tick. ANGOUT (word 0x14 of the fixed block) is 0x1FFFF, the last byte of data
memory, and itself stands at the start of table bank 0, which follows data memory. The word θ that goes to ANGOUT therefore puts its upper three
bytes into the lower three of ANGOUT. -/

def spillSeg : FsAt :=
  { e := 3, idx := 0, lead := true,
    pl := { polder := 1, engine := 3, group := 255, segId := 1, seg := 5, live := 0x100, fixed := 0xFFEC, isol := true } }

/-- TS, ANGOUT, detection ticks, TRET and violation ticks; every other word is 0. -/
def spillFixed : List (Nat × Word) := [(0x00, 5000), (0x14, 0x1FFFF), (0x4C, 4), (0x64, 1), (0x68, 8)]

/-- One tick within the band, θ, the state LOW. The upper three bytes of θ are 0x24C, four bytes before the word of the state. -/
def spillLive : List (Nat × Word) := [(0xDC, 1), (0x13C, 0x24C00), (0x150, 1)]

def spillPlaced : State := { State.reset with img := { imgReset with insts := [spillSeg.pl] } }

def spillBound : State := spillFixed.foldl (fun s c => wrWord s (bankWord 3 0 0 + (0xFFEC + c.1) % 0x10000) c.2) spillPlaced

def spillState : State := spillLive.foldl (fun s c => lvSet s spillSeg c.1 c.2) spillBound

theorem fsAlone_spill : FsAlone spillState 0 1 0x200 spillSeg
    [fxN spillState spillSeg 0x10, fxN spillState spillSeg 0x10 + 4, fxN spillState spillSeg 0x10 + 8, fxN spillState spillSeg 0x14,
      fxN spillState spillSeg 0x14 + 4, fxN spillState spillSeg 0x18] := by
  unfold FsAlone
  decide +kernel

/-- Row 8 of R183 holds, so the entry writes RECOVER into the word of the state; then the second word of ANGOUT, 0 without a lock, clears it. -/
theorem gfsState_gfsTable_spill : gfsState (gfsTable spillState spillSeg) spillSeg = 0 := by decide +kernel

/-- Refutes O57. `FsAlone` keeps the output words, at the addresses that the fixed block holds before the command, apart from the live block;
it does not ask that they are aligned, as the loader does (R145). A word written at the last byte of data memory spills into the table bank
where the fixed block stands and changes the address of the next output, which then falls on the live block: the confirmed return leads LOW
to the state word 0, not to RECOVER. -/
theorem not_gridAndIslandingSets : ¬ Obligations.GridAndIslandingSets := by
  unfold Obligations.GridAndIslandingSets
  intro h
  obtain ⟨hgrid, -⟩ := h
  obtain ⟨hrows, -⟩ := hgrid spillState 0 spillSeg fsAlone_spill
  obtain ⟨-, -, -, -, -, hconfirmed, -⟩ := hrows (by decide +kernel)
  obtain ⟨t, ht, hstate, -⟩ := hconfirmed (by decide +kernel) (by decide +kernel) (by decide +kernel) (by decide +kernel) (by decide +kernel)
    (by decide +kernel) (by decide +kernel) (by decide +kernel)
  have hexec : exec (.gfsRecoveryConfirmed 0) spillState = .next (gfsTable spillState spillSeg) :=
    exec_gfsRecoveryConfirmed_of_alone (i := 0) fsAlone_spill (.inl (by decide +kernel)) (by decide +kernel)
  obtain rfl : gfsTable spillState spillSeg = t := Host.Outcome.next.inj (hexec.symm.trans ht)
  exact absurd (gfsState_gfsTable_spill.symm.trans hstate) (by decide)

end Sys2Proof.Proofs
end

section
/-! SUPPORT. Proofs. A third double event of an encoder whose owner in the resource map is no polder (R251, R252): what the model counts for a
dropped fault of such an owner falls upon the encoder's own count. -/

namespace Sys2Proof.Proofs

open Sys2Proof.Machine Sys2Proof.Claims

/-! ## The state -/

/-- An owner number that is no polder's: its POLD.EVDROP stands where ENC.COUNT of encoder 0 does. -/
def strayEncOwner : Nat := (encCount 0 - poldEvdrop 0) / 4

/-- Encoder 0 is enabled, and two double events were in this tick. It belongs to the stray owner, which has had its 64 events of the tick and
holds the capture of an earlier fault. -/
def strayEncState : State :=
  { setEnc (setB (setB State.reset (encCtl 0) encCtl_En true) (fltCapa strayEncOwner) fltCapa_Valid true) 0 { encReset with recent := [0, 0] } with
    img := { imgReset with resmap := [(resEnc 0, strayEncOwner)] }
    recorder := { recReset with scanning := false, placed := [(strayEncOwner, 64)] } }

theorem encCount_strayEncState : getReg strayEncState (encCount 0) = 0 := by decide

/-! ## The third double event -/

/-- The ticks of the double events within 64 ticks, the present one the last (R252). -/
def encRecent (s : State) (n : Nat) : List Nat :=
  ((getEnc s n).recent.filter fun t => decide (s.tick.count.toNat < t + 64)) ++ [s.tick.count.toNat]

/-- What an accepted double event makes of an enabled encoder (R251), before DEGR. -/
def encDoubled (s : State) (n : Nat) : State :=
  let x := getEnc s n
  let t := setEnc s n { x with lineA := !x.lineA, lineB := !x.lineB, doubles := x.doubles + 1, recent := encRecent s n }
  countF (setB t (encStat n) encStat_Double true) (encDblcnt n) encDblcnt_Count 1

/-- The encoder after its third double event within 64 ticks (R252): DEGR and the fault. -/
def encDegraded (s : State) (n : Nat) : State :=
  let t := encDoubled s n
  event (setB t (encStat n) encStat_Degr true) 0x0C02 1 (encPol t n) [pw n, pw (getF t (encDblcnt n) encDblcnt_Count)]

theorem exec_encDoubleEvent_third {s : State} {n : Fin 4} {samples : BitVec 8} (hfilt : getF s (encCtl n) encCtl_Filt ≤ samples.toNat)
    (hon : getB s (encCtl n) encCtl_En = true) (hthird : 3 ≤ (encRecent s n).length)
    (hdegr : getB (encDoubled s n) (encStat n) encStat_Degr = false) : exec (.encDoubleEvent n samples) s = .next (encDegraded s n) := by
  have hfault : 3 ≤ (encRecent s n).length ∧ (!getB (encDoubled s n) (encStat n) encStat_Degr) = true := ⟨hthird, by rw [hdegr]; rfl⟩
  show execEncDoubleEvent n samples s = _
  unfold execEncDoubleEvent
  rw [if_neg (by simp [encAccepts, hfilt]), if_neg (by simp [encOn, hon])]
  exact congrArg Host.Outcome.next (if_pos hfault)

theorem exec_encDoubleEvent_stray : exec (.encDoubleEvent 0 255) strayEncState = .next (encDegraded strayEncState 0) :=
  exec_encDoubleEvent_third (n := 0) (by decide) (by decide) (by decide) (by decide)

/-- The fault finds its owner's share of the tick full, and the drop is counted in ENC.COUNT. -/
theorem encCount_encDegraded_stray : getReg (encDegraded strayEncState 0) (encCount 0) = 1 := by decide +kernel

/-- Refutes O20. The resource map's owners have no bound in the model's states, and a dropped event is counted in POLD.EVDROP of its
scope whatever number that is. The third double event within 64 ticks raises the fault 0x0C02 for an owner whose counter would stand where ENC.COUNT
of the encoder does: the double event counts by one. -/
theorem not_encoderCountsAndChecks : ¬ Obligations.EncoderCountsAndChecks := by
  unfold Obligations.EncoderCountsAndChecks
  intro h
  obtain ⟨-, haccepted, -⟩ := h strayEncState 0 255 (by decide)
  obtain ⟨-, -, hdouble, -⟩ := haccepted (by decide)
  obtain ⟨t, ht, -, hcount, -⟩ := hdouble
  obtain rfl := Host.Outcome.next.inj (exec_encDoubleEvent_stray.symm.trans ht)
  exact absurd (encCount_encDegraded_stray.symm.trans (hcount.trans encCount_strayEncState)) (by decide)

end Sys2Proof.Proofs
end

section
/-! SUPPORT. Proofs. The tracking function set where its output words reach into its own fixed block (R145, R232, R239). -/

namespace Sys2Proof.Proofs

open Sys2Proof.Machine Sys2Proof.Claims

/-! ## A sweep request -/

/-- TFS_SWEEP_REQUEST asks for the sweep of an enabled string that is past its first request, does not sweep, and is due. -/
theorem exec_tfsSweepRequest_of_alone {s : State} {i : Fin 256} {k : Fin 32} {size : Nat} {f : FsAt} {outs : List Nat} (h : FsAlone s i 3 size f outs)
    (hpv : fxN s f 0 = 0) (hk : k.val < pvN s f) (hon : pvOn s f k = true) (hidle : pvSweeping s f k = false)
    (hswept : lvBit s f (pvFlag k) 3 = false) (hdue : lvN s f 0x48 * 100000000 ≤ lvN s f (pvRec k + 40) * fxN s f 0x04) :
    exec (.tfsSweepRequest i k) s = .next (pvOut (pvRequest (lvBitSet s f (pvFlag k) 3 false) f k (lvL s f 0xF18)) f) := by
  show Host.Outcome.next (fsEach s i 3 _) = _
  rw [fsEach_of_alone h, if_pos]
  simp [hpv, hk, hon, hidle, hswept, hdue]

/-! ## References that no alignment binds

The tracking set on engine 3 with two strings, a request of the first due. Its references go to 0x1FFFF, the last byte of data memory, and the word
behind it (word 0x14 of the fixed block); that word of the fixed block itself stands at the start of table bank 0, which follows data memory. The first
reference therefore puts its upper three bytes into the lower three of the address at which the second is written. -/

def spillPvSeg : FsAt := { spillSeg with pl := { spillSeg.pl with segId := 3 } }

/-- NSTR and the address of the references; every other word, the kind of set among them, is 0. -/
def spillPvFixed : List (Nat × Word) := [(0x08, 2), (0x14, 0x1FFFF)]

/-- Both strings are enabled. The upper three bytes of VREF of string 0 are 0x10C4, four bytes before the word of the pending requests. -/
def spillPvLive : List (Nat × Word) := [(0x44, 3), (pvRec 0 + 60, 0x10C400)]

def spillPvPlaced : State := { State.reset with img := { imgReset with insts := [spillPvSeg.pl] } }

def spillPvBound : State := spillPvFixed.foldl (fun s c => wrWord s (bankWord 3 0 0 + (0xFFEC + c.1) % 0x10000) c.2) spillPvPlaced

def spillPvState : State := spillPvLive.foldl (fun s c => lvSet s spillPvSeg c.1 c.2) spillPvBound

/-- The state after the request of string 0, its outputs written. -/
def spillPvAsked : State :=
  pvOut (pvRequest (lvBitSet spillPvState spillPvSeg (pvFlag 0) 3 false) spillPvSeg 0 (lvL spillPvState spillPvSeg 0xF18)) spillPvSeg

theorem fxN_spillPv : fxN spillPvState spillPvSeg 0 = 0 := by decide +kernel

theorem fsAlone_spillPv : FsAlone spillPvState 0 3 0x1000 spillPvSeg ((upto 32).map fun k => fxN spillPvState spillPvSeg 0x14 + 4 * k) := by
  unfold FsAlone
  decide +kernel

/-- String 0 is enabled and idle, past its first request, and SWINT is 0. -/
theorem due_spillPv : 0 < pvN spillPvState spillPvSeg ∧ pvOn spillPvState spillPvSeg 0 = true ∧ pvSweeping spillPvState spillPvSeg 0 = false ∧
    lvBit spillPvState spillPvSeg (pvFlag 0) 3 = false ∧
    lvN spillPvState spillPvSeg 0x48 * 100000000 ≤ lvN spillPvState spillPvSeg (pvRec 0 + 40) * fxN spillPvState spillPvSeg 0x04 := by
  decide +kernel

/-- The request is pending until VREF of string 1, 0, is written over the word of the pending requests. -/
theorem pending_spillPvAsked : lvBit spillPvAsked spillPvSeg 0x88 0 = false := by decide +kernel

/-- Refutes O58. `FsAlone` keeps the output words, at the addresses that the fixed block holds before the command, apart from the live block; it does not
ask that they are aligned, as the loader does (R145). The reference of string 0, written at the last byte of data memory, spills into the table bank where
the fixed block stands and changes the address of the next reference, which then falls on the word of the pending requests: string 0 is due, and does not
wait for its sweep. -/
theorem not_trackingAndMachineSets : ¬ Obligations.TrackingAndMachineSets := by
  unfold Obligations.TrackingAndMachineSets
  intro h
  obtain ⟨htracking, -⟩ := h
  obtain ⟨hpv, -⟩ := htracking spillPvState 0 spillPvSeg (by rw [if_pos fxN_spillPv]; exact fsAlone_spillPv)
  obtain ⟨-, hstrings⟩ := hpv fxN_spillPv
  obtain ⟨hk, hon, hidle, hswept, hdue⟩ := due_spillPv
  obtain ⟨hrequest, -⟩ := hstrings 0 hk
  obtain ⟨t, ht, hpending⟩ := hrequest hon hidle hswept hdue
  have hexec : exec (.tfsSweepRequest 0 0) spillPvState = .next spillPvAsked :=
    exec_tfsSweepRequest_of_alone (i := 0) (k := 0) fsAlone_spillPv fxN_spillPv hk hon hidle hswept hdue
  obtain rfl : spillPvAsked = t := Host.Outcome.next.inj (hexec.symm.trans ht)
  exact absurd (pending_spillPvAsked.symm.trans hpending) (by decide)

end Sys2Proof.Proofs
end

section
/-! SUPPORT. Proofs. A carrier's peak with a pair whose owner in the resource map is no polder (R284, R300): what the model counts for the dropped notice of
a clamped compare falls upon another pair's control word. -/

namespace Sys2Proof.Proofs

open Sys2Proof.Machine Sys2Proof.Claims

/-! ## The state -/

/-- An owner number that is no polder's: its POLD.EVDROP stands where PWM.PCTL of pair 1 does. -/
def strayPairOwner : Nat := (pwmPctl 1 - poldEvdrop 0) / 4

/-- Carrier 1 runs as TRI. Pairs 0 and 1 follow it with LOADAT 0b01: pair 0 with a raw compare above P16, pair 1 with a duty of 100 % and TRIPST and CTMODE all
ones. Pair 0 belongs to the stray owner, which has had its 64 events of the tick. -/
def strayCarState : State :=
  { setPair (setPair State.reset 0 { pairReset with pendA := 0x0FFFFFFF }) 1 { pairReset with pendA := 0x7FFF0000 } with
    regs := [(pwmCarstat 1, 0x80000000), (pwmPctl 0, 0x108), (pwmPctl 1, 0x12F)]
    img := { imgReset with resmap := [(resPair 0, strayPairOwner)] }
    recorder := { recReset with scanning := false, placed := [(strayPairOwner, 64)] } }

theorem carrier_strayCarState : carRuns strayCarState 1 = true ∧ fget (getCar strayCarState 1).ctl pwmCarctl_Shape = 2 ∧
    pairCar strayCarState 1 = 1 ∧ getF strayCarState (pwmPctl 1) pwmPctl_Loadat = 1 := by decide

/-! ## The peak -/

/-- The peak of a TRI carrier: its elapsed steps, then each of its pairs (R277, R280, R284). -/
def carPeak (s : State) (k : Nat) : State :=
  forEach (carPairs (setCar s k { getCar s k with e := (p16 s k + 1) / 2 }) k) (setCar s k { getCar s k with e := (p16 s k + 1) / 2 }) fun s p =>
    pairEvent (setRefs (if getF s (pwmPctl p) pwmPctl_Loadat = 1 then activateCompares s p else s) p).1 p false

theorem exec_carrierPeak_of_tri {s : State} {k : Fin 32} (hruns : carRuns s k = true) (htri : fget (getCar s k).ctl pwmCarctl_Shape = 2) :
    exec (.carrierPeak k) s = .next (carPeak s k) := by
  show execCarrierPeak k s = _
  unfold execCarrierPeak
  rw [if_pos (by rw [hruns, htri]; rfl)]
  rfl

/-- Pair 1 keeps its active compare 0, where its duty of 100 % is the whole period. -/
theorem pair_carPeak_stray : (getPair (carPeak strayCarState 1) 1).actA = 0 ∧
    (compareSteps (getB (carPeak strayCarState 1) (pwmPctl 1) pwmPctl_Fmt) (p16 (carPeak strayCarState 1) 1) (getPair strayCarState 1).pendA).1 = 960000 := by
  decide +kernel

/-- Refutes O14. The resource map's owners have no bound in the model's states, and a dropped notice is counted in POLD.EVDROP of its scope
whatever number that is. At the peak the raw compare of pair 0 is clamped, and the notice (0x0A04) goes to an owner whose counter would stand where
PWM.PCTL of pair 1 does: the count carries into LOADAT of that pair, which was 0b01 and becomes 0b10, before the pair's turn, so that its pending compares do
not become active. -/
theorem not_carrierEventsLoadCompares : ¬ Obligations.CarrierEventsLoadCompares := by
  unfold Obligations.CarrierEventsLoadCompares
  intro h
  obtain ⟨hruns, htri, hfollows, hloadat⟩ := carrier_strayCarState
  obtain ⟨-, hpeak⟩ := h strayCarState 1 hruns
  obtain ⟨t, ht, -, -, hload⟩ := hpeak htri
  obtain rfl : carPeak strayCarState 1 = t := Host.Outcome.next.inj ((exec_carrierPeak_of_tri (k := 1) hruns htri).symm.trans ht)
  obtain ⟨hactive, -⟩ := hload 1 (by decide) hfollows hloadat
  obtain ⟨hzero, hwhole⟩ := pair_carPeak_stray
  exact absurd (hzero.symm.trans (hactive.trans hwhole)) (by decide)

end Sys2Proof.Proofs
end

section
/-! SUPPORT. Proofs. Pairs at compare edges, at the end of a dead time and at trip inputs (R277, R283–R289, R300): what brings a pair to its rank changes
that pair alone, and no reference level. -/

namespace Sys2Proof.Proofs

open Sys2Proof.Machine Sys2Proof.Claims

/-! ## An effect on one pair that records nothing -/

/-- Only PSTAT and the inner state of pair `p` change. Unlike `PairOnly`, which an effect with a notice meets, it asks nothing of the pair's owner. -/
structure PairStep (s t : State) (p : Nat) : Prop where
  shape : ∃ rg ps, t = { s with regs := rg, pairs := ps }
  other : ∀ r, r ≠ p → getPair t r = getPair s r
  regs : ∀ b, b ≠ pwmPstat p → getReg t b = getReg s b

section
variable {s t u : State} {p : Nat}

theorem PairStep.trans (h2 : PairStep t u p) (h1 : PairStep s t p) : PairStep s u p := by
  obtain ⟨⟨_, _, rfl⟩, hother1, hregs1⟩ := h1
  obtain ⟨⟨_, _, rfl⟩, hother2, hregs2⟩ := h2
  exact ⟨⟨_, _, rfl⟩, fun r hr => (hother2 r hr).trans (hother1 r hr), fun b hb => (hregs2 b hb).trans (hregs1 b hb)⟩

theorem PairStep.mem (h : PairStep s t p) : t.mem = s.mem := by
  obtain ⟨⟨_, _, rfl⟩, -⟩ := h
  rfl

theorem PairStep.recorder (h : PairStep s t p) : t.recorder = s.recorder := by
  obtain ⟨⟨_, _, rfl⟩, -⟩ := h
  rfl

theorem PairStep.getF (h : PairStep s t p) {b : Nat} (hb : b ≠ pwmPstat p) (f : Fld) : getF t b f = getF s b f := by
  rw [Machine.getF, h.regs b hb, Machine.getF]

theorem PairStep.getB (h : PairStep s t p) {b : Nat} (hb : b ≠ pwmPstat p) (f : Fld) : getB t b f = getB s b f := by
  rw [Machine.getB, h.getF hb, Machine.getB]

theorem pairStep_setB (s : State) (p : Nat) (f : Fld) (b : Bool) : PairStep s (setB s (pwmPstat p) f b) p :=
  ⟨⟨_, _, rfl⟩, fun _ _ => rfl, fun _ hb => getReg_setB_other s f b hb⟩

theorem pairStep_setPair (s : State) (p : Nat) (q : Pair) : PairStep s (setPair s p q) p :=
  ⟨⟨_, _, rfl⟩, fun _ hr => getPair_setPair_other s q hr, fun _ _ => rfl⟩

theorem pairStep_driveOutputs (s : State) (p : Nat) (a b : Bool) : PairStep s (driveOutputs s p a b) p :=
  (pairStep_setB _ p _ _).trans ((pairStep_setB _ p _ _).trans (pairStep_setPair s p _))

theorem pairStep_pairRefresh (s : State) (p : Nat) (start : Bool) : PairStep s (pairRefresh s p start) p := by
  unfold pairRefresh
  dsimp only
  split
  · exact (pairStep_driveOutputs _ p _ _).trans (pairStep_setPair s p _)
  · split
    · exact (pairStep_driveOutputs _ p _ _).trans (pairStep_setPair s p _)
    · exact pairStep_setPair s p _

theorem pairStep_pairTrip (s : State) (p : Nat) (cause : Fld) : PairStep s (pairTrip s p cause) p :=
  (pairStep_pairRefresh _ p false).trans ((pairStep_setB _ p _ _).trans (pairStep_setB s p _ _))
end

/-! ## What lasts in a pair -/

/-- The reference levels of a pair, and a PIN cause that only the owner clears. -/
def lasting (q : Pair) : Bool × Bool × Bool := (q.refA, q.refB, q.pinHeld)

section
variable (s : State) (p r : Nat)

theorem lasting_setPair {q : Pair} (h : lasting q = lasting (getPair s p)) : lasting (getPair (setPair s p q) r) = lasting (getPair s r) := by
  by_cases hr : r = p
  · rw [hr, getPair_setPair_same, h]
  · rw [getPair_setPair_other s q hr]

theorem lasting_driveOutputs (a b : Bool) : lasting (getPair (driveOutputs s p a b) r) = lasting (getPair s r) :=
  lasting_setPair s p r rfl

theorem lasting_pairRefresh (start : Bool) : lasting (getPair (pairRefresh s p start) r) = lasting (getPair s r) := by
  unfold pairRefresh
  dsimp only
  split
  · exact (lasting_driveOutputs _ p r _ _).trans (lasting_setPair s p r rfl)
  · split
    · exact (lasting_driveOutputs _ p r _ _).trans (lasting_setPair s p r rfl)
    · exact lasting_setPair s p r rfl

theorem getPair_notice (code scope : Nat) (l : List Word) : getPair (notice s code scope l) r = getPair s r := by
  obtain ⟨⟨_, _, _, h⟩, -⟩ := notice_shape s code scope l
  rw [h]
  rfl

theorem lasting_applyForce : lasting (getPair (applyForce s p) r) = lasting (getPair s r) := by
  have hset (m : Nat) (b : Bool) :
      lasting (getPair (setB (setPair s p { getPair s p with forceWait := false, force := m }) (pwmPstat p) pwmPstat_Fact b) r) =
        lasting (getPair s r) := lasting_setPair s p r rfl
  unfold applyForce
  dsimp only
  split
  · split
    · exact hset _ _
    · rw [getPair_notice]
      exact hset _ _
  · rfl

theorem lasting_pairEvent (start : Bool) : lasting (getPair (pairEvent s p start) r) = lasting (getPair s r) := by
  unfold pairEvent
  dsimp only
  rw [lasting_pairRefresh, lasting_applyForce]
  split
  · exact lasting_setPair s p r rfl
  · rfl

/-- A carrier event leaves every pair's reference levels. -/
theorem lasting_carrierEvent (k : Nat) (start : Bool) : lasting (getPair (carrierEvent s k start) r) = lasting (getPair s r) :=
  forEach_keeps (fun t => lasting (getPair t r)) _ s _ fun t x => lasting_pairEvent t x r start

theorem calm_applyForce : calm (applyForce s p) = calm s := by
  unfold applyForce
  dsimp only
  split
  · split
    · rfl
    · rw [calm_notice]
      rfl
  · rfl

theorem calm_pairEvent (start : Bool) : calm (pairEvent s p start) = calm s := by
  unfold pairEvent
  dsimp only
  rw [calm_pairRefresh, calm_applyForce]
  split <;> rfl

theorem calm_carrierEvent (k : Nat) (start : Bool) : calm (carrierEvent s k start) = calm s :=
  calm_forEach _ s _ fun t x => calm_pairEvent t x start
end

/-! ## COMPARE_EDGE (R277, R283–R285) -/

section
variable (s : State) (p : Nat)

/-- The carrier of pair `p` at elapsed step `e` of its period. -/
def carAt (e : Nat) : State :=
  setCar s (pairCar s p) { getCar s (pairCar s p) with e := e % max 1 (p16 s (pairCar s p)) }

/-- A compare edge: the pair's reference levels, and a carrier event where one of them changes. -/
def compareEdge (e : Nat) : State :=
  if (setRefs (carAt s p e) p).2 then carrierEvent (setRefs (carAt s p e) p).1 (pairCar s p) false else (setRefs (carAt s p e) p).1

theorem exec_compareEdge {s : State} {p : Fin 48} (e : Nat) (h : carRuns s (pairCar s p) = true) :
    exec (.compareEdge p e) s = .next (compareEdge s p e) := by
  show execCompareEdge p e s = _
  unfold execCompareEdge
  dsimp only
  rw [if_pos h]
  rfl

/-- The reference levels of a pair against its active compares (R284, R285). -/
theorem refLevels_eq (e : Nat) :
    refLevels s p e =
      (decide (carrierValue (fget (getCar s (pairCar s p)).ctl pwmCarctl_Shape) (p16 s (pairCar s p)) e < (getPair s p).actA),
       if getF s (pwmPctl p) pwmPctl_Mode = 2 then
         decide (carrierValue (fget (getCar s (pairCar s p)).ctl pwmCarctl_Shape) (p16 s (pairCar s p)) e < (getPair s p).actB)
       else decide ((getPair s p).actA ≤ carrierValue (fget (getCar s (pairCar s p)).ctl pwmCarctl_Shape) (p16 s (pairCar s p)) e)) := by
  unfold refLevels
  dsimp only
  split
  · rfl
  · rw [← decide_not]
    simp only [Nat.not_lt]

/-- At that step the levels are those of the carrier as it was before. -/
theorem refLevels_carAt (e x : Nat) : refLevels (carAt s p e) p x = refLevels s p x := by
  have hcar : getCar (carAt s p e) (pairCar s p) = { getCar s (pairCar s p) with e := e % max 1 (p16 s (pairCar s p)) } :=
    getCar_setCar_same s _ _
  have hfollows : pairCar (carAt s p e) p = pairCar s p := rfl
  have hperiod : p16 (carAt s p e) (pairCar s p) = p16 s (pairCar s p) := by rw [p16, hcar, p16]
  rw [refLevels_eq, refLevels_eq, hfollows, hperiod, hcar]
  rfl

/-- A compare edge and what follows it leave the carrier at the step, and the pair with the reference levels of that step. -/
theorem compareEdge_refs (e : Nat) :
    ((getPair (compareEdge s p e) p).refA, (getPair (compareEdge s p e) p).refB) = refLevels s p (e % max 1 (p16 s (pairCar s p))) ∧
      (compareEdge s p e).mem = s.mem ∧ (compareEdge s p e).cars = (carAt s p e).cars := by
  have helapsed : (getCar (carAt s p e) (pairCar (carAt s p e) p)).e = e % max 1 (p16 s (pairCar s p)) :=
    congrArg Car.e (getCar_setCar_same s _ _)
  have hlevels : (getPair (setRefs (carAt s p e) p).1 p).refA = (refLevels s p (e % max 1 (p16 s (pairCar s p)))).1 ∧
      (getPair (setRefs (carAt s p e) p).1 p).refB = (refLevels s p (e % max 1 (p16 s (pairCar s p)))).2 := by
    unfold setRefs
    dsimp only
    rw [getPair_setPair_same, helapsed, refLevels_carAt]
    exact ⟨rfl, rfl⟩
  obtain ⟨hA, hB⟩ := hlevels
  have hlasts : lasting (getPair (compareEdge s p e) p) = lasting (getPair (setRefs (carAt s p e) p).1 p) ∧
      calm (compareEdge s p e) = calm (carAt s p e) := by
    unfold compareEdge
    split
    · exact ⟨lasting_carrierEvent _ p _ false, calm_carrierEvent _ _ false⟩
    · exact ⟨rfl, rfl⟩
  obtain ⟨hpair, hcalm⟩ := hlasts
  have hrefA := congrArg Prod.fst hpair
  have hrefB := congrArg (fun x => x.2.1) hpair
  exact ⟨Prod.ext (hrefA.trans hA) (hrefB.trans hB), congrArg (·.mem) hcalm, congrArg (·.cars) hcalm⟩
end

/-! ## DEAD_TIME_END (R286) -/

section
variable (s : State) (p : Nat)

/-- The levels after the outputs are driven: with no dead time running, what is wanted is on (R286). -/
theorem driveOutputs_levels (a b : Bool) :
    getB (driveOutputs s p a b) (pwmPstat p) pwmPstat_Alv = (a && (getB s (pwmPstat p) pwmPstat_Alv || !(getPair (driveOutputs s p a b) p).deadB)) ∧
    getB (driveOutputs s p a b) (pwmPstat p) pwmPstat_Blv = (b && (getB s (pwmPstat p) pwmPstat_Blv || !(getPair (driveOutputs s p a b) p).deadA)) := by
  have hpair (q : Pair) (x y : Bool) :
      getPair (setB (setB (setPair s p q) (pwmPstat p) pwmPstat_Alv x) (pwmPstat p) pwmPstat_Blv y) p = q := getPair_setPair_same s p q
  unfold driveOutputs
  dsimp only
  rw [hpair, getB_setB_pstat _ _ _ (by decide) (by decide), if_neg (by decide), getB_setB_pstat _ _ _ (by decide) (by decide), if_pos rfl,
    getB_setB_pstat _ _ _ (by decide) (by decide), if_pos rfl]
  exact ⟨rfl, rfl⟩

/-- The dead times that run after the outputs are driven: none after an output that is wanted, and none after one that was off with none running. -/
theorem driveOutputs_dead (a b : Bool) :
    (a = true ∨ ((getPair s p).deadA = false ∧ getB s (pwmPstat p) pwmPstat_Alv = false) → (getPair (driveOutputs s p a b) p).deadA = false) ∧
    (b = true ∨ ((getPair s p).deadB = false ∧ getB s (pwmPstat p) pwmPstat_Blv = false) → (getPair (driveOutputs s p a b) p).deadB = false) := by
  have hpair (q : Pair) (x y : Bool) :
      getPair (setB (setB (setPair s p q) (pwmPstat p) pwmPstat_Alv x) (pwmPstat p) pwmPstat_Blv y) p = q := getPair_setPair_same s p q
  unfold driveOutputs
  dsimp only
  rw [hpair]
  constructor
  · rintro (ha | ⟨hdead, hoff⟩)
    · simp [ha]
    · simp [hdead, hoff]
  · rintro (hb | ⟨hdead, hoff⟩)
    · simp [hb]
    · simp [hdead, hoff]
end

/-- The end of a pair's dead time: what is wanted is driven, with no dead time running. -/
def deadTimeEnd (s : State) (p : Nat) : State :=
  driveOutputs (setPair s p { getPair s p with deadA := false, deadB := false }) p (getPair s p).wantA (getPair s p).wantB

theorem pairStep_deadTimeEnd (s : State) (p : Nat) : PairStep s (deadTimeEnd s p) p :=
  (pairStep_driveOutputs _ p _ _).trans (pairStep_setPair s p _)

/-- The levels that are wanted come on, where no output that is not wanted is on. -/
theorem deadTimeEnd_levels {s : State} {p : Nat} (hA : (getPair s p).wantA = true ∨ getB s (pwmPstat p) pwmPstat_Alv = false)
    (hB : (getPair s p).wantB = true ∨ getB s (pwmPstat p) pwmPstat_Blv = false) :
    getB (deadTimeEnd s p) (pwmPstat p) pwmPstat_Alv = (getPair s p).wantA ∧
    getB (deadTimeEnd s p) (pwmPstat p) pwmPstat_Blv = (getPair s p).wantB ∧
    (getPair (deadTimeEnd s p) p).deadA = false ∧ (getPair (deadTimeEnd s p) p).deadB = false := by
  have hfree : (getPair (setPair s p { getPair s p with deadA := false, deadB := false }) p).deadA = false ∧
      (getPair (setPair s p { getPair s p with deadA := false, deadB := false }) p).deadB = false := by
    rw [getPair_setPair_same]
    exact ⟨rfl, rfl⟩
  obtain ⟨hfreeA, hfreeB⟩ := hfree
  obtain ⟨hstopA, hstopB⟩ := driveOutputs_dead (setPair s p { getPair s p with deadA := false, deadB := false }) p (getPair s p).wantA (getPair s p).wantB
  obtain ⟨hlevelA, hlevelB⟩ :=
    driveOutputs_levels (setPair s p { getPair s p with deadA := false, deadB := false }) p (getPair s p).wantA (getPair s p).wantB
  have hdeadA := hstopA (hA.imp id fun hoff => ⟨hfreeA, hoff⟩)
  have hdeadB := hstopB (hB.imp id fun hoff => ⟨hfreeB, hoff⟩)
  rw [hdeadB, Bool.not_false, Bool.or_true, Bool.and_true] at hlevelA
  rw [hdeadA, Bool.not_false, Bool.or_true, Bool.and_true] at hlevelB
  exact ⟨hlevelA, hlevelB, hdeadA, hdeadB⟩

/-- Settles O15: the reference levels are taken at the edge's step and outlast the carrier event that follows; with the dead times over, the wanted output
has nothing to wait for. -/
theorem compareEdgeAndDeadTime : Obligations.CompareEdgeAndDeadTime := by
  constructor
  · intro s p e hruns k per v
    obtain ⟨hrefs, hmem, hcars⟩ := compareEdge_refs s p e
    rw [refLevels_eq, Prod.mk.injEq] at hrefs
    obtain ⟨hrefA, hrefB⟩ := hrefs
    have hcar : getCar (compareEdge s p e) k = { getCar s k with e := e % max 1 per } := by
      rw [getCar, hcars]
      exact getCar_setCar_same s k _
    exact ⟨_, exec_compareEdge e hruns, congrArg Car.e hcar, hrefA, hrefB, hmem⟩
  · intro s p a q
    have hframe := pairStep_deadTimeEnd s p
    have hrun : exec (.deadTimeEnd p) s = .next (deadTimeEnd s p) := rfl
    constructor
    · rintro ⟨hA, hB, hoff⟩
      obtain ⟨hlevelA, hlevelB, hdeadA, hdeadB⟩ := deadTimeEnd_levels (.inl hA) (.inr hoff)
      exact ⟨_, hrun, hlevelA.trans hA, hlevelB.trans hB, hdeadA, hdeadB, hframe.regs, hframe.mem, hframe.other⟩
    · rintro ⟨hA, hB, hoff⟩
      obtain ⟨hlevelA, hlevelB, hdeadA, hdeadB⟩ := deadTimeEnd_levels (.inr hoff) (.inl hB)
      exact ⟨_, hrun, hlevelA.trans hA, hlevelB.trans hB, hdeadA, hdeadB, hframe.regs, hframe.mem, hframe.other⟩

end Sys2Proof.Proofs
end

section
/-! SUPPORT. Proofs. Trip inputs (R288, R289, R300): the filtered line, the pairs that its masks name, the event. -/

namespace Sys2Proof.Proofs

open Sys2Proof.Machine Sys2Proof.Claims

/-! ## The registers of the trip inputs -/

theorem getFbit_setFbit_field (s : State) (a : Nat) (f g : Fld) (i j : Nat) (b : Bool) (h : fldOk f = true) (hg : fldOk g = true)
    (hd : fldApart f g = true) : getFbit (setFbit s a f i b) a g j = getFbit s a g j := by
  unfold getFbit setFbit
  rw [getF_setF_field _ _ _ _ _ h hg hd]

/-- No event and no trip writes a register of a trip input. -/
theorem not_faultReg_trip {a : Nat} (hlo : pwmTripctl 0 ≤ a) (hhi : a ≤ pwmTripstat) : ¬faultReg a := by
  unfold faultReg
  simp only [pwmTripctl, pwmTripstat, pwmPstat, clnkPstat, fltSum, fltHkstat, fltPinstat, safeStat, safeOutst, poldEvdrop] at *
  rintro (⟨p, hp, h⟩ | ⟨n, hn, h⟩ | h | h | h | h | ⟨p, hp, h⟩) <;> omega

/-! ## A PIN trip of one pair (R288) -/

/-- Pair `p` has latched a trip of input `k` with cause PIN, which outlives the line when MODE is LATCH. -/
def PinLatched (s : State) (k p : Nat) : Prop :=
  getB s (pwmPstat p) pwmPstat_Pin = true ∧ getB s (pwmPstat p) pwmPstat_Tripped = true ∧
    (getB s (pwmTripctl k) pwmTripctl_Mode = false → (getPair s p).pinHeld = true)

section
variable (s : State) (k p r : Nat)

theorem pairStep_pinTrip : PairStep s (pinTrip s k p) p := (pairStep_pairTrip _ p _).trans (pairStep_setPair s p _)

theorem pinTrip_causes : getB (pinTrip s k p) (pwmPstat p) pwmPstat_Pin = true ∧ getB (pinTrip s k p) (pwmPstat p) pwmPstat_Tripped = true := by
  unfold pinTrip pairTrip
  dsimp only
  have hpin : pwmPstat_Pin ∈ tripFields := by decide
  have htripped : pwmPstat_Tripped ∈ tripFields := by decide
  rw [sameTrip_pairRefresh false _ hpin, sameTrip_pairRefresh false _ htripped, getB_setB_pstat _ _ _ (by decide) (by decide), if_neg (by decide),
    getB_setB_pstat _ _ _ (by decide) (by decide), if_pos rfl, getB_setB_pstat _ _ _ (by decide) (by decide), if_pos rfl]
  exact ⟨rfl, rfl⟩

theorem pinTrip_held : (getPair (pinTrip s k p) p).pinHeld = ((getPair s p).pinHeld || !getB s (pwmTripctl k) pwmTripctl_Mode) := by
  have hlasts (t : State) (cause : Fld) : (getPair (pairTrip t p cause) p).pinHeld = (getPair t p).pinHeld :=
    congrArg (fun x => x.2.2) (lasting_pairRefresh (setB (setB t (pwmPstat p) cause true) (pwmPstat p) pwmPstat_Tripped true) p p false)
  unfold pinTrip
  dsimp only
  rw [hlasts, getPair_setPair_same]
end

section
variable {s t : State} {k p r : Nat}

/-- What leaves the input's registers, PSTAT and the state of the pair alone leaves the trip. -/
theorem PinLatched.congr (h : PinLatched s k p) (hstat : getReg t (pwmPstat p) = getReg s (pwmPstat p))
    (hctl : getReg t (pwmTripctl k) = getReg s (pwmTripctl k)) (hpair : getPair t p = getPair s p) : PinLatched t k p := by
  unfold PinLatched getB getF at h ⊢
  rw [hstat, hctl, hpair]
  exact h

theorem pwmTripctl_ne_pwmPstat (hp : p < 48) : pwmTripctl k ≠ pwmPstat p := by
  unfold pwmTripctl pwmPstat
  omega

theorem pinLatched_pinTrip_same (hp : p < 48) : PinLatched (pinTrip s k p) k p := by
  obtain ⟨hpin, htripped⟩ := pinTrip_causes s k p
  refine ⟨hpin, htripped, fun hmode => ?_⟩
  rw [(pairStep_pinTrip s k p).getB (pwmTripctl_ne_pwmPstat hp)] at hmode
  rw [pinTrip_held, hmode, Bool.not_false, Bool.or_true]

theorem PinLatched.pinTrip (h : PinLatched s k p) (hp : p < 48) (hr : r < 48) : PinLatched (pinTrip s k r) k p := by
  by_cases heq : r = p
  · rw [heq]
    exact pinLatched_pinTrip_same hp
  · obtain ⟨-, hother, hregs⟩ := pairStep_pinTrip s k r
    have hstat : pwmPstat p ≠ pwmPstat r := by unfold pwmPstat; omega
    exact h.congr (hregs _ hstat) (hregs _ (pwmTripctl_ne_pwmPstat hr)) (hother p (Ne.symm heq))
end

/-! ## The line becomes active -/

section
variable (s : State) (k : Nat)

/-- The filtered line of input `k` is active. -/
def lineActive : State := setFbit (setFbit s pwmTripstat pwmTripstat_Level k true) pwmTripstat pwmTripstat_Seen k true

/-- The pairs that an active line names have tripped. -/
def lineTrips : State := forEach ((upto 48).filter fun p => (activeTrips (lineActive s k) p).contains k) (lineActive s k) fun s p => pinTrip s k p

/-- The pair stands in the masks of the input. -/
def maskNames (p : Nat) : Bool :=
  if p < 32 then getFbit s (pwmTripmaskl k) pwmTripmaskl_Pairs p else getFbit s (pwmTripmaskh k) pwmTripmaskh_Pairs (p - 32)

theorem exec_tripInputActive {s : State} {k : Fin 16} {level : Bool} {samples : BitVec 13}
    (hlong : getF s (pwmTripctl k) pwmTripctl_Flenm1 + 1 ≤ samples.toNat) (hlevel : level = !getB s (pwmTripctl k) pwmTripctl_Pol)
    (hen : getB s (pwmTripctl k) pwmTripctl_En = true) (hwas : getFbit s pwmTripstat pwmTripstat_Level k = false) :
    exec (.tripInputActive k level samples) s = .next (event (lineTrips s k) 0x0A01 (getF (lineTrips s k) (pwmTripctl k) pwmTripctl_Class) 0
      [pw k, getReg (lineTrips s k) (pwmTripmaskl k), getReg (lineTrips s k) (pwmTripmaskh k)]) := by
  have htakes : tripAccepts s k samples = true := decide_eq_true hlong
  show execTripInputActive k level samples s = _
  unfold execTripInputActive
  rw [if_pos (by rw [hen, htakes, hlevel, hwas]; cases getB s (pwmTripctl k) pwmTripctl_Pol <;> rfl)]
  rfl

variable {s k}

theorem level_lineActive (hk : k < 16) : getFbit (lineActive s k) pwmTripstat pwmTripstat_Level k = true := by
  unfold lineActive
  rw [getFbit_setFbit_field _ _ _ _ _ _ _ (by decide) (by decide) (by decide), getFbit_setFbit _ _ _ _ _ _ (by decide) hk, if_pos rfl]

theorem seen_lineActive (hk : k < 16) : getFbit (lineActive s k) pwmTripstat pwmTripstat_Seen k = true := by
  unfold lineActive
  rw [getFbit_setFbit _ _ _ _ _ _ (by decide) hk, if_pos rfl]

theorem sameReg_lineActive {a : Nat} (h : a ≠ pwmTripstat) : SameReg a s (lineActive s k) :=
  (sameReg_setFbit (setFbit s pwmTripstat pwmTripstat_Level k true) _ _ _ h).trans (sameReg_setFbit s _ _ _ h)

/-- An active line names the pairs of its masks. -/
theorem activeTrips_lineActive {p : Nat} (hk : k < 16) (hnamed : maskNames s k p = true) : (activeTrips (lineActive s k) p).contains k = true := by
  have hlow : SameReg (pwmTripmaskl k) s (lineActive s k) := sameReg_lineActive (by unfold pwmTripmaskl pwmTripstat; omega)
  have hhigh : SameReg (pwmTripmaskh k) s (lineActive s k) := sameReg_lineActive (by unfold pwmTripmaskh pwmTripstat; omega)
  have hmask : maskNames (lineActive s k) k p = true := by
    rw [← hnamed]
    unfold maskNames getFbit getF
    rw [hlow, hhigh]
  refine List.contains_iff_mem.mpr (List.mem_filter.mpr ⟨mem_upto.mpr hk, ?_⟩)
  rw [level_lineActive hk]
  exact hmask

theorem sameReg_lineTrips {a : Nat} (h : ¬faultReg a) : SameReg a (lineActive s k) (lineTrips s k) :=
  sameReg_forEach _ _ _ fun t p hp => (pairStep_pinTrip t k p).regs a (faultReg_pair h (mem_upto.mp (List.mem_of_mem_filter hp)))

theorem recorder_lineTrips : (lineTrips s k).recorder = s.recorder :=
  forEach_keeps (·.recorder) _ (lineActive s k) _ fun t p => (pairStep_pinTrip t k p).recorder

theorem pinLatched_lineTrips {p : Nat} (hk : k < 16) (hp : p < 48) (hnamed : maskNames s k p = true) : PinLatched (lineTrips s k) k p := by
  have hmem : p ∈ (upto 48).filter fun p => (activeTrips (lineActive s k) p).contains k :=
    List.mem_filter.mpr ⟨mem_upto.mpr hp, activeTrips_lineActive hk hnamed⟩
  exact forEach_reaches (fun t => PinLatched t k p) (fun t r => pinTrip t k r) hmem (fun t => pinLatched_pinTrip_same hp)
    (fun t r hr ht => ht.pinTrip hp (mem_upto.mp (List.mem_of_mem_filter hr))) (lineActive s k)

/-- An event of class 0 leaves the trips. -/
theorem pinLatched_event {t : State} {p : Nat} (h : PinLatched t k p) (hk : k < 16) (hp : p < 48) (code : Nat) (l : List Word) :
    PinLatched (event t code 0 0 l) k p := by
  obtain ⟨-, hregs⟩ := notice_shape t code 0 l
  exact h.congr (hregs _ (by unfold pwmPstat poldEvdrop; omega)) (hregs _ (by unfold pwmTripctl poldEvdrop; omega)) (getPair_notice t p code 0 l)
end

/-- A long level at an enabled input whose line is not active: LEVEL and SEEN, the event, and for class 0 the trips (R288, R300). -/
theorem exec_tripInputActive_latches {s : State} {k : Fin 16} {level : Bool} {samples : BitVec 13}
    (hlong : getF s (pwmTripctl k) pwmTripctl_Flenm1 + 1 ≤ samples.toNat) (hlevel : level = !getB s (pwmTripctl k) pwmTripctl_Pol)
    (hen : getB s (pwmTripctl k) pwmTripctl_En = true) (hwas : getFbit s pwmTripstat pwmTripstat_Level k = false) (hroom : RecorderRoom s 0 1) :
    ∃ t, exec (.tripInputActive k level samples) s = .next t ∧
      getFbit t pwmTripstat pwmTripstat_Level k = true ∧ getFbit t pwmTripstat pwmTripstat_Seen k = true ∧
      Reported t 0x0A01 (getF s (pwmTripctl k) pwmTripctl_Class) 0 [pw k, getReg s (pwmTripmaskl k), getReg s (pwmTripmaskh k)] ∧
      (getF s (pwmTripctl k) pwmTripctl_Class = 0 → ∀ p < 48, maskNames s k p = true → PinLatched t k p) ∧
      getReg t (pwmTripctl k) = getReg s (pwmTripctl k) := by
  have hk := k.isLt
  have hsame {a : Nat} (hlo : pwmTripctl 0 ≤ a) (hhi : a < pwmTripstat) : getReg (lineTrips s k) a = getReg s a :=
    (sameReg_lineTrips (not_faultReg_trip hlo hhi.le)).trans (sameReg_lineActive hhi.ne)
  have hctl : getReg (lineTrips s k) (pwmTripctl k) = getReg s (pwmTripctl k) :=
    hsame (by unfold pwmTripctl; omega) (by unfold pwmTripctl pwmTripstat; omega)
  have hlow : getReg (lineTrips s k) (pwmTripmaskl k) = getReg s (pwmTripmaskl k) :=
    hsame (by unfold pwmTripctl pwmTripmaskl; omega) (by unfold pwmTripmaskl pwmTripstat; omega)
  have hhigh : getReg (lineTrips s k) (pwmTripmaskh k) = getReg s (pwmTripmaskh k) :=
    hsame (by unfold pwmTripctl pwmTripmaskh; omega) (by unfold pwmTripmaskh pwmTripstat; omega)
  have hclass : getF (lineTrips s k) (pwmTripctl k) pwmTripctl_Class = getF s (pwmTripctl k) pwmTripctl_Class := by rw [getF, hctl, ← getF]
  have hrun := exec_tripInputActive hlong hlevel hen hwas
  rw [hclass, hlow, hhigh] at hrun
  have hroom' : RecorderRoom (lineTrips s k) 0 1 := by
    unfold RecorderRoom
    rw [recorder_lineTrips]
    exact hroom
  have hevent {a : Nat} (hlo : pwmTripctl 0 ≤ a) (hhi : a ≤ pwmTripstat) (cls : Nat) (l : List Word) :
      getReg (event (lineTrips s k) 0x0A01 cls 0 l) a = getReg (lineTrips s k) a :=
    sameReg_event (not_faultReg_trip hlo hhi) _ _ _ _ _ (by decide)
  have hstat (f : Fld) (cls : Nat) (l : List Word) :
      getFbit (event (lineTrips s k) 0x0A01 cls 0 l) pwmTripstat f k = getFbit (lineActive s k) pwmTripstat f k := by
    rw [getFbit, getF, hevent (by decide) le_rfl, sameReg_lineTrips (not_faultReg_trip (by decide) le_rfl), getFbit, getF]
  refine ⟨_, hrun, (hstat _ _ _).trans (level_lineActive hk), (hstat _ _ _).trans (seen_lineActive hk), reported_event fun _ => hroom',
    fun hzero p hp hnamed => ?_, (hevent (by unfold pwmTripctl; omega) (by unfold pwmTripctl pwmTripstat; omega) _ _).trans hctl⟩
  rw [hzero]
  exact pinLatched_event (pinLatched_lineTrips hk hp hnamed) hk hp 0x0A01 _

/-- Settles O16: the line's trips change only PSTAT and the state of the pairs that its masks name, and no later trip or notice undoes one; the other direction
is a write of one bit. -/
theorem tripInputLatchesPairs : Obligations.TripInputLatchesPairs := by
  refine ⟨?_, ?_, ?_⟩
  · intro s k level samples hlong hlevel hen hwas hroom cls named
    obtain ⟨t, hrun, hline, hseen, hreported, htrips, hctl⟩ := exec_tripInputActive_latches hlong hlevel hen hwas hroom
    refine ⟨t, hrun, hline, hseen, hreported, fun hzero p hp hnamed => ?_⟩
    obtain ⟨hpin, htripped, hheld⟩ := htrips hzero p hp hnamed
    exact ⟨hpin, htripped, fun hmode => hheld (by rw [getB, getF, hctl]; exact hmode)⟩
  · intro s k level samples hlong hlevel
    have htakes : tripAccepts s k samples = true := decide_eq_true hlong
    exact ⟨setFbit s pwmTripstat pwmTripstat_Level k false,
      congrArg Host.Outcome.next (if_pos (by rw [htakes, hlevel, beq_self_eq_true]; rfl)),
      fun i hi => getFbit_setFbit s _ _ _ _ _ (by decide) hi, fun a ha => sameReg_setFbit s _ _ _ ha, rfl, rfl⟩
  · intro s k level samples hshort
    have hrefused : tripAccepts s k samples = false := decide_eq_false (by omega)
    exact ⟨congrArg Host.Outcome.next (if_neg (by simp [hrefused])), congrArg Host.Outcome.next (if_neg (by simp [hrefused]))⟩

end Sys2Proof.Proofs
end

section
/-! SUPPORT. Proofs. Forces of a pair (R287, R293), and the command bits of CLNK.CELLCTL: FCLR, BYPREQ, BYPREL (R328, R333, R334, R339). -/

namespace Sys2Proof.Proofs

open Sys2Proof.Machine Sys2Proof.Claims

/-! ## Registers of one owner -/

/-- Only its owner, a polder, accesses a register whose fields all have the right "own". -/
theorem regOwner_of_ready {s : State} {src : Source} {q a : Nat} {d : RegDesc} {path : List Nat} (h : HostReady s src q a)
    (hat : regAt a = some (d, path)) (hr : ∀ f ∈ d.fields, f.rights = .own) : regOwner s a = some q ∧ q < 8 := by
  obtain ⟨-, -, hsrc, hb, -⟩ := h
  have hown : hasRight s q a .own = true := hasRight_of_regBreach hat hr hb
  exact ⟨beq_iff_eq.mp hown, sourcePolder_lt hsrc⟩

/-- A write of a register whose rw bits are all left to its action, and that stages nothing, has no plain effect. -/
theorem plainWrite_of_action {a : Nat} {d : RegDesc} {path : List Nat} (hat : regAt a = some (d, path))
    (hact : actionMask (blockNo a) d.off = 0xFFFFFFFF) (hws : ∀ f ∈ d.fields, f.acc ≠ .ws) (s : State) (p : Nat) (w : Word) :
    plainWrite s p a w = s := by
  have hnone (m : Word) : m &&& ~~~(0xFFFFFFFF : Word) = 0 := BitVec.and_zero
  have hstage : wsMask s p a = 0 := accMask_of_regAt_none hat hws
  unfold plainWrite
  rw [regPlace_of_regAt hat]
  dsimp only
  rw [hact, hnone, hnone, if_pos rfl, if_pos rfl, hstage, stageWrite_zero]

/-! ## PWM.PFORCE (R293) -/

def pwmPforceDesc : RegDesc := ⟨0x700, [(4, 48)], [fd 1 0 .rw .own 0]⟩

theorem regAt_pwmPforce (p : Fin 48) : regAt (pwmPforce p) = some (pwmPforceDesc, [p.val]) := by revert p; decide
theorem blockNo_pwmPforce (p : Fin 48) : blockNo (pwmPforce p) = 10 := by revert p; decide
theorem placeOf_pwmPforce (p : Fin 48) : placeOf (pwmPforce p) = .register := by revert p; decide

theorem regOwner_pwmPforce (s : State) (p : Fin 48) : regOwner s (pwmPforce p) = some (resPol s (resPair p)) := by
  have hp := p.isLt
  have ho : pwmPforce p % 0x10000 = 0x700 + 4 * p := by unfold pwmPforce; omega
  unfold regOwner
  rw [regAt_pwmPforce, blockNo_pwmPforce]
  show (if pwmPforce p % 0x10000 < 0x200 then some (resPol s (resCarrier p))
    else if 0x400 ≤ pwmPforce p % 0x10000 ∧ pwmPforce p % 0x10000 < 0x900 then some (resPol s (resPair p)) else _) = _
  rw [ho, if_neg (by omega), if_pos (by omega)]

theorem regAction_pwmPforce (s : State) (src : Source) (q : Nat) (p : Fin 48) (w : Word) :
    regAction s src q (pwmPforce p) w = (forceWrite s p (w.toNat % 4), false) := by
  unfold regAction
  rw [regPlace_of_regAt (regAt_pwmPforce p), blockNo_pwmPforce]
  rfl

/-- PWM_FORCE is the write of the force. -/
theorem exec_pwmForce {s : State} {src : Source} {q : Nat} {p : Fin 48} (m : BitVec 2) (h : HostReady s src q (pwmPforce p)) :
    exec (.pwmForce src p m) s = .next (respond (forceWrite s p m.toNat) false []) := by
  have hr : ∀ f ∈ pwmPforceDesc.fields, f.rights = .own := by decide
  have hmode : (m.setWidth 32 &&& 3 : Word).toNat % 4 = m.toNat := by revert m; decide
  refine congrArg Host.Outcome.next (hostWrite_action (m := 3) h (placeOf_pwmPforce p) (by unfold pwmPforce; omega) (regAt_pwmPforce p) hr (by decide)
    (by decide) ?_)
  rw [plainWrite_of_action (regAt_pwmPforce p) (by rw [blockNo_pwmPforce]; rfl) (by decide), regAction_pwmPforce, hmode]

/-! ## What a force does -/

theorem pairCar_lt (s : State) (p : Nat) : pairCar s p < 32 := fget_lt _ _

section
variable {s t : State} {p : Nat}

/-- Whether a pair's carrier runs depends on no PFORCE, PSTAT and EVDROP. -/
theorem carRuns_congr (h : ∀ a, pwmCarstat 0 ≤ a → a < pwmPforce 0 → getReg t a = getReg s a) (hp : p < 48) :
    carRuns t (pairCar t p) = carRuns s (pairCar s p) := by
  have hcar := pairCar_lt s p
  have hfollows : pairCar t p = pairCar s p := by
    unfold pairCar getF
    rw [h _ (by unfold pwmCarstat pwmPctl; omega) (by unfold pwmPctl pwmPforce; omega)]
  unfold carRuns getB getF
  rw [hfollows, h _ (by unfold pwmCarstat; omega) (by unfold pwmCarstat pwmPforce; omega)]

theorem PairOnly.carRuns (h : PairOnly s t p) (hp : p < 48) (hq : resPol s (resPair p) < 8) : carRuns t (pairCar t p) = carRuns s (pairCar s p) :=
  carRuns_congr (fun a hlo hhi => h.regs a (by unfold pwmPforce at hhi; unfold pwmPstat; omega)
    (by unfold pwmCarstat at hlo; unfold poldEvdrop; omega)) hp

/-- On a carrier that does not run both outputs are off (R287). -/
theorem pairRefresh_stopped (hstop : carRuns s (pairCar s p) = false) (start : Bool) :
    ∃ q, pairRefresh s p start = driveOutputs (setPair s p q) p false false := by
  unfold pairRefresh
  dsimp only
  rw [hstop, if_pos (by simp)]
  exact ⟨_, rfl⟩

/-- Driven outputs leave the fields of PSTAT but the levels. -/
theorem getB_driveOutputs {g : Fld} (hg : g ∈ pstatFields) (hA : g ≠ pwmPstat_Alv) (hB : g ≠ pwmPstat_Blv) (a b : Bool) :
    getB (driveOutputs s p a b) (pwmPstat p) g = getB s (pwmPstat p) g := by
  unfold driveOutputs
  dsimp only
  rw [getB_setB_pstat _ _ _ (by decide) hg, if_neg hB, getB_setB_pstat _ _ _ (by decide) hg, if_neg hA]
  rfl

/-- A waiting force of an untripped pair shows in FACT whether it acts (R293). -/
theorem fact_applyForce (hp : p < 48) (hq : resPol s (resPair p) < 8) (hwait : (getPair s p).forceWait = true)
    (htrip : getB s (pwmPstat p) pwmPstat_Tripped = false) :
    getB (applyForce s p) (pwmPstat p) pwmPstat_Fact = decide (getF s (pwmPforce p) pwmPforce_Mode ≠ 0) := by
  have hnotice (t : State) (l : List Word) : getReg (notice t 0x0A03 (resPol s (resPair p)) l) (pwmPstat p) = getReg t (pwmPstat p) :=
    (notice_shape t 0x0A03 (resPol s (resPair p)) l).2 _ (by unfold pwmPstat poldEvdrop; omega)
  unfold applyForce
  dsimp only
  rw [hwait, htrip, if_pos (by decide)]
  split
  · exact getB_setB_same _ _ _ _ (by decide)
  · exact (congrArg (fun w => fget w pwmPstat_Fact == 1) (hnotice _ _)).trans (getB_setB_same _ _ _ _ (by decide))
end

section
variable (s : State) (p m : Nat)

/-- The force stands in PFORCE and waits. -/
def forceAsked : State := setPair (setF s (pwmPforce p) pwmPforce_Mode m) p { getPair s p with forceWait := true }

theorem getReg_forceAsked {a : Nat} (ha : a ≠ pwmPforce p) : getReg (forceAsked s p m) a = getReg s a :=
  getReg_setF_other s pwmPforce_Mode m ha

theorem getPair_forceAsked : getPair (forceAsked s p m) p = { getPair s p with forceWait := true } :=
  getPair_setPair_same (setF s (pwmPforce p) pwmPforce_Mode m) p _

theorem mode_forceAsked (hm : m < 4) : getF (forceAsked s p m) (pwmPforce p) pwmPforce_Mode = m :=
  (getF_setF_same s _ _ _ (by decide)).trans (Nat.mod_eq_of_lt hm)

theorem carRuns_forceAsked (hp : p < 48) : carRuns (forceAsked s p m) (pairCar (forceAsked s p m) p) = carRuns s (pairCar s p) :=
  carRuns_congr (fun _ _ hhi => getReg_forceAsked s p m (by unfold pwmPforce at *; omega)) hp

theorem forceWrite_eq : forceWrite s p m = if carRuns (forceAsked s p m) (pairCar (forceAsked s p m) p) then forceAsked s p m
    else pairRefresh (applyForce (forceAsked s p m) p) p false := rfl

variable {s p m}

/-- A force on a carrier that does not run, with an untripped pair (R287, R293). -/
theorem forceWrite_stopped (hp : p < 48) (hq : resPol s (resPair p) < 8) (hm : m < 4) (hstop : carRuns s (pairCar s p) = false)
    (htrip : getB s (pwmPstat p) pwmPstat_Tripped = false) :
    forceOf (forceWrite s p m) p = (false, m) ∧ getB (forceWrite s p m) (pwmPstat p) pwmPstat_Fact = decide (m ≠ 0) ∧
      getB (forceWrite s p m) (pwmPstat p) pwmPstat_Alv = false ∧ getB (forceWrite s p m) (pwmPstat p) pwmPstat_Blv = false := by
  have hwait : (getPair (forceAsked s p m) p).forceWait = true := by rw [getPair_forceAsked]
  have htrip' : getB (forceAsked s p m) (pwmPstat p) pwmPstat_Tripped = false := by
    rw [getB, getF, getReg_forceAsked s p m (by unfold pwmPstat pwmPforce; omega)]
    exact htrip
  have hq' : resPol (forceAsked s p m) (resPair p) < 8 := hq
  have hasked := (carRuns_forceAsked s p m hp).trans hstop
  have hrefresh : forceWrite s p m = pairRefresh (applyForce (forceAsked s p m) p) p false := by
    rw [forceWrite_eq, hasked, if_neg (by decide)]
  obtain ⟨q, hoff⟩ := pairRefresh_stopped ((pairOnly_applyForce.carRuns hp hq').trans hasked) false
  refine ⟨?_, ?_, ?_⟩
  · rw [hrefresh, forceOf_pairRefresh, forceOf_applyForce hwait htrip', mode_forceAsked s p m hm]
  · rw [hrefresh, hoff, getB_driveOutputs (by decide) (by decide) (by decide)]
    exact (fact_applyForce hp hq' hwait htrip').trans (by rw [mode_forceAsked s p m hm])
  · rw [hrefresh, hoff]
    exact driveOutputs_levels _ p false false

/-- Whether it waits or acts, the force stands in PFORCE. -/
theorem forceWrite_kept (hp : p < 48) (hq : resPol s (resPair p) < 8) (hm : m < 4) :
    (forceWrite s p m).mem = s.mem ∧ getF (forceWrite s p m) (pwmPforce p) pwmPforce_Mode = m := by
  rw [forceWrite_eq]
  split
  · exact ⟨rfl, mode_forceAsked s p m hm⟩
  · have honly : PairOnly (forceAsked s p m) (pairRefresh (applyForce (forceAsked s p m) p) p false) p :=
      (pairOnly_pairRefresh false).trans pairOnly_applyForce
    have hforce := honly.regs (pwmPforce p) (by unfold pwmPforce pwmPstat; omega) (by
      have hq' : resPol (forceAsked s p m) (resPair p) < 8 := hq
      unfold pwmPforce poldEvdrop
      omega)
    refine ⟨honly.mem, ?_⟩
    rw [getF, hforce]
    exact mode_forceAsked s p m hm
end

/-! ## CLNK.CELLCTL (R339) -/

def clnkCellctlDesc : RegDesc :=
  ⟨0x1000, [(4, 1152)], [fd 11 11 .wo .own 0, fd 10 10 .wo .own 0, fd 9 9 .wo .own 0, fd 4 4 .ws .own 0, fd 3 0 .ws .own 8]⟩

section
variable {d : RegDesc} {l : List RegDesc} {o : Nat}

theorem findReg_skip (h : matchDims d.dims (o - d.off) = none) : findReg (d :: l) o = findReg l o := by
  rw [findReg, h]
  split <;> rfl

theorem findReg_found {path : List Nat} (hle : d.off ≤ o) (h : matchDims d.dims (o - d.off) = some path) : findReg (d :: l) o = some (d, path) := by
  rw [findReg, if_pos hle, h]

theorem matchDims_beyond {st n r : Nat} {t : List (Nat × Nat)} (h : n ≤ r / st) : matchDims ((st, n) :: t) r = none := if_neg (by omega)

theorem matchDims_past {r : Nat} (h : r ≠ 0) : matchDims [] r = none := if_neg h
end

section
variable (i : Fin 1152)

/-- Of the registers of CLNK (R339) eight stand before CELLCTL and do not reach it. -/
theorem findReg_clnkCellctl : findReg clnkRegs (0x1000 + 4 * i) = some (clnkCellctlDesc, [i.val]) := by
  have hi := i.isLt
  have hfound : matchDims [(4, 1152)] (0x1000 + 4 * i - 0x1000) = some [i.val] := by
    have hindex : (0x1000 + 4 * i.val - 0x1000) / 4 = i := by omega
    have hrest : (0x1000 + 4 * i.val - 0x1000) % 4 = 0 := by omega
    rw [matchDims, hindex, hrest, if_pos hi]
    rfl
  unfold clnkRegs clnkRegs1
  iterate 5 rw [List.cons_append, findReg_skip (matchDims_beyond (by dsimp only; omega))]
  iterate 2 rw [List.cons_append, findReg_skip (matchDims_past (by dsimp only; omega))]
  rw [List.cons_append, findReg_skip (matchDims_beyond (by dsimp only; omega)), List.cons_append]
  exact findReg_found (by dsimp only; omega) hfound

theorem offset_clnkCellctl : clnkCellctl i % 0x10000 = 0x1000 + 4 * i := by
  have hi := i.isLt
  unfold clnkCellctl
  omega

theorem regAt_clnkCellctl : regAt (clnkCellctl i) = some (clnkCellctlDesc, [i.val]) := by
  have hi := i.isLt
  have hblock : (clnkCellctl i - 0x60000000) / 0x10000 = 11 := by unfold clnkCellctl; omega
  unfold regAt
  rw [if_pos (by unfold clnkCellctl; omega), hblock, offset_clnkCellctl]
  exact findReg_clnkCellctl i

theorem blockNo_clnkCellctl : blockNo (clnkCellctl i) = 11 := by
  have hi := i.isLt
  unfold blockNo clnkCellctl
  rw [if_pos (by omega)]
  omega

theorem placeOf_clnkCellctl : placeOf (clnkCellctl i) = .register := by
  have hi := i.isLt
  unfold placeOf clnkCellctl
  rw [if_neg (by omega), if_neg (by omega), if_neg (by omega), if_neg (by omega), if_neg (by omega), if_neg (by omega), if_pos (by omega)]

theorem regOwner_clnkCellctl (s : State) : regOwner s (clnkCellctl i) = some (portPol s (i / 24)) := by
  have hi := i.isLt
  unfold regOwner
  rw [regAt_clnkCellctl, blockNo_clnkCellctl]
  show (if clnkCellctl i % 0x10000 < 0x600 then some (resPol s (resPort i))
    else if 0x800 ≤ clnkCellctl i % 0x10000 ∧ clnkCellctl i % 0x10000 < 0x820 then some i.val
    else if 0x1000 ≤ clnkCellctl i % 0x10000 ∧ clnkCellctl i % 0x10000 < 0x7000 then some (resPol s (resPort (i / 24))) else _) = _
  rw [offset_clnkCellctl, if_neg (by omega), if_neg (by omega), if_pos (by omega)]
  rfl

theorem regAction_clnkCellctl (s : State) (src : Source) (q : Nat) (w : Word) :
    regAction s src q (clnkCellctl i) w = (cellCtlWrite s i w, false) := by
  unfold regAction
  rw [regPlace_of_regAt (regAt_clnkCellctl i), blockNo_clnkCellctl]
  rfl
end

/-- Staging changes only what the ticks hold. -/
theorem stageWrite_tick (s : State) (p a : Nat) (m w : Word) : ∃ tk, stageWrite s p a m w = { s with tick := tk } := by
  unfold stageWrite
  split
  · exact ⟨s.tick, rfl⟩
  · exact ⟨_, rfl⟩

/-- A host's write of CELLCTL stages its fields, and its command bits act. -/
theorem hostWrite_cellCtl {s : State} {src : Source} {q : Nat} {i : Fin 1152} (h : HostReady s src q (clnkCellctl i)) (w : Word) :
    ∃ tk, hostWrite s src (clnkCellctl i) w = respond (cellCtlWrite { s with tick := tk } i (w &&& 0xE1F)) false [] := by
  have hr : ∀ f ∈ clnkCellctlDesc.fields, f.rights = .own := by decide
  obtain ⟨tk, htk⟩ := stageWrite_tick s q (clnkCellctl i) (accMask s q (clnkCellctl i) .ws) w
  refine ⟨tk, hostWrite_action (m := 0xE1F) h (placeOf_clnkCellctl i) (by unfold clnkCellctl; omega) (regAt_clnkCellctl i) hr (by decide) (by decide) ?_⟩
  rw [plainWrite_of_staged (accMask_of_regAt_none (regAt_clnkCellctl i) (by decide)) (accMask_of_regAt_none (regAt_clnkCellctl i) (by decide)),
    htk, regAction_clnkCellctl]

/-! ## The command bits -/

/-- The command bits of CELLCTL. -/
def cellCommands : List Fld := [clnkCellctl_Fclr, clnkCellctl_Byprel, clnkCellctl_Bypreq]

theorem fldOk_of_cellCommands : ∀ f ∈ cellCommands, fldOk f = true ∧ f.hi = f.lo := by decide

theorem lo_of_cellCommands : ∀ f ∈ cellCommands, f.lo < 32 ∧ (0xE1F : Word).getLsbD f.lo = true ∧ (0x1F : Word).getLsbD f.lo = false := by decide

theorem lo_apart_of_cellCommands : ∀ f ∈ cellCommands, ∀ g ∈ cellCommands, g ≠ f → ¬(f.lo ≤ g.lo ∧ g.lo ≤ f.hi) := by decide

/-- A field of one bit reads that bit. -/
theorem fget_of_bit (w : Word) {f : Fld} (h : f.hi = f.lo) : fget w f = (w.getLsbD f.lo).toNat := by
  refine Nat.eq_of_testBit_eq fun j => ?_
  rw [testBit_fget, h, Nat.testBit_bool_toNat]
  by_cases hj : j = 0
  · simp [hj]
  · simp [hj]

/-- The word of a command, over the staged fields, holds its own bit and no other command's. -/
theorem fget_cellCommand (w : Word) {f g : Fld} (hf : f ∈ cellCommands) (hg : g ∈ cellCommands) :
    fget (fset (w &&& 0x1F) f 1 &&& 0xE1F) g = if g = f then 1 else 0 := by
  obtain ⟨hok, hone⟩ := fldOk_of_cellCommands f hf
  obtain ⟨hlt, hin, hout⟩ := lo_of_cellCommands g hg
  rw [fget_of_bit _ (fldOk_of_cellCommands g hg).2, BitVec.getLsbD_and, getLsbD_fset _ _ _ _ hok hlt, hin, Bool.and_true]
  by_cases h : g = f
  · rw [if_pos (by rw [h, hone]; exact ⟨le_rfl, le_rfl⟩), h, Nat.sub_self, if_pos rfl]
    rfl
  · rw [if_neg (lo_apart_of_cellCommands f hf g hg h), BitVec.getLsbD_and, hout, Bool.and_false, if_neg h]
    rfl

/-- What a command's word does. -/
theorem cellCtlWrite_command (s : State) (i : Nat) (w : Word) {f : Fld} (hf : f ∈ cellCommands) :
    cellCtlWrite s i (fset (w &&& 0x1F) f 1 &&& 0xE1F) =
      if f = clnkCellctl_Fclr then fclrWrite s i else if f = clnkCellctl_Byprel then byprel s i else bypassCell s i 3 := by
  unfold cellCtlWrite
  rw [fget_cellCommand w hf (by decide), fget_cellCommand w hf (by decide), fget_cellCommand w hf (by decide)]
  simp only [cellCommands, List.mem_cons, List.not_mem_nil, or_false] at hf
  obtain rfl | rfl | rfl := hf <;> rfl

section
variable {s : State} {src : Source} {q : Nat} {i : Fin 1152}

/-- FCLR is the write of that command (R328). -/
theorem exec_fclr (h : HostReady s src q (clnkCellctl i)) :
    ∃ tk, exec (.fclr src i) s = .next (respond (fclrWrite { s with tick := tk } i) false []) := by
  obtain ⟨tk, hwrite⟩ := hostWrite_cellCtl h (fset (getReg s (clnkCellctl i) &&& 0x1F) clnkCellctl_Fclr 1)
  rw [cellCtlWrite_command _ _ _ (by decide)] at hwrite
  exact ⟨tk, congrArg Host.Outcome.next hwrite⟩

/-- BYPREQ is the bypass of the cell (R333). -/
theorem exec_bypreq (h : HostReady s src q (clnkCellctl i)) :
    ∃ tk, exec (.bypreq src i) s = .next (respond (bypassCell { s with tick := tk } i 3) false []) := by
  obtain ⟨tk, hwrite⟩ := hostWrite_cellCtl h (fset (getReg s (clnkCellctl i) &&& 0x1F) clnkCellctl_Bypreq 1)
  rw [cellCtlWrite_command _ _ _ (by decide)] at hwrite
  exact ⟨tk, congrArg Host.Outcome.next hwrite⟩

/-- BYPREL is the end of the bypass (R334). -/
theorem exec_byprel (h : HostReady s src q (clnkCellctl i)) :
    ∃ tk, exec (.byprel src i) s = .next (respond (byprel { s with tick := tk } i) false []) := by
  obtain ⟨tk, hwrite⟩ := hostWrite_cellCtl h (fset (getReg s (clnkCellctl i) &&& 0x1F) clnkCellctl_Byprel 1)
  rw [cellCtlWrite_command _ _ _ (by decide)] at hwrite
  exact ⟨tk, congrArg Host.Outcome.next hwrite⟩
end

/-! ## Bypass of a cell (R333, R334) -/

section
variable {s : State} {i : Nat}

/-- Only the cell, CELLINFO and what a notice writes change; a bypassed cell of the chain shows it in CELLINFO. -/
theorem bypassCell_chain (cause : Nat) (hbyp : (getCell s i).byp = false) (hchain : i % 24 < portN s (i / 24)) (hpol : portPol s (i / 24) < 8) :
    (bypassCell s i cause).mem = s.mem ∧ (∀ j, j ≠ i → getCell (bypassCell s i cause) j = getCell s j) ∧
      getCell (bypassCell s i cause) i = { getCell s i with byp := true } ∧ getF (bypassCell s i cause) (clnkCellinfo i) clnkCellinfo_State = 3 := by
  have hacts : bypassCell s i cause = notice (setF (setCell s i { getCell s i with byp := true }) (clnkCellinfo i) clnkCellinfo_State 3) 0x0B06
      (portPol s (i / 24)) [pw i, Config.causeWord 0x0B06 cause] := by
    unfold bypassCell
    dsimp only
    rw [hbyp, if_neg (by simp [hchain])]
    rfl
  obtain ⟨⟨rg, rec, fr, hshape⟩, hregs⟩ := notice_shape (setF (setCell s i { getCell s i with byp := true }) (clnkCellinfo i) clnkCellinfo_State 3)
    0x0B06 (portPol s (i / 24)) [pw i, Config.causeWord 0x0B06 cause]
  rw [hacts]
  refine ⟨?_, fun j hj => ?_, ?_, ?_⟩
  · rw [hshape]
    rfl
  · rw [hshape]
    exact getCell_setCell_other s _ hj
  · rw [hshape]
    exact getCell_setCell_same s i _
  · rw [getF, hregs _ (by unfold clnkCellinfo poldEvdrop; omega)]
    exact getF_setF_same _ _ _ _ (by decide)

/-- A cell outside the chain is not bypassed. -/
theorem bypassCell_outside (cause : Nat) (hout : portN s (i / 24) ≤ i % 24) : bypassCell s i cause = s := by
  unfold bypassCell
  dsimp only
  rw [if_pos (by simp [hout])]

/-- What keeps a cell bypassed (R334): a closed bypass device, latched faults, the request of the gate itself. -/
def bypHeld (s : State) (i : Nat) : Bool :=
  cellFeat s i 3 || nbits (getCell s i).last.toNat 43 40 != 0 || nbit (cellGet 0 s.win (128 + 4 * i + 2)).toNat 0

theorem byprel_eq (hbyp : (getCell s i).byp = true) : byprel s i =
    if bypHeld s i then s else setF (setCell s i { getCell s i with byp := false }) (clnkCellinfo i) clnkCellinfo_State (cellInfoState (getCell s i)) := by
  have hends : ((getCell s i).byp && !cellFeat s i 3 && nbits (getCell s i).last.toNat 43 40 == 0 &&
      !nbit (cellGet 0 s.win (128 + 4 * i + 2)).toNat 0) = !bypHeld s i := by
    rw [hbyp, bypHeld]
    simp [bne]
  unfold byprel
  dsimp only
  rw [hends]
  cases bypHeld s i <;> rfl

theorem cellInfoState_lt (c : Cell) : cellInfoState c < 8 := by
  unfold cellInfoState
  split
  · decide
  · split <;> decide

/-- The end of a bypass, where nothing holds it. -/
theorem byprel_spec (hbyp : (getCell s i).byp = true) :
    (byprel s i).mem = s.mem ∧ (∀ j, j ≠ i → getCell (byprel s i) j = getCell s j) ∧
      getCell (byprel s i) i = { getCell s i with byp := bypHeld s i } ∧ (bypHeld s i = true → (byprel s i).regs = s.regs) ∧
      (bypHeld s i = false → getF (byprel s i) (clnkCellinfo i) clnkCellinfo_State = cellInfoState (getCell s i)) := by
  have hstays : { getCell s i with byp := true } = getCell s i := by rw [← hbyp]
  rw [byprel_eq hbyp]
  cases bypHeld s i with
  | true => exact ⟨rfl, fun _ _ => rfl, hstays.symm, fun _ => rfl, fun h => absurd h (by decide)⟩
  | false =>
    refine ⟨rfl, fun j hj => getCell_setCell_other s _ hj, getCell_setCell_same s i _, fun h => absurd h (by decide), fun _ => ?_⟩
    exact (getF_setF_same _ _ _ _ (by decide)).trans (Nat.mod_eq_of_lt (cellInfoState_lt _))
end

/-- Settles O32: a force on a carrier that runs only waits, and with the carrier stopped it is applied before the outputs go off; of a write of CELLCTL only the one
command bit acts, and its fields are staged. -/
theorem forcesAndCellControls : Obligations.ForcesAndCellControls := by
  intro s src q
  constructor
  · intro p m h
    have hm : m.toNat < 4 := m.isLt
    obtain ⟨howner, hq⟩ := regOwner_of_ready h (regAt_pwmPforce p) (by decide)
    rw [regOwner_pwmPforce, Option.some.injEq] at howner
    rw [← howner] at hq
    obtain ⟨hmem, hmode⟩ := forceWrite_kept p.isLt hq hm
    refine ⟨_, exec_pwmForce m h, answered_respond _ _, hmem, hmode, fun hruns => ?_, fun hstop htrip => ?_⟩
    · have hwaits : forceWrite s p m.toNat = forceAsked s p m.toNat := by
        rw [forceWrite_eq, carRuns_forceAsked s p _ p.isLt, hruns, if_pos rfl]
      rw [hwaits]
      exact ⟨getPair_forceAsked s p _, getReg_forceAsked s p _ (by unfold pwmPstat pwmPforce; omega)⟩
    · obtain ⟨hforce, hfact, hA, hB⟩ := forceWrite_stopped p.isLt hq hm hstop htrip
      have hzero : decide (m.toNat ≠ 0) = decide (m ≠ 0) := by simp [BitVec.toNat_eq]
      exact ⟨congrArg Prod.snd hforce, congrArg Prod.fst hforce, hfact.trans hzero, hA, hB⟩
  · intro i h others
    obtain ⟨howner, hq⟩ := regOwner_of_ready h (regAt_clnkCellctl i) (by decide)
    rw [regOwner_clnkCellctl, Option.some.injEq] at howner
    rw [← howner] at hq
    refine ⟨?_, fun hout => ?_, fun hbyp hchain => ?_, fun hbyp => ?_⟩
    · obtain ⟨tk, hrun⟩ := exec_fclr h
      exact ⟨_, hrun, ⟨answered_respond _ _, rfl, fun j hj => getCell_setCell_other _ _ hj⟩, getCell_setCell_same _ _ _, rfl⟩
    · obtain ⟨tk, hrun⟩ := exec_bypreq h
      rw [bypassCell_outside (s := { s with tick := tk }) 3 hout] at hrun
      exact ⟨_, hrun, ⟨answered_respond _ _, rfl, fun _ _ => rfl⟩, rfl, rfl⟩
    · obtain ⟨tk, hrun⟩ := exec_bypreq h
      obtain ⟨hmem, hothers, hcell, hinfo⟩ := bypassCell_chain (s := { s with tick := tk }) 3 hbyp hchain hq
      exact ⟨_, hrun, ⟨answered_respond _ _, hmem, hothers⟩, hcell, hinfo⟩
    · obtain ⟨tk, hrun⟩ := exec_byprel h
      obtain ⟨hmem, hothers, hcell, hheld, hends⟩ := byprel_spec (s := { s with tick := tk }) (i := i) hbyp
      exact ⟨_, hrun, ⟨answered_respond _ _, hmem, hothers⟩, hcell, hheld, hends⟩

end Sys2Proof.Proofs
end

section
/-! SUPPORT. Proofs. The calibration port (R387–R391): the bytes that a CRC seals, what an answer leaves alone, the answer of each command. -/

namespace Sys2Proof.Proofs

open Sys2Proof.Machine Sys2Proof.Claims

/-! ## Requests and answers (R306, R387) -/

/-- The bytes of a request or an answer, with an index of one byte. -/
theorem calBytes_of_lt (head pid : Nat) {idx : Nat} (h : idx < 256) (v : Word) :
    calBytes head pid idx v = [head] ++ beBytes 2 pid ++ [idx] ++ beBytes 4 v.toNat := by
  unfold calBytes
  rw [Nat.mod_eq_of_lt h]
  simp

/-- An answer carries its CRC. -/
def CalSealed (r : CalResp) : Prop := r.crc = crc16 ([r.status] ++ beBytes 2 r.pid ++ [r.idx] ++ beBytes 4 r.value.toNat)

/-- The port answers with a status. -/
def CalAnswered (t : State) (status pid idx : Nat) : Prop :=
  ∃ r, t.met.resp = some r ∧ r.status = status ∧ r.pid = pid ∧ r.idx = idx ∧ CalSealed r

/-- The port answers with a value. -/
def CalGives (t : State) (pid idx : Nat) (w : Word) : Prop :=
  ∃ r, t.met.resp = some r ∧ r.status = 0 ∧ r.pid = pid ∧ r.idx = idx ∧ r.value = w ∧ CalSealed r

/-- The committed parameters, the log and the retained state of the die, and the registers and memory of the compute die, are as before. -/
def CalKeeps (s t : State) : Prop :=
  t.met.params = s.met.params ∧ t.met.log = s.met.log ∧ t.met.keep = s.met.keep ∧ t.regs = s.regs ∧ t.mem = s.mem

theorem calKeeps_refl (s : State) : CalKeeps s s := ⟨rfl, rfl, rfl, rfl, rfl⟩

section
variable {s t : State} {st p i : Nat}

theorem calSealed_mk (hi : i < 256) (w : Word) : CalSealed ⟨st, p, i, w, crc16 (calBytes st p i w)⟩ := by
  unfold CalSealed
  rw [calBytes_of_lt st p hi]

theorem calAnswered_calAnswer (hi : i < 256) (v : Option Word) : CalAnswered (calAnswer s st p i v) st p i := by
  obtain ⟨w, -, hm⟩ := calAnswer_met s st p i v
  exact ⟨⟨st, p, i, w, crc16 (calBytes st p i w)⟩, by rw [hm], rfl, rfl, rfl, calSealed_mk hi w⟩

theorem calGives_calAnswer (hi : i < 256) (w : Word) : CalGives (calAnswer s 0 p i (some w)) p i w :=
  ⟨⟨0, p, i, w, crc16 (calBytes 0 p i w)⟩, rfl, rfl, rfl, rfl, rfl, calSealed_mk hi w⟩

/-- An answer leaves what a request does. -/
theorem calKeeps_calAnswer (h : CalKeeps s t) (v : Option Word) : CalKeeps s (calAnswer t st p i v) := by
  obtain ⟨w, -, hm⟩ := calAnswer_met t st p i v
  unfold CalKeeps
  rw [calAnswer_regs, calAnswer_mem, hm]
  exact h

theorem calAnswer_pend (v : Option Word) : (calAnswer s st p i v).met.pend = s.met.pend := by
  obtain ⟨w, -, hm⟩ := calAnswer_met s st p i v
  rw [hm]
end

/-! ## The commands (R388–R391) -/

section
variable {s : State} {cmd : Nat} {pid : BitVec 16} {idx : BitVec 8} {v : BitVec 32} {crc : BitVec 16}

/-- The request's CRC is right (R387). -/
def CalGood (cmd : Nat) (pid : BitVec 16) (idx : BitVec 8) (v : BitVec 32) (crc : BitVec 16) : Prop :=
  crc16 ([cmd] ++ beBytes 2 pid.toNat ++ [idx.toNat] ++ beBytes 4 v.toNat) = crc.toNat

theorem calRequest_of_good (hon : metOn s = true) (h : CalGood cmd pid idx v crc) (f : State → State) :
    calRequest s cmd pid idx v crc f = f s := by
  unfold CalGood at h
  rw [← calBytes_of_lt _ _ idx.isLt] at h
  unfold calRequest
  rw [hon, if_neg (by decide), if_pos h]

theorem calRequest_of_bad (hon : metOn s = true) (h : ¬CalGood cmd pid idx v crc) (f : State → State) :
    calRequest s cmd pid idx v crc f = setMet s { s.met with resp := none } := by
  unfold CalGood at h
  rw [← calBytes_of_lt _ _ idx.isLt] at h
  unfold calRequest
  rw [hon, if_neg (by decide), if_neg h]

theorem exec_read_of_good (hon : metOn s = true) (h : CalGood 1 pid idx v crc) : exec (.read pid idx v crc) s = .next
    (if idx.toNat < metCount pid.toNat then calAnswer s 0 pid.toNat idx.toNat (some (metPar s.met pid.toNat idx.toNat))
      else calAnswer s 1 pid.toNat idx.toNat none) :=
  congrArg Host.Outcome.next (calRequest_of_good hon h _)

/-- The die with one more value pending. -/
def calPending (s : State) (pid idx : Nat) (v : Word) : State := setMet s { s.met with pend := cellPut s.met.pend (metKey pid idx) v }

/-- Only the value that is written becomes pending. -/
theorem metNext_calPending (s : State) (p i q k : Nat) (v : Word) :
    metNext (calPending s p i v).met q k = if metKey q k = metKey p i then v else metNext s.met q k := by
  show (cellFind (cellPut s.met.pend (metKey p i) v) (metKey q k)).getD (metPar s.met q k) = _
  split
  · rename_i h
    rw [h, cellFind_put_same]
    rfl
  · rename_i h
    rw [cellFind_put_other _ _ h]
    rfl

theorem metNext_calAnswer (s : State) (st p i q k : Nat) (v : Option Word) : metNext (calAnswer s st p i v).met q k = metNext s.met q k := by
  obtain ⟨w, -, hm⟩ := calAnswer_met s st p i v
  rw [hm]
  rfl

theorem exec_write_of_good (hon : metOn s = true) (h : CalGood 2 pid idx v crc) : exec (.write pid idx v crc) s = .next
    (if metCount pid.toNat ≤ idx.toNat then calAnswer s 1 pid.toNat idx.toNat none
      else if !s.met.broken then calAnswer s 3 pid.toNat idx.toNat none
      else if metRange s.met pid.toNat idx.toNat v then calAnswer (calPending s pid.toNat idx.toNat v) 0 pid.toNat idx.toNat none
      else calAnswer s 2 pid.toNat idx.toNat none) :=
  congrArg Host.Outcome.next (calRequest_of_good hon h _)

/-- A value in its range becomes pending while the seal is broken. -/
theorem exec_write_taken (hon : metOn s = true) (h : CalGood 2 pid idx v crc) (hknown : idx.toNat < metCount pid.toNat) (hbroken : s.met.broken = true)
    (hrange : metRange s.met pid.toNat idx.toNat v = true) :
    exec (.write pid idx v crc) s = .next (calAnswer (calPending s pid.toNat idx.toNat v) 0 pid.toNat idx.toNat none) := by
  rw [exec_write_of_good hon h, if_neg (by omega), if_neg (by simp [hbroken]), if_pos hrange]

/-- Any other WRITE is only answered: no parameter, the seal intact, out of range. -/
theorem exec_write_refused (hon : metOn s = true) (h : CalGood 2 pid idx v crc)
    (hnot : ¬(idx.toNat < metCount pid.toNat ∧ s.met.broken = true ∧ metRange s.met pid.toNat idx.toNat v = true)) :
    exec (.write pid idx v crc) s = .next (calAnswer s
      (if decide (idx.toNat < metCount pid.toNat) = false then 1 else if s.met.broken then 2 else 3) pid.toNat idx.toNat none) := by
  rw [exec_write_of_good hon h]
  by_cases hknown : idx.toNat < metCount pid.toNat
  · have hpar : ¬(decide (idx.toNat < metCount pid.toNat) = false) := by simp [hknown]
    rw [if_neg (by omega), if_neg hpar]
    cases hbroken : s.met.broken with
    | false => rfl
    | true =>
      have hrange : ¬metRange s.met pid.toNat idx.toNat v = true := fun hr => hnot ⟨hknown, hbroken, hr⟩
      rw [if_neg (by decide), if_neg hrange, if_pos rfl]
  · rw [if_pos (by omega), if_pos (by simp [hknown])]

theorem exec_commit_of_good (hon : metOn s = true) (h : CalGood 3 pid idx v crc) : exec (.commit pid idx v crc) s = .next
    (if !s.met.broken then calAnswer s 3 pid.toNat idx.toNat none
      else if !ptRules s.met then calAnswer s 2 pid.toNat idx.toNat none
      else if 1024 < s.met.log.length + (metChanges s.met).length then calAnswer s 4 pid.toNat idx.toNat none
      else setMet s { s.met with commitAsked := some (pid.toNat, idx.toNat), resp := none }) :=
  congrArg Host.Outcome.next (calRequest_of_good hon h _)

/-- A COMMIT waits for the window start while the seal is broken, the rules of R376 hold and the log has room. -/
theorem exec_commit_taken (hon : metOn s = true) (h : CalGood 3 pid idx v crc) (hbroken : s.met.broken = true) (hrules : ptRules s.met = true)
    (hroom : s.met.log.length + (metChanges s.met).length ≤ 1024) :
    exec (.commit pid idx v crc) s = .next (setMet s { s.met with commitAsked := some (pid.toNat, idx.toNat), resp := none }) := by
  rw [exec_commit_of_good hon h, if_neg (by simp [hbroken]), if_neg (by simp [hrules]), if_neg (by omega)]

/-- Any other COMMIT is refused at once. -/
theorem exec_commit_refused (hon : metOn s = true) (h : CalGood 3 pid idx v crc)
    (hnot : ¬(s.met.broken = true ∧ ptRules s.met = true ∧ s.met.log.length + (metChanges s.met).length ≤ 1024)) :
    exec (.commit pid idx v crc) s = .next
      (calAnswer s (if s.met.broken = false then 3 else if ptRules s.met = false then 2 else 4) pid.toNat idx.toNat none) := by
  rw [exec_commit_of_good hon h]
  cases hbroken : s.met.broken with
  | false => rfl
  | true =>
    cases hrules : ptRules s.met with
    | false => rfl
    | true =>
      have hfull : 1024 < s.met.log.length + (metChanges s.met).length := by
        by_contra hroom
        exact hnot ⟨hbroken, hrules, by omega⟩
      rw [if_neg (by decide), if_neg (by decide), if_pos hfull]
      rfl

theorem exec_discard_of_good (hon : metOn s = true) (h : CalGood 4 pid idx v crc) : exec (.discard pid idx v crc) s = .next
    (calAnswer (setMet s { s.met with pend := [], commitAsked := none }) 0 pid.toNat idx.toNat none) :=
  congrArg Host.Outcome.next (calRequest_of_good hon h _)

/-- IDENT answers program version, ROM CRC and serial number under PID 0, 1 and 2 (R387). -/
theorem exec_ident_of_good (hon : metOn s = true) (h : CalGood 5 pid idx v crc) :
    ∃ st a, exec (.ident pid idx v crc) s = .next (calAnswer s st pid.toNat idx.toNat a) ∧
      (pid = 0 → st = 0 ∧ a = some (BitVec.ofNat 32 s.met.ver)) ∧ (pid = 1 → st = 0 ∧ a = some s.met.romCrc) ∧
      (pid = 2 → st = 0 ∧ a = some s.met.serial) ∧ (2 < pid.toNat → st = 1) := by
  have hexec : exec (.ident pid idx v crc) s = .next _ := congrArg Host.Outcome.next (calRequest_of_good hon h _)
  have hne {k : BitVec 16} (hk : pid.toNat ≠ k.toNat) : pid ≠ k := fun e => hk (congrArg BitVec.toNat e)
  rw [hexec]
  match hpid : pid.toNat with
  | 0 => exact ⟨0, _, rfl, fun _ => ⟨rfl, rfl⟩, fun e => absurd e (hne (by rw [hpid]; decide)), fun e => absurd e (hne (by rw [hpid]; decide)), by omega⟩
  | 1 => exact ⟨0, _, rfl, fun e => absurd e (hne (by rw [hpid]; decide)), fun _ => ⟨rfl, rfl⟩, fun e => absurd e (hne (by rw [hpid]; decide)), by omega⟩
  | 2 => exact ⟨0, _, rfl, fun e => absurd e (hne (by rw [hpid]; decide)), fun e => absurd e (hne (by rw [hpid]; decide)), fun _ => ⟨rfl, rfl⟩, by omega⟩
  | k + 3 =>
    have hbeyond {c : BitVec 16} (hc : c.toNat < 3) : pid ≠ c := hne (by omega)
    exact ⟨1, none, rfl, fun e => absurd e (hbeyond (by decide)), fun e => absurd e (hbeyond (by decide)), fun e => absurd e (hbeyond (by decide)),
      fun _ => rfl⟩

/-- READLOG answers a word of a log entry. -/
theorem exec_readlog_of_good (hon : metOn s = true) (h : CalGood 6 pid idx v crc) :
    ∃ st a, exec (.readlog pid idx v crc) s = .next (calAnswer s st pid.toNat idx.toNat a) ∧
      (1023 < pid.toNat ∨ 7 < idx.toNat → st = 1) ∧
      ∀ r, s.met.log[pid.toNat]? = some r → pid.toNat ≤ 1023 → idx.toNat ≤ 7 → st = 0 ∧ a = some (r.getD idx.toNat 0) := by
  have hexec : exec (.readlog pid idx v crc) s = .next _ := congrArg Host.Outcome.next (calRequest_of_good hon h _)
  rw [hexec]
  dsimp only
  by_cases hbeyond : 1023 < pid.toNat ∨ 7 < idx.toNat
  · rw [if_pos hbeyond]
    exact ⟨1, none, rfl, fun _ => rfl, fun _ _ hp hi => by omega⟩
  · rw [if_neg hbeyond]
    cases hlog : s.met.log[pid.toNat]? with
    | none => exact ⟨5, none, rfl, fun h => absurd h hbeyond, fun _ hr => nomatch hr⟩
    | some r => exact ⟨0, _, rfl, fun h => absurd h hbeyond, fun _ hr _ _ => ⟨rfl, by rw [Option.some.inj hr]⟩⟩

/-- A request of any command with a wrong CRC is not answered (R387). -/
theorem exec_calibration_of_bad {c : Instr} (hon : metOn s = true)
    (hc : (cmd, c) ∈ [(1, Instr.read pid idx v crc), (2, .write pid idx v crc), (3, .commit pid idx v crc), (4, .discard pid idx v crc),
      (5, .ident pid idx v crc), (6, .readlog pid idx v crc)]) (h : ¬CalGood cmd pid idx v crc) :
    exec c s = .next (setMet s { s.met with resp := none }) := by
  simp only [List.mem_cons, Prod.mk.injEq, List.not_mem_nil, or_false] at hc
  obtain ⟨rfl, rfl⟩ | ⟨rfl, rfl⟩ | ⟨rfl, rfl⟩ | ⟨rfl, rfl⟩ | ⟨rfl, rfl⟩ | ⟨rfl, rfl⟩ := hc <;>
    exact congrArg Host.Outcome.next (calRequest_of_bad hon h _)

theorem exec_calRequestGap (hon : metOn s = true) (hasked : s.met.commitAsked = none) :
    exec .calRequestGap s = .next (setMet s { s.met with resp := none }) :=
  next_of_true (by rw [hon, hasked]; rfl) _ _
end

/-- Settles O23: each command by the lemma that says what it answers. -/
theorem calibrationPortAnswers : Obligations.CalibrationPortAnswers := by
  intro s pid idx v crc hrun hca
  have hon : metOn s = true := metOn_of_on hrun hca
  have hi : idx.toNat < 256 := idx.isLt
  have hanswer (st : Nat) (a : Option Word) : CalKeeps s (calAnswer s st pid.toNat idx.toNat a) := calKeeps_calAnswer (calKeeps_refl s) a
  refine ⟨fun h => ?_, fun h => ?_, fun h => ?_, fun h => ?_, fun h => ?_, fun h => ?_, fun c k hc h => ?_, fun h => ?_⟩
  · refine ⟨_, exec_read_of_good hon h, ?_⟩
    by_cases hknown : idx.toNat < metCount pid.toNat
    · rw [if_pos hknown, if_pos (decide_eq_true hknown)]
      exact ⟨hanswer _ _, calAnswer_pend _, calGives_calAnswer hi _⟩
    · rw [if_neg hknown, if_neg (by simp [hknown])]
      exact ⟨hanswer _ _, calAnswer_pend _, calAnswered_calAnswer hi _⟩
  · by_cases htaken : idx.toNat < metCount pid.toNat ∧ s.met.broken = true ∧ metRange s.met pid.toNat idx.toNat v = true
    · obtain ⟨hknown, hbroken, hrange⟩ := htaken
      refine ⟨_, exec_write_taken hon h hknown hbroken hrange, calKeeps_calAnswer ⟨rfl, rfl, rfl, rfl, rfl⟩ _, ?_⟩
      rw [if_pos ⟨decide_eq_true hknown, hbroken, hrange⟩]
      refine ⟨calAnswered_calAnswer hi _, ?_, fun q k hq => ?_⟩
      · rw [metNext_calAnswer, metNext_calPending, if_pos rfl]
      · rw [metNext_calAnswer, metNext_calPending, if_neg hq]
    · refine ⟨_, exec_write_refused hon h htaken, hanswer _ _, ?_⟩
      rw [if_neg (by rwa [decide_eq_true_eq])]
      exact ⟨calAnswer_pend _, calAnswered_calAnswer hi _⟩
  · by_cases htaken : s.met.broken = true ∧ ptRules s.met = true ∧ s.met.log.length + (metChanges s.met).length ≤ 1024
    · obtain ⟨hbroken, hrules, hroom⟩ := id htaken
      refine ⟨_, exec_commit_taken hon h hbroken hrules hroom, ⟨rfl, rfl, rfl, rfl, rfl⟩, rfl, ?_⟩
      rw [if_pos htaken]
      rfl
    · refine ⟨_, exec_commit_refused hon h htaken, hanswer _ _, calAnswer_pend _, ?_⟩
      rw [if_neg htaken]
      exact calAnswered_calAnswer hi _
  · exact ⟨_, exec_discard_of_good hon h, calKeeps_calAnswer ⟨rfl, rfl, rfl, rfl, rfl⟩ _, calAnswer_pend _, calAnswered_calAnswer hi _⟩
  · obtain ⟨st, a, hexec, hver, hrom, hserial, hbeyond⟩ := exec_ident_of_good hon h
    have hgives {w : Word} (hw : st = 0 ∧ a = some w) : CalGives (calAnswer s st pid.toNat idx.toNat a) pid.toNat idx.toNat w := by
      rw [hw.1, hw.2]
      exact calGives_calAnswer hi w
    refine ⟨_, hexec, hanswer _ _, fun e => hgives (hver e), fun e => hgives (hrom e), fun e => hgives (hserial e), fun e => ?_⟩
    rw [hbeyond e]
    exact calAnswered_calAnswer hi _
  · obtain ⟨st, a, hexec, hbeyond, hword⟩ := exec_readlog_of_good hon h
    refine ⟨_, hexec, hanswer _ _, fun e => ?_, fun r hr hp hx => ?_⟩
    · rw [hbeyond e]
      exact calAnswered_calAnswer hi _
    · obtain ⟨rfl, rfl⟩ := hword r hr hp hx
      exact calGives_calAnswer hi _
  · exact ⟨_, exec_calibration_of_bad hon hc h, rfl, rfl, rfl⟩
  · exact ⟨_, exec_calRequestGap hon h, rfl, rfl, rfl⟩

end Sys2Proof.Proofs
end

section
/-! SUPPORT. Proofs. A short chain on a port whose owner in the resource map is no polder (R309, R310): what the model counts for the dropped fault of such an
owner falls upon a serial number of the chain. -/

namespace Sys2Proof.Proofs

open Sys2Proof.Machine Sys2Proof.Claims

/-- What a register holds where a command leads. -/
def registerAfter (o : Host.Outcome State Fault Refusal) (a : Nat) : Option Word :=
  match o with
  | .next t => some (getReg t a)
  | _ => none

/-! ## The state -/

/-- An owner number that is no polder's: its POLD.EVDROP stands where CLNK.CELLSER of cell 0 does. -/
def strayPortOwner : Nat := (clnkCellser 0 - poldEvdrop 0) / 4

/-- The record of a cell with serial number 0, at 250 MBd and without features, with its CRC. -/
def zeroRec : BitVec 128 := BitVec.ofNat 128 (crc16 (List.replicate 14 0))

/-- Port 0 waits for the answers to ENUM, of one or two cells. It belongs to the stray owner, which has had its 64 events of the tick and holds the
capture of an earlier fault, so that the time of this one, which is free, is not captured. -/
def strayChainState : State :=
  let s := setF (setF State.reset (clnkPcfg 0) clnkPcfg_Nmin 1) (clnkPcfg 0) clnkPcfg_Nexp 2
  { setPort (setB s (fltCapa strayPortOwner) fltCapa_Valid true) 0 { portReset with step := 2 } with
    img := { imgReset with resmap := [(resPort 0, strayPortOwner)] }
    recorder := { recReset with scanning := false, placed := [(strayPortOwner, 64)] } }

theorem chain_strayChainState : (getPort strayChainState 0).step = 2 ∧ [zeroRec].all discOk = true ∧
    getF strayChainState (clnkPcfg 0) clnkPcfg_Nmin ≤ 1 ∧ 1 ≤ getF strayChainState (clnkPcfg 0) clnkPcfg_Nexp := by decide +kernel

/-- The fault finds its owner's share of the tick full, and the drop is counted in CELLSER. -/
theorem serial_strayChain : registerAfter (exec (.clDiscReceived 0 [zeroRec]) strayChainState) (clnkCellser 0) = some 1 := by decide +kernel

/-- Refutes O18. The resource map's owners have no bound in the model's states, and a dropped event is counted in POLD.EVDROP of its scope whatever number
that is. A chain of one cell where two are expected raises the fault 0x0B03 for an owner whose counter would stand where CELLSER of that cell does: its serial
number reads 1, and its record said 0. -/
theorem not_discoveryEchoAndTimeouts : ¬ Obligations.DiscoveryEchoAndTimeouts := by
  unfold Obligations.DiscoveryEchoAndTimeouts
  intro h
  obtain ⟨hdiscovery, -⟩ := h
  obtain ⟨hstep, hok, hmin, hexp⟩ := chain_strayChainState
  obtain ⟨-, hanswered⟩ := hdiscovery strayChainState 0 [zeroRec] hstep
  obtain ⟨hfits, -⟩ := hanswered hok
  obtain ⟨t, ht, -, -, -, -, -, -, -, hserial⟩ := hfits ⟨hmin, hexp⟩ (by decide)
  have hafter : some (getReg t (clnkCellser 0)) = some 1 := by
    rw [← serial_strayChain, ht]
    rfl
  exact absurd ((Option.some.inj hafter).symm.trans (hserial 0 zeroRec rfl)) (by decide +kernel)

end Sys2Proof.Proofs
end

section
/-! SUPPORT. Proofs. The start-up of a cell-link chain (R307–R314): what entering a step leaves of the port, what a fault of the chain leaves of its step,
and RUN with the cells of the chain. -/

namespace Sys2Proof.Proofs

open Sys2Proof.Machine Sys2Proof.Claims

/-! ## Events leave the start-up step of every port -/

/-- The start-up step of port `r`. -/
def startStep (r : Nat) (s : State) : Nat := (getPort s r).step

section
variable (s : State) (r : Nat)

theorem startStep_of_ports {s t : State} (h : t.ports = s.ports) (r : Nat) : startStep r t = startStep r s := by
  unfold startStep getPort
  rw [h]

theorem startStep_setPort {n : Nat} {x : Port} (h : x.step = (getPort s n).step) : startStep r (setPort s n x) = startStep r s := by
  unfold startStep
  by_cases hr : r = n
  · rw [hr, getPort_setPort_same, h]
  · rw [getPort_setPort_other s x hr]

theorem startStep_portInh (n : Nat) : startStep r (portInh s n) = startStep r s := by
  unfold portInh
  split
  · rfl
  · exact startStep_setPort s r rfl

theorem startStep_portSafe (n : Nat) : startStep r (portSafe s n) = startStep r s := startStep_portInh _ r n

theorem ports_pairRefresh (p : Nat) (start : Bool) : (pairRefresh s p start).ports = s.ports := by
  obtain ⟨_, _, h⟩ := (pairStep_pairRefresh s p start).shape
  rw [h]

theorem ports_pairTrip (p : Nat) (f : Fld) : (pairTrip s p f).ports = s.ports := by
  obtain ⟨_, _, h⟩ := (pairStep_pairTrip s p f).shape
  rw [h]

theorem ports_safePairs : (safePairs s).ports = s.ports :=
  forEach_keeps (·.ports) _ s _ fun u p => by
    split
    · exact ports_pairRefresh u p false
    · exact ports_pairTrip u p pwmPstat_Safe

theorem ports_refreshOuts : (refreshOuts s).ports = s.ports :=
  forEach_keeps (·.ports) (upto 8) s _ fun u k => by
    dsimp only
    split <;> rfl

theorem startStep_demand (brk : Nat) : startStep r (demand s brk) = startStep r s := by
  have hline (u : State) : startStep r (lineOff u) = startStep r u :=
    (forEach_keeps (startStep r) _ _ _ fun v n => startStep_portSafe v r n).trans (startStep_of_ports (ports_safePairs u) r)
  unfold demand demandBy
  dsimp only
  rw [startStep_of_ports (ports_refreshOuts _)]
  split
  · exact hline _
  · rfl

theorem ports_enqueue (e : Event) : (enqueue s e).ports = s.ports := by
  unfold enqueue enqueueKeep
  dsimp only
  split
  · split <;> rfl
  · split <;> rfl

theorem ports_notice (code scope : Nat) (l : List Word) : (notice s code scope l).ports = s.ports := ports_enqueue s _

theorem startStep_refreshFaults : startStep r (refreshFaults s) = startStep r s := by
  have hsums : (forEach (upto 8) s fun s p => startModeHold (refreshSum s p) p).ports = s.ports :=
    forEach_keeps (·.ports) _ _ _ fun u p => by
      unfold startModeHold
      split <;> rfl
  have hlatch (u : State) : (latchAllConds (refreshPins u)).ports = u.ports := forEach_keeps (·.ports) _ (refreshPins u) _ fun _ _ => rfl
  unfold refreshFaults
  generalize forEach (upto 8) s (fun s p => startModeHold (refreshSum s p) p) = u at hsums ⊢
  dsimp only
  rw [startStep_of_ports (hlatch _), ← startStep_of_ports hsums]
  split
  · rw [startStep_of_ports (ports_notice _ _ _ _), startStep_demand]
    rfl
  · rfl

theorem ports_requestReset (p : Nat) (c : ResetCause) : (requestReset s p c).ports = s.ports := by
  unfold requestReset
  split <;> rfl

theorem startStep_isolate (p : Nat) (reset : Bool) : startStep r (isolate s p reset) = startStep r s := by
  have htrip : (tripPolder s p).ports = s.ports :=
    (forEach_keeps (·.ports) _ _ portTripRst fun _ _ => rfl).trans
      (forEach_keeps (·.ports) _ _ pairTripRst fun u k => ports_pairTrip _ k pwmPstat_Rst)
  have hline : startStep r (forEach (portsOf s p) (tripPolder s p) portInh) = startStep r s :=
    (forEach_keeps (startStep r) _ _ _ fun u n => startStep_portInh u r n).trans (startStep_of_ports htrip r)
  unfold isolate
  generalize forEach (portsOf s p) (tripPolder s p) portInh = u at hline ⊢
  dsimp only
  split
  · exact (startStep_of_ports (ports_requestReset _ p .isolation) r).trans hline
  · exact hline

theorem startStep_when' (b : Bool) (f : State → State) (h : startStep r (f s) = startStep r s) : startStep r (when' b f s) = startStep r s := by
  unfold when'
  split
  · exact h
  · rfl

theorem ports_captureFault (e : Event) (esc : Bool) : (captureFault s e esc).ports = s.ports := by
  unfold captureFault
  dsimp only
  split <;> rfl

theorem startStep_collect (code cls scope : Nat) (l : List Word) (hk : Option Nat) (reset : Bool) :
    startStep r (collect s code cls scope l hk reset) = startStep r s := by
  have hcapture (b : Bool) (e : Event) (esc : Bool) (u : State) : startStep r (if b then captureFault u e esc else u) = startStep r u := by
    split
    · exact startStep_of_ports (ports_captureFault u e esc) r
    · rfl
  unfold collect
  dsimp only
  rw [startStep_refreshFaults, startStep_when' _ _ _ _ (startStep_demand _ _ _),
    startStep_when' _ _ _ _ (forEach_keeps (startStep r) _ _ _ fun u p => startStep_isolate u r p _),
    startStep_when' _ _ _ _ (startStep_isolate _ _ _ _), startStep_when' _ _ _ _ rfl, hcapture]
  refine (startStep_when' _ _ _ _ (startStep_of_ports (ports_notice _ _ _ _) r)).trans ?_
  rw [startStep_of_ports (ports_enqueue _ _)]
  exact startStep_when' _ _ _ _ rfl

/-- An event leaves the step of every chain. -/
theorem startStep_event (code cls scope : Nat) (l : List Word) : startStep r (event s code cls scope l) = startStep r s := by
  unfold event
  split
  · exact startStep_of_ports (ports_notice s code scope l) r
  · exact startStep_collect s r code cls scope l none true
end

/-! ## A start-up step is entered (R307) -/

/-- What a start-up step sends. -/
def stepTx : Nat → Tx
  | 2 => .enum
  | 3 => .config
  | 4 => .rate
  | 5 => .echo
  | 6 => .timing
  | _ => .idle

/-- The state that PSTAT shows in a start-up step; step 7 is RUN (R339). -/
def stepState (k : Nat) : Nat := if k ≤ 2 then 1 else if k = 3 then 2 else if k = 4 then 3 else if k ≤ 6 then 4 else 5

theorem stepLine_tx (s : State) (x : Port) : (stepLine s x).1 = stepTx x.step := by
  unfold stepLine
  generalize x.step = k
  match k with
  | 0 | 1 | 2 | 3 | 4 | 5 | 6 => rfl
  | _ + 7 => rfl

/-- What a port sends: IDLE while the tick is lost (R325). -/
def portLine (s : State) (x : Port) : Tx × List Nat := if s.dev.tickLost then (.idle, clIdle) else stepLine s x

theorem portLine_tx (s : State) (x : Port) : (portLine s x).1 = if s.dev.tickLost then .idle else stepTx x.step := by
  unfold portLine
  split
  · rfl
  · exact stepLine_tx s x

/-- A port that enters step `k`, before it sends. -/
def stepEntered (x : Port) (k : Nat) : Port := { x with step := k, tries := 0, echo := [] }

section
variable (s : State) (n k : Nat)

theorem getPort_portSend : getPort (portSend s n) n =
    { getPort s n with tx := (portLine s (getPort s n)).1, line := (portLine s (getPort s n)).2 } :=
  getPort_setPort_same s n _

theorem getPort_portStep : ∃ l, getPort (portStep s n k) n =
    { stepEntered (getPort s n) k with tx := if s.dev.tickLost then .idle else stepTx k, line := l } := by
  unfold portStep
  rw [getPort_portSend, getPort_setPort_same, portLine_tx]
  exact ⟨_, rfl⟩

/-- The step of ENUM sends its frame. -/
theorem line_portStep_enum : (getPort (portStep s n 2) n).line = if s.dev.tickLost then clIdle else linkFrame 0 [0] := by
  unfold portStep
  rw [getPort_portSend, getPort_setPort_same]
  exact apply_ite Prod.snd _ _ _

theorem portState_portStep : portState (portStep s n k) n = stepState k := by
  have hlt : stepState k < 8 := by
    unfold stepState
    split_ifs <;> decide
  exact (getF_setF_same s (clnkPstat n) clnkPstat_State (stepState k) (by decide)).trans (Nat.mod_eq_of_lt hlt)

theorem rate_portStep : getF (portStep s n k) (clnkPstat n) clnkPstat_Rate = getF s (clnkPstat n) clnkPstat_Rate :=
  getF_setF_field s (clnkPstat n) clnkPstat_State clnkPstat_Rate _ (by decide) (by decide) (by decide)

/-- Entering a step: the step, what the port sends, the state it shows. -/
theorem portStep_spec : (getPort (portStep s n k) n).step = k ∧
    (getPort (portStep s n k) n).tx = (if s.dev.tickLost then .idle else stepTx k) ∧ portState (portStep s n k) n = stepState k := by
  obtain ⟨l, hport⟩ := getPort_portStep s n k
  rw [hport]
  exact ⟨rfl, rfl, portState_portStep s n k⟩
end

/-! ## FAULT (R308, R311) -/

/-- A chain in FAULT is in no step, and holds its fault. -/
theorem portFault_spec (s : State) (n code : Nat) (l : List Word) :
    (getPort (portFault s n code l) n).step = 0 ∧ FaultHeld (portFault s n code l) code 2 (portPol s n) (pw n) := by
  refine ⟨?_, faultHeld_event (l := pw n :: l) (by decide)⟩
  refine (startStep_event _ n _ _ _ _).trans ?_
  exact congrArg Port.step (getPort_setPort_same _ n _)

/-- The restart after FAULT (R308). -/
theorem portStart_spec (s : State) (n : Nat) : (getPort (portStart s n) n).step = 1 ∧ (getPort (portStart s n) n).tx = .idle ∧
    portState (portStart s n) n = 1 ∧ getF (portStart s n) (clnkPstat n) clnkPstat_Rate = 0 ∧ (getPort (portStart s n) n).recs = [] := by
  have hentered (u : State) (hrecs : (getPort u n).recs = []) (hrate : getF u (clnkPstat n) clnkPstat_Rate = 0) :
      (getPort (portStep u n 1) n).step = 1 ∧ (getPort (portStep u n 1) n).tx = .idle ∧ portState (portStep u n 1) n = 1 ∧
        getF (portStep u n 1) (clnkPstat n) clnkPstat_Rate = 0 ∧ (getPort (portStep u n 1) n).recs = [] := by
    obtain ⟨l, hport⟩ := getPort_portStep u n 1
    rw [portState_portStep, rate_portStep, hport]
    exact ⟨rfl, ite_self _, rfl, hrate, hrecs⟩
  refine hentered _ ?_ ?_
  · exact congrArg Port.recs (getPort_setPort_same _ n _)
  · exact getF_setF_same s (clnkPstat n) clnkPstat_Rate 0 (by decide)

/-! ## RUN (R312) -/

theorem forEach_upto_succ (k : Nat) (s : State) (f : State → Nat → State) : forEach (upto (k + 1)) s f = f (forEach (upto k) s f) k :=
  List.foldl_append

/-- Position `p` of the chain enters RUN: its CELLINFO, and `now` as the time of every pass that it has not had. -/
def cellRuns (n : Nat) (now : Nat × Nat) (s : State) (p : Nat) : State :=
  let i := 24 * n + p
  let c := getCell s i
  let s := setF s (clnkCellinfo i) clnkCellinfo_State (if c.byp then 3 else 2)
  setCell s i { c with pass := (upto 8).foldl (fun m k => if (cellFind m k).isSome then m else cellPut m k now) c.pass }

/-- The first `k` positions of a chain have entered RUN. -/
structure CellsRun (s t : State) (n k : Nat) : Prop where
  shape : ∃ rg cs, t = { s with regs := rg, cells := cs }
  regs : ∀ a, a < clnkCellinfo 0 → getReg t a = getReg s a
  byp : ∀ i, (getCell t i).byp = (getCell s i).byp
  info : ∀ p < k, getF t (clnkCellinfo (24 * n + p)) clnkCellinfo_State = if (getCell s (24 * n + p)).byp then 3 else 2

theorem cellsRun_forEach (s : State) (n k : Nat) (now : Nat × Nat) : CellsRun s (forEach (upto k) s (cellRuns n now)) n k := by
  induction k with
  | zero => exact ⟨⟨_, _, rfl⟩, fun _ _ => rfl, fun _ => rfl, fun p hp => absurd hp (by omega)⟩
  | succ k ih =>
    rw [forEach_upto_succ]
    generalize forEach (upto k) s (cellRuns n now) = u at ih
    obtain ⟨⟨rg, cs, hshape⟩, hregs, hbyp, hinfo⟩ := ih
    refine ⟨?_, fun a ha => ?_, fun i => ?_, fun p hp => ?_⟩
    · rw [hshape]
      exact ⟨_, _, rfl⟩
    · exact (getReg_setF_other u _ _ (by unfold clnkCellinfo at ha ⊢; omega)).trans (hregs a ha)
    · rw [← hbyp i]
      by_cases hi : i = 24 * n + k
      · rw [hi]
        exact (congrArg Cell.byp (getCell_setCell_same _ _ _)).trans rfl
      · exact congrArg Cell.byp (getCell_setCell_other _ _ hi)
    · by_cases hk : p = k
      · have hcode : (if (getCell s (24 * n + k)).byp then 3 else 2) < fldCard clnkCellinfo_State := by split <;> decide
        rw [hk, ← Nat.mod_eq_of_lt hcode, ← hbyp]
        exact getF_setF_same u _ clnkCellinfo_State _ (by decide)
      · rw [← hinfo p (by omega)]
        exact getF_setF_other u clnkCellinfo_State clnkCellinfo_State _ (by unfold clnkCellinfo; omega)

/-- The chain in step 7 with RST latched, before its cells. -/
def chainRuns (s : State) (n : Nat) : State := portTripRst (portStep s n 7) n

/-- The chain and its cells in RUN, before the notice. -/
def allCellsRun (s : State) (n : Nat) : State :=
  forEach (upto (portN (chainRuns s n) n)) (chainRuns s n) (cellRuns n ((chainRuns s n).tick.count.toNat, (chainRuns s n).time))

theorem portRun_eq (s : State) (n : Nat) : portRun s n = notice (allCellsRun s n) 0x0B01 (portPol (allCellsRun s n) n)
    [pw n, pw (portN (chainRuns s n) n), pw (getF (allCellsRun s n) (clnkPstat n) clnkPstat_Rate)] := rfl

section
variable {s : State} {n : Nat}

theorem recs_chainRuns : (getPort (chainRuns s n) n).recs = (getPort s n).recs := by
  obtain ⟨l, hport⟩ := getPort_portStep s n 7
  exact (congrArg Port.recs hport).trans rfl

/-- PSTAT of a chain that enters RUN. -/
theorem pstat_chainRuns : portState (chainRuns s n) n = 5 ∧ getB (chainRuns s n) (clnkPstat n) clnkPstat_Rst = true ∧
    getB (chainRuns s n) (clnkPstat n) clnkPstat_Tripped = true ∧
    getF (chainRuns s n) (clnkPstat n) clnkPstat_Rate = getF s (clnkPstat n) clnkPstat_Rate := by
  have hlatched {g : Fld} (hg : fldOk g = true) (hrst : fldApart clnkPstat_Rst g = true) (htripped : fldApart clnkPstat_Tripped g = true) :
      getF (chainRuns s n) (clnkPstat n) g = getF (portStep s n 7) (clnkPstat n) g :=
    (getF_setB_field _ _ _ _ _ (by decide) hg htripped).trans (getF_setB_field _ _ _ _ _ (by decide) hg hrst)
  refine ⟨?_, ?_, ?_, ?_⟩
  · exact (hlatched (by decide) (by decide) (by decide)).trans (portState_portStep s n 7)
  · exact (getB_setB_field _ _ _ _ _ (by decide) (by decide) (by decide)).trans (getB_setB_same _ _ _ _ (by decide))
  · exact getB_setB_same _ _ _ _ (by decide)
  · exact (hlatched (by decide) (by decide) (by decide)).trans (rate_portStep s n 7)

/-- RUN: RST is latched, every cell runs or stays bypassed, and the notice names port, cells and rate (R312). -/
theorem portRun_spec (hn : n < 48) (hroom : RecorderRoom s (portPol s n) 1) :
    (getPort (portRun s n) n).step = 7 ∧ portState (portRun s n) n = 5 ∧ getB (portRun s n) (clnkPstat n) clnkPstat_Rst = true ∧
      getB (portRun s n) (clnkPstat n) clnkPstat_Tripped = true ∧
      (∀ p < (getPort s n).recs.length, p < 24 →
        getF (portRun s n) (clnkCellinfo (24 * n + p)) clnkCellinfo_State = if (getCell s (24 * n + p)).byp then 3 else 2) ∧
      Noted (portRun s n) 0x0B01 (portPol s n) [pw n, pw (getPort s n).recs.length, pw (getF s (clnkPstat n) clnkPstat_Rate)] := by
  obtain ⟨⟨rg, cs, hshape⟩, hregs, -, hinfo⟩ :
      CellsRun (chainRuns s n) (allCellsRun s n) n (portN (chainRuns s n) n) := cellsRun_forEach _ n _ _
  obtain ⟨hstate, hrst, htripped, hrate⟩ := pstat_chainRuns (s := s) (n := n)
  have hlen : portN (chainRuns s n) n = (getPort s n).recs.length := congrArg List.length recs_chainRuns
  have hpstat : getReg (allCellsRun s n) (clnkPstat n) = getReg (chainRuns s n) (clnkPstat n) :=
    hregs _ (by unfold clnkPstat clnkCellinfo; omega)
  have hpol : portPol (allCellsRun s n) n = portPol s n := by
    rw [hshape]
    rfl
  have hports : (allCellsRun s n).ports = (portStep s n 7).ports := by
    rw [hshape]
    rfl
  have hroom' : RecorderRoom (allCellsRun s n) (portPol s n) 1 := recorderRoom_congr (by rw [hshape]; rfl) hroom
  have hrun : portRun s n = notice (allCellsRun s n) 0x0B01 (portPol s n)
      [pw n, pw (getPort s n).recs.length, pw (getF s (clnkPstat n) clnkPstat_Rate)] := by
    have hrate' : getF (allCellsRun s n) (clnkPstat n) clnkPstat_Rate = getF s (clnkPstat n) clnkPstat_Rate := by
      rw [getF, hpstat]
      exact hrate
    rw [portRun_eq, hpol, hlen, hrate']
  have hreg (a : Nat) : getReg (portRun s n) a = getReg (allCellsRun s n) a := by
    rw [hrun, getReg, notice_regs hroom', getReg]
  refine ⟨?_, ?_, ?_, ?_, fun p hp _ => ?_, ?_⟩
  · rw [hrun]
    refine (startStep_of_ports (s := portStep s n 7) ((ports_notice _ _ _ _).trans hports) n).trans ?_
    exact (portStep_spec s n 7).1
  · rw [portState, getF, hreg, hpstat]
    exact hstate
  · rw [getB, getF, hreg, hpstat]
    exact hrst
  · rw [getB, getF, hreg, hpstat]
    exact htripped
  · rw [getF, hreg]
    exact hinfo p (by rw [hlen]; exact hp)
  · rw [hrun]
    exact noted_notice hroom'
end

/-! ## The commands of the start-up -/

section
variable {s : State} {n : Fin 48} {acks : Fin 32}

theorem exec_clTrainEnd (h : (getPort s n).step = 1) : exec (.clTrainEnd n) s = .next (portStep s n 2) :=
  congrArg Host.Outcome.next (if_pos h)

theorem exec_clAckReceived_other (h : acks.val ≠ portN s n) : exec (.clAckReceived n acks) s = .next s :=
  congrArg Host.Outcome.next (if_pos h)

theorem exec_clAckReceived_config (h : acks.val = portN s n) (hstep : (getPort s n).step = 3) :
    exec (.clAckReceived n acks) s = .next (portStep s n 4) := by
  show execClAckReceived n acks s = _
  unfold execClAckReceived
  rw [if_neg (not_not.mpr h), hstep]
  rfl

theorem exec_clAckReceived_timing (h : acks.val = portN s n) (hstep : (getPort s n).step = 6) :
    exec (.clAckReceived n acks) s = .next (if timingNow s n then portRun s n else timingFault s n) := by
  show execClAckReceived n acks s = _
  unfold execClAckReceived
  rw [if_neg (not_not.mpr h), hstep]
  rfl

theorem exec_clRateRelock {recs : List (BitVec 128)} (h : (getPort s n).step = 4 ∧ recs = (getPort s n).recs) :
    exec (.clRateRelock n recs) s = .next (portStep (setF s (clnkPstat n) clnkPstat_Rate (getPort s n).tgt) n 5) :=
  congrArg Host.Outcome.next (if_pos h)

theorem exec_clFaultRestart (h : portState s n = 6 ∧ getB s (clnkPcfg n) clnkPcfg_En = true) :
    exec (.clFaultRestart n) s = .next (portStart s n) :=
  congrArg Host.Outcome.next (if_pos h)
end

/-- Settles O17: each step by the command that enters it. -/
theorem chainStartUpSteps : Obligations.ChainStartUpSteps := by
  intro s n x sends
  refine ⟨fun hstep => ?_, fun acks hacks => exec_clAckReceived_other hacks, fun acks hacks hstep => ?_, fun recs hstep hrecs htgt => ?_,
    fun acks hacks hstep hok hroom => ?_, fun acks hacks hstep hbad => ?_, fun hstate hen => ⟨_, exec_clFaultRestart ⟨hstate, hen⟩, portStart_spec s n⟩⟩
  · obtain ⟨hentered, htx, hshows⟩ := portStep_spec s n 2
    exact ⟨_, exec_clTrainEnd hstep, hentered, htx, hshows, rfl, line_portStep_enum s n⟩
  · exact ⟨_, exec_clAckReceived_config hacks hstep, portStep_spec s n 4⟩
  · obtain ⟨hentered, htx, hshows⟩ := portStep_spec (setF s (clnkPstat n) clnkPstat_Rate x.tgt) n 5
    refine ⟨_, exec_clRateRelock ⟨hstep, hrecs⟩, hentered, htx, hshows, (rate_portStep _ n 5).trans ?_⟩
    exact (getF_setF_same s _ _ _ (by decide)).trans (Nat.mod_eq_of_lt htgt)
  · refine ⟨_, exec_clAckReceived_timing hacks hstep, ?_⟩
    rw [if_pos hok]
    exact portRun_spec n.isLt hroom
  · refine ⟨_, exec_clAckReceived_timing hacks hstep, ?_⟩
    rw [if_neg (by rw [hbad]; decide)]
    exact portFault_spec s n 0x0B0B _

end Sys2Proof.Proofs
end

section
/-! SUPPORT. Proofs. The cells of a running port (R316–R332): what a valid status leaves of its cell, the slots of a status frame one after the other, the order
of the self-test rotation, and the commands of the cells. -/

namespace Sys2Proof.Proofs

open Sys2Proof.Machine Sys2Proof.Claims

/-! ## What follows a status leaves it -/

/-- Memory, every cell but `i`, and of that cell the slot received and the last valid status, are as before. -/
structure StatusLasts (s t : State) (i : Nat) : Prop where
  mem : t.mem = s.mem
  other : ∀ j, j ≠ i → getCell t j = getCell s j
  rx : (getCell t i).rx = (getCell s i).rx
  last : (getCell t i).last = (getCell s i).last

/-- An event leaves every cell. -/
theorem getCell_event (s : State) (code cls scope : Nat) (l : List Word) (j : Nat) : getCell (event s code cls scope l) j = getCell s j := by
  show cellGet cellReset (calm (event s code cls scope l)).cells j = _
  rw [calm_event]
  rfl

section
variable {s t u : State} {i : Nat}

theorem StatusLasts.trans (h2 : StatusLasts t u i) (h1 : StatusLasts s t i) : StatusLasts s u i :=
  ⟨h2.mem.trans h1.mem, fun j hj => (h2.other j hj).trans (h1.other j hj), h2.rx.trans h1.rx, h2.last.trans h1.last⟩

theorem statusLasts_refl (s : State) (i : Nat) : StatusLasts s s i := ⟨rfl, fun _ _ => rfl, rfl, rfl⟩

theorem statusLasts_ite {c : Prop} [Decidable c] (h : StatusLasts s t i) : StatusLasts s (if c then t else s) i := by
  split
  · exact h
  · exact statusLasts_refl s i

theorem statusLasts_event (s : State) (code cls scope : Nat) (l : List Word) (i : Nat) : StatusLasts s (event s code cls scope l) i :=
  ⟨event_mem s code cls scope l, fun j _ => getCell_event s code cls scope l j, congrArg Cell.rx (getCell_event s code cls scope l i),
    congrArg Cell.last (getCell_event s code cls scope l i)⟩

/-- A change of the cell that keeps both. -/
theorem statusLasts_setCell {x : Cell} (hrx : x.rx = (getCell s i).rx) (hlast : x.last = (getCell s i).last) : StatusLasts s (setCell s i x) i :=
  ⟨rfl, fun _ hj => getCell_setCell_other s x hj, by rw [getCell_setCell_same, hrx], by rw [getCell_setCell_same, hlast]⟩

theorem statusLasts_setF (s : State) (a : Nat) (f : Fld) (v i : Nat) : StatusLasts s (setF s a f v) i := ⟨rfl, fun _ _ => rfl, rfl, rfl⟩

theorem statusLasts_bypassCell (s : State) (i cause : Nat) : StatusLasts s (bypassCell s i cause) i := by
  have hbypassed : StatusLasts s (setCell s i { getCell s i with byp := true }) i := statusLasts_setCell rfl rfl
  unfold bypassCell
  dsimp only
  split
  · exact statusLasts_refl s i
  · exact (statusLasts_event _ 0x0B06 0 _ _ i).trans ((statusLasts_setF _ _ _ 3 i).trans hbypassed)

/-- The result of a self-test (R332). -/
theorem statusLasts_testResult (s : State) (n p b : Nat) : StatusLasts s (testResult s n p b) (24 * n + p) := by
  unfold testResult
  dsimp only
  split
  · exact statusLasts_refl s _
  · split
    · exact ⟨rfl, fun _ _ => rfl, rfl, rfl⟩
    · split
      · exact statusLasts_setCell rfl rfl
      · exact (statusLasts_ite (statusLasts_bypassCell _ _ 1)).trans (statusLasts_event s 0x0B07 1 _ _ _)
end

/-- A valid status stands in its cell; memory and the other cells stay (R320). -/
theorem statusOk_spec (s : State) (n p : Nat) (bits : BitVec 160) : (statusOk s n p bits).mem = s.mem ∧
    (∀ j, j ≠ 24 * n + p → getCell (statusOk s n p bits) j = getCell s j) ∧
    (getCell (statusOk s n p bits) (24 * n + p)).rx = .good ∧ (getCell (statusOk s n p bits) (24 * n + p)).last = bits := by
  have hstored (c : Cell) (w : Nat) (t : State) (hrx : c.rx = .good) (hlast : c.last = bits)
      (h : StatusLasts (setF (setCell s (24 * n + p) c) (clnkCellinfo (24 * n + p)) clnkCellinfo_State w) t (24 * n + p)) :
      t.mem = s.mem ∧ (∀ j, j ≠ 24 * n + p → getCell t j = getCell s j) ∧ (getCell t (24 * n + p)).rx = .good ∧
        (getCell t (24 * n + p)).last = bits := by
    have hcell : getCell (setF (setCell s (24 * n + p) c) (clnkCellinfo (24 * n + p)) clnkCellinfo_State w) (24 * n + p) = c :=
      getCell_setCell_same s _ c
    refine ⟨h.mem, fun j hj => (h.other j hj).trans (getCell_setCell_other s c hj), ?_, ?_⟩
    · rw [h.rx, hcell, hrx]
    · rw [h.last, hcell, hlast]
  unfold statusOk
  dsimp only
  refine hstored _ _ _ ?_ ?_ ((statusLasts_testResult _ n p _).trans ((statusLasts_ite (statusLasts_event _ 0x0B0C 1 _ _ _)).trans
    ((statusLasts_ite (statusLasts_event _ 0x0B0A 1 _ _ _)).trans ((statusLasts_ite (statusLasts_bypassCell _ _ 0)).trans
    (statusLasts_ite (statusLasts_event _ 0x0B05 1 _ _ _))))))
  · rfl
  · rfl

/-! ## Status frames (R316, R320) -/

/-- The slot of position `p`: they come in the order ORIG down to 0. -/
def slotAt (head : BitVec 40) (slots : List SlotRx) (p : Nat) : SlotRx :=
  if p ≤ stsOrig head then slots.getD (stsOrig head - p) .missing else .missing

/-- The port takes the slot of position `p`. -/
def takeSlot (n p : Nat) (s : State) : SlotRx → State
  | .slot bits crc =>
    if stsSlotOk bits crc then statusOk s n p bits
    else countF (setCell s (24 * n + p) { getCell s (24 * n + p) with rx := .bad }) (clnkPerr n) clnkPerr_Crccnt 1
  | .missing => s

/-- What a slot leaves of its cell `c`. -/
def SlotStored (c d : Cell) : SlotRx → Prop
  | .missing => d = c
  | .slot bits crc => if crc16 (beBytes 20 bits.toNat) = crc.toNat then d.rx = .good ∧ d.last = bits else d = { c with rx := .bad }

theorem getCell_countF (s : State) (a : Nat) (f : Fld) (k j : Nat) : getCell (countF s a f k) j = getCell s j := rfl

theorem takeSlot_spec (n p : Nat) (s : State) (r : SlotRx) : (takeSlot n p s r).mem = s.mem ∧
    (∀ j, j ≠ 24 * n + p → getCell (takeSlot n p s r) j = getCell s j) ∧ SlotStored (getCell s (24 * n + p)) (getCell (takeSlot n p s r) (24 * n + p)) r := by
  cases r with
  | missing => exact ⟨rfl, fun _ _ => rfl, rfl⟩
  | slot bits crc =>
    have hok : stsSlotOk bits crc = true ↔ crc16 (beBytes 20 bits.toNat) = crc.toNat := beq_iff_eq
    simp only [takeSlot, SlotStored, hok]
    by_cases hcrc : crc16 (beBytes 20 bits.toNat) = crc.toNat
    · obtain ⟨hmem, hother, hrx, hlast⟩ := statusOk_spec s n p bits
      rw [if_pos hcrc, if_pos hcrc]
      exact ⟨hmem, hother, hrx, hlast⟩
    · rw [if_neg hcrc, if_neg hcrc]
      refine ⟨rfl, fun j hj => ?_, ?_⟩
      · rw [getCell_countF, getCell_setCell_other s _ hj]
      · rw [getCell_countF, getCell_setCell_same]

/-- Each slot of a chain is taken, and no other cell changes. -/
theorem takeSlots_spec (n : Nat) (slots : Nat → SlotRx) (s : State) (k : Nat) :
    let t := forEach (upto k) s fun s p => takeSlot n p s (slots p)
    t.mem = s.mem ∧ (∀ j, (∀ p < k, j ≠ 24 * n + p) → getCell t j = getCell s j) ∧ ∀ p < k, SlotStored (getCell s (24 * n + p)) (getCell t (24 * n + p)) (slots p) := by
  induction k with
  | zero => exact ⟨rfl, fun _ _ => rfl, fun p hp => absurd hp (by omega)⟩
  | succ k ih =>
    intro t
    obtain ⟨hmem, hother, hstored⟩ := ih
    have ht : t = takeSlot n k (forEach (upto k) s fun s p => takeSlot n p s (slots p)) (slots k) := forEach_upto_succ k s _
    rw [ht]
    generalize (forEach (upto k) s fun s p => takeSlot n p s (slots p)) = u at hmem hother hstored
    obtain ⟨hmem', hother', hstored'⟩ := takeSlot_spec n k u (slots k)
    refine ⟨hmem'.trans hmem, fun j hj => ?_, fun p hp => ?_⟩
    · exact (hother' j (hj k (by omega))).trans (hother j fun p hp => hj p (by omega))
    · by_cases hk : p = k
      · rw [hk, ← hother (24 * n + k) fun q hq => by omega]
        exact hstored'
      · rw [hother' _ (by omega)]
        exact hstored p (by omega)

/-- The code groups of a status frame as it came. -/
def stsLine (head : BitVec 40) (hcrc : BitVec 16) (slots : List SlotRx) : List Nat :=
  clSofu :: beBytes 5 head.toNat ++ beBytes 2 hcrc.toNat ++ slots.flatMap slotBytes ++ [clEof]

section
variable {s : State} {n : Fin 48} {head : BitVec 40} {hcrc : BitVec 16} {slots : List SlotRx}

theorem portState_setPort (s : State) (n m : Nat) (x : Port) : portState (setPort s n x) m = portState s m := rfl

/-- A frame with a bad header is not received. -/
theorem exec_stsFrame_bad (h : stsHeadOk (getPort s n) head hcrc = false) :
    exec (.stsFrame n head hcrc slots) s = .next (setPort s n { getPort s n with rline := stsLine head hcrc slots }) :=
  congrArg Host.Outcome.next (if_pos (by rw [h]; exact Bool.or_true _))

theorem exec_stsFrame_good (h : stsHeadOk (getPort s n) head hcrc = true) (hrun : portState s n = 5) :
    exec (.stsFrame n head hcrc slots) s = .next (forEach (upto (portN s n))
      (setPort s n { getPort s n with rline := stsLine head hcrc slots }) fun s p => takeSlot n p s (slotAt head slots p)) := by
  have hport : (getPort (setPort s n { getPort s n with rline := stsLine head hcrc slots }) n).recs = (getPort s n).recs := by
    rw [getPort_setPort_same]
  rw [portN, ← hport]
  exact congrArg Host.Outcome.next (if_neg (by simp [portState_setPort, hrun, h]))
end

/-! ## The self-test rotation (R332) -/

theorem upto_pairwise (n : Nat) : (upto n).Pairwise (· < ·) := by
  induction n with
  | zero => exact List.Pairwise.nil
  | succ n ih => exact List.pairwise_append.mpr ⟨ih, List.pairwise_singleton _ _, fun a ha b hb => by
      rw [List.mem_singleton] at hb
      have := mem_upto.mp ha
      omega⟩

/-- The first element beyond `x` of a rising list is the least. -/
theorem find?_beyond {l : List Nat} (hl : l.Pairwise (· < ·)) {x r : Nat} (hr : r ∈ l) (hx : x < r) :
    ∃ y, (l.find? fun z => decide (x < z)) = some y ∧ x < y ∧ y ≤ r := by
  induction l with
  | nil => cases hr
  | cons a l ih =>
    obtain ⟨ha, hl⟩ := List.pairwise_cons.mp hl
    by_cases hxa : x < a
    · refine ⟨a, List.find?_cons_of_pos (decide_eq_true hxa), hxa, ?_⟩
      obtain rfl | hr := List.mem_cons.mp hr
      · exact le_rfl
      · exact (ha r hr).le
    · rw [List.find?_cons_of_neg (by simp [hxa])]
      obtain rfl | hr := List.mem_cons.mp hr
      · exact absurd hx hxa
      · exact ih hl hr

/-- The comparator after `x`, where one lies beyond it. -/
theorem rotNext_beyond {l : List Nat} (hl : l.Pairwise (· < ·)) {x r : Nat} (hr : r ∈ l) (hx : x < r) :
    ∃ y, rotNext l x = some y ∧ x < y ∧ y ≤ r := by
  obtain ⟨y, hy, hbeyond⟩ := find?_beyond hl hr hx
  refine ⟨y, ?_, hbeyond⟩
  unfold rotNext
  rw [hy]

/-- A list with an element has a next comparator, one of the list. -/
theorem rotNext_mem {l : List Nat} (hl : l ≠ []) (x : Nat) : ∃ y, rotNext l x = some y ∧ y ∈ l := by
  unfold rotNext
  cases hfind : l.find? fun z => decide (x < z) with
  | some y => exact ⟨y, rfl, List.mem_of_find?_eq_some hfind⟩
  | none => exact ⟨l.head hl, List.head?_eq_some_head hl, List.head_mem hl⟩

theorem rotList_pairwise (s : State) (n : Nat) : (rotList s n).Pairwise (· < ·) := by
  unfold rotList
  exact (upto_pairwise 192).filter _

section
variable {s : State} {n : Fin 48}

/-- The comparator that a step of the rotation goes to; a test that was not run is asked for again. -/
def rotTarget (s : State) (n : Nat) : Option Nat :=
  if (getPort s n).rotKeep && (rotList s n).contains (getPort s n).rot then some (getPort s n).rot else rotNext (rotList s n) (getPort s n).rot

theorem rotTarget_mem (hl : rotList s n ≠ []) : ∃ r, rotTarget s n = some r ∧ r ∈ rotList s n := by
  unfold rotTarget
  split
  · rename_i hkeep
    exact ⟨_, rfl, List.contains_iff_mem.mp (Bool.and_eq_true_iff.mp hkeep).2⟩
  · exact rotNext_mem hl _

theorem rotTarget_of_run (h : (getPort s n).rotKeep = false) : rotTarget s n = rotNext (rotList s n) (getPort s n).rot := by
  rw [rotTarget, h, Bool.false_and, if_neg Bool.false_ne_true]

/-- What a step of the rotation makes of the port. -/
def rotated (x : Port) : Option Nat → Port
  | some r => { x with rot := r, rotKeep := false, gap := 0, testPend := true }
  | none => { x with gap := 0 }

theorem exec_selftestStep (hen : getB s clnkTstcfg clnkTstcfg_En = true) (hrun : portState s n = 5)
    (hgap : getF s clnkTstcfg clnkTstcfg_Gap ≤ (getPort s n).gap) :
    exec (.selftestStep n) s = .next (setPort s n (rotated (getPort s n) (rotTarget s n))) := by
  have hexec : exec (.selftestStep n) s = .next _ := congrArg Host.Outcome.next (if_pos (by simp [hen, hrun, hgap]))
  rw [hexec]
  dsimp only
  unfold rotTarget
  generalize (if (getPort s n).rotKeep && (rotList s n).contains (getPort s n).rot then some (getPort s n).rot
    else rotNext (rotList s n) (getPort s n).rot) = next
  cases next <;> rfl
end

/-! ## The other commands of the cells -/

section
variable {s : State} {i : Fin 1152}

/-- A cell that is LOST: its state, its fault (R320). -/
theorem exec_cellLost (hlost : (getCell s i).lost = false) (hrun : portState s (i / 24) = 5)
    (hmiss : getF s (clnkPcfg (i / 24)) clnkPcfg_Misslim ≤ (getCell s i).misses) :
    exec (.cellLost i) s = .next (event (setF (setCell s i { getCell s i with lost := true }) (clnkCellinfo i) clnkCellinfo_State 4)
      0x0B04 1 (portPol s (i / 24)) [pw i]) :=
  congrArg Host.Outcome.next (if_pos (by simp [hlost, hrun, hmiss]))

theorem exec_cellReturn (hlost : (getCell s i).lost = true) (hgood : 64 ≤ (getCell s i).good) :
    exec (.cellReturn i) s = .next (setF (setCell s i { getCell s i with lost := false }) (clnkCellinfo i) clnkCellinfo_State
      (if (getCell s i).byp then 3 else cellInfoState { getCell s i with lost := false })) :=
  congrArg Host.Outcome.next (if_pos (by simp [hlost, hgood]))

theorem exec_inhRepeat {n : Fin 48} (h : getB s (clnkPstat n) clnkPstat_Safe = true ∨
      (s.dev.tickRun = true ∧ portPol s n ∈ s.flt.isol ∧ inReset s (portPol s n) = false)) (htx : (getPort s n).tx ≠ .nothing) :
    exec (.inhRepeat n) s = .next (setPort s n { getPort s n with tx := .inh, line := clInh }) := by
  refine congrArg Host.Outcome.next (if_pos ?_)
  obtain hsafe | ⟨hticks, hisol, hreset⟩ := h
  · simp [hsafe, htx]
  · simp [hticks, hisol, hreset, htx]

/-- A comparator that is due: it is noted, with its fault (R332). -/
theorem exec_selftestPassTimeout {k : Fin 8} (hstate : getF s (clnkCellinfo i) clnkCellinfo_State = 2) (hfeat : cellFeat s i 2 = true)
    (hleg : k.val < 4 ∨ cellFeat s i 6 = true) (hpass : (cellGet (0, 0) (getCell s i).pass k).2 + 86400000000000 ≤ s.time)
    (hnoted : cellGet 0 (getCell s i).noted k + 86400000000000 ≤ s.time) :
    exec (.selftestPassTimeout i k) s = .next (event (setCell s i { getCell s i with noted := cellPut (getCell s i).noted k s.time })
      0x0B08 1 (portPol s (i / 24)) [pw i, pw (k / 2), pw (k % 2)]) := by
  have hleg' : k.val / 2 ≤ 1 ∨ cellFeat s i 6 = true := hleg.imp_left fun h => by omega
  have hsince : max (cellGet (0, 0) (getCell s i).pass k).2 (cellGet 0 (getCell s i).noted k) + dayNs ≤ s.time := by
    unfold dayNs
    omega
  exact congrArg Host.Outcome.next (if_pos (by simp [hstate, hfeat, hleg', hsince]))
end

/-- Settles O19: the slots of a frame one after the other, then each command by the lemma that says what it does. -/
theorem cellStatusAndSelfTest : Obligations.CellStatusAndSelfTest := by
  refine ⟨fun s n head hcrc slots hbad => ?_, fun s n head hcrc slots hok hrun _ => ?_, fun s i hlost hrun hmiss => ?_,
    fun s i hlost hgood => ?_, fun s n hinh htx => ?_, fun s n hen hrun hgap => ?_, fun s i k hstate hfeat hleg hpass hnoted => ?_⟩
  · exact ⟨_, exec_stsFrame_bad hbad, rfl, rfl, rfl, fun q hq => getPort_setPort_other s _ hq⟩
  · obtain ⟨hmem, -, hstored⟩ := takeSlots_spec n (slotAt head slots) (setPort s n { getPort s n with rline := stsLine head hcrc slots }) (portN s n)
    refine ⟨_, exec_stsFrame_good hok hrun, hmem, fun p hp => ?_⟩
    exact hstored p hp
  · exact ⟨_, exec_cellLost hlost hrun hmiss, (getCell_event _ _ _ _ _ _).trans (getCell_setCell_same s i _), faultHeld_event (by decide)⟩
  · have hcode : (if (getCell s i).byp then 3 else cellInfoState { getCell s i with lost := false }) < 8 := by
      split
      · decide
      · exact cellInfoState_lt _
    refine ⟨_, exec_cellReturn hlost hgood, getCell_setCell_same s i _, ?_, fun a ha => getReg_setF_other _ _ _ ha, rfl⟩
    exact (getF_setF_same _ _ _ _ (by decide)).trans (Nat.mod_eq_of_lt hcode)
  · exact ⟨_, exec_inhRepeat hinh htx, getPort_setPort_same s n _, rfl, rfl⟩
  · refine ⟨_, exec_selftestStep hen hrun hgap, ?_⟩
    rw [getPort_setPort_same]
    refine ⟨by cases rotTarget s n <;> rfl, rfl, fun hl => ?_⟩
    obtain ⟨r, hr, hmem⟩ := rotTarget_mem hl
    rw [hr]
    refine ⟨rfl, hmem, fun hkeep q hq hbeyond => ?_⟩
    obtain ⟨y, hy, hnext⟩ := rotNext_beyond (rotList_pairwise s n) hq hbeyond
    obtain rfl : r = y := Option.some.inj (hr.symm.trans ((rotTarget_of_run hkeep).trans hy))
    exact hnext
  · refine ⟨_, exec_selftestPassTimeout hstate hfeat hleg hpass hnoted, faultHeld_event (by decide), ?_⟩
    rw [getCell_event, getCell_setCell_same]
    exact cellGet_put_same _ _ _ _

end Sys2Proof.Proofs
end

section
/-! SUPPORT. Proofs. Calibration of the converter groups (R345–R347): what the spare's estimate leaves of its group when it retires the spare. -/

namespace Sys2Proof.Proofs

open Sys2Proof.Machine Sys2Proof.Claims

/-! ## The limits of R347 -/

theorem estimateBad_iff (e : Int × Int × Int) :
    estimateBad e = true ↔ 1024 < e.1.natAbs ∨ 100 < e.2.1.natAbs ∨ 75 < e.2.2.natAbs := by
  simp only [estimateBad, Bool.or_eq_true, decide_eq_true_eq]
  omega

/-! ## A slice is retired (R347) -/

/-- Events leave the registers of the converter groups alone. -/
theorem not_faultReg_acq {a : Nat} (hlo : acqSlot 0 0 ≤ a) (hhi : a < cmpCtl 0) : ¬faultReg a := by
  unfold faultReg
  simp only [acqSlot, cmpCtl] at hlo hhi
  simp only [pwmPstat, clnkPstat, fltSum, fltHkstat, fltPinstat, safeStat, safeOutst, poldEvdrop]
  rintro (⟨k, hk, h⟩ | ⟨k, hk, h⟩ | h | h | h | h | ⟨k, hk, h⟩) <;> omega

theorem getGrp_of_calm {s t : State} (h : calm t = calm s) (k : Nat) : getGrp t k = getGrp s k := by
  have hgrps : t.grps = s.grps := congrArg (·.grps) h
  rw [getGrp, hgrps, getGrp]

/-- GSTAT of a group, slice `i` marked as retired. -/
def markRetired (s : State) (g i : Nat) : State := setB (setFbit s (acqGstat g) acqGstat_Retired i true) (acqGstat g) acqGstat_Degr true

section
variable (s : State) (g i : Nat) (est : Word)

theorem faultHeld_retireSlice : FaultHeld (retireSlice s g i est) 0x0801 1 0 (pw g) := faultHeld_event (by decide)

theorem calm_retireSlice : calm (retireSlice s g i est) = calm s :=
  (calm_event (markRetired s g i) _ _ _ _).trans ((calm_setB _ _ _ _).trans (calm_setFbit s _ _ _ _))

theorem mem_retireSlice : (retireSlice s g i est).mem = s.mem := (calm_fields (calm_retireSlice s g i est)).1

theorem getGrp_retireSlice (k : Nat) : getGrp (retireSlice s g i est) k = getGrp s k := getGrp_of_calm (calm_retireSlice s g i est) k

theorem sameReg_retireSlice {a : Nat} (hlo : acqSlot 0 0 ≤ a) (hhi : a < cmpCtl 0) : SameReg a (markRetired s g i) (retireSlice s g i est) :=
  sameReg_event (not_faultReg_acq hlo hhi) _ _ _ _ _ (by decide)

/-- Every other register of the converter groups stays. -/
theorem getReg_retireSlice_other {a : Nat} (hlo : acqSlot 0 0 ≤ a) (hhi : a < cmpCtl 0) (hne : a ≠ acqGstat g) :
    getReg (retireSlice s g i est) a = getReg s a :=
  (sameReg_retireSlice s g i est hlo hhi).trans ((sameReg_setB _ _ _ hne).trans (sameReg_setFbit s _ _ _ hne))

variable {g}

theorem sameReg_gstat_retireSlice (hg : g < 8) : SameReg (acqGstat g) (markRetired s g i) (retireSlice s g i est) :=
  sameReg_retireSlice s g i est (by simp only [acqSlot, acqGstat]; omega) (by simp only [cmpCtl, acqGstat]; omega)

theorem degr_retireSlice (hg : g < 8) : getB (retireSlice s g i est) (acqGstat g) acqGstat_Degr = true := by
  rw [getB, getF, sameReg_gstat_retireSlice s i est hg]
  exact getB_setB_same _ _ _ _ (by decide)

theorem spare_retireSlice (hg : g < 8) : getF (retireSlice s g i est) (acqGstat g) acqGstat_Spare = getF s (acqGstat g) acqGstat_Spare := by
  rw [getF, sameReg_gstat_retireSlice s i est hg]
  exact (getF_setB_field _ _ _ _ _ (by decide) (by decide) (by decide)).trans (getF_setF_field s _ _ _ _ (by decide) (by decide) (by decide))

theorem retired_retireSlice (hg : g < 8) (hi : i < 5) : getFbit (retireSlice s g i est) (acqGstat g) acqGstat_Retired i = true := by
  rw [getFbit, getF, sameReg_gstat_retireSlice s i est hg]
  have hdegr : getF (markRetired s g i) (acqGstat g) acqGstat_Retired =
      getF (setFbit s (acqGstat g) acqGstat_Retired i true) (acqGstat g) acqGstat_Retired :=
    getF_setB_field _ _ _ _ _ (by decide) (by decide) (by decide)
  have hmark := getFbit_setFbit s (acqGstat g) acqGstat_Retired i i true (by decide) hi
  exact (congrArg (nbit · i) hdegr).trans (hmark.trans (if_pos rfl))
end

/-! ## CALIBRATION_SWAP (R345–R347) -/

/-- The spare `i` is retired once SCAL holds its estimates. -/
def spareRetired (s : State) (g i : Nat) (est : SliceCal) : State :=
  retireSlice (setReg s (acqScal g i) (estWord (estimates est))) g i (estWord (estimates est))

section
variable {s : State} {g : Fin 8} {est : SliceCal}

/-- A spare beyond the limits is retired. -/
theorem exec_calibrationSwap_bad {i : Nat} (hticks : s.dev.tickRun = true) (hen : getB s (acqGctl g) acqGctl_En = true)
    (hcalen : getB s (acqGctl g) acqGctl_Calen = true) (hready : getB s (acqGstat g) acqGstat_Calrdy = true)
    (hdegr : getB s (acqGstat g) acqGstat_Degr = false) (hdue : getF s (acqGctl g) acqGctl_Calt ≤ (getGrp s g).ticks)
    (hspare : getF s (acqGstat g) acqGstat_Spare = i) (hbad : estimateBad (estimates est) = true) :
    exec (.calibrationSwap g est) s = .next (spareRetired s g i est) := by
  show execCalibrationSwap g est s = _
  unfold execCalibrationSwap
  dsimp only
  rw [if_neg (by simp [hticks, hen, hcalen, hready, hdegr, hdue]), if_pos hbad, hspare]
  rfl

/-- A group that is degraded rotates no more. -/
theorem exec_calibrationSwap_degraded (hdegr : getB s (acqGstat g) acqGstat_Degr = true) : exec (.calibrationSwap g est) s = .next s := by
  show execCalibrationSwap g est s = _
  unfold execCalibrationSwap
  dsimp only
  rw [if_pos (by simp [hdegr])]
end

theorem spare_spareRetired (s : State) {g i : Nat} (est : SliceCal) (hg : g < 8) :
    getF (spareRetired s g i est) (acqGstat g) acqGstat_Spare = getF s (acqGstat g) acqGstat_Spare :=
  (spare_retireSlice _ i _ hg).trans (getF_setReg_other s _ _ (by simp only [acqGstat, acqScal]; omega))

/-- The estimates of the other slices stay. -/
theorem scal_spareRetired_other (s : State) {g i j : Nat} (est : SliceCal) (hg : g < 8) (hj : j < 5) (hne : j ≠ i) :
    getReg (spareRetired s g i est) (acqScal g j) = getReg s (acqScal g j) := by
  have hlo : acqSlot 0 0 ≤ acqScal g j := by simp only [acqSlot, acqScal]; omega
  have hhi : acqScal g j < cmpCtl 0 := by simp only [cmpCtl, acqScal]; omega
  have hgstat : acqScal g j ≠ acqGstat g := by simp only [acqGstat, acqScal]; omega
  have hscal : acqScal g j ≠ acqScal g i := by simp only [acqScal]; omega
  exact (getReg_retireSlice_other _ g i _ hlo hhi hgstat).trans (getReg_setReg_other s _ hscal)

/-- Settles O60: what retires a slice writes GSTAT and what events write, so the spare, the active slices and the other estimates stay; DEGR then stops the
rotation. -/
theorem retiredSliceStaysTheSpare : Obligations.RetiredSliceStaysTheSpare := by
  refine ⟨fun s g est hticks hen hcalen hready hdegr hdue hlt hlimits => ?_, fun s g est hdegr => exec_calibrationSwap_degraded hdegr⟩
  have hbad : estimateBad (estimates est) = true := (estimateBad_iff _).mpr hlimits
  refine ⟨_, exec_calibrationSwap_bad hticks hen hcalen hready hdegr hdue rfl hbad, ?_⟩
  exact ⟨faultHeld_retireSlice _ _ _ _, degr_retireSlice _ _ _ g.isLt, retired_retireSlice _ _ _ g.isLt hlt, spare_spareRetired s est g.isLt,
    congrArg Grp.active (getGrp_retireSlice _ _ _ _ g), mem_retireSlice _ _ _ _, fun j hj hne => scal_spareRetired_other s est g.isLt hj hne⟩

end Sys2Proof.Proofs
end

section
/-! SUPPORT. Proofs. An overrange in a converter slot whose owner in the resource map is no polder (R342, R353): what the model counts for the dropped notice
of such an owner falls upon the destination of the slot. -/

namespace Sys2Proof.Proofs

open Sys2Proof.Machine Sys2Proof.Claims

/-- What a word of memory holds where a command leads. -/
def wordAfter (o : Host.Outcome State Fault Refusal) (a : Nat) : Option Word :=
  match o with
  | .next t => some (rdWord t a)
  | _ => none

/-- An owner number that is no polder's: its POLD.EVDROP stands where ACQ.DEST 0 of slot 0 of group 0 does. -/
def straySlotOwner : Nat := (acqDest 0 0 0 - poldEvdrop 0) / 4

/-- Slot 0 of group 0 takes one conversion and delivers it to the first word of engine 0. It belongs to the stray owner, which has had its 64 events of the
tick. -/
def straySlotState : State :=
  { setB (setB (setB State.reset (acqGctl 0) acqGctl_En true) (acqSlot 0 0) acqSlot_En true) (acqDest 0 0 0) acqDest_En true with
    dev := { devReset with tickRun := true }
    tick := { tickReset with whole := true }
    img := { imgReset with resmap := [(resSlot 0 0, straySlotOwner)] }
    recorder := { recReset with scanning := false, placed := [(straySlotOwner, 64)] } }

/-- One conversion beyond the range, at 549 V. -/
def overVolts : List (BitVec 40 × Bool) := [(0x7FFFFFFFFF, false)]

theorem slot_straySlotState : getB straySlotState (acqSlot 0 0) acqSlot_En = true ∧ getB straySlotState (acqGctl 0) acqGctl_En = true ∧
    overVolts.length = 2 ^ getF straySlotState (acqSlot 0 0) acqSlot_Osrc ∧ inReset straySlotState (resPol straySlotState (resSlot 0 0)) = false := by decide

/-- Its one destination is an engine's word; no engine is in a placement group. -/
theorem dest_straySlotState : getB straySlotState (acqDest 0 0 0) acqDest_En = true ∧ getB straySlotState (acqDest 0 0 0) acqDest_Kind = false ∧
    getB straySlotState (acqDest 0 0 0) acqDest_Statw = false ∧ (∀ d < 4, 1 ≤ d → getB straySlotState (acqDest 0 0 d) acqDest_En = false) ∧
    getF straySlotState (acqDest 0 0 0) acqDest_Target = 0 ∧ groupOf straySlotState 0 = none := by decide

/-- The result is that of the highest code. -/
theorem value_straySlot : (getGrp straySlotState 0).calibrating = false ∧ slotValue (getB straySlotState (acqSlot 0 0) acqSlot_Filt)
    (slotCodes straySlotState 0 0 (overVolts.map fun v => v.1.toInt)).1 = 0x7FFC0000 := by decide +kernel

/-- The notice finds its owner's share of the tick full, and the drop is counted in DEST before the delivery. -/
theorem word_straySlot : wordAfter (exec (.slotResultReady 0 0 overVolts) straySlotState) (dmWord 0 0) = some 0 := by decide +kernel

/-- Refutes O21. The resource map's owners have no bound in the model's states, and a dropped notice is counted in POLD.EVDROP of its scope whatever number
that is. The notice of an overrange (0x0803) goes to an owner whose counter would stand where the slot's DEST does: the count moves TARGET by one word before
the delivery, so that the word of its destination stays 0. -/
theorem not_slotResultIsDelivered : ¬ Obligations.SlotResultIsDelivered := by
  unfold Obligations.SlotResultIsDelivered
  intro h
  obtain ⟨hslot, hgroup, hosr, hreset⟩ := slot_straySlotState
  obtain ⟨hdest, hkind, hstatw, hothers, htarget, hsingle⟩ := dest_straySlotState
  obtain ⟨hcal, hvalue⟩ := value_straySlot
  have hcase := h straySlotState 0 0 overVolts rfl rfl hslot hgroup hosr hreset hdest hkind hstatw fun d h1 h4 => hothers d h4 h1
  simp only [Fin.val_zero, htarget, hcal, hvalue] at hcase
  obtain ⟨t, ht, hword, -⟩ := hcase hsingle
  have hafter : some (rdWord t (dmWord 0 0)) = some 0 := by
    rw [← word_straySlot, ht]
    rfl
  have hdelivered : rdWord t (dmWord 0 0) = 0x7FFC0000 := hword
  exact absurd ((Option.some.inj hafter).symm.trans hdelivered) (by decide)

end Sys2Proof.Proofs
end

section
/-! SUPPORT. Proofs. A comparator's latch edge that trips a pair whose owner in the resource map is no polder (R290, R357): what the model counts for the
dropped notice of such an owner falls upon the pair's own causes. -/

namespace Sys2Proof.Proofs

open Sys2Proof.Machine Sys2Proof.Claims

/-- An owner number that is no polder's: its POLD.EVDROP stands where PWM.PSTAT of pair 0 does. -/
def strayTripOwner : Nat := (pwmPstat 0 - poldEvdrop 0) / 4

/-- Comparator 0 is enabled, and pair 0 names it, with cycle-by-cycle trips. The pair belongs to the stray owner, which has had its 64 events of the tick. -/
def strayTripState : State :=
  { setB (setFbit (setB State.reset (cmpCtl 0) cmpCtl_En true) (pwmPctrip 0) pwmPctrip_Mask 0 true) (pwmPctl 0) pwmPctl_Ctmode true with
    img := { imgReset with resmap := [(resPair 0, strayTripOwner)] }
    recorder := { recReset with scanning := false, placed := [(strayTripOwner, 64)] } }

/-- An input beyond every threshold, at 549 V. -/
def overThreshold : BitVec 40 := 0x7FFFFFFFFF

theorem cmp_strayTripState : getB strayTripState (cmpCtl 0) cmpCtl_En = true ∧ getB strayTripState (cmpStat 0) cmpStat_Latch = false ∧
    getFbit strayTripState (pwmPctrip 0) pwmPctrip_Mask 0 = true ∧
    ((getF strayTripState (cmpThr 0) cmpThr_Hi : Int) - 512) * 3906250 < overThreshold.toInt := by decide

/-- The notice finds its owner's share of the tick full, and the drop is counted in PSTAT: CMP and TRIPPED, both set, carry into PIN. -/
theorem pstat_strayTrip : registerAfter (exec (.comparatorRawChange 0 overThreshold) strayTripState) (pwmPstat 0) = some 4 := by decide +kernel

/-- Refutes O22. The resource map's owners have no bound in the model's states, and a dropped notice is counted in POLD.EVDROP of its scope whatever number
that is. The notice of a CMP trip (0x0A02) goes to an owner whose counter would stand where PSTAT of the tripped pair does: the count carries over CMP and
TRIPPED, so that neither is set after the comparator's latch edge. -/
theorem not_convertersAndComparators : ¬ Obligations.ConvertersAndComparators := by
  unfold Obligations.ConvertersAndComparators
  intro h
  obtain ⟨-, -, -, hcomparator, -⟩ := h
  obtain ⟨hen, hclear, hnamed, hbeyond⟩ := cmp_strayTripState
  obtain ⟨t, ht, -, -, -, htrips⟩ := hcomparator strayTripState 0 overThreshold hen
  obtain ⟨hcmp, -⟩ := htrips (if_pos (.inl hbeyond)) hclear 0 (by decide) hnamed
  have hafter : some (getReg t (pwmPstat 0)) = some 4 := by
    rw [← pstat_strayTrip, ht]
    rfl
  rw [getB, getF, Option.some.inj hafter] at hcmp
  exact absurd hcmp (by decide)

end Sys2Proof.Proofs
end

section
/-! SUPPORT. Proofs. A fetched descriptor that fails its check, of a sluice whose owner in the resource map is no polder (R426, R439): what the model counts for
the dropped fault of such an owner falls upon the sluice's own status. -/

namespace Sys2Proof.Proofs

open Sys2Proof.Machine Sys2Proof.Claims

/-- An owner number that is no polder's: its POLD.EVDROP stands where SLU.STAT of sluice 31 does. -/
def straySluiceOwner : Nat := (sluStat 31 - poldEvdrop 0) / 4

/-- Idle sluice 31 fetches the descriptor at the start of segment 0, every field of STAT below CAUSE all ones. Sluice and segment belong to the stray
owner, which has had its 64 events of the tick and holds the capture of an earlier fault. -/
def strayFetchState : State :=
  { setSlu (setB (setReg State.reset (sluStat 31) 0x03FFFFFF) (fltCapa straySluiceOwner) fltCapa_Valid true) 31 { sluReset with fetching := some 0x70000000 } with
    img := { imgReset with resmap := [(resSlu 31, straySluiceOwner), (resSeg 0 0, straySluiceOwner)] }
    recorder := { recReset with scanning := false, placed := [(straySluiceOwner, 64)] } }

theorem fetch_strayFetchState : (getSlu strayFetchState 31).fetching = some 0x70000000 ∧ (getSlu strayFetchState 31).outs = [] ∧
    placeOf 0x70000000 = .shared ∧ resPol strayFetchState (1024 + (0x70000000 - 0x70000000) / 0x20000) = sluPol strayFetchState 31 ∧
    strayFetchState.dev.phase ≠ .recovery ∧ sluState strayFetchState 31 = 0 ∧ (getSlu strayFetchState 31).stopping = false := by decide

/-- The descriptor is all zeros: its destination lies in ROM. -/
theorem descOk_strayFetch : descOk strayFetchState (sluPol strayFetchState 31) (rdWords strayFetchState 0x70000000 16) = false := by decide +kernel

/-- The fault finds its owner's share of the tick full, and the drop is counted in STAT: the ones below CAUSE carry into CAUSE 4. -/
theorem stat_strayFetch : registerAfter (exec (.descriptorFetched 31) strayFetchState) (sluStat 31) = some 0x94000000 := by decide +kernel

/-- Refutes O35. The resource map's owners have no bound in the model's states, and a dropped event is counted in POLD.EVDROP of its scope whatever number
that is. The fault of a descriptor that fails its check (0x0705) goes to an owner whose counter would stand where STAT of the halted sluice does: the count
carries into CAUSE, which shows 5 and not 4. -/
theorem not_sluicesFetchAndIssue : ¬ Obligations.SluicesFetchAndIssue := by
  unfold Obligations.SluicesFetchAndIssue
  intro h
  obtain ⟨hfetched, -⟩ := h
  obtain ⟨hfetching, houts, hplace, howner, hphase, hidle, hruns⟩ := fetch_strayFetchState
  obtain ⟨t, ht, -, -, -, -, -, hbad⟩ := hfetched strayFetchState 31 0x70000000 hfetching houts hplace (by decide) howner hphase
    (ne_of_eq_of_ne hidle (by decide)) (ne_of_eq_of_ne hidle (by decide)) hruns
  obtain ⟨-, hcause, -⟩ := hbad descOk_strayFetch
  have hafter : some (getReg t (sluStat 31)) = some 0x94000000 := by
    rw [← stat_strayFetch, ht]
    rfl
  have hfour : getF t (sluStat 31) sluStat_Cause = 4 := hcause
  rw [getF, Option.some.inj hafter] at hfour
  exact absurd hfour (by decide)

end Sys2Proof.Proofs
end

section
/-! SUPPORT. Proofs. A sluice's read at the culvert where the sluice's owner in the resource map is no polder (R414, R415): the wheel never comes to the queue
of such an owner. -/

namespace Sys2Proof.Proofs

open Sys2Proof.Machine Sys2Proof.Claims

/-! ## What the wheel never comes to -/

section
variable {s : State} (hidle : ∀ q < 8, beatQueue s q = [])
include hidle

/-- Where no polder has a beat waiting, the wheel only turns on. -/
theorem wheelTurn_of_no_polder : ∃ cv, cv.beats = s.culv.beats ∧ wheelTurn s = { s with culv := cv } := by
  have hnone : (((upto 8).map fun i => (wheelPol s s.culv.slot + i) % 8).find? fun q =>
      !(beatQueue { s with culv := { s.culv with slot := (s.culv.slot + 1) % 64 } } q).isEmpty) = none := by
    refine List.find?_eq_none.mpr fun q hq => ?_
    obtain ⟨i, -, rfl⟩ := List.mem_map.mp hq
    have hempty : beatQueue { s with culv := { s.culv with slot := (s.culv.slot + 1) % 64 } } ((wheelPol s s.culv.slot + i) % 8) = [] :=
      hidle _ (Nat.mod_lt _ (by decide))
    rw [hempty]
    decide
  refine ⟨{ s.culv with slot := (s.culv.slot + 1) % 64 }, rfl, ?_⟩
  unfold wheelTurn
  dsimp only
  rw [hnone]

/-- Nor does it execute an access at the culvert that waits for it. -/
theorem outServed_of_no_polder {c i : Nat} {o : OutAcc} (ho : (getSlu s c).outs[i]? = some o) (hculv : inCulvert o.addr = true) :
    ∃ cv, outServed s c i = { s with culv := cv } := by
  obtain ⟨cv, -, hturns⟩ : ∃ cv, cv.beats = s.culv.beats ∧
      forEach (upto 128) s (fun t _ => if isQueued t c i then wheelTurn t else t) = { s with culv := cv } := by
    refine forEach_preserves (fun t => ∃ cv : Culv, cv.beats = s.culv.beats ∧ t = { s with culv := cv }) _ s _ (fun t _ ht => ?_) ⟨s.culv, rfl, rfl⟩
    obtain ⟨cv, hbeats, rfl⟩ := ht
    have hstill : ∀ q < 8, beatQueue { s with culv := cv } q = [] := fun q hq => by
      rw [← hidle q hq, beatQueue, hbeats, beatQueue]
    split
    · obtain ⟨cv', hsame, hturn⟩ := wheelTurn_of_no_polder hstill
      exact ⟨cv', hsame.trans hbeats, hturn⟩
    · exact ⟨cv, hbeats, rfl⟩
  refine ⟨cv, ?_⟩
  unfold outServed
  rw [ho]
  exact (if_pos hculv).trans hturns

/-- The response finds the access not executed, and leaves it. -/
theorem exec_sluiceReadResponse_of_no_polder {c : Fin 32} {k i : Nat} {o : OutAcc} (hruns : s.clk.gateC = false)
    (hout : outAt (getSlu s c) false k = some (i, o)) (hwaits : o.res = .queued) (hculv : inCulvert o.addr = true) :
    ∃ cv, exec (.sluiceReadResponse c k) s = .next { s with culv := cv } := by
  have ho : (getSlu s c).outs[i]? = some o := by
    unfold outAt at hout
    obtain ⟨j, -, hj⟩ := Option.bind_eq_some_iff.mp hout
    obtain ⟨o', ho', heq⟩ := Option.map_eq_some_iff.mp hj
    cases heq
    exact ho'
  obtain ⟨cv, hserved⟩ := outServed_of_no_polder hidle ho hculv
  refine ⟨cv, congrArg Host.Outcome.next ?_⟩
  unfold sluResponse
  rw [if_neg (by rw [hruns]; decide), hout]
  dsimp only
  rw [hserved]
  unfold sluRespond
  dsimp only
  rw [show outAt (getSlu { s with culv := cv } c) false k = some (i, o) from hout]
  dsimp only
  rw [hwaits]
end

/-! ## The state -/

/-- A read of one word of page 0, all its beats issued. -/
def strayRead : OutAcc :=
  { write := false, first := 0, count := 1, sent := 1, beats := 0, addr := pageBase 0, data := [], res := .queued, ecc := .clean, failed := false,
    again := false, fails := 0 }

/-- Sluice 31 runs with that read in the queue of its owner, 8, which is no polder. Page 0 is sealed: everyone may read it. -/
def strayQueueState : State :=
  { setSlu (setReg (setReg State.reset (sluStat 31) 0x40000000) (culvFlag 0) 3) 31 { sluReset with outs := [strayRead] } with
    img := { imgReset with resmap := [(resSlu 31, 8)] }
    culv := { culvReset with beats := [(8, [.sluice 31 false 0])] } }

theorem sluice_strayQueueState : strayQueueState.clk.gateC = false ∧ sluState strayQueueState 31 = 2 ∧ (getSlu strayQueueState 31).stopping = false ∧
    outAt (getSlu strayQueueState 31) false 0 = some (0, strayRead) ∧ (getSlu strayQueueState 31).outs = [strayRead] ∧
    (getSlu strayQueueState 31).acked ≠ dTotal (getSlu strayQueueState 31).desc ∧ sluPol strayQueueState 31 = 8 := by decide

theorem page_strayQueueState : outLen (getSlu strayQueueState 31).desc strayRead ≤ 32 ∧ inCulvert strayRead.addr = true ∧
    strayQueueState.dev.phase ≠ .recovery ∧ inReset strayQueueState 8 = false ∧
    ((getSlu strayQueueState 31).desc.getD 1 0).toNat / 65536 = pageGen strayQueueState (culvPage strayRead.addr) ∧
    pageAllows strayQueueState (culvPage strayRead.addr) 8 false = true := by decide

theorem beatQueue_strayQueueState (q : Nat) : beatQueue strayQueueState q = if q = 8 then [.sluice 31 false 0] else [] := by
  show (if 8 = q then some [Beat.sluice 31 false 0] else none).getD [] = _
  by_cases hq : q = 8
  · rw [if_pos hq.symm, if_pos hq]
    rfl
  · rw [if_neg (Ne.symm hq), if_neg hq]
    rfl

/-- Refutes O36. The resource map's owners have no bound in the model's states, and the wheel serves the queues of polders 0 to 7. The read of a sealed page
by a sluice of owner 8 waits in that owner's queue at its response, and is not executed: it stays outstanding. -/
theorem not_sluiceResponsesAdvance : ¬ Obligations.SluiceResponsesAdvance := by
  unfold Obligations.SluiceResponsesAdvance
  intro h
  obtain ⟨hgate, hstate, hstop, hout, houts, hacked, howner⟩ := sluice_strayQueueState
  obtain ⟨hlen, hculv, hphase, hreset, hgen, hallowed⟩ := page_strayQueueState
  obtain ⟨hread, -⟩ := h strayQueueState 31 0 0 strayRead hgate hstate hstop
  dsimp only at hread
  rw [show ((31 : Fin 32) : Nat) = 31 from rfl, howner] at hread
  obtain ⟨t, ht, -, hdone, -⟩ := hread hout rfl houts beatQueue_strayQueueState rfl (by decide) hlen hculv hphase hreset hgen hallowed hacked
  obtain ⟨cv, hexec⟩ := exec_sluiceReadResponse_of_no_polder (s := strayQueueState) (c := 31) (fun q hq => by
    rw [beatQueue_strayQueueState, if_neg (by omega)]) hgate hout rfl hculv
  obtain rfl := Host.Outcome.next.inj (hexec.symm.trans ht)
  have hstays : (getSlu strayQueueState 31).outs = [] := hdone
  rw [houts] at hstays
  exact absurd hstays (by decide)

end Sys2Proof.Proofs
end

section
/-! SUPPORT. Proofs. The culvert's pages (R406, R408–R412): the flag of a page, the operations of a host, leases that expire, the page that was zeroed. -/

namespace Sys2Proof.Proofs

open Sys2Proof.Machine Sys2Proof.Claims

/-! ## The flag of a page (R406) -/

/-- A flag word shows its page's state, FREE to SEALED. -/
theorem flagWord_state (g l t o st : Nat) : (flagWord g l t o st).toNat % 4 = st % 4 := by
  unfold flagWord
  rw [BitVec.toNat_ofNat]
  omega

theorem culvFlag_inj {m n : Nat} : culvFlag m = culvFlag n ↔ m = n := by
  unfold culvFlag
  omega

theorem pageGen_congr {s t : State} {n : Nat} (h : getReg t (culvFlag n) = getReg s (culvFlag n)) : pageGen t n = pageGen s n := by
  rw [pageGen, h, pageGen]

/-- The flags of the 4,096 pages. -/
def flagDesc : RegDesc := ⟨0x4000, [(4, 4096)], [fd 31 0 .ro .any 0]⟩

/-- A register of the table that an offset does not meet is passed over. -/
theorem findReg_pass {d : RegDesc} {l : List RegDesc} {o : Nat} (h : matchDims d.dims (o - d.off) = none) : findReg (d :: l) o = findReg l o := by
  rw [findReg, h]
  exact ite_self _

theorem findReg_meet {d : RegDesc} {l : List RegDesc} {o : Nat} {path : List Nat} (ho : d.off ≤ o) (h : matchDims d.dims (o - d.off) = some path) :
    findReg (d :: l) o = some (d, path) := by
  rw [findReg, if_pos ho, h]

theorem regAt_culvFlag {n : Nat} (hn : n < 4096) : regAt (culvFlag n) = some (flagDesc, [n]) := by
  have hblock : (culvFlag n - 0x60000000) / 0x10000 = 5 := by unfold culvFlag; omega
  have hoff : culvFlag n % 0x10000 = 0x4000 + 4 * n := by unfold culvFlag; omega
  have hhit : matchDims flagDesc.dims (0x4000 + 4 * n - flagDesc.off) = some [n] := by
    show matchDims [(4, 4096)] (0x4000 + 4 * n - 0x4000) = _
    rw [Nat.add_sub_cancel_left, matchDims, Nat.mul_div_cancel_left n (by decide), if_pos hn, Nat.mul_mod_right]
    rfl
  have hsingle {k : Nat} (hk : k < 0x4000) : matchDims [] (0x4000 + 4 * n - k) = none := if_neg (by omega)
  have hwheel : matchDims [(4, 8)] (0x4000 + 4 * n - 0x100) = none := if_neg (by omega)
  rw [regAt, if_pos (by unfold culvFlag; omega), hblock, hoff]
  show findReg culvRegs1 (0x4000 + 4 * n) = _
  unfold culvRegs1
  rw [findReg_pass (hsingle (by decide)), findReg_pass (hsingle (by decide)), findReg_pass (hsingle (by decide)), findReg_pass (hsingle (by decide)),
    findReg_pass (hsingle (by decide)), findReg_pass hwheel]
  exact findReg_meet (d := flagDesc) (Nat.le_add_right _ _) hhit

/-- A page that nobody has touched is FREE, of generation 0, and ready. -/
theorem regReset_culvFlag {n : Nat} (hn : n < 4096) : regReset (culvFlag n) = 0 := by
  have hplace : culvFlag n % bankStride = culvFlag n := Nat.mod_eq_of_lt (by unfold culvFlag bankStride; omega)
  unfold regReset
  dsimp only
  rw [hplace, regAt_culvFlag hn]
  exact (if_neg (by unfold culvFlag; omega)).trans (by decide)

/-! ## An effect on one flag -/

/-- The flag of one page takes a word; a page that becomes FREE waits to be zeroed (R412). -/
structure FlagSet (s t : State) (n : Nat) (w : Word) : Prop where
  reads : getReg t (culvFlag n) = w
  other : ∀ a, a ≠ culvFlag n → getReg t a = getReg s a
  mem : t.mem = s.mem
  waits : w.toNat % 4 = 0 → t.culv.zeroing = s.culv.zeroing ++ [n]

section
variable {s t : State} {n : Nat}

theorem setReg_culv_self (s : State) (a : Nat) (w : Word) : setReg s a w = { setReg s a w with culv := s.culv } := rfl

theorem setReg_culv (s : State) (a : Nat) (w : Word) : (setReg s a w).culv = s.culv := rfl

/-- What writes the flag of a page may also change what the culvert holds beside the flags. -/
theorem flagSet_of_shape {w : Word} {c : Culv} (ht : t = { setReg s (culvFlag n) w with culv := c })
    (hwaits : w.toNat % 4 = 0 → c.zeroing = s.culv.zeroing ++ [n]) : FlagSet s t n w := by
  rw [ht]
  exact ⟨getReg_setReg_same _ _ _, fun _ ha => getReg_setReg_other s _ ha, rfl, hwaits⟩

/-- A flag of another state than FREE. -/
theorem flagSet_held {g l tg o st : Nat} {c : Culv} (hst : st % 4 ≠ 0) (ht : t = { setReg s (culvFlag n) (flagWord g l tg o st) with culv := c }) :
    FlagSet s t n (flagWord g l tg o st) :=
  flagSet_of_shape ht fun h => absurd ((flagWord_state _ _ _ _ _).symm.trans h) hst

theorem flagSet_setReg {g l tg o st : Nat} (hst : st % 4 ≠ 0) : FlagSet s (setReg s (culvFlag n) (flagWord g l tg o st)) n (flagWord g l tg o st) :=
  flagSet_held (c := s.culv) hst (setReg_culv_self _ _ _)

theorem flagSet_ownPage (g p l : Nat) : FlagSet s (ownPage s n g p l) n (flagWord g l 0 p 1) := flagSet_held (by decide) rfl

/-- An accepted ACCEPT drops the former owner's accesses before the page is its new owner's (R411). -/
theorem flagSet_accept (g p l : Nat) : FlagSet s (ownPage (dropUse s n) n g p l) n (flagWord g l 0 p 1) := flagSet_held (by decide) rfl

theorem flagSet_freePage (g : Nat) : FlagSet s (freePage s n g) n (flagWord g 0xFF 0 0 0) := flagSet_of_shape rfl fun _ => by rw [setReg_culv]
end

/-! ## The status of an operation (R410) -/

section
variable {s : State} {op page gen p : Nat}

/-- An operation on a page in the state that it requires, by its holder, under the page's generation, is accepted. -/
theorem opStatus_accepted (hop : 1 ≤ op ∧ op ≤ 8) (hneeds : opNeeds s op page p = (pageState s page, p)) (hsys : op = 7 ∨ op = 8 → p = 0)
    (hgen : op ≠ 1 → gen = pageGen s page) (hready : op = 1 → pageLease s page = 0)
    (htarget : op = 4 → getF s (banked culvOparg p) culvOparg_Target ≠ p) : opStatus s op page gen p = (0, 0) := by
  unfold opStatus
  rw [hneeds]
  dsimp only
  rw [if_neg (by omega), if_neg (fun h => h.2 (hsys h.1)), if_neg (fun h => h.2 (hgen h.1)), if_neg (fun h => h.2.2 (hready h.1)),
    if_neg (fun h => h rfl), if_neg (fun h => h rfl), if_neg (fun h => htarget h.1 h.2)]

/-- RENEW to CANCEL under another generation are stale. -/
theorem opStatus_stale (hop : 2 ≤ op ∧ op ≤ 6) (hgen : gen ≠ pageGen s page) : opStatus s op page gen p = (2, 0) := by
  unfold opStatus
  rw [if_neg (by omega), if_neg (by omega), if_pos ⟨by omega, hgen⟩]
end

/-! ## CULV.OP (R408) -/

def culvOpDesc : RegDesc := ⟨0x10, [], [fd 31 28 .wo .any 0, fd 27 16 .wo .any 0, fd 15 0 .wo .any 0]⟩

theorem regAt_culvOp : regAt culvOp = some (culvOpDesc, []) := by decide

theorem regAction_culvOp (s : State) (src : Source) (p : Nat) (w : Word) : regAction s src p culvOp w = culvOpWrite s p (sourceWho src) w := by
  unfold regAction
  rw [regPlace_of_regAt regAt_culvOp]
  rfl

/-- The fields of the word that an operation writes. -/
theorem fields_opWord {op : Nat} (hop : op < 16) (page : Fin 4096) (gen : BitVec 16) :
    fget (opWord op page gen) culvOp_Op = op ∧ fget (opWord op page gen) culvOp_Page = page ∧ fget (opWord op page gen) culvOp_Gen = gen.toNat := by
  have hpage := page.isLt
  have hgen := gen.isLt
  simp only [fget, fldCard, opWord, culvOp_Op, culvOp_Page, culvOp_Gen, BitVec.toNat_ofNat]
  omega

section
variable {s u : State} {src : Source} {p op : Nat} {page : Fin 4096} {gen : BitVec 16}

/-- What OPRES shows after an operation (R410). -/
def opResult (s : State) (p page status : Nat) : State :=
  setReg s (banked culvOpres p) (BitVec.ofNat 32 (pageGen s page * 65536 + status * 4096 + page))

theorem getReg_opResult_same (s : State) (p page status : Nat) :
    getReg (opResult s p page status) (banked culvOpres p) = BitVec.ofNat 32 (pageGen s page * 65536 + status * 4096 + page) := by
  rw [opResult, getReg_setReg_same]

theorem getReg_opResult_other (s : State) {p page status a : Nat} (ha : a ≠ banked culvOpres p) : getReg (opResult s p page status) a = getReg s a := by
  rw [opResult, getReg_setReg_other _ _ ha]

theorem opResult_rest (s : State) (p page status : Nat) : (opResult s p page status).mem = s.mem ∧ (opResult s p page status).culv = s.culv := by
  unfold opResult
  exact ⟨rfl, rfl⟩

theorem hostWrite_culvOp (h : HostReady s src p culvOp) {w : Word} (hw : culvOpWrite s p (sourceWho src) w = (u, false)) :
    hostWrite s src culvOp w = respond u false [] :=
  hostWrite_command (m := 0xFFFFFFFF) h (by decide) (by decide) regAt_culvOp (r := .any) (by decide) (by decide) (by decide) (by decide)
    (by rw [regAction_culvOp, show w &&& 0xFFFFFFFF = w from BitVec.and_allOnes, hw])

theorem hostWrite_accepted (h : HostReady s src p culvOp) (hop : op < 16) (hst : opStatus s op page gen.toNat p = (0, 0)) :
    hostWrite s src culvOp (opWord op page gen) = respond (opResult (opApply s op page p) p page 0) false [] := by
  obtain ⟨ho, hp, hg⟩ := fields_opWord hop page gen
  refine hostWrite_culvOp h ?_
  unfold culvOpWrite
  dsimp only
  rw [ho, hp, hg, hst]
  rfl

theorem hostWrite_stale (h : HostReady s src p culvOp) (hop : op < 16) (hst : opStatus s op page gen.toNat p = (2, 0)) :
    hostWrite s src culvOp (opWord op page gen) = respond (opResult (staleRefusal s p page gen.toNat) p page 2) false [] := by
  obtain ⟨ho, hp, hg⟩ := fields_opWord hop page gen
  refine hostWrite_culvOp h ?_
  unfold culvOpWrite
  dsimp only
  rw [ho, hp, hg, hst]
  rfl
end

/-! ## Operations that are accepted (R409) -/

/-- A polder's OPRES and STALECNT are no flags, nor its EVDROP. -/
theorem banked_ne_culvFlag {a n : Nat} (ha : a < culvFlag 0) (hn : n < 4096) (p : Nat) : banked a p ≠ culvFlag n := by
  unfold banked bankStride
  unfold culvFlag at *
  omega

section
variable {s : State} {src : Source} {p op : Nat} {page : Fin 4096} {gen : BitVec 16}

/-- An accepted operation answers status 0 with the page's generation as it then is; it changes OPRES and the page's flag only. -/
theorem accepted_moves {w : Word} (h : HostReady s src p culvOp) (hop : op < 16) (hst : opStatus s op page gen.toNat p = (0, 0))
    (hset : FlagSet s (opApply s op page p) page w) :
    ∃ t, (.next (hostWrite s src culvOp (opWord op page gen)) : Host.Outcome State Fault Refusal) = .next t ∧ Answered t [] ∧
      getReg t (culvFlag page) = w ∧ getReg t (banked culvOpres p) = BitVec.ofNat 32 (pageGen t page * 65536 + page.val) ∧
      (∀ a, a ≠ culvFlag page → a ≠ banked culvOpres p → getReg t a = getReg s a) ∧ t.mem = s.mem ∧
      (pageState t page = 0 → t.culv.zeroing = s.culv.zeroing ++ [page.val]) := by
  obtain ⟨hreads, hother, hmem, hwaits⟩ := hset
  obtain ⟨hmem', hculv⟩ := opResult_rest (opApply s op page p) p page 0
  rw [hostWrite_accepted h hop hst]
  generalize opApply s op page p = u at *
  have hflag : getReg (respond (opResult u p page 0) false []) (culvFlag page) = w := by
    rw [getReg_respond, getReg_opResult_other u (banked_ne_culvFlag (by decide) page.isLt p).symm, hreads]
  refine ⟨_, rfl, answered_respond _ _, hflag, ?_, fun a hflg hres => ?_, (respond_mem _ _ _).trans (hmem'.trans hmem), fun hfree => ?_⟩
  · rw [getReg_respond, getReg_opResult_same, pageGen_congr (s := u) (hflag.trans hreads.symm), Nat.zero_mul, Nat.add_zero]
  · rw [getReg_respond, getReg_opResult_other u hres, hother a hflg]
  · exact (congrArg Culv.zeroing hculv).trans (hwaits (by rw [← hflag]; exact hfree))
end

/-- What the accepted operation `c` does to a page, of word `w` (R409). -/
def Moves (s : State) (p : Nat) (page : Fin 4096) (c : Instr) (w : Word) : Prop :=
  ∃ t, exec c s = .next t ∧ Answered t [] ∧ getReg t (culvFlag page) = w ∧
    getReg t (banked culvOpres p) = BitVec.ofNat 32 (pageGen t page * 65536 + page.val) ∧
    (∀ a, a ≠ culvFlag page → a ≠ banked culvOpres p → getReg t a = getReg s a) ∧ t.mem = s.mem ∧
    (pageState t page = 0 → t.culv.zeroing = s.culv.zeroing ++ [page.val])

/-- The lease that an operation of polder `p` gives (R409). -/
def opLease (s : State) (p : Nat) : Nat :=
  if getF s (banked culvOparg p) culvOparg_Lease = 0 then getF s culvCfg culvCfg_Deflease else getF s (banked culvOparg p) culvOparg_Lease

section
variable {s : State} {src : Source} {p : Nat} {page : Fin 4096} {gen : BitVec 16}

theorem take_moves (h : HostReady s src p culvOp) (hstate : pageState s page = 0) (hready : pageLease s page = 0) :
    Moves s p page (.take src page gen) (flagWord (pageGen s page) (opLease s p) 0 p 1) :=
  accepted_moves h (op := 1) (by decide)
    (opStatus_accepted (by decide) (by rw [hstate]; rfl) (by omega) (by omega) (fun _ => hready) (by omega)) (flagSet_ownPage _ _ _)

variable (h : HostReady s src p culvOp) (hgen : gen.toNat = pageGen s page)
include h hgen

theorem renew_moves (hstate : pageState s page = 1) (howner : pageOwner s page = p) :
    Moves s p page (.renew src page gen) (flagWord gen.toNat (opLease s p) 0 p 1) := by
  rw [hgen]
  exact accepted_moves h (op := 2) (by decide)
    (opStatus_accepted (by decide) (by rw [hstate, ← howner]; rfl) (by omega) (fun _ => hgen) (by omega) (by omega)) (flagSet_ownPage _ _ _)

theorem release_moves (hstate : pageState s page = 1) (howner : pageOwner s page = p) :
    Moves s p page (.release src page gen) (flagWord (gen.toNat + 1) 0xFF 0 0 0) := by
  rw [hgen]
  exact accepted_moves h (op := 3) (by decide)
    (opStatus_accepted (by decide) (by rw [hstate, ← howner]; rfl) (by omega) (fun _ => hgen) (by omega) (by omega)) (flagSet_freePage _)

theorem handoff_moves (hstate : pageState s page = 1) (howner : pageOwner s page = p) (htarget : getF s (banked culvOparg p) culvOparg_Target ≠ p) :
    Moves s p page (.handoff src page gen) (flagWord gen.toNat (opLease s p) (getF s (banked culvOparg p) culvOparg_Target) p 2) := by
  rw [hgen]
  exact accepted_moves h (op := 4) (by decide)
    (opStatus_accepted (by decide) (by rw [hstate, ← howner]; rfl) (by omega) (fun _ => hgen) (by omega) (fun _ => htarget)) (flagSet_setReg (by decide))

theorem seal_moves (hstate : pageState s page = 1) (howner : pageOwner s page = p) (hp : p = 0) :
    Moves s p page (.seal src page gen) (flagWord gen.toNat 0 0 0 3) := by
  rw [hgen]
  exact accepted_moves h (op := 7) (by decide)
    (opStatus_accepted (by decide) (by rw [hstate, ← howner]; rfl) (fun _ => hp) (fun _ => hgen) (by omega) (by omega)) (flagSet_setReg (by decide))

theorem accept_moves (hstate : pageState s page = 2) (htarget : pageTarget s page = p) :
    Moves s p page (.accept src page gen) (flagWord (gen.toNat + 1) (opLease s p) 0 p 1) := by
  rw [hgen]
  exact accepted_moves h (op := 5) (by decide)
    (opStatus_accepted (by decide) (by rw [hstate, ← htarget]; rfl) (by omega) (fun _ => hgen) (by omega) (by omega)) (flagSet_accept _ _ _)

theorem cancel_moves (hstate : pageState s page = 2) (howner : pageOwner s page = p) :
    Moves s p page (.cancel src page gen) (flagWord gen.toNat (opLease s p) 0 p 1) := by
  rw [hgen]
  exact accepted_moves h (op := 6) (by decide)
    (opStatus_accepted (by decide) (by rw [hstate, ← howner]; rfl) (by omega) (fun _ => hgen) (by omega) (by omega)) (flagSet_ownPage _ _ _)

theorem unseal_moves (hstate : pageState s page = 3) (hp : p = 0) :
    Moves s p page (.unseal src page gen) (flagWord (gen.toNat + 1) 0xFF 0 0 0) := by
  rw [hgen]
  exact accepted_moves h (op := 8) (by decide)
    (opStatus_accepted (by decide) (by rw [hstate, hp]; rfl) (fun _ => hp) (fun _ => hgen) (by omega) (by omega)) (flagSet_freePage _)
end

/-! ## Stale operations (R410) -/

/-- A stale operation is counted, and noted once a tick. -/
theorem staleRefusal_frame (s : State) (p page gen : Nat) : (staleRefusal s p page gen).mem = s.mem ∧
    ∀ a, a ≠ poldEvdrop p → getReg (staleRefusal s p page gen) a = getReg (countF s (banked culvStalecnt p) culvStalecnt_Count 1) a := by
  unfold staleRefusal
  dsimp only
  split
  · exact ⟨rfl, fun _ _ => rfl⟩
  · obtain ⟨⟨rg, rec, fr, hnotice⟩, hregs⟩ := notice_shape { countF s (banked culvStalecnt p) culvStalecnt_Count 1 with
      dike := { (countF s (banked culvStalecnt p) culvStalecnt_Count 1).dike with
        staleNoted := (countF s (banked culvStalecnt p) culvStalecnt_Count 1).dike.staleNoted ++ [p] } } 0x0603 p [pw p, pw page, pw gen]
    exact ⟨by rw [hnotice]; rfl, hregs⟩

theorem getReg_staleRefusal_culvFlag (s : State) {p n : Nat} (hp : p < 8) (hn : n < 4096) (page gen : Nat) :
    getReg (staleRefusal s p page gen) (culvFlag n) = getReg s (culvFlag n) := by
  rw [(staleRefusal_frame s p page gen).2 _ (by unfold culvFlag poldEvdrop; omega)]
  exact getReg_setF_other s _ _ (banked_ne_culvFlag (by decide) hn p).symm

section
variable {s : State} {src : Source} {p op : Nat} {page : Fin 4096} {gen : BitVec 16}

/-- A stale operation answers status 2 with the page's generation, and changes no flag. -/
theorem stale_refused (h : HostReady s src p culvOp) (hop : 2 ≤ op ∧ op ≤ 6) (hstale : gen.toNat ≠ pageGen s page) :
    ∃ t, (.next (hostWrite s src culvOp (opWord op page gen)) : Host.Outcome State Fault Refusal) = .next t ∧ Answered t [] ∧
      (∀ n : Fin 4096, getReg t (culvFlag n) = getReg s (culvFlag n)) ∧ t.mem = s.mem ∧
      getReg t (banked culvOpres p) = BitVec.ofNat 32 (pageGen s page * 65536 + 2 * 4096 + page.val) ∧
      getF t (banked culvStalecnt p) culvStalecnt_Count = min (fldCard culvStalecnt_Count - 1) (getF s (banked culvStalecnt p) culvStalecnt_Count + 1) := by
  obtain ⟨-, -, hsrc, -⟩ := id h
  have hp : p < 8 := sourcePolder_lt hsrc
  obtain ⟨hmem, hregs⟩ := staleRefusal_frame s p page gen.toNat
  have hcount : banked culvStalecnt p ≠ poldEvdrop p := by unfold banked bankStride culvStalecnt poldEvdrop; omega
  have hother : banked culvStalecnt p ≠ banked culvOpres p := by unfold banked culvStalecnt culvOpres; omega
  obtain ⟨hmem', -⟩ := opResult_rest (staleRefusal s p page gen.toNat) p page 2
  have hflag (n : Fin 4096) := getReg_staleRefusal_culvFlag s hp n.isLt page gen.toNat
  rw [hostWrite_stale h (by omega) (opStatus_stale hop hstale)]
  generalize staleRefusal s p page gen.toNat = u at *
  refine ⟨_, rfl, answered_respond _ _, fun n => ?_, (respond_mem _ _ _).trans (hmem'.trans hmem), ?_, ?_⟩
  · rw [getReg_respond, getReg_opResult_other u (banked_ne_culvFlag (by decide) n.isLt p).symm, hflag n]
  · rw [getReg_respond, getReg_opResult_same, pageGen_congr (hflag page)]
  · rw [getF, getReg_respond, getReg_opResult_other u hother, hregs _ hcount]
    exact getF_countF s _ _ 1 (by decide)
end

/-! ## The leases that expire (R411) -/

/-- The keys of cells that rise are in order. -/
theorem cellsRise_pairwise {α : Type} {l : Cells α} {lo : Nat} (h : cellsRise lo l = true) :
    (∀ c ∈ l, lo ≤ c.1) ∧ l.Pairwise fun c d => c.1 < d.1 := by
  induction l generalizing lo with
  | nil => exact ⟨fun _ hc => absurd hc List.not_mem_nil, List.Pairwise.nil⟩
  | cons c t ih =>
    simp only [cellsRise, Bool.and_eq_true, decide_eq_true_eq] at h
    obtain ⟨hlow, hrise⟩ := ih h.2
    exact ⟨List.forall_mem_cons.mpr ⟨h.1, fun d hd => by have := hlow d hd; omega⟩, List.pairwise_cons.mpr ⟨hlow, hrise⟩⟩

/-- No page is listed twice. -/
theorem listedPages_nodup {s : State} (hinv : Inv s) : (listedPages s).Nodup := by
  obtain ⟨hregs, -⟩ := hinv
  simp only [regsWf, Bool.and_eq_true] at hregs
  unfold listedPages
  refine List.Pairwise.imp (S := (· ≠ ·)) (R := (· < ·)) (fun h => Nat.ne_of_lt h) (List.pairwise_map.mpr ?_)
  refine ((cellsRise_pairwise hregs.1).2.filter _).imp_of_mem fun {c d} hc hd hcd => ?_
  have hc := List.of_mem_filter hc
  have hd := List.of_mem_filter hd
  simp only [Bool.and_eq_true, decide_eq_true_eq, beq_iff_eq] at hc hd
  omega

/-- A page that is not FREE is listed. -/
theorem mem_listedPages {s : State} {n : Nat} (hn : n < 4096) (hstate : pageState s n ≠ 0) : n ∈ listedPages s := by
  have hkey : culvFlag n ∈ s.regs.map fun c => c.1 := by
    by_contra hnone
    refine hstate ?_
    rw [pageState, getReg, cellFind_none_of_not_mem hnone, regReset_culvFlag hn]
    rfl
  obtain ⟨c, hc, hcn⟩ := List.mem_map.mp hkey
  have hcn : c.1 = 0x60054000 + 4 * n := hcn
  refine List.mem_map.mpr ⟨c, List.mem_filter.mpr ⟨hc, ?_⟩, by omega⟩
  simp only [Bool.and_eq_true, decide_eq_true_eq, beq_iff_eq]
  omega

theorem mem_expiring {s : State} {n : Nat} (hn : n < 4096) : n ∈ expiring s ↔ (pageState s n = 1 ∨ pageState s n = 2) ∧ pageLease s n = 0 := by
  simp only [expiring, List.mem_filter, Bool.and_eq_true, Bool.or_eq_true, beq_iff_eq]
  exact and_iff_right_of_imp fun h => mem_listedPages hn (by omega)

theorem forEach_cons {α : Type} (x : α) (l : List α) (s : State) (f : State → α → State) : forEach (x :: l) s f = forEach l (f s x) f := rfl

/-- A page expires: FREE under the next generation. -/
def expirePage (s : State) (n : Nat) : State := freePage s n (pageGen s n + 1)

theorem forEach_expirePage_mem (l : List Nat) (s : State) : (forEach l s expirePage).mem = s.mem :=
  forEach_keeps State.mem l s _ fun _ _ => (flagSet_freePage _).mem

/-- Pages that expire together: each has its next generation, every other page keeps its flag. -/
theorem getReg_forEach_expirePage {l : List Nat} (hl : l.Nodup) (s : State) (k : Nat) :
    getReg (forEach l s expirePage) (culvFlag k) = if k ∈ l then flagWord (pageGen s k + 1) 0xFF 0 0 0 else getReg s (culvFlag k) := by
  induction l generalizing s with
  | nil => rw [if_neg List.not_mem_nil]; rfl
  | cons n t ih =>
    obtain ⟨hnt, ht⟩ := List.nodup_cons.mp hl
    obtain ⟨hreads, hother, -, -⟩ := flagSet_freePage (s := s) (n := n) (pageGen s n + 1)
    rw [forEach_cons, ih ht]
    by_cases hk : k = n
    · rw [hk, if_neg hnt, if_pos List.mem_cons_self]
      exact hreads
    · have hsame : getReg (expirePage s n) (culvFlag k) = getReg s (culvFlag k) := hother _ (mt culvFlag_inj.mp hk)
      rw [pageGen_congr hsame, hsame]
      simp only [List.mem_cons, hk, false_or]

/-- A state keeps the memory and the flags of another. -/
def FlagsKept (s t : State) : Prop := t.mem = s.mem ∧ ∀ n, getReg t (culvFlag n) = getReg s (culvFlag n)

theorem FlagsKept.trans {s t u : State} (h : FlagsKept s t) (h' : FlagsKept t u) : FlagsKept s u :=
  ⟨h'.1.trans h.1, fun n => (h'.2 n).trans (h.2 n)⟩

/-- The notice of one polder. -/
theorem flagsKept_notice (s : State) (code : Nat) {scope : Nat} (hscope : scope < 8) (l : List Word) : FlagsKept s (notice s code scope l) := by
  obtain ⟨⟨rg, rec, fr, hnotice⟩, hregs⟩ := notice_shape s code scope l
  exact ⟨by rw [hnotice], fun n => hregs _ (by unfold culvFlag poldEvdrop; omega)⟩

theorem flagsKept_forEach {l : List Nat} {f : State → Nat → State} (hf : ∀ s, ∀ x ∈ l, FlagsKept s (f s x)) (s : State) : FlagsKept s (forEach l s f) :=
  forEach_preserves_mem (FlagsKept s) l s f (fun t x hx ht => ht.trans (hf t x hx)) ⟨rfl, fun _ => rfl⟩

/-- Beside the pages that expire, notices are sent. -/
theorem flagsKept_expirePages (s : State) (ns : List Nat) : FlagsKept (forEach ns s expirePage) (expirePages s ns) := by
  unfold expirePages
  refine (flagsKept_forEach (fun t p hp => ?_) _).trans (flagsKept_forEach (fun t k hk => ?_) _)
  · split
    · exact ⟨rfl, fun _ => rfl⟩
    · exact flagsKept_notice _ _ (mem_upto.mp hp) _
  · have hk := mem_upto.mp hk
    split
    · exact ⟨rfl, fun _ => rfl⟩
    · exact flagsKept_notice _ _ (by omega) _

/-- Exactly the held pages of lease 0 expire. -/
theorem leaseExpiry_spec {s : State} (hinv : Inv s) : ∃ t, exec .leaseExpiry s = .next t ∧ t.mem = s.mem ∧ ∀ n : Fin 4096, getReg t (culvFlag n) =
    if (pageState s n = 1 ∨ pageState s n = 2) ∧ pageLease s n = 0 then flagWord (pageGen s n + 1) 0xFF 0 0 0 else getReg s (culvFlag n) := by
  obtain ⟨hmem, hflags⟩ := flagsKept_expirePages s (expiring s)
  refine ⟨_, rfl, hmem.trans (forEach_expirePage_mem _ _), fun n => ?_⟩
  have hexpiring : (expiring s).Nodup := (listedPages_nodup hinv).filter _
  rw [hflags, getReg_forEach_expirePage hexpiring]
  exact if_congr (mem_expiring n.isLt) rfl rfl

/-! ## The page that was zeroed (R412) -/

theorem pageZeroed_spec {s : State} {n : Fin 4096} {rest : List Nat} (h : s.culv.zeroing = n.val :: rest) : ∃ t, exec .pageZeroed s = .next t ∧
    (∀ k < 4096, rdByte t (pageBase n + k) = 0) ∧ MemoryKept s t (pageBase n) (pageBase n + 4096) ∧ t.culv.zeroing = rest ∧
    getReg t (culvFlag n) = flagWord (pageGen s n) 0 0 0 0 ∧ ∀ a, a ≠ culvFlag n → getReg t a = getReg s a := by
  refine ⟨_, rfl, ?_⟩
  rw [h]
  dsimp only
  refine ⟨fun k hk => ?_, fun a ha => ?_, rfl, getReg_setReg_same _ _ _, fun a ha => getReg_setReg_other _ _ ha⟩
  · show cellGet 0 (cellClear s.mem (pageBase n) (pageBase n + 4096)) (pageBase n + k) = 0
    rw [cellGet, cellFind_clear_in _ (by omega) (by omega)]
    rfl
  · show cellGet 0 (cellClear s.mem (pageBase n) (pageBase n + 4096)) a = cellGet 0 s.mem a
    rw [cellGet, cellFind_clear_out _ ha, cellGet]

/-! ## The statement -/

/-- Settles O33: every operation is one write of CULV.OP, which R410's list of checks accepts under the operation's condition; pages expire one by one,
each listed once, and the notices they cause touch no flag. -/
theorem culvertOperationsMovePages : Obligations.CulvertOperationsMovePages := by
  unfold Obligations.CulvertOperationsMovePages
  refine ⟨fun s src p page gen h => ?_, fun s hinv => leaseExpiry_spec hinv, fun s n rest hz => pageZeroed_spec hz⟩
  intro arg lease target fresh moves g
  refine ⟨take_moves h, fun hf hs ho => ⟨renew_moves h hf hs ho, release_moves h hf hs ho, handoff_moves h hf hs ho, seal_moves h hf hs ho⟩,
    accept_moves h, cancel_moves h, unseal_moves h, fun hstale c hc => ?_⟩
  simp only [List.mem_cons, List.not_mem_nil, or_false] at hc
  rcases hc with rfl | rfl | rfl | rfl | rfl
  · exact stale_refused h (op := 2) (by decide) hstale
  · exact stale_refused h (op := 3) (by decide) hstale
  · exact stale_refused h (op := 4) (by decide) hstale
  · exact stale_refused h (op := 5) (by decide) hstale
  · exact stale_refused h (op := 6) (by decide) hstale

end Sys2Proof.Proofs
end

section
/-! SUPPORT. Proofs. The recorder (R417, R562–R569): what events leave of it, the record that is written, the scan, reading, locking, clearing. -/

namespace Sys2Proof.Proofs

open Sys2Proof.Machine Sys2Proof.Claims

/-! ## What events leave of the recorder -/

/-- The recorder and the count of free values. -/
def journal (s : State) : Recorder × Nat := (s.recorder, s.free)

section
variable {s t : State} {p : Nat}

theorem journal_pairStep (h : PairStep s t p) : journal t = journal s := by
  obtain ⟨⟨_, _, rfl⟩, -⟩ := h
  rfl

theorem journal_pairTripRst (s : State) (p : Nat) : journal (pairTripRst s p) = journal s :=
  journal_pairStep ((pairStep_pairTrip _ p _).trans (pairStep_setPair s p _))

theorem journal_portInh (s : State) (n : Nat) : journal (portInh s n) = journal s := by
  unfold portInh
  split <;> rfl

theorem journal_safePairs (s : State) : journal (safePairs s) = journal s :=
  forEach_keeps journal _ s _ fun t p => by
    split
    · exact journal_pairStep (pairStep_pairRefresh t p false)
    · exact journal_pairStep (pairStep_pairTrip t p _)

theorem journal_lineOff (s : State) : journal (lineOff s) = journal s :=
  (forEach_keeps journal _ _ portSafe fun _ n => journal_portInh _ n).trans (journal_safePairs s)

theorem journal_refreshOuts (s : State) : journal (refreshOuts s) = journal s :=
  forEach_keeps journal (upto 8) s _ fun t k => by
    dsimp only
    split <;> rfl

theorem journal_demand (s : State) (brk : Nat) : journal (demand s brk) = journal s := by
  unfold demand demandBy
  dsimp only
  rw [journal_refreshOuts]
  split
  · exact journal_lineOff _
  · rfl

theorem journal_latchAllConds (s : State) : journal (latchAllConds s) = journal s := forEach_keeps journal _ s _ fun _ _ => rfl

theorem journal_startModeHold (s : State) (p : Nat) : journal (startModeHold s p) = journal s := by
  unfold startModeHold
  split <;> rfl

theorem journal_requestReset (s : State) (p : Nat) (c : ResetCause) : journal (requestReset s p c) = journal s := by
  unfold requestReset
  split <;> rfl

theorem journal_isolate (s : State) (p : Nat) (reset : Bool) : journal (isolate s p reset) = journal s := by
  have hpairs := forEach_keeps journal (pairsOf s p) s _ journal_pairTripRst
  have htrips := forEach_keeps journal (portsOf s p) (forEach (pairsOf s p) s pairTripRst) portTripRst fun _ _ => rfl
  have hports : journal (forEach (portsOf s p) (tripPolder s p) portInh) = journal s :=
    (forEach_keeps journal _ _ _ journal_portInh).trans (htrips.trans hpairs)
  unfold isolate
  dsimp only
  split
  · exact (journal_requestReset _ p .isolation).trans hports
  · exact hports

theorem journal_captureFault (s : State) (e : Event) (esc : Bool) : journal (captureFault s e esc) = journal s := by
  unfold captureFault
  dsimp only
  split <;> rfl
end

/-- What the recorder holds beside the events that wait in the scopes' queues and in the keep domain's. -/
def archive (r : Recorder) : Recorder := { r with queues := [], placed := [], dropped := [], keepQ := [], lost := 0 }

theorem archive_fields {r r' : Recorder} (h : archive r' = archive r) : r'.ahead = r.ahead ∧ r'.mram = r.mram ∧ r'.head = r.head ∧ r'.tail = r.tail ∧
    r'.total = r.total ∧ r'.clearing = r.clearing :=
  ⟨congrArg (·.ahead) h, congrArg (·.mram) h, congrArg (·.head) h, congrArg (·.tail) h, congrArg (·.total) h, congrArg (·.clearing) h⟩

/-- What reports do to the recorder: events wait, and free values are used. -/
structure Reports (s t : State) : Prop where
  archive : archive t.recorder = archive s.recorder
  free : s.free ≤ t.free

section
variable {s t u : State}

theorem Reports.trans (h' : Reports t u) (h : Reports s t) : Reports s u := ⟨h'.archive.trans h.archive, h.free.trans h'.free⟩

theorem reports_of_journal (h : journal t = journal s) : Reports s t := by
  obtain ⟨hrec, hfree⟩ := Prod.mk.inj h
  exact ⟨congrArg archive hrec, hfree.ge⟩

theorem Reports.refl (s : State) : Reports s s := reports_of_journal rfl

theorem reports_when' (b : Bool) {f : State → State} (h : Reports s (f s)) : Reports s (when' b f s) := by
  unfold when'
  split
  · exact h
  · exact Reports.refl s

theorem reports_enqueueKeep (s : State) (e : Event) : Reports s (enqueueKeep s e) := by
  unfold enqueueKeep
  dsimp only
  split <;> exact ⟨rfl, le_rfl⟩

theorem reports_enqueue (s : State) (e : Event) : Reports s (enqueue s e) := by
  unfold enqueue
  dsimp only
  split
  · exact reports_enqueueKeep s e
  · split <;> exact ⟨rfl, le_rfl⟩

theorem reports_nextFree (s : State) : Reports s (nextFree s) := ⟨rfl, Nat.le_succ _⟩

theorem reports_notice (s : State) (code scope : Nat) (l : List Word) : Reports s (notice s code scope l) :=
  (reports_nextFree _).trans (reports_enqueue s _)

theorem reports_refreshFaults (s : State) : Reports s (refreshFaults s) := by
  have hsums : journal (forEach (upto 8) s fun s p => startModeHold (refreshSum s p) p) = journal s :=
    forEach_keeps journal _ s _ fun t p => journal_startModeHold (refreshSum t p) p
  have hlatch (v : State) : Reports v (latchAllConds (refreshPins v)) := reports_of_journal (journal_latchAllConds (refreshPins v))
  unfold refreshFaults
  generalize forEach (upto 8) s (fun s p => startModeHold (refreshSum s p) p) = v at hsums ⊢
  dsimp only
  refine (hlatch _).trans (Reports.trans (t := v) ?_ (reports_of_journal hsums))
  split
  · exact (reports_notice _ _ _ _).trans (reports_of_journal (journal_demand _ 0))
  · exact ⟨rfl, le_rfl⟩

theorem reports_flt (s : State) (f : Flt) : Reports s { s with flt := f } := reports_of_journal rfl

/-- A fault is reported to the recorder, with what it escalates to. -/
theorem reports_collect (s : State) (code cls scope : Nat) (l : List Word) (hk : Option Nat) (reset : Bool) :
    Reports s (collect s code cls scope l hk reset) := by
  have hcapture (b : Bool) (e : Event) (esc : Bool) (u : State) : Reports u (if b then captureFault u e esc else u) := by
    split
    · exact reports_of_journal (journal_captureFault u e esc)
    · exact Reports.refl u
  unfold collect
  dsimp only
  refine (reports_refreshFaults _).trans ?_
  refine (reports_when' _ (reports_of_journal (journal_demand _ 0))).trans ?_
  refine (reports_when' _ (reports_of_journal (forEach_keeps journal _ _ _ fun u p => journal_isolate u p _))).trans ?_
  refine (reports_when' _ (reports_of_journal (journal_isolate _ scope reset))).trans ?_
  refine (reports_when' _ (reports_of_journal rfl)).trans ?_
  refine (hcapture _ _ _ _).trans ?_
  refine (reports_flt _ _).trans ?_
  refine (reports_when' _ (reports_notice _ _ _ _)).trans ?_
  refine (reports_enqueue _ _).trans ?_
  exact (reports_when' _ (reports_of_journal rfl)).trans (reports_nextFree s)

theorem reports_event (s : State) (code cls scope : Nat) (l : List Word) : Reports s (event s code cls scope l) := by
  unfold event
  split
  · exact reports_notice s code scope l
  · exact reports_collect s code cls scope l none true

/-- An event of the keep domain is reported; memory stays, and every register that no fault writes. -/
theorem keepEvent_spec (s : State) (code cls : Nat) (l : List Word) : Reports s (keepEvent s code cls l) ∧ (keepEvent s code cls l).mem = s.mem ∧
    ∀ a, ¬faultReg a → getReg (keepEvent s code cls l) a = getReg s a := by
  unfold keepEvent
  dsimp only
  split
  · exact ⟨reports_event s code cls 0 l, event_mem s code cls 0 l, fun a ha => sameReg_event ha s code cls 0 l (by decide)⟩
  · obtain ⟨rec, hrec, -⟩ := enqueueKeep_shape s
      { code := code, cls := cls, scope := 0, params := l, time := (recordTime s).1, timeq := (recordTime s).2 }
    exact ⟨(reports_nextFree _).trans (reports_enqueueKeep s _), by rw [hrec]; rfl, fun a _ => by rw [hrec]; rfl⟩
end

/-! ## The words of a record (R562, R563) -/

/-- The words before a record's CRC. -/
def recordBody (seq : Word) (e : Event) (keep : Bool) : List Word :=
  [seq, pw (e.code % 65536 + 65536 * (e.cls % 8 + 8 * (e.scope % 8) + 64 * bit keep + 128 * bit e.timeq)), e.time.setWidth 32, (e.time >>> 32).setWidth 32] ++
    (e.params ++ List.replicate 10 0).take 10

theorem recordWords_eq (seq : Word) (e : Event) (keep : Bool) :
    recordWords seq e keep = recordBody seq e keep ++ [pw (crc32 ((recordBody seq e keep).flatMap wordBytes)), 0] := rfl

theorem length_recordBody (seq : Word) (e : Event) (keep : Bool) : (recordBody seq e keep).length = 14 := by
  simp only [recordBody, List.length_append, List.length_take, List.length_cons, List.length_nil, List.length_replicate]
  omega

/-- A record is valid in its slot. -/
theorem slotValid_recordWords (seq : Word) (e : Event) (keep : Bool) : slotValid (seq.toNat % 65536) (recordWords seq e keep) = true := by
  have hlen := length_recordBody seq e keep
  have hcrc : (recordWords seq e keep).getD 14 0 = pw (crc32 ((recordBody seq e keep).flatMap wordBytes)) := by
    rw [recordWords_eq, List.getD_append_right _ _ _ _ hlen.le, hlen]
    rfl
  have hbody : (recordWords seq e keep).take 14 = recordBody seq e keep := by rw [recordWords_eq, List.take_left' hlen]
  have hlength : (recordWords seq e keep).length = 16 := by rw [recordWords_eq, List.length_append, hlen]; rfl
  unfold slotValid
  rw [hcrc, hbody, hlength]
  simp only [beq_self_eq_true, Bool.and_true, Bool.true_and]
  exact beq_self_eq_true _

/-- The second word of a record: the code, the class, the scope, and whether the clock was not set. -/
theorem recordWords_word1 (seq : Word) (e : Event) (keep : Bool) :
    ((recordWords seq e keep).getD 1 0).toNat % 65536 = e.code % 65536 ∧
      ((recordWords seq e keep).getD 1 0).toNat / 65536 % 64 = e.cls % 8 + 8 * (e.scope % 8) ∧
      ((recordWords seq e keep).getD 1 0).toNat / 8388608 = if e.timeq then 1 else 0 := by
  have hword : (recordWords seq e keep).getD 1 0 =
      BitVec.ofNat 32 (e.code % 65536 + 65536 * (e.cls % 8 + 8 * (e.scope % 8) + 64 * bit keep + 128 * bit e.timeq)) := rfl
  have hkeep : bit keep ≤ 1 := by cases keep <;> decide
  have htimeq : bit e.timeq = (if e.timeq then 1 else 0) ∧ bit e.timeq ≤ 1 := by cases e.timeq <;> decide
  rw [hword, BitVec.toNat_ofNat, ← htimeq.1]
  omega

/-- The parameters of a record, filled up with zeros. -/
theorem recordWords_params (seq : Word) {e : Event} (keep : Bool) (h : e.params.length ≤ 10) :
    ((recordWords seq e keep).drop 4).take 10 = e.params ++ List.replicate (10 - e.params.length) 0 := by
  have hparams : (e.params ++ List.replicate 10 0).take 10 = e.params ++ List.replicate (10 - e.params.length) (0 : Word) := by
    rw [List.take_append, List.take_of_length_le h, List.take_replicate, Nat.min_eq_left (Nat.sub_le _ _)]
  have hlen : (e.params ++ List.replicate (10 - e.params.length) (0 : Word)).length = 10 := by
    rw [List.length_append, List.length_replicate]
    omega
  rw [recordWords_eq, recordBody, hparams]
  exact List.take_left' hlen

/-! ## Writing a record (R417, R537, R566) -/

section
variable (s : State)

/-- Counted slot writes: the total grows; an event is reported at half the rated endurance. -/
theorem countWrites_spec (k : Nat) : archive (countWrites s k).recorder = archive { s.recorder with total := s.recorder.total + k } ∧
    (countWrites s k).mem = s.mem ∧ ((s.recorder.total + k) / 65536 ≤ 5000000000 → (countWrites s k).regs = s.regs) := by
  unfold countWrites
  dsimp only
  split
  · rename_i h
    obtain ⟨hreports, hmem, -⟩ := keepEvent_spec { s with recorder := { s.recorder with total := s.recorder.total + k } } 0x0F03 1
      [pw (s.recorder.total + k), pw ((s.recorder.total + k) / 4294967296)]
    exact ⟨hreports.archive, hmem, fun hle => absurd h.1 (Nat.not_lt.mpr hle)⟩
  · exact ⟨rfl, rfl, fun _ => rfl⟩

/-- A frame that is sent is none of the recorder's business, nor memory's. -/
theorem sendOn_keeps (n : Nat) (f : RFrame) : ((sendOn s n f).mem, (sendOn s n f).recorder) = (s.mem, s.recorder) := by
  unfold sendOn
  dsimp only
  split
  · rfl
  · split
    · rfl
    · split <;> rfl

theorem sendEvent_keeps (l : List Word) : ((sendEvent s l).mem, (sendEvent s l).recorder) = (s.mem, s.recorder) := by
  unfold sendEvent
  split
  · unfold sendNew sendRouted
    dsimp only
    split
    · exact forEach_keeps (fun t => (t.mem, t.recorder)) _ _ _ fun t n => sendOn_keeps t n _
    · rfl
  · rfl

/-- The recorder after a record is written: the oldest is given up when all slots are full. -/
def written (r : Recorder) (l : List Word) : Recorder :=
  { r with mram := cellSet [] r.mram ((r.head + 1).toNat % 65536) l, head := r.head + 1
           tail := if r.head + 1 - r.tail = 65536 then r.tail + 1 else r.tail, total := r.total + 1 }

theorem mram_written (r : Recorder) {l : List Word} (hl : l ≠ []) : cellFind (written r l).mram ((r.head + 1).toNat % 65536) = some l := by
  rw [written, cellSet, if_neg hl]
  exact cellFind_put_same _ _ _

/-- The state with the record in its slot, before the write is counted. -/
def stored (l : List Word) : State := { s with recorder := { written s.recorder l with total := s.recorder.total } }

theorem writeRecord_spec (e : Event) (fromKeep : Bool) : (writeRecord s e fromKeep).mem = s.mem ∧
    archive (writeRecord s e fromKeep).recorder = archive (written s.recorder (recordWords (s.recorder.head + 1) e (fromKeep || !mainOn s))) := by
  have hsend (b : Bool) (t : State) (l : List Word) : ((if b then sendEvent t l else t).mem, (if b then sendEvent t l else t).recorder) = (t.mem, t.recorder) := by
    split
    · exact sendEvent_keeps t l
    · rfl
  obtain ⟨l, hl⟩ : ∃ l, l = recordWords (s.recorder.head + 1) e (fromKeep || !mainOn s) := ⟨_, rfl⟩
  have hwrite : writeRecord s e fromKeep = countWrites (if mainOn s then sendEvent (stored s l) l else stored s l) 1 := by rw [hl]; rfl
  obtain ⟨hmem, hrec⟩ := Prod.mk.inj (hsend (mainOn s) (stored s l) l)
  rw [hwrite, ← hl]
  obtain ⟨hcount, hcountMem, -⟩ := countWrites_spec (if mainOn s then sendEvent (stored s l) l else stored s l) 1
  exact ⟨hcountMem.trans hmem, hcount.trans (by rw [hrec]; rfl)⟩

variable {s}

/-- What goes ahead is written first. -/
theorem recordNext_ahead {e : Event} {rest : List Event} (h : s.recorder.ahead = e :: rest) :
    recordNext s = writeRecord { s with recorder := { s.recorder with ahead := rest } } e false := by
  unfold recordNext
  dsimp only
  rw [h]

theorem exec_recordWrite {vst : BitVec 16} {e : Event} {rest : List Event} (hscan : s.recorder.scanning = false) (halive : s.keep.alive = true)
    (hvst : 2400 ≤ vst.toNat) (h : s.recorder.ahead = e :: rest) :
    exec (.recordWrite vst) s = .next (writeRecord { freshSent s with recorder := { s.recorder with ahead := rest } } e false) := by
  have hstart : (s.recorder.scanning || !s.keep.alive || decide (vst.toNat < 2400)) = false := by
    rw [hscan, halive, decide_eq_false (Nat.not_lt.mpr hvst)]
    rfl
  have hexec : exec (.recordWrite vst) s =
      .next (if s.recorder.scanning || !s.keep.alive || decide (vst.toNat < 2400) then s else recordNext (freshSent s)) := rfl
  rw [hexec, if_neg (by rw [hstart]; decide), recordNext_ahead (s := freshSent s) h]
  rfl

theorem recordWrite_spec {vst : BitVec 16} {e : Event} {rest : List Event} (hscan : s.recorder.scanning = false) (halive : s.keep.alive = true)
    (hvst : 2400 ≤ vst.toNat) (h : s.recorder.ahead = e :: rest) (hparams : e.params.length ≤ 10) :
    ∃ t, exec (.recordWrite vst) s = .next t ∧ t.mem = s.mem ∧ t.recorder.head = s.recorder.head + 1 ∧ t.recorder.ahead = rest ∧
      t.recorder.total = s.recorder.total + 1 ∧
      t.recorder.tail = (if s.recorder.head + 1 - s.recorder.tail = 65536 then s.recorder.tail + 1 else s.recorder.tail) ∧
      ∃ l, cellFind t.recorder.mram ((s.recorder.head + 1).toNat % 65536) = some l ∧ slotValid ((s.recorder.head + 1).toNat % 65536) l = true ∧
        l.getD 0 0 = s.recorder.head + 1 ∧ (l.getD 1 0).toNat % 65536 = e.code % 65536 ∧
        (l.getD 1 0).toNat / 65536 % 64 = e.cls % 8 + 8 * (e.scope % 8) ∧ (l.getD 1 0).toNat / 8388608 = (if e.timeq then 1 else 0) ∧
        (l.drop 4).take 10 = e.params ++ List.replicate (10 - e.params.length) 0 := by
  obtain ⟨hmem, hrec⟩ := writeRecord_spec { freshSent s with recorder := { s.recorder with ahead := rest } } e false
  obtain ⟨hahead, hmram, hhead, htail, htotal, -⟩ := archive_fields hrec
  obtain ⟨hcode, hflags, htimeq⟩ := recordWords_word1 (s.recorder.head + 1) e
    (false || !mainOn { freshSent s with recorder := { s.recorder with ahead := rest } })
  refine ⟨_, exec_recordWrite hscan halive hvst h, hmem, hhead, hahead, htotal, htail, _, ?_, slotValid_recordWords _ _ _, rfl, hcode, hflags, htimeq,
    recordWords_params _ _ hparams⟩
  rw [hmram]
  exact mram_written s.recorder (List.cons_ne_nil _ _)
end

/-! ## The scan (R564) -/

theorem recorderScanDone_spec {s : State} (h : s.recorder.scanning = true) : ∃ t, exec .recorderScanDone s = .next t ∧ t.recorder.scanning = false ∧
    t.recorder.head = scanHead s.recorder ∧ t.recorder.keepQ = s.recorder.keepQ ∧ t.regs = s.regs ∧ t.mem = s.mem ∧
    ∃ e, t.recorder.ahead = e :: s.recorder.ahead ∧ e.code = 0x0F04 ∧
      e.params = [scanHead s.recorder, s.recorder.tail, pw (emptySlots s.recorder (scanHead s.recorder)), pw s.recorder.lost] := by
  refine ⟨_, rfl, ?_⟩
  dsimp only
  rw [h]
  exact ⟨rfl, rfl, rfl, rfl, rfl, _, rfl, rfl, rfl⟩

/-! ## Reading (R567) -/

theorem banked_zero (a : Nat) : banked a 0 = a := rfl

/-- The slot of a sequence number, as 16 words. -/
def slotWords (r : Recorder) (seq : Word) : List Word := (cellGet [] r.mram (seq.toNat % 65536) ++ List.replicate 16 0).take 16

/-- The record that polder 0 asks for is there. -/
def slotShown (r : Recorder) (seq : Word) : Bool :=
  notOlder seq r.tail && notOlder r.head seq && slotValid (seq.toNat % 65536) (slotWords r seq) && (slotWords r seq).getD 0 0 == seq

/-- RDSEL and RDSTAT after polder 0 asks for a record. -/
def slotAsked (s : State) (seq : Word) : State :=
  setB (setB (setReg s keepRdsel seq) keepRdstat keepRdstat_Ok (slotShown s.recorder seq)) keepRdstat keepRdstat_Hidden false

/-- One word of the read buffer of polder 0. -/
def showWord (l : List Word) (s : State) (k : Nat) : State := setReg s (keepRdw k) (l.getD k 0)

theorem rdselWrite_zero (s : State) (seq : Word) : rdselWrite s 0 seq = forEach (upto 16) (slotAsked s seq) (showWord (slotWords s.recorder seq)) := by
  unfold rdselWrite
  simp only [bne_self_eq_false, Bool.and_false, Bool.false_and]
  refine congrArg (forEach (upto 16) _) (funext fun t => funext fun k => ?_)
  rw [if_pos (.inr rfl)]
  rfl

/-- Polder 0 is shown every word of the slot. -/
theorem rdselWrite_spec (s : State) (seq : Word) : (rdselWrite s 0 seq).recorder = s.recorder ∧ (rdselWrite s 0 seq).mem = s.mem ∧
    (∀ k < 16, getReg (rdselWrite s 0 seq) (keepRdw k) = (slotWords s.recorder seq).getD k 0) ∧
    getB (rdselWrite s 0 seq) keepRdstat keepRdstat_Ok = slotShown s.recorder seq := by
  rw [rdselWrite_zero]
  generalize slotWords s.recorder seq = l
  refine ⟨forEach_keeps (·.recorder) _ _ (showWord l) fun _ _ => rfl, forEach_keeps (·.mem) _ _ (showWord l) fun _ _ => rfl, fun k hk => ?_, ?_⟩
  · refine forEach_reaches (fun t => getReg t (keepRdw k) = l.getD k 0) _ (mem_upto.mpr hk) (fun t => getReg_setReg_same _ _ _) (fun t y _ ht => ?_) _
    by_cases hy : k = y
    · rw [hy]
      exact getReg_setReg_same _ _ _
    · exact (getReg_setReg_other t _ (by unfold keepRdw; omega)).trans ht
  · have hwords : getB (forEach (upto 16) (slotAsked s seq) (showWord l)) keepRdstat keepRdstat_Ok =
        getB (slotAsked s seq) keepRdstat keepRdstat_Ok :=
      forEach_keeps (getB · keepRdstat keepRdstat_Ok) _ _ _ fun t k => getB_setReg_other t _ _ (by unfold keepRdstat keepRdw; omega)
    rw [hwords, slotAsked, getB_setB_field _ _ _ _ _ (by decide) (by decide) (by decide), getB_setB_same _ _ _ _ (by decide)]

/-! ## Commands of polder 0 (R568, R569) -/

def keepRdselDesc : RegDesc := ⟨0x50, [], [fd 31 0 .rw .any 0]⟩
def keepClrcmdDesc : RegDesc := ⟨0xac, [], [fd 7 0 .wo .sys 0]⟩
def keepKeycmdDesc : RegDesc := ⟨0xf0, [], [fd 7 0 .wo .sys 0]⟩

theorem regAt_keepRdsel : regAt keepRdsel = some (keepRdselDesc, []) := by decide
theorem regAt_keepClrcmd : regAt keepClrcmd = some (keepClrcmdDesc, []) := by decide
theorem regAt_keepKeycmd : regAt keepKeycmd = some (keepKeycmdDesc, []) := by decide

section
variable {s : State} {src : Source}

theorem exec_rdselWrite (h : HostReady s src 0 keepRdsel) (seq : BitVec 32) :
    exec (.rdselWrite src seq) s = .next (respond (rdselWrite s 0 seq) false []) := by
  have haction (t : State) (w : Word) : regAction t src 0 keepRdsel w = (rdselWrite t 0 w, false) := by
    unfold regAction
    rw [regPlace_of_regAt regAt_keepRdsel]
    rfl
  refine congrArg Host.Outcome.next (hostWrite_action (m := 0xFFFFFFFF) h (by decide) (by decide) regAt_keepRdsel (r := .any) (by decide) (by decide) (by decide) ?_)
  rw [plainWrite_of_action regAt_keepRdsel (by decide) (by decide), haction, show seq &&& 0xFFFFFFFF = seq from BitVec.and_allOnes]

theorem exec_lock (h : HostReady s src 0 keepKeycmd) : exec (.lock src) s = .next (respond (keyLock s) false []) := by
  refine congrArg Host.Outcome.next (hostWrite_command (m := 0xFF) h (by decide) (by decide) regAt_keepKeycmd (r := .sys) (by decide) (by decide)
    (by decide) (by decide) ?_)
  unfold regAction
  rw [regPlace_of_regAt regAt_keepKeycmd]
  rfl

theorem exec_clear (h : HostReady s src 0 keepClrcmd) : exec (.clear src) s = .next (respond (clearCmd s) false []) := by
  refine congrArg Host.Outcome.next (hostWrite_command (m := 0xFF) h (by decide) (by decide) regAt_keepClrcmd (r := .sys) (by decide) (by decide)
    (by decide) (by decide) ?_)
  unfold regAction
  rw [regPlace_of_regAt regAt_keepClrcmd]
  rfl
end

/-- The key is fixed by the first LOCK only. -/
theorem keyLock_spec (s : State) : (keyLock s).mem = s.mem ∧
    (keyLock s).recorder = { s.recorder with key := some (s.recorder.key.getD ((upto 8).map fun k => getReg s (keepKeyprg k))) } ∧
    (s.recorder.key = none → getB (keyLock s) keepKeystat keepKeystat_Locked = true) := by
  have hkey : (upto 8).map (fun k => getReg (setB s keepKeystat keepKeystat_Locked true) (keepKeyprg k)) =
      (upto 8).map fun k => getReg s (keepKeyprg k) :=
    List.map_congr_left fun k hk => getReg_setB_other s _ _ (by have := mem_upto.mp hk; unfold keepKeystat keepKeyprg; omega)
  unfold keyLock
  cases hnone : s.recorder.key with
  | some l =>
    refine ⟨rfl, ?_, fun h => by simp at h⟩
    show s.recorder = { s.recorder with key := some l }
    rw [← hnone]
  | none =>
    refine ⟨rfl, ?_, fun _ => getB_setB_same s _ _ true (by decide)⟩
    simp only [hkey, Option.getD_none]
    rfl

/-- Two free values make a fresh nonce. -/
theorem newNonce_spec (s : State) : getReg (newNonce s) (keepNoncelo 0) = Config.freeWord s.free ∧
    getReg (newNonce s) (keepNoncelo 1) = Config.freeWord (s.free + 1) ∧ (newNonce s).recorder = s.recorder ∧ (newNonce s).mem = s.mem :=
  ⟨(getReg_setReg_other _ _ (by decide)).trans (getReg_setReg_same _ _ _), getReg_setReg_same _ _ _, rfl, rfl⟩

/-- A CLEAR that is accepted: the tail moves behind the head that was asked for, the slots up to it are to be zeroed. -/
def clearTaken (s : State) : State :=
  { s with recorder := { s.recorder with
      tail := getReg s keepClrhead + 1
      clearing := some ((s.recorder.clearing.map fun c => c.1).getD s.recorder.tail, getReg s keepClrhead) } }

/-- A CLEAR that is refused. -/
def clearRefused (s : State) : State := setB s keepKeystat keepKeystat_Clrref true

theorem clearCmd_cases (s : State) : ∃ u code cls l, clearCmd s = newNonce (keepEvent u code cls l) ∧
    u = if clearReason s = 0 then clearTaken s else clearRefused s := by
  by_cases h : clearReason s = 0
  · exact ⟨clearTaken s, 0x0F01, 0, [s.recorder.tail, getReg s keepClrhead, getReg s (keepNoncelo 0)], by rw [clearCmd, if_pos h]; rfl, (if_pos h).symm⟩
  · exact ⟨clearRefused s, 0x0F02, 1, [pw (clearReason s)], by rw [clearCmd, if_neg h]; rfl, (if_neg h).symm⟩

/-- The refusal is shown in a register that no fault writes. -/
theorem not_faultReg_keepKeystat : ¬faultReg keepKeystat := by
  unfold faultReg keepKeystat
  simp only [pwmPstat, clnkPstat, fltSum, fltHkstat, fltPinstat, safeStat, safeOutst, poldEvdrop]
  omega

theorem clearCmd_spec (s : State) : (clearCmd s).mem = s.mem ∧
    (∃ j, s.free ≤ j ∧ getReg (clearCmd s) (keepNoncelo 0) = Config.freeWord j ∧ getReg (clearCmd s) (keepNoncelo 1) = Config.freeWord (j + 1)) ∧
    if clearReason s = 0 then (clearCmd s).recorder.tail = getReg s keepClrhead + 1 ∧
      (clearCmd s).recorder.clearing = some ((s.recorder.clearing.map fun c => c.1).getD s.recorder.tail, getReg s keepClrhead)
    else (clearCmd s).recorder.tail = s.recorder.tail ∧ (clearCmd s).recorder.clearing = s.recorder.clearing ∧
      getB (clearCmd s) keepKeystat keepKeystat_Clrref = true := by
  obtain ⟨u, code, cls, l, hcmd, hu⟩ := clearCmd_cases s
  obtain ⟨hreports, hmem, hregs⟩ := keepEvent_spec u code cls l
  obtain ⟨hlo, hhi, hrec, hnonceMem⟩ := newNonce_spec (keepEvent u code cls l)
  obtain ⟨-, -, -, htail, -, hclearing⟩ := archive_fields hreports.archive
  have hkept : u.mem = s.mem ∧ u.free = s.free := by
    rw [hu]
    split <;> exact ⟨rfl, rfl⟩
  rw [hcmd, hrec, htail, hclearing]
  refine ⟨hnonceMem.trans (hmem.trans hkept.1), ⟨_, hkept.2.symm.le.trans hreports.free, hlo, hhi⟩, ?_⟩
  split
  · rename_i h
    rw [hu, if_pos h]
    exact ⟨rfl, rfl⟩
  · rename_i h
    have hstat : getReg (newNonce (keepEvent u code cls l)) keepKeystat = getReg u keepKeystat :=
      ((wardenOnly_newNonce _).regs _ (by unfold wardenReg; decide)).trans (hregs _ not_faultReg_keepKeystat)
    rw [getB, getF, hstat, hu, if_neg h]
    exact ⟨rfl, rfl, getB_setB_same s _ _ true (by decide)⟩

/-! ## The cleared slots (R569) -/

theorem clearZeroingDone_spec {s : State} {a b : Word} (h : s.recorder.clearing = some (a, b)) : ∃ t, exec .clearZeroingDone s = .next t ∧ t.mem = s.mem ∧
    t.recorder.total = s.recorder.total + (b - a + 1).toNat ∧ (t.recorder.total / 65536 ≤ 5000000000 → t.regs = s.regs) ∧ t.recorder.clearing = none ∧
    ∀ c, c ∈ t.recorder.mram ↔ c ∈ s.recorder.mram ∧ ¬(notOlder (c.2.getD 0 0) a = true ∧ notOlder b (c.2.getD 0 0) = true) := by
  obtain ⟨hrec, hmem, hregs⟩ := countWrites_spec
    { s with recorder := { s.recorder with
        mram := s.recorder.mram.filter fun c => !(notOlder (c.2.getD 0 0) a && notOlder b (c.2.getD 0 0)), clearing := none } } (b - a + 1).toNat
  obtain ⟨-, hmram, -, -, htotal, hclearing⟩ := archive_fields hrec
  refine ⟨_, rfl, ?_⟩
  rw [h]
  refine ⟨hmem, htotal, fun hle => hregs ((congrArg (· / 65536) htotal).ge.trans hle), hclearing, fun c => ?_⟩
  rw [hmram]
  simp only [List.mem_filter, Bool.not_eq_true', Bool.and_eq_false_iff, not_and_or, Bool.not_eq_true]

/-! ## The statement -/

/-- Settles O43: an event leaves all of the recorder but its queues, so the record that is written, the tail that a CLEAR moves and the count of slot
writes stand whatever the events beside them report. -/
theorem recorderWritesReadsClears : Obligations.RecorderWritesReadsClears := by
  unfold Obligations.RecorderWritesReadsClears
  refine ⟨fun s vst e rest hscan halive hvst h hparams => recordWrite_spec hscan halive hvst h hparams, fun s h => recorderScanDone_spec h,
    fun s src seq h => ?_, fun s src h => ?_, fun s src h => ?_, fun s a b h => clearZeroingDone_spec h⟩
  · rw [exec_rdselWrite h seq]
    obtain ⟨hrec, hmem, hwords, hok⟩ := rdselWrite_spec s seq
    generalize rdselWrite s 0 seq = u at *
    exact ⟨_, rfl, answered_respond _ _, hrec, hmem, hwords, hok⟩
  · rw [exec_lock h]
    obtain ⟨hmem, hrec, hlocked⟩ := keyLock_spec s
    generalize keyLock s = u at *
    exact ⟨_, rfl, answered_respond _ _, hmem, hrec, hlocked⟩
  · rw [exec_clear h]
    obtain ⟨hmem, hnonce, hcleared⟩ := clearCmd_spec s
    generalize clearCmd s = u at *
    exact ⟨_, rfl, answered_respond _ _, hmem, hnonce, hcleared⟩

end Sys2Proof.Proofs
end

section
/-! SUPPORT. Proofs. The commands of a sluice and the write of its DPTR (R435, R437). -/

namespace Sys2Proof.Proofs

open Sys2Proof.Machine Sys2Proof.Claims

/-! ## SLU.CMD and SLU.DPTR (R442) -/

def sluCmdDesc : RegDesc := ⟨0x8, [(64, 32)], [fd 2 0 .wo .own 0]⟩
def sluDptrDesc : RegDesc := ⟨0x4, [(64, 32)], [fd 24 6 .rw .own 0]⟩

theorem regAt_sluCmd (c : Fin 32) : regAt (sluCmd c) = some (sluCmdDesc, [c.val]) := by revert c; decide
theorem regAt_sluDptr (c : Fin 32) : regAt (sluDptr c) = some (sluDptrDesc, [c.val]) := by revert c; decide
theorem blockNo_sluCmd (c : Fin 32) : blockNo (sluCmd c) = 6 := by revert c; decide
theorem blockNo_sluDptr (c : Fin 32) : blockNo (sluDptr c) = 6 := by revert c; decide
theorem placeOf_sluCmd (c : Fin 32) : placeOf (sluCmd c) = .register := by revert c; decide
theorem placeOf_sluDptr (c : Fin 32) : placeOf (sluDptr c) = .register := by revert c; decide

theorem regAction_sluCmd (s : State) (src : Source) (p : Nat) (c : Fin 32) (w : Word) :
    regAction s src p (sluCmd c) w = (sluCmdWrite s c (w.toNat % 8), false) := by
  unfold regAction
  rw [regPlace_of_regAt (regAt_sluCmd c), blockNo_sluCmd]
  rfl

theorem regAction_sluDptr (s : State) (src : Source) (p : Nat) (c : Fin 32) (w : Word) :
    regAction s src p (sluDptr c) w = (sluDptrWrite s c w, false) := by
  unfold regAction
  rw [regPlace_of_regAt (regAt_sluDptr c), blockNo_sluDptr]
  rfl

/-- The bits of DPTR's only field hold all of it. -/
theorem fget_fieldBits_dptr (w : Word) : fget (w &&& 0x1FFFFC0) sluDptr_Addr = fget w sluDptr_Addr := by
  have hones : ∀ i < 19, (0x1FFFFC0 : Word).getLsbD (6 + i) = true := by decide
  refine Nat.eq_of_testBit_eq fun i => ?_
  rw [testBit_fget, testBit_fget, BitVec.getLsbD_and]
  by_cases hi : i < 19
  · exact congrArg _ ((congrArg _ (hones i hi)).trans (Bool.and_true _))
  · rw [show decide (i < sluDptr_Addr.hi + 1 - sluDptr_Addr.lo) = false from decide_eq_false hi, Bool.false_and, Bool.false_and]

section
variable {s : State} {src : Source} {p : Nat} {c : Fin 32}

/-- A host's write of CMD is the command that it names. -/
theorem hostWrite_sluCmd (h : HostReady s src p (sluCmd c)) (w : Word) :
    hostWrite s src (sluCmd c) w = respond (sluCmdWrite s c ((w &&& 7).toNat % 8)) false [] :=
  hostWrite_command (m := 7) h (placeOf_sluCmd c) (by unfold sluCmd; omega) (regAt_sluCmd c) (r := .own) (by decide) (by decide) (by decide) (by decide)
    (regAction_sluCmd s src p c _)

theorem exec_go (h : HostReady s src p (sluCmd c)) : exec (.go src c) s = .next (respond (sluGo s c) false []) :=
  congrArg Host.Outcome.next (hostWrite_sluCmd h 1)

theorem exec_stop (h : HostReady s src p (sluCmd c)) : exec (.stop src c) s = .next (respond (sluStop s c) false []) :=
  congrArg Host.Outcome.next (hostWrite_sluCmd h 2)

theorem exec_resume (h : HostReady s src p (sluCmd c)) : exec (.resume src c) s = .next (respond (sluResume s c) false []) :=
  congrArg Host.Outcome.next (hostWrite_sluCmd h 3)

theorem exec_abort (h : HostReady s src p (sluCmd c)) : exec (.abort src c) s = .next (respond (sluAbortCmd s c) false []) :=
  congrArg Host.Outcome.next (hostWrite_sluCmd h 4)

theorem exec_sluDptrWrite (h : HostReady s src p (sluDptr c)) (v : BitVec 32) :
    exec (.sluDptrWrite src c v) s = .next (respond (sluDptrWrite s c v) false []) := by
  refine congrArg Host.Outcome.next (hostWrite_action (m := 0x1FFFFC0) h (placeOf_sluDptr c) (by unfold sluDptr; omega) (regAt_sluDptr c) (r := .own)
    (by decide) (by decide) (by decide) ?_)
  rw [plainWrite_of_action (regAt_sluDptr c) (by rw [blockNo_sluDptr]; rfl) (by decide), regAction_sluDptr]
  unfold sluDptrWrite
  rw [fget_fieldBits_dptr]
end

/-! ## Effects on one sluice -/

/-- Memory and the other sluices stay. -/
structure SluOnly (s t : State) (c : Nat) : Prop where
  mem : t.mem = s.mem
  other : ∀ d, d ≠ c → getSlu t d = getSlu s d

theorem SluOnly.refl (s : State) (c : Nat) : SluOnly s s c := ⟨rfl, fun _ _ => rfl⟩

theorem SluOnly.trans {s t u : State} {c : Nat} (h : SluOnly t u c) (h' : SluOnly s t c) : SluOnly s u c :=
  ⟨h.mem.trans h'.mem, fun d hd => (h.other d hd).trans (h'.other d hd)⟩

theorem sluOnly_setReg (s : State) (c a : Nat) (w : Word) : SluOnly s (setReg s a w) c := ⟨rfl, fun _ _ => rfl⟩

theorem sluOnly_setSlu (s : State) (c : Nat) (x : Slu) : SluOnly s (setSlu s c x) c := ⟨rfl, fun _ hd => getSlu_setSlu_other s x hd⟩

theorem sluState_sluSetState (s : State) (c : Nat) {st : Nat} (hst : st < 8) : sluState (sluSetState s c st) c = st :=
  (getF_setF_same s _ _ _ (by decide)).trans (Nat.mod_eq_of_lt hst)

theorem sluOnly_sluSetState (s : State) (c st : Nat) : SluOnly s (sluSetState s c st) c := sluOnly_setReg s c _ _

theorem sluOnly_sluStart (s : State) (c : Nat) : SluOnly s (sluStart s c) c := (sluOnly_sluSetState _ c sRun).trans (sluOnly_setReg s c _ _)

theorem sluOnly_sluFetch (s : State) (c a : Nat) : SluOnly s (sluFetch s c a) c := (sluOnly_setReg _ c _ _).trans (sluOnly_setSlu s c _)

theorem sluOnly_sluSettle (s : State) (c : Nat) : SluOnly s (sluSettle s c) c := by
  unfold sluSettle
  dsimp only
  split
  · exact SluOnly.refl s c
  · split
    · exact (sluOnly_sluSetState _ c sIdle).trans (sluOnly_setSlu s c _)
    · split
      · exact (sluOnly_sluSetState _ c sPaused).trans (sluOnly_setSlu s c _)
      · exact SluOnly.refl s c

/-! ## How a command ends -/

/-- A command is carried out in sluice `c`: it is answered, and memory and the other sluices stay. -/
def SluRan (s : State) (c : Nat) (i : Instr) (t : State) : Prop :=
  exec i s = .next t ∧ Answered t [] ∧ t.mem = s.mem ∧ ∀ d, d ≠ c → getSlu t d = getSlu s d

/-- A command has no effect but CMDERR. -/
def SluRefused (s : State) (c : Nat) (i : Instr) : Prop :=
  ∃ t, SluRan s c i t ∧ getB t (sluStat c) sluStat_Cmderr = true ∧ sluState t c = sluState s c ∧ getSlu t c = getSlu s c ∧
    ∀ a, a ≠ sluStat c → getReg t a = getReg s a

section
variable {s u : State} {c : Nat} {i : Instr}

theorem sluRan_respond (h : exec i s = .next (respond u false [])) (hu : SluOnly s u c) : SluRan s c i (respond u false []) :=
  ⟨h, answered_respond u [], hu.mem, hu.other⟩

theorem sluRefused_of_cmdErr (h : exec i s = .next (respond (sluCmdErr s c) false [])) : SluRefused s c i :=
  ⟨_, sluRan_respond h (sluOnly_setReg s c _ _), getB_setB_same s _ _ true (by decide), getF_setB_field s _ _ _ true (by decide) (by decide) (by decide), rfl,
    fun _ ha => getReg_setB_other s _ true ha⟩
end

/-! ## Refused commands -/

section
variable {s : State} {c : Nat}

/-- A disabled sluice takes no command. -/
theorem commands_disabled (hoff : getB s (sluCfg c) sluCfg_En = false) :
    sluGo s c = sluCmdErr s c ∧ sluStop s c = sluCmdErr s c ∧ sluResume s c = sluCmdErr s c ∧ sluAbortCmd s c = sluCmdErr s c := by
  have hnot : ¬getB s (sluCfg c) sluCfg_En = true := by rw [hoff]; decide
  have hdis : (!getB s (sluCfg c) sluCfg_En) = true := by rw [hoff]; rfl
  exact ⟨if_pos hdis, if_neg fun h => hnot h.1, if_pos hdis, if_neg fun h => hnot h.1⟩

theorem sluStop_refused (hst : sluState s c ≠ sWait ∧ sluState s c ≠ sRun) : sluStop s c = sluCmdErr s c :=
  if_neg fun h => h.2.elim hst.1 hst.2

theorem sluResume_refused (hst : sluState s c ≠ sPaused ∧ sluState s c ≠ sHalted) : sluResume s c = sluCmdErr s c := by
  unfold sluResume
  dsimp only
  rw [if_neg hst.1, if_neg hst.2, ite_self]

theorem sluDptrWrite_refused (hst : ¬(sluState s c = sIdle ∨ sluState s c = sDone)) (w : Word) : sluDptrWrite s c w = sluCmdErr s c :=
  if_neg fun h => hst h.1

/-! ## GO, RESUME and DPTR -/

theorem sluGo_fetches (hon : getB s (sluCfg c) sluCfg_En = true) (hst : sluState s c = sIdle ∨ sluState s c = sDone)
    (hfree : (getSlu s c).fetching = none) : sluGo s c = sluFetch s c (0x70000000 + 64 * getF s (sluDptr c) sluDptr_Addr) := by
  unfold sluGo
  dsimp only
  rw [hon, if_neg (by decide), if_pos ⟨hst, Option.isNone_iff_eq_none.mpr hfree⟩]

theorem sluGo_triggers (hon : getB s (sluCfg c) sluCfg_En = true) (hst : sluState s c = sWait) (hgoes : (getSlu s c).stopping = false)
    (hhost : getF s (sluCfg c) sluCfg_Trig = 0) : sluGo s c = sluStart s c := by
  unfold sluGo
  dsimp only
  rw [hon, hst, hhost, hgoes, if_neg (by decide), if_neg fun h => absurd h.1 (by decide), if_pos (by decide)]

theorem fetching_sluFetch (s : State) (c a : Nat) : (getSlu (sluFetch s c a) c).fetching = some a :=
  congrArg Slu.fetching (getSlu_setSlu_same s c _)

theorem tag_sluStart (s : State) (c : Nat) : getReg (sluStart s c) (sluTag c) = (getSlu s c).desc.getD 13 0 := by
  refine (getReg_setF_other _ _ _ (by unfold sluTag sluStat; omega)).trans ((getReg_setReg_same _ _ _).trans ?_)
  rw [dW, BitVec.ofNat_toNat, BitVec.setWidth_eq]

theorem sluResume_paused (hon : getB s (sluCfg c) sluCfg_En = true) (hst : sluState s c = sPaused) :
    sluResume s c = if (getSlu s c).fromWait then sluSetState s c sWait else if !(getSlu s c).good then sluRefetch s c else sluSetState s c sRun := by
  unfold sluResume
  dsimp only
  rw [hon, if_neg (by decide), if_pos hst]

theorem sluDptrWrite_taken (hst : sluState s c = sIdle ∨ sluState s c = sDone) (hfree : (getSlu s c).fetching = none) (w : Word) :
    sluDptrWrite s c w = setF s (sluDptr c) sluDptr_Addr (fget w sluDptr_Addr) :=
  if_pos ⟨hst, Option.isNone_iff_eq_none.mpr hfree⟩

/-! ## The end of what is outstanding (R435) -/

/-- An access is at its target: it has neither failed nor waits for its port again. -/
def accessOut (x : Slu) : Bool := x.outs.any fun o => !o.failed && !o.again

theorem sluSettle_of_accessOut (h : accessOut (getSlu s c) = true) : sluSettle s c = s := if_pos (by rw [Bool.or_eq_true]; exact .inl h)

theorem sluSettle_of_idle (houts : (getSlu s c).outs = []) (hfetch : (getSlu s c).fetching = none) : sluSettle s c =
    if sluState s c = sDrain then sluSetState (setSlu s c { sluReset with noted := (getSlu s c).noted }) c sIdle
    else if (getSlu s c).stopping then sluSetState (setSlu s c { getSlu s c with stopping := false }) c sPaused else s :=
  if_neg (by rw [houts, hfetch]; decide)

/-- With no port in the middle of an access, the channel's accesses stay as they are (R433). -/
theorem sluClose_of_calm (hr : openOut (getSlu s c) false = none) (hw : openOut (getSlu s c) true = none) : sluClose s c = s := by
  have hsplit {write : Bool} (h : openOut (getSlu s c) write = none) : sluSplit s c write = s := by
    unfold sluSplit
    dsimp only
    rw [h]
  rw [sluClose, hsplit hr, hsplit hw]
end

/-! ## STOP -/

section
variable (s : State) (c : Nat)

/-- A channel that is to pause. -/
def sluStopping : State := setSlu s c { getSlu s c with stopping := true, fromWait := decide (sluState s c = sWait) }

theorem getSlu_sluStopping : getSlu (sluStopping s c) c = { getSlu s c with stopping := true, fromWait := decide (sluState s c = sWait) } :=
  getSlu_setSlu_same s c _

variable {s c}

theorem sluStop_of_calm (hon : getB s (sluCfg c) sluCfg_En = true) (hst : sluState s c = sWait ∨ sluState s c = sRun)
    (hr : openOut (getSlu s c) false = none) (hw : openOut (getSlu s c) true = none) : sluStop s c = sluSettle (sluStopping s c) c := by
  have hclose : sluClose (sluStopping s c) c = sluStopping s c :=
    sluClose_of_calm (by rw [getSlu_sluStopping]; exact hr) (by rw [getSlu_sluStopping]; exact hw)
  exact (if_pos ⟨hon, hst⟩).trans (congrArg (sluSettle · c) hclose)

/-- A channel with nothing outstanding pauses at once. -/
theorem sluState_stop_of_idle (hst : sluState s c ≠ sDrain) (houts : (getSlu s c).outs = []) (hfetch : (getSlu s c).fetching = none) :
    sluState (sluSettle (sluStopping s c) c) c = sPaused := by
  have hx := getSlu_sluStopping s c
  have hstays : sluState (sluStopping s c) c ≠ sDrain := hst
  rw [sluSettle_of_idle (by rw [hx]; exact houts) (by rw [hx]; exact hfetch), if_neg hstays, if_pos (congrArg Slu.stopping hx)]
  exact sluState_sluSetState _ _ (by decide)

/-- With an access at its target a STOP waits for the response. -/
theorem sluStop_of_accessOut (hbusy : accessOut (getSlu s c) = true) : sluSettle (sluStopping s c) c = sluStopping s c :=
  sluSettle_of_accessOut (by rw [getSlu_sluStopping]; exact hbusy)
end

/-! ## ABORT -/

section
variable (s : State) (c : Nat)

/-- What drains after an ABORT keeps only the accesses that are at their targets. -/
def sluDrained : Slu :=
  { getSlu s c with buf := [], stopping := false, good := false, outs := (getSlu s c).outs.filter fun o => !o.failed && !o.again }

/-- A channel that drains. -/
def sluDraining : State := sluSetState (setSlu (setF s (sluStat c) sluStat_Cause 0) c (sluDrained s c)) c sDrain

theorem getSlu_sluDraining : getSlu (sluDraining s c) c = sluDrained s c := getSlu_setSlu_same _ c _

theorem sluState_sluDraining : sluState (sluDraining s c) c = sDrain := sluState_sluSetState _ c (by decide)

theorem sluOnly_sluDraining : SluOnly s (sluDraining s c) c :=
  (sluOnly_sluSetState _ c sDrain).trans ((sluOnly_setSlu _ c _).trans (sluOnly_setReg s c _ _))

variable {s c}

theorem sluAbortCmd_of_calm (hon : getB s (sluCfg c) sluCfg_En = true) (hst : 1 ≤ sluState s c ∧ sluState s c ≤ 5)
    (hr : openOut (getSlu s c) false = none) (hw : openOut (getSlu s c) true = none) : sluAbortCmd s c = sluSettle (sluDraining s c) c := by
  have hat : sluState s c = sWait ∨ sluState s c = sRun ∨ sluState s c = sPaused ∨ sluState s c = sHalted ∨ sluState s c = sDone := by
    unfold sWait sRun sPaused sHalted sDone
    omega
  refine (if_pos ⟨hon, hat⟩).trans ?_
  unfold sluAbort
  rw [sluClose_of_calm hr hw]
  rfl

/-- A channel with nothing outstanding is IDLE at once. -/
theorem sluState_abort_of_idle (houts : (getSlu s c).outs = []) (hfetch : (getSlu s c).fetching = none) :
    sluState (sluSettle (sluDraining s c) c) c = sIdle := by
  have hx := getSlu_sluDraining s c
  have hnone : (getSlu (sluDraining s c) c).outs = [] := by
    rw [hx, sluDrained, houts]
    rfl
  rw [sluSettle_of_idle hnone (by rw [hx]; exact hfetch), if_pos (sluState_sluDraining s c)]
  exact sluState_sluSetState _ _ (by decide)

/-- With an access at its target an ABORT waits for the response. -/
theorem sluAbort_of_accessOut (hbusy : accessOut (getSlu s c) = true) : sluSettle (sluDraining s c) c = sluDraining s c := by
  refine sluSettle_of_accessOut ?_
  rw [getSlu_sluDraining, accessOut, sluDrained, List.any_filter]
  simpa only [Bool.and_self, accessOut] using hbusy
end

/-! ## The statement -/

section
variable {s : State} {src : Source} {p : Nat} {c : Fin 32}

theorem stop_spec (h : HostReady s src p (sluCmd c)) (hon : getB s (sluCfg c) sluCfg_En = true) (hst : sluState s c = 1 ∨ sluState s c = 2)
    (hr : openOut (getSlu s c) false = none) (hw : openOut (getSlu s c) true = none) : ∃ t, SluRan s c (.stop src c) t ∧
      ((getSlu s c).fetching = none ∧ (getSlu s c).outs = [] → sluState t c = 3) ∧
      (accessOut (getSlu s c) = true → sluState t c = sluState s c ∧ (getSlu t c).stopping = true) := by
  have hexec := exec_stop h
  rw [sluStop_of_calm hon hst hr hw] at hexec
  have hdrain : sluState s c ≠ sDrain := by
    unfold sDrain
    omega
  refine ⟨_, sluRan_respond hexec ((sluOnly_sluSettle _ c).trans (sluOnly_setSlu s c _)),
    fun ⟨hfetch, houts⟩ => sluState_stop_of_idle hdrain houts hfetch, fun hbusy => ?_⟩
  rw [sluStop_of_accessOut hbusy]
  exact ⟨rfl, congrArg Slu.stopping (getSlu_sluStopping s c)⟩

theorem resume_spec (h : HostReady s src p (sluCmd c)) (hon : getB s (sluCfg c) sluCfg_En = true) (hst : sluState s c = 3) :
    ((getSlu s c).fromWait = true → ∃ t, SluRan s c (.resume src c) t ∧ sluState t c = 1 ∧ getSlu t c = getSlu s c) ∧
      ((getSlu s c).fromWait = false → (getSlu s c).good = true → ∃ t, SluRan s c (.resume src c) t ∧ sluState t c = 2 ∧ getSlu t c = getSlu s c) := by
  have hexec := exec_resume h
  rw [sluResume_paused hon hst] at hexec
  refine ⟨fun hwait => ?_, fun hwait hgood => ?_⟩
  · rw [hwait, if_pos rfl] at hexec
    exact ⟨_, sluRan_respond hexec (sluOnly_sluSetState s c _), sluState_sluSetState s c (by decide), rfl⟩
  · rw [hwait, hgood, if_neg (by decide), if_neg (by decide)] at hexec
    exact ⟨_, sluRan_respond hexec (sluOnly_sluSetState s c _), sluState_sluSetState s c (by decide), rfl⟩

theorem abort_spec (h : HostReady s src p (sluCmd c)) (hon : getB s (sluCfg c) sluCfg_En = true) (hst : 1 ≤ sluState s c ∧ sluState s c ≤ 5)
    (hr : openOut (getSlu s c) false = none) (hw : openOut (getSlu s c) true = none) : ∃ t, SluRan s c (.abort src c) t ∧
      ((getSlu s c).fetching = none ∧ (getSlu s c).outs = [] → sluState t c = 0) ∧
      (accessOut (getSlu s c) = true → sluState t c = 6 ∧ (getSlu t c).buf = [] ∧ (getSlu t c).good = false) := by
  have hexec := exec_abort h
  rw [sluAbortCmd_of_calm hon hst hr hw] at hexec
  refine ⟨_, sluRan_respond hexec ((sluOnly_sluSettle _ c).trans (sluOnly_sluDraining s c)), fun ⟨hfetch, houts⟩ => sluState_abort_of_idle houts hfetch,
    fun hbusy => ?_⟩
  rw [sluAbort_of_accessOut hbusy]
  exact ⟨sluState_sluDraining s c, congrArg Slu.buf (getSlu_sluDraining s c), congrArg Slu.good (getSlu_sluDraining s c)⟩
end

/-- Settles O34: each command by the lemma that says what it does. STOP and ABORT with no port in the middle of an access only mark the channel, and then look
whether a response is outstanding. -/
theorem sluiceCommandsChangeState : Obligations.SluiceCommandsChangeState := by
  unfold Obligations.SluiceCommandsChangeState
  intro s src p c
  refine ⟨fun h => ⟨fun hoff => ?_, fun hon => ⟨fun hst hfree => ?_, fun hst hgoes hhost => ?_, fun hst hcalm => stop_spec h hon hst hcalm.1 hcalm.2,
    fun hst => resume_spec h hon hst, fun hst hcalm => abort_spec h hon hst hcalm.1 hcalm.2⟩⟩, fun v h => ⟨fun hst => ?_, fun hst hfree => ?_⟩⟩
  · obtain ⟨hgo, hstop, hresume, habort⟩ := commands_disabled hoff
    exact ⟨sluRefused_of_cmdErr (hgo ▸ exec_go h), sluRefused_of_cmdErr (hstop ▸ exec_stop h), sluRefused_of_cmdErr (hresume ▸ exec_resume h),
      sluRefused_of_cmdErr (habort ▸ exec_abort h)⟩
  · have hgo := exec_go h
    rw [sluGo_fetches hon hst hfree] at hgo
    have hstop : sluStop s c = sluCmdErr s c := sluStop_refused (by unfold sWait sRun; omega)
    have hresume : sluResume s c = sluCmdErr s c := sluResume_refused (by unfold sPaused sHalted; omega)
    exact ⟨⟨_, sluRan_respond hgo (sluOnly_sluFetch s c _), fetching_sluFetch s c _⟩, sluRefused_of_cmdErr (hstop ▸ exec_stop h),
      sluRefused_of_cmdErr (hresume ▸ exec_resume h)⟩
  · have hgo := exec_go h
    rw [sluGo_triggers hon hst hgoes hhost] at hgo
    exact ⟨_, sluRan_respond hgo (sluOnly_sluStart s c), sluState_sluSetState _ _ (by decide), tag_sluStart s c, rfl⟩
  · have hwrite : sluDptrWrite s c v = sluCmdErr s c := sluDptrWrite_refused (not_or.mpr hst) v
    exact sluRefused_of_cmdErr (hwrite ▸ exec_sluDptrWrite h v)
  · have hwrite := exec_sluDptrWrite h v
    rw [sluDptrWrite_taken hst hfree v] at hwrite
    exact ⟨_, sluRan_respond hwrite (sluOnly_setReg s c _ _), (getF_setF_same s _ _ _ (by decide)).trans (Nat.mod_eq_of_lt (fget_lt _ _)), rfl,
      fun _ ha => getReg_setF_other s _ _ ha⟩

end Sys2Proof.Proofs
end
